-- ==== Sys2Proof/Word.lean ====
section
/-!
DEFINITION. The word types of the module and the bit field as a pair of numbers. Widths are those of the spec:
a byte (R7), a register word of 64 bits (R12), a line of 128 B, an operand-cache entry and an accumulator row of 256 B.
-/
namespace Sys2Proof

/-- One byte. -/
abbrev Byte := BitVec 8
/-- A register, a scalar, a mask (R12, R77). -/
abbrev W64 := BitVec 64
/-- A line of 128 B: byte `j` of the line is bits `8j+7 .. 8j` (R7). -/
abbrev Line := BitVec 1024
/-- An operand-cache entry of 256 B (R137), an accumulator row of 64 FP32 lanes (R125). -/
abbrev Entry := BitVec 2048

namespace Machine

/-- A bit field of a word: its lowest bit and its width. -/
structure Fld where
  lo : Nat
  width : Nat
deriving DecidableEq, Repr

end Machine

end Sys2Proof
end

