-- ==== Sys2Proof/Syntax.lean ====
section
/-!
DEFINITION. The commands the module takes, one constructor of `Instr` for each row of spec/opcode_table.json, with the operands
that the row's rule gives it. A command names the unit it happens at, and carries what comes from outside the model: message
contents, measured times, readings, host data. Time operands are nanoseconds since module reset unless their name says otherwise.
-/
namespace Sys2Proof

/-- Core index of Table 1-10: die, half, row, slot from the high bits down. -/
abbrev CoreId := BitVec 12
/-- Line address `mpa[51:7]` (R190). -/
abbrev LineNo := BitVec 45
/-- Requester number of R229. -/
abbrev ReqNum := BitVec 13
/-- Endpoint identifier of R351. -/
abbrev Ep := BitVec 14
abbrev DieIx := Fin 10
abbrev SliceId := Fin 512
abbrev StackId := Fin 32
abbrev ChanId := Fin 1024
abbrev PartId := Fin 32
abbrev InstId := Fin 1024
abbrev PortId := Fin 2
abbrev OptId := Fin 16
abbrev SrcId := Fin 1024

/-- The requester key of R195; `part` is none when no partition owns the region. `stream` is source mover streaming. -/
structure Key where
  part : Option PartId
  lc : Bool
  stream : Bool
deriving DecidableEq, Repr

/-- L1 line states (Table 8-1). -/
inductive Moesi where
  | m | o | e | s
deriving DecidableEq, Repr

/-- The three engines of a core (R83). -/
inductive Engine where
  | me | ve | mv
deriving DecidableEq, Repr

/-- How one read of a stored line decoded (R460): the worst of its words. -/
inductive ReadRes where
  | clean | corrected | uncorrectable
deriving DecidableEq, Repr

/-! ### Fields of the engine instructions (Table 3-2) -/

structure MldF where
  pg : BitVec 3
  twait : BitVec 4
  tset : BitVec 4
  opd : Bool
  fmt : BitVec 4
  sa : BitVec 5
  sb : BitVec 5
deriving DecidableEq, Repr

structure MmaF where
  pg : BitVec 3
  twait : BitVec 4
  tset : BitVec 4
  z : Bool
  fa : BitVec 4
  fb : BitVec 4
deriving DecidableEq, Repr

structure MswapF where
  pg : BitVec 3
  twait : BitVec 4
  tset : BitVec 4
deriving DecidableEq, Repr

structure MdrainF where
  pg : BitVec 3
  twait : BitVec 4
  tset : BitVec 4
  fmt : BitVec 4
  rm : Bool
  bias : Bool
  scl : Bool
  sa : BitVec 5
  sb : BitVec 5
  sc : BitVec 5
  se : BitVec 5
deriving DecidableEq, Repr

/-- The fields of a VOP word beside its op code. -/
structure VopF where
  pg : BitVec 3
  twait : BitVec 4
  tset : BitVec 4
  vd : BitVec 7
  va : BitVec 7
  vb : BitVec 7
  vc : BitVec 7
  msk : BitVec 3
  me : Bool
  bs : Bool
  typ : BitVec 4
  rm : Bool
deriving DecidableEq, Repr

/-- The fields of VLD (v is vd) and VST (v is vs). -/
structure VmemF where
  pg : BitVec 3
  twait : BitVec 4
  tset : BitVec 4
  v : BitVec 7
  sa : BitVec 5
  sb : BitVec 5
  esz : BitVec 2
  msk : BitVec 3
  me : Bool
  imm : BitVec 16
deriving DecidableEq, Repr

structure VcompF where
  pg : BitVec 3
  twait : BitVec 4
  tset : BitVec 4
  vd : BitVec 7
  va : BitVec 7
  msk : BitVec 3
  sd : BitVec 5
  cont : Bool
deriving DecidableEq, Repr

structure VexpF where
  pg : BitVec 3
  twait : BitVec 4
  tset : BitVec 4
  vd : BitVec 7
  va : BitVec 7
  msk : BitVec 3
  fill : Bool
deriving DecidableEq, Repr

structure VredF where
  pg : BitVec 3
  twait : BitVec 4
  tset : BitVec 4
  vd : BitVec 7
  va : BitVec 7
  msk : BitVec 3
  me : Bool
  sd : BitVec 5
  fn : BitVec 3
  typ : BitVec 4
deriving DecidableEq, Repr

structure MoveF where
  pg : BitVec 3
  twait : BitVec 4
  tag : BitVec 8
  sa : BitVec 5
  imm : BitVec 32
deriving DecidableEq, Repr

/-! ### Operands of the link, port and host commands -/

/-- What lane test found on one bundle of a link (R354, R356): failing lanes of the direction received here and of the direction
received at the partner, spares in bits 67:64, and whether a valid or clock lane fails. -/
structure LaneTest where
  near : BitVec 68
  far : BitVec 68
  dead : Bool
deriving DecidableEq, Repr

/-- A stated version range (R514): highest and lowest major, and the minor at the highest. -/
structure Version where
  hi : BitVec 4
  lo : BitVec 4
  minor : BitVec 8
deriving DecidableEq, Repr

/-- Who sent an inbound request (R375, R392): Requester ID, PASID, the selective IDE stream it came on and its T bit; Relaxed Ordering (R260). -/
structure InReq where
  rid : BitVec 16
  pasid : Option (BitVec 20)
  stream : Option (Fin 8)
  tbit : Bool
  relaxed : Bool
deriving DecidableEq, Repr

/-- The header of an optical message (Table 15-2), its op being the command. -/
structure RemHdr where
  arg : BitVec 8
  lines : BitVec 3
  poison : Bool
  hops : BitVec 3
  dst : BitVec 12
  src : BitVec 12
  mpa : BitVec 52
  tag : BitVec 8
  core : BitVec 12
  gen : BitVec 8
  epoch : BitVec 16
  value : W64
deriving DecidableEq, Repr

/-- A LOSS record (Table 15-4). -/
structure LossNotice where
  module : BitVec 12
  port : BitVec 4
  partner : BitVec 12
  count : BitVec 16
deriving DecidableEq, Repr

/-- How a device-issued request on a host port ends (Table 14-3): a completion with data, UR, CA, a completion timeout, or a completion that
fails the integrity check of an IDE stream (0 the link stream, n + 1 selective stream n). -/
inductive HostCpl where
  | ok | ur | ca | timeout
  | ide (stream : Fin 9)
deriving DecidableEq, Repr

/-- An error that a decoder or a parity check of another structure finds (Table 18-4): the sequencer, queue, token or tag-record
parity of a core; an accumulator row; an instruction-cache, operand-buffer or clean-copy error; a word of an operand-cache entry or of an
L1 line, of a victim or reduction buffer or of data on its way between two endpoints, corrected or uncorrectable; a word of a scratchpad or of an
LLC data way that fails in one symbol or in two; a tag or directory entry with one copy or both lost; seam, die-controller, event-controller and module control state. -/
inductive HwErr where
  | core (c : CoreId)
  | acc (c : CoreId) (bank : Bool) (row : BitVec 6)
  | refetch (c : CoreId)
  | ocWord (c : CoreId) (v : BitVec 7) (w : BitVec 4) (ue : Bool)
  | l1Word (c : CoreId) (l : LineNo) (ue : Bool)
  | scratchWord (c : CoreId) (w : BitVec 16) (two : Bool)
  | llcWord (sl : SliceId) (l : LineNo) (two : Bool)
  | bufWord (sl : SliceId) (l : LineNo) (ue : Bool)
  | wireWord (src dst : Ep) (l : LineNo) (ue : Bool)
  | dirCopy (sl : SliceId)
  | dirBoth (l : LineNo)
  | tagBoth (sl : SliceId)
  | seam (die : Fin 8)
  | control (die : DieIx)
deriving DecidableEq, Repr

/-- The old value that a DONE brings back, and whether it read poisoned (R227, R243). -/
structure OldVal where
  v : W64
  poison : Bool
deriving DecidableEq, Repr

/-- What the host programs into a port beside ATS and MSI-X Enable: Function Mask, the codes of Max Payload Size and Max Read Request Size, and the
binary logarithm of the BAR2 size (Table 14-1, R378, R384). -/
structure PortCfg where
  fmask : Bool
  mps : BitVec 3
  mrrs : BitVec 3
  bar2 : Nat
deriving DecidableEq, Repr

inductive Instr where
  -- Chapter 3: sequencer instructions of a core (R91-R106) and the events of its issue
  | instructionFetch (c : CoreId) (l : LineNo) (d : Line) (poison : Bool) (stall : Nat)
  | alu (c : CoreId) (pg : BitVec 3) (sd sa sb : BitVec 5) (fn : BitVec 6)
  | alui (c : CoreId) (pg : BitVec 3) (sd sa : BitVec 5) (fn : BitVec 6) (imm : BitVec 32)
  | movi (c : CoreId) (pg : BitVec 3) (sd : BitVec 5) (h : Bool) (imm : BitVec 32)
  | cmp (c : CoreId) (pg pd pn : BitVec 3) (sa sb : BitVec 5) (cc : BitVec 4)
  | cmpi (c : CoreId) (pg pd pn : BitVec 3) (sa : BitVec 5) (cc : BitVec 4) (imm : BitVec 32)
  | pred (c : CoreId) (pg pd pa pb : BitVec 3) (fn : BitVec 3)
  | mask (c : CoreId) (pg md ma mb : BitVec 3) (sx : BitVec 5) (fn : BitVec 3)
  | sys (c : CoreId) (pg : BitVec 3) (sd : BitVec 5) (sel : BitVec 6)
  | b (c : CoreId) (pg : BitVec 3) (off : BitVec 32)
  | bl (c : CoreId) (pg : BitVec 3) (sd : BitVec 5) (off : BitVec 32)
  | br (c : CoreId) (pg : BitVec 3) (sd sa : BitVec 5)
  | endLeg (c : CoreId) (pg : BitVec 3)
  | legPartEnd (c : CoreId)
  | ld (c : CoreId) (pg : BitVec 3) (sd sa : BitVec 5) (size : BitVec 2) (sx : Bool) (imm : BitVec 32)
  | st (c : CoreId) (pg : BitVec 3) (sb sa : BitVec 5) (size : BitVec 2) (imm : BitVec 32)
  | amo (c : CoreId) (pg : BitVec 3) (sd sa sb sc : BitVec 5) (op : BitVec 4) (w : Bool)
  | radd (c : CoreId) (pg : BitVec 3) (sa : BitVec 5) (oc : BitVec 7) (half : Bool) (typ : BitVec 2) (imm : BitVec 32)
  | cacheInv (c : CoreId) (pg : BitVec 3) (sd sa sb : BitVec 5) (lvl : Bool)
  | cacheClean (c : CoreId) (pg : BitVec 3) (sd sa sb : BitVec 5) (lvl : Bool)
  | cachePin (c : CoreId) (pg : BitVec 3) (sd sa sb : BitVec 5) (lvl : Bool)
  | cacheUnpin (c : CoreId) (pg : BitVec 3) (sd sa sb : BitVec 5) (lvl : Bool)
  | cacheIinv (c : CoreId) (pg : BitVec 3) (sd sa sb : BitVec 5) (lvl : Bool)
  | acq (c : CoreId) (pg : BitVec 3) (sd sa : BitVec 5) (scope : BitVec 3) (ld w : Bool) (imm : BitVec 32)
  | rel (c : CoreId) (pg : BitVec 3) (sb sa : BitVec 5) (scope : BitVec 3) (st w : Bool) (imm : BitVec 32)
  | fence (c : CoreId) (pg : BitVec 3) (scope : BitVec 3)
  | waitTokens (c : CoreId) (pg : BitVec 3) (sd sb : BitVec 5) (sel : BitVec 16)
  | waitWake (c : CoreId) (pg : BitVec 3) (sd sb : BitVec 5) (sel : BitVec 16)
  | waitBarrier (c : CoreId) (pg : BitVec 3) (sd sb : BitVec 5) (sel : BitVec 16)
  | waitTimeout (c : CoreId)
  | bar (c : CoreId) (pg : BitVec 3) (scope : BitVec 3) (id : BitVec 2) (w f : Bool)
  | toll (c : CoreId) (pg : BitVec 3) (ahead : BitVec 2) (tolls : BitVec 16)
  | heavy (c : CoreId) (pg : BitVec 3) (level : BitVec 3) (ahead : BitVec 2)
  | nop (c : CoreId) (pg : BitVec 3)
  -- Chapters 4 and 5: engine instructions at issue, and the engines' own events
  | mld (c : CoreId) (f : MldF)
  | mma (c : CoreId) (f : MmaF)
  | mswap (c : CoreId) (f : MswapF)
  | mdrain (c : CoreId) (f : MdrainF)
  | vop (c : CoreId) (op : BitVec 8) (f : VopF)
  | vcvt (c : CoreId) (f : VopF)
  | vacc (c : CoreId) (f : VopF)
  | vargmax (c : CoreId) (f : VopF)
  | vtopk (c : CoreId) (f : VopF)
  | vld (c : CoreId) (f : VmemF)
  | vst (c : CoreId) (f : VmemF)
  | vcomp (c : CoreId) (f : VcompF)
  | vexp (c : CoreId) (f : VexpF)
  | vred (c : CoreId) (f : VredF)
  | engineInstructionStart (c : CoreId) (e : Engine)
  | engineInstructionComplete (c : CoreId) (e : Engine)
  -- Chapter 6: the tile mover
  | move (c : CoreId) (f : MoveF)
  | moveStart (c : CoreId)
  | descriptorStart (c : CoreId) (tag : BitVec 8)
  | pieceIssue (c : CoreId) (tag : BitVec 8) (found : List HwErr) (now : Nat)
  | piecePerformed (c : CoreId) (tag : BitVec 8)
  | moverFinalStatus (c : CoreId) (tag : BitVec 8)
  | mwait (c : CoreId) (pg : BitVec 3) (sd : BitVec 5) (tag : BitVec 8) (all : Bool)
  | mabort (c : CoreId) (pg : BitVec 3) (sd : BitVec 5) (tag : BitVec 8)
  | moverAbortReceive (c : CoreId) (tag : BitVec 8)
  -- Chapter 8: coherence messages, each at its receiver (Table 8-4); `cyc` is the fabric cycle of arrival (R228)
  | gets (src : Ep) (sl : SliceId) (l : LineNo) (num : ReqNum) (key : Key) (ifetch : Bool) (cyc : Nat)
  | getx (src : Ep) (l : LineNo) (num : ReqNum) (key : Key) (cyc : Nat)
  | upg (src : Ep) (l : LineNo) (num : ReqNum) (key : Key) (cyc : Nat)
  | victC (c : CoreId) (l : LineNo) (key : Key)
  | victD (c : CoreId) (l : LineNo) (d : Line) (poison : Bool)
  | cleanD (c : CoreId) (l : LineNo) (d : Line) (poison : Bool)
  | swr (c : CoreId) (l : LineNo) (d : Line) (be : BitVec 128) (poison : Bool) (cyc : Nat)
  | mrd (src : Ep) (l : LineNo) (num : ReqNum) (key : Key) (cyc : Nat)
  | mwr (src : Ep) (l : LineNo) (num : ReqNum) (key : Key) (d : Line) (be : BitVec 128) (poison : Bool) (cyc : Nat)
  | mwrs (src : Ep) (l : LineNo) (num : ReqNum) (key : Key) (d : Line) (be : BitVec 128) (poison : Bool) (cyc : Nat)
  | amoH (src : Ep) (l : LineNo) (num : ReqNum) (key : Key) (off : BitVec 7) (op : BitVec 4) (w : Bool) (x y : W64) (cyc : Nat)
  | raddMsg (src : Ep) (l : LineNo) (num : ReqNum) (key : Key) (typ : BitVec 2) (d : Line) (poison : Bool) (cyc : Nat)
  | transactionBegin (l : LineNo) (ue : Bool)
  | dataS (c : CoreId) (l : LineNo) (d : Line) (poison : Bool)
  | dataE (c : CoreId) (l : LineNo) (d : Line) (poison : Bool)
  | dataM (c : CoreId) (l : LineNo) (d : Line) (poison : Bool)
  | grant (c : CoreId) (l : LineNo)
  | fwdGets (c : CoreId) (l : LineNo) (num : ReqNum) (ifetch : Bool)
  | fwdGetx (c : CoreId) (l : LineNo) (num : ReqNum)
  | fwdRd (c : CoreId) (l : LineNo)
  | recall (c : CoreId) (l : LineNo) (keepS : Bool)
  | inv (src : Ep) (c : CoreId) (l : LineNo)
  | binv (die : Fin 8) (l : LineNo)
  | invAck (c : CoreId) (dst : Ep) (l : LineNo)
  | binvAck (die : Fin 8) (l : LineNo)
  | fwdDone (c : CoreId) (l : LineNo) (dirty : Bool) (st : Option Moesi) (d : Option (Line × Bool))
  | fwdMiss (c : CoreId) (l : LineNo)
  | recallData (c : CoreId) (l : LineNo) (d : Line) (poison dirty : Bool)
  | wbAck (c : CoreId) (l : LineNo) (accepted : Bool)
  | holdExpire (c : CoreId) (l : LineNo)
  | repData (sl : SliceId) (l : LineNo) (d : Line) (poison : Bool) (num : ReqNum) (key : Key) (ifetch : Bool)
  | repFwd (sl : SliceId) (l : LineNo) (num : ReqNum) (key : Key) (ifetch : Bool) (dst : Option SliceId)
  | repInv (sl : SliceId) (l : LineNo)
  | repAck (sl : SliceId) (l : LineNo)
  | repDrop (sl : SliceId) (l : LineNo)
  | done (dst : Ep) (l : LineNo) (status : BitVec 4) (old : OldVal)
  | victimBufferWrite (sl : SliceId) (l : LineNo)
  -- Chapter 12: the memory controllers
  | memoryReadReturn (l : LineNo) (pri copy : List ReadRes) (found : List HwErr) (now : Nat)
  | patrolScrubRead (stack : StackId) (pri copy : List ReadRes) (now : Nat)
  | stackTemperatureRead (stack : StackId) (temp : BitVec 8)
  | ceWindowEnd (ch : ChanId)
  | mapoutRecordWrite (ch : ChanId)
  -- Chapter 10: frames, waybills, receipts
  | frameTick (now : Nat)
  | frameRefEdge (t : Nat)
  | frameRefLost (t : Nat)
  | waybillRead (i : InstId) (d : List Byte) (ok poison : Bool)
  | admitCaravans (p : PartId) (ta : Nat)
  | caravanStart (k : Nat) (now : Nat)
  | caravanEnd (k : Nat) (now : Nat)
  | receiptWrite (i : InstId) (now : Nat)
  | frmAbort (i : InstId) (all : Bool)
  | frmCountLoad (v : W64)
  -- Chapter 11: partitions and pre-emption
  | instanceBind (i : InstId) (port : BitVec 2) (pasid : BitVec 20) (p : PartId)
  | instanceUnbind (i : InstId)
  | ownRequest (p : PartId) (i : InstId)
  | ownEnd (p : PartId)
  | partitionHold (p : PartId)
  | partitionRelease (p : PartId)
  | caravanSave (k : Nat)
  | remoteWaitExpire (c : CoreId)
  | coreSaved (c : CoreId)
  | caravanRestore (k : Nat) (now : Nat)
  -- Chapter 13: die links; `sent` is the flit as its sender made it, `err` the bits that changed on the way
  | crlFlitReceive (die : DieIx) (link : Fin 3) (bun : Fin 64) (sent err : BitVec 1536)
  | crlNak (die : DieIx) (link : Fin 3) (bun : Fin 64) (seq : BitVec 12)
  | crlAckTimer (die : DieIx) (link : Fin 3) (bun : Fin 64)
  | crlWindowEnd (die : DieIx) (link : Fin 3)
  | bundleQuiesceComplete (die : DieIx) (link : Fin 3) (bun : Fin 64)
  | crlLinkTraining (die : DieIx) (link : Fin 3) (tests : List LaneTest) (peer : Version)
  -- Chapter 14: host ports, mailboxes, TDISP, SPDM, dirty logging
  | inboundWrite (p : PortId) (rq : InReq) (bar : BitVec 3) (off : BitVec 42) (d : List Byte) (ep : Bool)
  | inboundRead (p : PortId) (rq : InReq) (bar : BitVec 3) (off : BitVec 42) (len : Nat)
  | inboundAtomicop (p : PortId) (rq : InReq) (bar : BitVec 3) (off : BitVec 42) (op wid : BitVec 2) (x y : W64) (ep : Bool)
  | hostCompletion (p : PortId) (id : Nat) (st : HostCpl) (d : List Byte) (ep : Bool)
  | invalidateRequest (p : PortId) (itag : BitVec 5) (pasid : BitVec 20) (va : W64) (len : Nat)
  | invalidateCompletion (p : PortId) (itag : BitVec 5)
  | hostLinkDown (p : PortId)
  | hostLinkUp (p : PortId) (rate width : BitVec 4) (flit ats msix : Bool) (cfg : PortCfg)
  | perstN (asserted : Bool)
  | msixUnmask (p : PortId) (v : Option (Fin 2048))
  | mailboxPost (i : InstId) (m2t : Bool) (slot : Fin 16) (w : W64)
  | mailboxAck (i : InstId) (v : BitVec 16)
  | mailboxConsume (i : InstId) (v : BitVec 16)
  | mbxVer (i : InstId) (hi lo : BitVec 4)
  | mbxOwn (i : InstId)
  | mbxRelease (i : InstId)
  | mbxAbortTag (i : InstId)
  | mbxAbortAll (i : InstId)
  | lockInterface (i : InstId) (stream : Fin 8)
  | startInterface (i : InstId)
  | stopInterface (i : InstId)
  | tdiZeroingComplete (i : InstId)
  | getDeviceInterfaceReport (p : PortId) (i : InstId)
  | ideKm (p : PortId) (stream : Fin 9) (establish : Bool)
  | getVersion (p : PortId)
  | getCapabilities (p : PortId)
  | negotiateAlgorithms (p : PortId) (asym hash dhe aead : Bool)
  | getDigests (p : PortId)
  | getCertificate (p : PortId) (slot : BitVec 4) (off len : BitVec 16)
  | challenge (p : PortId) (slot : BitVec 4) (nonce : BitVec 256)
  | getMeasurements (p : PortId) (index : BitVec 8) (nonce : BitVec 256) (signed : Bool)
  | keyExchange (p : PortId) (slot : BitVec 4) (key : List Byte)
  | finish (p : PortId) (mac : List Byte)
  | endSession (p : PortId)
  | dlogCasComplete (i : InstId) (r : Fin 16) (n : Nat) (ok : Bool) (old : W64)
  -- Chapter 15: optical ports and remote requests
  | optFlitReceive (o : OptId) (sent err : BitVec 2048) (fecOk : Bool) (fixed : Nat)
  | optNak (o : OptId) (seq : BitVec 16)
  | heartbeat (o : OptId) (id : BitVec 12) (port : BitVec 4)
  | heartbeatSend (o : OptId)
  | heartbeatTimeout (o : OptId)
  | optLossOfSignal (o : OptId) (lane : Fin 8)
  | loss (o : OptId) (n : LossNotice)
  | optPortTraining (o : OptId) (lanes : BitVec 8) (peer : Version) (id : BitVec 12) (port : BitVec 4)
  | rd (o : OptId) (h : RemHdr)
  | wr (o : OptId) (h : RemHdr) (mask : Option (BitVec 128)) (d : List Line)
  | wrs (o : OptId) (h : RemHdr) (mask : Option (BitVec 128)) (d : List Line)
  | remoteAmo (o : OptId) (h : RemHdr) (cmp : W64)
  | remoteRadd (o : OptId) (h : RemHdr) (d : Line)
  | rdData (o : OptId) (h : RemHdr) (d : List Line)
  | remoteDone (o : OptId) (h : RemHdr) (status : BitVec 4)
  -- Chapter 16: event controllers
  | eventRaise (die : DieIx) (n : SrcId)
  | levelChange (die : DieIx) (n : SrcId) (v : Bool)
  | eventDeliver (die : DieIx) (c : Fin 4)
  | fastEventDeliver (die : DieIx) (c : Fin 4)
  | evcDone (die : DieIx) (c : Fin 4) (n : SrcId)
  | evcFastDone (die : DieIx) (c : Fin 4) (n : SrcId)
  | evcHostAck (die : DieIx) (n : SrcId)
  | evcSwSet (die : DieIx) (n : Fin 32)
  | evcSrc (die : DieIx) (n : SrcId) (v : W64) (fw : Bool)
  | watchTimer
  -- Chapter 17: power
  | pwrReqRun
  | pwrReqGated
  | pwrReqStandby
  | powerEntryContinue
  | powerReturnComplete (data : List (ChanId × Fin 64)) (check : List (ChanId × Fin 8))
  | powerLoopTick (watts beWatts : Nat) (rows : List (Fin 256 × Nat))
  | currentSample (volts amps : BitVec 16)
  | ageingReading (c : CoreId) (mhz : BitVec 12)
  | fmaxFlashWrite
  | droopOnset (die : Fin 8) (half : Bool) (row : Fin 16)
  | droopRecover (die : Fin 8) (half : Bool) (row : Fin 16)
  | junctionRead (die : DieIx) (half : Bool) (t : BitVec 8) (sensor : BitVec 12)
  | tripHoldEnd
  | coolantFaultAssert (ns : Nat)
  | coolantFaultDeassert
  -- Chapter 19: boot
  | inputRise
  | railPowerGood (die : Option (Fin 8)) (step : Fin 5)
  | inputLoss (us : Nat)
  | inputOvervoltage (us : Nat)
  | bootModuleReset (key : BitVec 16)
  | shedyModuleReset (key : BitVec 16)
  | pldmFirmwareUpdate (k : Fin 2) (d : List Byte)
  | strapReport (die : DieIx) (role : BitVec 2) (id : BitVec 3) (par : Bool)
  | bootStageAdvance (ms : Nat)
  | dieRelease (die : DieIx)
  | stackTrainingComplete (stack : StackId) (data : List (Fin 32 × Fin 64)) (check : List (Fin 32 × Fin 8))
  | partitionReady (p : PartId)
  | bootDieReset (die : BitVec 4)
  | dieResetComplete (data : List (ChanId × Fin 64)) (check : List (ChanId × Fin 8))
  -- Chapters 20 and 21: image operations, security commands; data is what the device reads, none when the read fails
  | imgCheck (d : Option (List Byte))
  | imgStore (d : Option (List Byte))
  | imgApply (d : Option (List Byte))
  | imgReload (p : PartId) (d : Option (List Byte))
  | fwStore (d : Option (List Byte))
  | keyEnroll (d : Option (List Byte))
  | keyRevoke (d : Option (List Byte))
  | arbAdvance (d : Option (List Byte))
  | debugKill (d : Option (List Byte))
  | secAttest (i : Option InstId)
  | debugUnlock (response : List Byte)
  -- Registers
  | dirProbe (die : Fin 8) (l : LineNo)
  | errRingConsume (die : DieIx) (v : BitVec 32)
  | errInject (die : DieIx) (core : CoreId) (kind : BitVec 2) (unit : BitVec 4)
  | registerWrite (off : BitVec 28) (wide : Bool) (v : W64) (fw : Bool)
  | optAckTimer (o : OptId)
  | memoryWriteComplete (l : LineNo)
  | coreRestored (c : CoreId)
  | dirtyBitmapUpdate (i : InstId)
deriving DecidableEq, Repr

end Sys2Proof
end

