-- ==== Sys2Proof/Decode.lean ====
section
/-!
DEFINITION. The words of a core's instructions (R89-R92, R101, R107-R110, R141-R144, R152, R153, R160; Tables 3-1 and 3-2): which field
encodings are reserved, the word of an instruction, the instruction of a word. The command table itself gives no row any bits.
-/
namespace Sys2Proof

/-- Widths in bits of the format codes of Table 3-4. -/
def fmtWidth (c : BitVec 4) : Nat :=
  match c.toNat with
  | 0 | 1 | 15 => 4
  | 6 | 7 => 6
  | 2 | 3 | 4 | 5 | 8 | 9 => 8
  | 12 | 13 => 32
  | _ => 16

/-- Formats stored in blocks (R53, R58). -/
def fmtBlock (c : BitVec 4) : Bool :=
  match c.toNat with
  | 0 | 1 | 4 | 5 | 6 | 7 | 9 => true
  | _ => false

/-- The typ codes of vector arithmetic (R141): FP32, INT32, BF16, FP16, INT16. -/
def typArith (t : BitVec 4) : Bool := 10 ≤ t.toNat && t.toNat ≤ 14

def typInt (t : BitVec 4) : Bool := t.toNat == 13 || t.toNat == 14

/-- The VOP op codes of Table 3-5 with the typ codes that Table 5-2 accepts. -/
def vopTyp (op : Nat) (t : BitVec 4) : Bool :=
  if op ≤ 0x0A then typArith t
  else if op ≤ 0x0F then typInt t
  else if op ≤ 0x15 then typArith t
  else if op = 0x20 then true
  else if 0x28 ≤ op && op ≤ 0x2A then typArith t && !typInt t
  else if op = 0x2B then typArith t
  else if 0x30 ≤ op && op ≤ 0x34 then typArith t && !typInt t
  else if op = 0x38 || op = 0x39 then t.toNat == 12 || t.toNat == 13
  else if op = 0x3C then t.toNat == 12
  else false

/-- A VCVT part that passes byte 255 of the entry (R152). -/
def partPast (f : BitVec 4) (p : Nat) : Bool := fmtWidth f != 32 && decide (32 < (p + 1) * fmtWidth f)

/-- A reserved encoding of a VOP word with op code `op` (R141, R142, R144, R149, R152, R153, R160). -/
def vopReserved (op : BitVec 8) (f : VopF) : Bool :=
  let o := op.toNat
  !vopTyp o f.typ ||
  (f.bs && f.vb.toNat / 32 != 0) ||
  (decide (0x10 ≤ o) && decide (o ≤ 0x13) && f.vd.toNat / 8 != 0) ||
  (o == 0x3C && !f.bs && f.va.toNat / 64 != 0) ||
  (o == 0x20 &&
    (let src := BitVec.ofNat 4 f.vc.toNat
     let p := f.vc.toNat / 16 % 4
     f.vc.toNat / 64 != 0 || partPast src p || partPast f.typ p || ((fmtBlock src || fmtBlock f.typ) && (p != 0 || f.me))))

/-- The op codes that have a row of their own in the command table. -/
def vopNamed (op : BitVec 8) : Bool := op == 0x20#8 || op == 0x38#8 || op == 0x39#8 || op == 0x3C#8

/-- A reserved field encoding of a core instruction (R90); false for every command that is no core instruction. -/
def reservedOp (i : Instr) : Bool :=
  match i with
  | .alu _ _ _ _ _ fn => decide (0x17 < fn.toNat)
  | .alui _ _ _ _ fn _ => decide (0x14 < fn.toNat)
  | .cmp _ _ _ _ _ _ cc => decide (5 < cc.toNat)
  | .cmpi _ _ _ _ _ cc _ => decide (5 < cc.toNat)
  | .pred _ _ _ _ _ fn => decide (4 < fn.toNat)
  | .mask _ _ _ _ _ _ fn => fn == 7#3
  | .sys _ _ _ sel => decide (8 < sel.toNat)
  | .amo _ _ _ _ _ _ op _ => decide (9 < op.toNat)
  | .cacheInv _ _ _ _ _ lvl => lvl
  | .acq _ _ _ _ scope _ _ _ => scope == 7#3
  | .rel _ _ _ _ scope _ _ _ => scope == 7#3
  | .fence _ _ scope => scope == 7#3
  | .waitBarrier _ _ _ _ sel => !(sel.toNat / 4 % 8 == 1 || sel.toNat / 4 % 8 == 3 || sel.toNat / 4 % 8 == 4)
  | .bar _ _ scope _ _ _ => !(scope == 1#3 || scope == 3#3 || scope == 4#3)
  | .mld _ f => decide (11 < f.fmt.toNat)
  | .mma _ f => decide (11 < f.fa.toNat) || decide (11 < f.fb.toNat)
  | .vop _ op f => vopReserved op f
  | .vcvt _ f => vopReserved 0x20#8 f
  | .vacc _ f => vopReserved 0x3C#8 f
  | .vargmax _ f => vopReserved 0x38#8 f
  | .vtopk _ f => vopReserved 0x39#8 f
  | .vld _ f => f.esz == 3#2
  | .vst _ f => f.esz == 3#2
  | .vred _ f => decide (4 < f.fn.toNat) || !typArith f.typ
  | _ => false

/-! ### Words -/

/-- A Bool as one bit. -/
abbrev bb (b : Bool) : BitVec 1 := BitVec.ofBool b

def vopWord (op : BitVec 8) (f : VopF) : W64 :=
  0x28#6 ++ f.pg ++ f.twait ++ f.tset ++ op ++ f.vd ++ f.va ++ f.vb ++ f.vc ++ f.msk ++ bb f.me ++ bb f.bs ++ f.typ ++ bb f.rm ++ 0#1

def vmemWord (major : BitVec 6) (f : VmemF) : W64 :=
  major ++ f.pg ++ f.twait ++ f.tset ++ f.v ++ f.sa ++ f.sb ++ f.esz ++ f.msk ++ bb f.me ++ 0#8 ++ f.imm

def cacheWord (pg : BitVec 3) (sd sa sb : BitVec 5) (op : BitVec 3) (lvl : Bool) : W64 :=
  0x14#6 ++ pg ++ sd ++ sa ++ sb ++ op ++ bb lvl ++ 0#36

def waitWord (pg : BitVec 3) (kind : BitVec 2) (sd sb : BitVec 5) (sel : BitVec 16) : W64 :=
  0x1B#6 ++ pg ++ kind ++ sd ++ sb ++ 0#27 ++ sel

/-- The word of a core instruction, reserved bits zero (Table 3-2); none for a command that is no core instruction. -/
def encodeWord (i : Instr) : Option W64 :=
  match i with
  | .alu _ pg sd sa sb fn => some (0x01#6 ++ pg ++ sd ++ sa ++ sb ++ fn ++ 0#34)
  | .alui _ pg sd sa fn imm => some (0x02#6 ++ pg ++ sd ++ sa ++ fn ++ 0#7 ++ imm)
  | .movi _ pg sd h imm => some (0x03#6 ++ pg ++ sd ++ bb h ++ 0#17 ++ imm)
  | .cmp _ pg pd pn sa sb cc => some (0x04#6 ++ pg ++ pd ++ pn ++ sa ++ sb ++ cc ++ 0#35)
  | .cmpi _ pg pd pn sa cc imm => some (0x05#6 ++ pg ++ pd ++ pn ++ sa ++ cc ++ 0#8 ++ imm)
  | .pred _ pg pd pa pb fn => some (0x06#6 ++ pg ++ pd ++ pa ++ pb ++ fn ++ 0#43)
  | .mask _ pg md ma mb sx fn => some (0x07#6 ++ pg ++ md ++ ma ++ mb ++ sx ++ fn ++ 0#38)
  | .sys _ pg sd sel => some (0x08#6 ++ pg ++ sd ++ sel ++ 0#44)
  | .b _ pg off => some (0x0C#6 ++ pg ++ 0#23 ++ off)
  | .bl _ pg sd off => some (0x0D#6 ++ pg ++ sd ++ 0#18 ++ off)
  | .br _ pg sd sa => some (0x0E#6 ++ pg ++ sd ++ sa ++ 0#45)
  | .endLeg _ pg => some (0x0F#6 ++ pg ++ 0#55)
  | .ld _ pg sd sa size sx imm => some (0x10#6 ++ pg ++ sd ++ sa ++ size ++ bb sx ++ 0#10 ++ imm)
  | .st _ pg sb sa size imm => some (0x11#6 ++ pg ++ sb ++ sa ++ size ++ 0#11 ++ imm)
  | .amo _ pg sd sa sb sc op w => some (0x12#6 ++ pg ++ sd ++ sa ++ sb ++ sc ++ op ++ bb w ++ 0#30)
  | .radd _ pg sa oc half typ imm => some (0x13#6 ++ pg ++ sa ++ oc ++ bb half ++ typ ++ 0#8 ++ imm)
  | .cacheInv _ pg sd sa sb lvl => some (cacheWord pg sd sa sb 0 lvl)
  | .cacheClean _ pg sd sa sb lvl => some (cacheWord pg sd sa sb 1 lvl)
  | .cachePin _ pg sd sa sb lvl => some (cacheWord pg sd sa sb 2 lvl)
  | .cacheUnpin _ pg sd sa sb lvl => some (cacheWord pg sd sa sb 3 lvl)
  | .cacheIinv _ pg sd sa sb lvl => some (cacheWord pg sd sa sb 4 lvl)
  | .acq _ pg sd sa scope ld w imm => some (0x18#6 ++ pg ++ sd ++ sa ++ scope ++ bb ld ++ bb w ++ 0#8 ++ imm)
  | .rel _ pg sb sa scope st w imm => some (0x19#6 ++ pg ++ sb ++ sa ++ scope ++ bb st ++ bb w ++ 0#8 ++ imm)
  | .fence _ pg scope => some (0x1A#6 ++ pg ++ scope ++ 0#52)
  | .waitTokens _ pg sd sb sel => some (waitWord pg 0 sd sb sel)
  | .waitWake _ pg sd sb sel => some (waitWord pg 1 sd sb sel)
  | .waitBarrier _ pg sd sb sel => some (waitWord pg 2 sd sb sel)
  | .bar _ pg scope id w f => some (0x1C#6 ++ pg ++ scope ++ id ++ bb w ++ bb f ++ 0#48)
  | .toll _ pg ahead tolls => some (0x1E#6 ++ pg ++ 0#37 ++ ahead ++ tolls)
  | .heavy _ pg level ahead => some (0x1F#6 ++ pg ++ level ++ ahead ++ 0#50)
  | .nop _ pg => some (0x3F#6 ++ pg ++ 0#55)
  | .mld _ f => some (0x20#6 ++ f.pg ++ f.twait ++ f.tset ++ bb f.opd ++ f.fmt ++ f.sa ++ f.sb ++ 0#32)
  | .mma _ f => some (0x21#6 ++ f.pg ++ f.twait ++ f.tset ++ bb f.z ++ f.fa ++ f.fb ++ 0#38)
  | .mswap _ f => some (0x22#6 ++ f.pg ++ f.twait ++ f.tset ++ 0#47)
  | .mdrain _ f =>
    some (0x23#6 ++ f.pg ++ f.twait ++ f.tset ++ f.fmt ++ bb f.rm ++ bb f.bias ++ bb f.scl ++ f.sa ++ f.sb ++ f.sc ++ f.se ++ 0#20)
  | .vop _ op f => some (vopWord op f)
  | .vcvt _ f => some (vopWord 0x20 f)
  | .vacc _ f => some (vopWord 0x3C f)
  | .vargmax _ f => some (vopWord 0x38 f)
  | .vtopk _ f => some (vopWord 0x39 f)
  | .vld _ f => some (vmemWord 0x29 f)
  | .vst _ f => some (vmemWord 0x2A f)
  | .vcomp _ f => some (0x2B#6 ++ f.pg ++ f.twait ++ f.tset ++ f.vd ++ f.va ++ f.msk ++ f.sd ++ bb f.cont ++ 0#24)
  | .vexp _ f => some (0x2C#6 ++ f.pg ++ f.twait ++ f.tset ++ f.vd ++ f.va ++ f.msk ++ bb f.fill ++ 0#29)
  | .vred _ f => some (0x2D#6 ++ f.pg ++ f.twait ++ f.tset ++ f.vd ++ f.va ++ f.msk ++ bb f.me ++ f.sd ++ f.fn ++ f.typ ++ 0#17)
  | .move _ f => some (0x30#6 ++ f.pg ++ f.twait ++ 0#4 ++ f.tag ++ f.sa ++ 0#2 ++ f.imm)
  | .mwait _ pg sd tag all => some (0x31#6 ++ pg ++ sd ++ tag ++ bb all ++ 0#41)
  | .mabort _ pg sd tag => some (0x32#6 ++ pg ++ sd ++ tag ++ 0#42)
  | _ => none

/-- Bits `lo + n - 1 .. lo` of a word. -/
abbrev wf (w : W64) (lo n : Nat) : BitVec n := w.extractLsb' lo n

/-- Bit `n` of a word. -/
abbrev wb (w : W64) (n : Nat) : Bool := w.getLsbD n

def vopOfWord (w : W64) : VopF :=
  { pg := wf w 55 3, twait := wf w 51 4, tset := wf w 47 4, vd := wf w 32 7, va := wf w 25 7, vb := wf w 18 7, vc := wf w 11 7,
    msk := wf w 8 3, me := wb w 7, bs := wb w 6, typ := wf w 2 4, rm := wb w 1 }

def vmemOfWord (w : W64) : VmemF :=
  { pg := wf w 55 3, twait := wf w 51 4, tset := wf w 47 4, v := wf w 40 7, sa := wf w 35 5, sb := wf w 30 5, esz := wf w 28 2,
    msk := wf w 25 3, me := wb w 24, imm := wf w 0 16 }

/-- The instruction that a word's major opcode and fields name, reserved field values included. -/
def majorOf (c : CoreId) (w : W64) : Option Instr :=
  let pg := wf w 55 3
  match (wf w 58 6).toNat with
  | 0x01 => some (.alu c pg (wf w 50 5) (wf w 45 5) (wf w 40 5) (wf w 34 6))
  | 0x02 => some (.alui c pg (wf w 50 5) (wf w 45 5) (wf w 39 6) (wf w 0 32))
  | 0x03 => some (.movi c pg (wf w 50 5) (wb w 49) (wf w 0 32))
  | 0x04 => some (.cmp c pg (wf w 52 3) (wf w 49 3) (wf w 44 5) (wf w 39 5) (wf w 35 4))
  | 0x05 => some (.cmpi c pg (wf w 52 3) (wf w 49 3) (wf w 44 5) (wf w 40 4) (wf w 0 32))
  | 0x06 => some (.pred c pg (wf w 52 3) (wf w 49 3) (wf w 46 3) (wf w 43 3))
  | 0x07 => some (.mask c pg (wf w 52 3) (wf w 49 3) (wf w 46 3) (wf w 41 5) (wf w 38 3))
  | 0x08 => some (.sys c pg (wf w 50 5) (wf w 44 6))
  | 0x0C => some (.b c pg (wf w 0 32))
  | 0x0D => some (.bl c pg (wf w 50 5) (wf w 0 32))
  | 0x0E => some (.br c pg (wf w 50 5) (wf w 45 5))
  | 0x0F => some (.endLeg c pg)
  | 0x10 => some (.ld c pg (wf w 50 5) (wf w 45 5) (wf w 43 2) (wb w 42) (wf w 0 32))
  | 0x11 => some (.st c pg (wf w 50 5) (wf w 45 5) (wf w 43 2) (wf w 0 32))
  | 0x12 => some (.amo c pg (wf w 50 5) (wf w 45 5) (wf w 40 5) (wf w 35 5) (wf w 31 4) (wb w 30))
  | 0x13 => some (.radd c pg (wf w 50 5) (wf w 43 7) (wb w 42) (wf w 40 2) (wf w 0 32))
  | 0x14 =>
    match (wf w 37 3).toNat with
    | 0 => some (.cacheInv c pg (wf w 50 5) (wf w 45 5) (wf w 40 5) (wb w 36))
    | 1 => some (.cacheClean c pg (wf w 50 5) (wf w 45 5) (wf w 40 5) (wb w 36))
    | 2 => some (.cachePin c pg (wf w 50 5) (wf w 45 5) (wf w 40 5) (wb w 36))
    | 3 => some (.cacheUnpin c pg (wf w 50 5) (wf w 45 5) (wf w 40 5) (wb w 36))
    | 4 => some (.cacheIinv c pg (wf w 50 5) (wf w 45 5) (wf w 40 5) (wb w 36))
    | _ => none
  | 0x18 => some (.acq c pg (wf w 50 5) (wf w 45 5) (wf w 42 3) (wb w 41) (wb w 40) (wf w 0 32))
  | 0x19 => some (.rel c pg (wf w 50 5) (wf w 45 5) (wf w 42 3) (wb w 41) (wb w 40) (wf w 0 32))
  | 0x1A => some (.fence c pg (wf w 52 3))
  | 0x1B =>
    match (wf w 53 2).toNat with
    | 0 => some (.waitTokens c pg (wf w 48 5) (wf w 43 5) (wf w 0 16))
    | 1 => some (.waitWake c pg (wf w 48 5) (wf w 43 5) (wf w 0 16))
    | 2 => some (.waitBarrier c pg (wf w 48 5) (wf w 43 5) (wf w 0 16))
    | _ => none
  | 0x1C => some (.bar c pg (wf w 52 3) (wf w 50 2) (wb w 49) (wb w 48))
  | 0x1E => some (.toll c pg (wf w 16 2) (wf w 0 16))
  | 0x1F => some (.heavy c pg (wf w 52 3) (wf w 50 2))
  | 0x20 => some (.mld c ⟨pg, wf w 51 4, wf w 47 4, wb w 46, wf w 42 4, wf w 37 5, wf w 32 5⟩)
  | 0x21 => some (.mma c ⟨pg, wf w 51 4, wf w 47 4, wb w 46, wf w 42 4, wf w 38 4⟩)
  | 0x22 => some (.mswap c ⟨pg, wf w 51 4, wf w 47 4⟩)
  | 0x23 => some (.mdrain c ⟨pg, wf w 51 4, wf w 47 4, wf w 43 4, wb w 42, wb w 41, wb w 40, wf w 35 5, wf w 30 5, wf w 25 5, wf w 20 5⟩)
  | 0x28 =>
    match (wf w 39 8).toNat with
    | 0x20 => some (.vcvt c (vopOfWord w))
    | 0x38 => some (.vargmax c (vopOfWord w))
    | 0x39 => some (.vtopk c (vopOfWord w))
    | 0x3C => some (.vacc c (vopOfWord w))
    | _ => some (.vop c (wf w 39 8) (vopOfWord w))
  | 0x29 => some (.vld c (vmemOfWord w))
  | 0x2A => some (.vst c (vmemOfWord w))
  | 0x2B => some (.vcomp c ⟨pg, wf w 51 4, wf w 47 4, wf w 40 7, wf w 33 7, wf w 30 3, wf w 25 5, wb w 24⟩)
  | 0x2C => some (.vexp c ⟨pg, wf w 51 4, wf w 47 4, wf w 40 7, wf w 33 7, wf w 30 3, wb w 29⟩)
  | 0x2D => some (.vred c ⟨pg, wf w 51 4, wf w 47 4, wf w 40 7, wf w 33 7, wf w 30 3, wb w 29, wf w 24 5, wf w 21 3, wf w 17 4⟩)
  | 0x30 => some (.move c ⟨pg, wf w 51 4, wf w 39 8, wf w 34 5, wf w 0 32⟩)
  | 0x31 => some (.mwait c pg (wf w 50 5) (wf w 42 8) (wb w 41))
  | 0x32 => some (.mabort c pg (wf w 50 5) (wf w 42 8))
  | 0x3F => some (.nop c pg)
  | _ => none

/-- The instruction of core `c` that a word encodes; none where the encoding is reserved (R90). -/
def decodeWord (c : CoreId) (w : W64) : Option Instr :=
  match majorOf c w with
  | some i => if reservedOp i then none else some i
  | none => none

/-- The command table gives no row any bits: no word spells a command. -/
def decodeTableWord (_nbits _w : Nat) : Option Instr := none

end Sys2Proof
end

