-- ==== Sys2Proof/Machine/Bits.lean ====
section
/-!
DEFINITION. Bit fields, sign extension, byte order and counting: the helpers that every chapter's meaning uses.
-/
namespace Sys2Proof.Machine

/-- Bits `hi` to `lo` of `x`, the `x[h:l]` of R23. -/
def bits (x hi lo : Nat) : Nat := x / 2 ^ lo % 2 ^ (hi - lo + 1)

/-- Bit `n` of `x`. -/
def bit (x n : Nat) : Bool := x / 2 ^ n % 2 == 1

/-- A Bool as one bit. -/
def b2n (b : Bool) : Nat := if b then 1 else 0

/-- A value of `w` bits read as two's complement. -/
def toSigned (w x : Nat) : Int := if x % 2 ^ w < 2 ^ (w - 1) then (x % 2 ^ w : Nat) else (x % 2 ^ w : Nat) - (2 ^ w : Nat)

/-- An integer as `w` bits of two's complement. -/
def ofSigned (w : Nat) (i : Int) : Nat := (i % (2 ^ w : Nat)).toNat

/-- Sign extension of a `w`-bit value to 64 bits. -/
def sext64 (w x : Nat) : W64 := BitVec.ofNat 64 (ofSigned 64 (toSigned w x))

/-- Number of ones among the low `n` bits. -/
def popCount : Nat → Nat → Nat
  | 0, _ => 0
  | n + 1, x => x % 2 + popCount n (x / 2)

/-- The lowest set bit among bits `i .. i+n-1`, if any. -/
def lowestSet : Nat → Nat → Nat → Option Nat
  | 0, _, _ => none
  | n + 1, i, x => if bit x i then some i else lowestSet n (i + 1) x

/-- The word with bit `i` set to `f i`, for the `n` lowest bits. -/
def ofBits (n : Nat) (f : Nat → Bool) : Nat :=
  (List.range n).foldl (fun acc i => acc + (if f i then 2 ^ i else 0)) 0

/-- Byte `i` of a number, little-endian (R7). -/
def byteAt (x i : Nat) : Byte := BitVec.ofNat 8 (x / 2 ^ (8 * i))

/-- The low `n` bytes of a number, lowest address first (R7). -/
def bytesOf (n x : Nat) : List Byte := (List.range n).map (byteAt x)

/-- The number that bytes hold, lowest address first (R7). -/
def ofBytes : List Byte → Nat
  | [] => 0
  | b :: bs => b.toNat + 256 * ofBytes bs

/-- The value of field `f` in the word `w`. -/
def Fld.get (f : Fld) (w : W64) : Nat := w.toNat / 2 ^ f.lo % 2 ^ f.width

/-- The word `w` with field `f` holding `v` (its low `f.width` bits). -/
def Fld.put (f : Fld) (w : W64) (v : Nat) : W64 :=
  let m : W64 := BitVec.ofNat 64 ((2 ^ f.width - 1) * 2 ^ f.lo)
  (w &&& ~~~ m) ||| (BitVec.ofNat 64 (v * 2 ^ f.lo) &&& m)

/-- Saturating add of 1 in a field of `w` bits. -/
def satInc (w x : Nat) : Nat := if x + 1 < 2 ^ w then x + 1 else 2 ^ w - 1

/-- Saturating value in a field of `w` bits. -/
def satTo (w x : Nat) : Nat := if x < 2 ^ w then x else 2 ^ w - 1

/-- Ceiling of `a ÷ b`. -/
def ceilDiv (a b : Nat) : Nat := (a + b - 1) / b

/-- `l` with element `i` replaced by `x` (unchanged past the end). -/
def setAt {α : Type} (l : List α) (i : Nat) (x : α) : List α := l.set i x

end Sys2Proof.Machine
end

