-- ==== Sys2Proof/Machine/Float.lean ====
section
/-!
DEFINITION. Exact values, the formats of Table 2-1, rounding to nearest even and stochastic rounding (R69, R70), the rounding
source (R71), and the arithmetic of Table 2-9. A value is kept exactly; a result is rounded once, at the end.
-/
namespace Sys2Proof.Machine

/-- An exact value: not a number, an infinity, or `± (n / d) * 2 ^ e` (a zero keeps its sign). -/
inductive Num where
  | nan
  | inf (neg : Bool)
  | fin (neg : Bool) (n d : Nat) (e : Int)
deriving DecidableEq, Repr

/-- A binary floating format of Table 2-1: mantissa bits, bias, the code of the largest finite magnitude, whether it has
infinities, and its canonical NaN (Table 2-2) when it has one. -/
structure FloatFmt where
  bits : Nat
  mb : Nat
  bias : Nat
  maxCode : Nat
  hasInf : Bool
  nan : Option Nat
deriving DecidableEq, Repr

def FP32 : FloatFmt := ⟨32, 23, 127, 0x7F7FFFFF, true, some 0x7FC00000⟩
def FP16 : FloatFmt := ⟨16, 10, 15, 0x7BFF, true, some 0x7E00⟩
def BF16 : FloatFmt := ⟨16, 7, 127, 0x7F7F, true, some 0x7FC0⟩
def E4M3 : FloatFmt := ⟨8, 3, 7, 0x7E, false, some 0x7F⟩
def E5M2 : FloatFmt := ⟨8, 2, 15, 0x7B, true, some 0x7E⟩
def E3M2 : FloatFmt := ⟨6, 2, 3, 0x1F, false, none⟩
def E2M3 : FloatFmt := ⟨6, 3, 1, 0x1F, false, none⟩
def E2M1 : FloatFmt := ⟨4, 1, 1, 0x7, false, none⟩

/-- `2 ^ i` for a non-negative `i`, 1 otherwise: the two halves of a scaling by `2 ^ i`. -/
def pow2 (i : Int) : Nat := 2 ^ i.toNat

/-- Exponent of the least step of the format. -/
def FloatFmt.emin (f : FloatFmt) : Int := 1 - (f.bias : Int) - (f.mb : Int)

/-- The value that code `c` of format `f` holds. -/
def FloatFmt.decode (f : FloatFmt) (c : Nat) : Num :=
  let mag := c % 2 ^ (f.bits - 1)
  let neg := bit c (f.bits - 1)
  let ex := mag / 2 ^ f.mb
  let man := mag % 2 ^ f.mb
  if f.maxCode < mag then
    (if f.hasInf && man == 0 && mag == f.maxCode + 1 then .inf neg
     else match f.nan with
       | some _ => .nan
       | none => .fin neg mag 1 0)
  else if ex = 0 then .fin neg man 1 f.emin
  else .fin neg (2 ^ f.mb + man) 1 (f.emin + ex - 1)

/-- Floor of the base-2 logarithm of `n / d` (both positive). -/
def floorLog2 (n d : Nat) : Int :=
  let g : Int := (Nat.log2 n : Int) - Nat.log2 d
  if n * pow2 (-g) < d * pow2 g then g - 1 else g

/-- `(n / d) * 2 ^ e` in units of `2 ^ q`: the whole part, and the fraction as a pair. -/
def inUnits (n d : Nat) (e q : Int) : Nat × Nat × Nat :=
  let N := n * pow2 (e - q)
  let D := d * pow2 (q - e)
  (N / D, N % D, D)

/-- The exponent of the step of format `f` around a positive value. -/
def FloatFmt.step (f : FloatFmt) (n d : Nat) (e : Int) : Int :=
  max (floorLog2 n d + e - f.mb) f.emin

/-- The magnitude code of a positive value rounded to nearest even, not limited to the largest finite. -/
def FloatFmt.rneCode (f : FloatFmt) (n d : Nat) (e : Int) : Nat :=
  if n = 0 then 0 else
    let q := f.step n d e
    let (M, r, D) := inUnits n d e q
    let M' := if D < 2 * r || (2 * r == D && M % 2 == 1) then M + 1 else M
    (q - f.emin).toNat * 2 ^ f.mb + M'

/-- The magnitude code just at or below a positive value and the fraction of a step above it in 65,536ths (R70). -/
def FloatFmt.floorCode (f : FloatFmt) (n d : Nat) (e : Int) : Nat × Nat :=
  if n = 0 then (0, 0) else
    let q := f.step n d e
    let (M, r, D) := inUnits n d e q
    ((q - f.emin).toNat * 2 ^ f.mb + M, r * 65536 / D)

/-- A magnitude code with its sign bit. -/
def FloatFmt.withSign (f : FloatFmt) (neg : Bool) (mag : Nat) : Nat := b2n neg * 2 ^ (f.bits - 1) + mag

/-- The canonical NaN of `f` (R55); 0 where the format has none (Table 2-8). -/
def FloatFmt.nanCode (f : FloatFmt) : Nat := f.nan.getD 0

/-- The result of an arithmetic operation in `f`: one rounding to nearest even, infinities on overflow (Table 2-9). -/
def FloatFmt.round (f : FloatFmt) (v : Num) : Nat :=
  match v with
  | .nan => f.nanCode
  | .inf s => f.withSign s (f.maxCode + 1)
  | .fin s n d e =>
    let c := f.rneCode n d e
    f.withSign s (if f.maxCode < c then f.maxCode + 1 else c)

/-! ### The rounding source (R71) -/

/-- One step of the 64-bit Fibonacci register. -/
def lfsrStep (s : W64) : W64 :=
  let n := ((s >>> 63) ^^^ (s >>> 62) ^^^ (s >>> 60) ^^^ (s >>> 59)) &&& 1
  (s <<< 1) ||| n

def lfsrSteps : Nat → W64 → W64
  | 0, s => s
  | n + 1, s => lfsrSteps n (lfsrStep s)

/-- A 16-bit draw and the state after it. -/
def draw16 (s : W64) : Nat × W64 :=
  let s' := lfsrSteps 16 s
  (s'.toNat % 65536, s')

/-- `n` draws taken and discarded. -/
def skipDraws : Nat → W64 → W64
  | 0, s => s
  | n + 1, s => skipDraws n (draw16 s).2

/-! ### Conversion (R69, R70, R73) -/

/-- Conversion to a floating format under RNE (`sr = false`) or SR; the second part is the rounding source after it. -/
def FloatFmt.convert (f : FloatFmt) (sr : Bool) (v : Num) (g : W64) : Nat × W64 :=
  let (r, g') := if sr then draw16 g else (0, g)
  match v with
  | .nan => (f.nanCode, g')
  | .inf s => (f.withSign s (if f.hasInf then f.maxCode + 1 else f.maxCode), g')
  | .fin s n d e =>
    let c :=
      if sr then
        let (lo, fr) := f.floorCode n d e
        if f.maxCode ≤ lo then f.maxCode else if r < fr then lo + 1 else lo
      else min (f.rneCode n d e) f.maxCode
    (f.withSign s c, g')

/-- The magnitude of a value rounded to a whole number of units `2 ^ q`, at most `lim` (RNE or SR with draw `r`). -/
def roundUnits (sr : Bool) (r : Nat) (n d : Nat) (e q : Int) (lim : Nat) : Nat :=
  let (M, rem, D) := inUnits n d e q
  if sr then (if lim ≤ M then lim else if r < rem * 65536 / D then M + 1 else M)
  else min (if D < 2 * rem || (2 * rem == D && M % 2 == 1) then M + 1 else M) lim

/-- Conversion to an `w`-bit signed integer format (Table 2-8). -/
def convertInt (w : Nat) (sr : Bool) (v : Num) (g : W64) : Nat × W64 :=
  let (r, g') := if sr then draw16 g else (0, g)
  match v with
  | .nan => (0, g')
  | .inf s => (if s then 2 ^ (w - 1) else 2 ^ (w - 1) - 1, g')
  | .fin s n d e =>
    if s then ((2 ^ w - roundUnits sr r n d e 0 (2 ^ (w - 1))) % 2 ^ w, g')
    else (roundUnits sr r n d e 0 (2 ^ (w - 1) - 1), g')

/-- Conversion to an MXINT8 element: steps of 1/64, symmetric saturation at 127/64 (R554). -/
def convertMxInt8 (sr : Bool) (v : Num) (g : W64) : Nat × W64 :=
  let (r, g') := if sr then draw16 g else (0, g)
  match v with
  | .nan => (0, g')
  | .inf s => (if s then 0x81 else 0x7F, g')
  | .fin s n d e =>
    let m := roundUnits sr r n d e (-6) 127
    (if s then (256 - m) % 256 else m, g')

/-- The integer of `w` bits as an exact value. -/
def intNum (w x : Nat) : Num :=
  let i := toSigned w x
  .fin (decide (i < 0)) i.natAbs 1 0

/-! ### Arithmetic on exact values (R76, Table 2-9) -/

def Num.neg : Num → Num
  | .nan => .nan
  | .inf s => .inf (!s)
  | .fin s n d e => .fin (!s) n d e

def Num.abs : Num → Num
  | .nan => .nan
  | .inf _ => .inf false
  | .fin _ n d e => .fin false n d e

def Num.isNan : Num → Bool
  | .nan => true
  | _ => false

def Num.isZero : Num → Bool
  | .fin _ n _ _ => n == 0
  | _ => false

def Num.isNeg : Num → Bool
  | .nan => false
  | .inf s => s
  | .fin s _ _ _ => s

/-- Exact sum of two dyadic values (`d = 1`); an exact zero of mixed signs is +0. -/
def Num.add (a b : Num) : Num :=
  match a, b with
  | .nan, _ => .nan
  | _, .nan => .nan
  | .inf s, .inf t => if s = t then .inf s else .nan
  | .inf s, _ => .inf s
  | _, .inf t => .inf t
  | .fin s n _ e, .fin t m _ k =>
    let x := n * pow2 (e - min e k)
    let y := m * pow2 (k - min e k)
    if s = t then .fin s (x + y) 1 (min e k)
    else if x = y then .fin false 0 1 (min e k)
    else if y < x then .fin s (x - y) 1 (min e k)
    else .fin t (y - x) 1 (min e k)

/-- Exact product. -/
def Num.mul (a b : Num) : Num :=
  match a, b with
  | .nan, _ => .nan
  | _, .nan => .nan
  | .inf s, .inf t => .inf (s != t)
  | .inf s, .fin t m _ _ => if m = 0 then .nan else .inf (s != t)
  | .fin s n _ _, .inf t => if n = 0 then .nan else .inf (s != t)
  | .fin s n d e, .fin t m c k => .fin (s != t) (n * m) (d * c) (e + k)

/-- Exact quotient of dyadic values. -/
def Num.div (a b : Num) : Num :=
  match a, b with
  | .nan, _ => .nan
  | _, .nan => .nan
  | .inf _, .inf _ => .nan
  | .inf s, .fin t _ _ _ => .inf (s != t)
  | .fin s _ _ _, .inf t => .fin (s != t) 0 1 0
  | .fin s n _ e, .fin t m _ k =>
    if m = 0 then (if n = 0 then .nan else .inf (s != t))
    else .fin (s != t) n m (e - k)

/-- Integer square root by halving: the greatest `r < 2 ^ b` with `(r0 + r) ^ 2 ≤ n`, added to `r0`. -/
def isqrtFrom : Nat → Nat → Nat → Nat
  | 0, r, _ => r
  | b + 1, r, n => if (r + 2 ^ b) * (r + 2 ^ b) ≤ n then isqrtFrom b (r + 2 ^ b) n else isqrtFrom b r n

/-- Integer square root. -/
def isqrt (n : Nat) : Nat := isqrtFrom (Nat.log2 n / 2 + 1) 0 n

/-- Square root of a dyadic value, exact enough for one rounding to any format of Table 2-1: 64 fraction bits and a
sticky bit. -/
def Num.sqrt (a : Num) : Num :=
  match a with
  | .nan => .nan
  | .inf s => if s then .nan else .inf false
  | .fin s n _ e =>
    if n = 0 then .fin s 0 1 0
    else if s then .nan
    else
      let e' := if e % 2 = 0 then e - 128 else e - 129
      let N := n * pow2 (e - e')
      let r := isqrt N
      .fin false (2 * r + b2n (decide (r * r ≠ N))) 1 (e' / 2 - 1)

/-- The magnitude order of finite values, as a signed comparison of `± n * 2 ^ e` (dyadic). -/
def dyLt (s : Bool) (n : Nat) (e : Int) (t : Bool) (m : Nat) (k : Int) : Bool :=
  let x : Int := if s then -(n * pow2 (e - min e k) : Nat) else (n * pow2 (e - min e k) : Nat)
  let y : Int := if t then -(m * pow2 (k - min e k) : Nat) else (m * pow2 (k - min e k) : Nat)
  decide (x < y)

/-- `a < b` on numbers; false when either is a NaN; −0 equals +0. -/
def Num.lt (a b : Num) : Bool :=
  match a, b with
  | .nan, _ => false
  | _, .nan => false
  | .inf s, .inf t => s && !t
  | .inf s, .fin _ _ _ _ => s
  | .fin _ _ _ _, .inf t => !t
  | .fin s n _ e, .fin t m _ k => dyLt s n e t m k

/-- `a = b` on numbers; false when either is a NaN; −0 equals +0. -/
def Num.eq (a b : Num) : Bool := !a.isNan && !b.isNan && !a.lt b && !b.lt a

/-- Lesser of two numbers under VMIN: −0 below +0, one NaN gives the other operand. -/
def Num.minNum (a b : Num) : Num :=
  if a.isNan then b else if b.isNan then a
  else if a.lt b then a else if b.lt a then b
  else if a.isNeg then a else b

/-- Greater of two numbers under VMAX. -/
def Num.maxNum (a b : Num) : Num :=
  if a.isNan then b else if b.isNan then a
  else if a.lt b then b else if b.lt a then a
  else if a.isNeg then b else a

end Sys2Proof.Machine
end

