-- ==== Sys2Proof/Machine/Formats.lean ====
section
/-!
DEFINITION. The sixteen format codes of Table 3-4, packing (R56), the block formats (R53, R57-R61) and the conversions into
them (R74, R75, R555): 64 elements at a time, as the engines use them.
-/
namespace Sys2Proof.Machine

/-- The format codes of Table 3-4. -/
inductive Format where
  | s4 | mxfp4 | e4m3 | e5m2 | mxfp8e4 | mxfp8e5 | mxfp6e3 | mxfp6e2
  | int8 | mxint8 | bf16 | fp16 | fp32 | int32 | int16 | int4
deriving DecidableEq, Repr

/-- The format that a four-bit code names. -/
def Format.ofCode (c : Nat) : Format :=
  match c % 16 with
  | 0 => .s4 | 1 => .mxfp4 | 2 => .e4m3 | 3 => .e5m2 | 4 => .mxfp8e4 | 5 => .mxfp8e5 | 6 => .mxfp6e3 | 7 => .mxfp6e2
  | 8 => .int8 | 9 => .mxint8 | 10 => .bf16 | 11 => .fp16 | 12 => .fp32 | 13 => .int32 | 14 => .int16 | _ => .int4

/-- Bits of one element. -/
def Format.width : Format → Nat
  | .s4 | .mxfp4 | .int4 => 4
  | .mxfp6e3 | .mxfp6e2 => 6
  | .e4m3 | .e5m2 | .mxfp8e4 | .mxfp8e5 | .int8 | .mxint8 => 8
  | .bf16 | .fp16 | .int16 => 16
  | .fp32 | .int32 => 32

/-- Whether the format is stored in blocks of 32 with an E8M0 scale (R53). -/
def Format.isMx : Format → Bool
  | .mxfp4 | .mxfp8e4 | .mxfp8e5 | .mxfp6e3 | .mxfp6e2 | .mxint8 => true
  | _ => false

/-- Whether the format has a second plane (R57). -/
def Format.isBlock (f : Format) : Bool := f == .s4 || f.isMx

/-- Bytes of 64 elements in the element plane (Table 4-1, Table 4-4). -/
def Format.lineBytes (f : Format) : Nat := f.width * 8

/-- Bytes of the second plane for 64 elements: a header or two scales (R116, R131). -/
def Format.planeBytes (f : Format) : Nat := if f == .s4 then 4 else if f.isMx then 2 else 0

/-- K of the format when read by the matrix engine (Table 4-1); 0 for a format it does not read. -/
def Format.k : Format → Nat
  | .s4 | .mxfp4 => 256
  | .e4m3 | .e5m2 | .mxfp8e4 | .mxfp8e5 | .mxfp6e3 | .mxfp6e2 | .int8 | .mxint8 => 128
  | .bf16 | .fp16 => 64
  | _ => 0

/-- The floating format of an element, where it is one. -/
def Format.float : Format → Option FloatFmt
  | .s4 | .mxfp4 => some E2M1
  | .e4m3 | .mxfp8e4 => some E4M3
  | .e5m2 | .mxfp8e5 => some E5M2
  | .mxfp6e3 => some E3M2
  | .mxfp6e2 => some E2M3
  | .bf16 => some BF16
  | .fp16 => some FP16
  | .fp32 => some FP32
  | _ => none

/-- The exact value of one element code, without a block scale. -/
def Format.elem (f : Format) (c : Nat) : Num :=
  match f.float with
  | some ff => ff.decode c
  | none =>
    if f == .mxint8 then
      match intNum 8 c with
      | .fin s n _ _ => .fin s n 1 (-6)
      | v => v
    else intNum f.width c

/-- Conversion of one value to one element code (R73, R554). -/
def Format.convertElem (f : Format) (sr : Bool) (v : Num) (g : W64) : Nat × W64 :=
  match f.float with
  | some ff => ff.convert sr v g
  | none => if f == .mxint8 then convertMxInt8 sr v g else convertInt f.width sr v g

/-- Conversion of a list of values in ascending index, the rounding source threaded through (R71). -/
def Format.convertList (f : Format) (sr : Bool) : List Num → W64 → List Nat × W64
  | [], g => ([], g)
  | v :: vs, g =>
    let (c, g') := f.convertElem sr v g
    let (cs, g'') := f.convertList sr vs g'
    (c :: cs, g'')

/-! ### Packing (R56) -/

/-- Codes of `w` bits packed little-endian. -/
def packCodes (w : Nat) : List Nat → Nat
  | [] => 0
  | c :: cs => c % 2 ^ w + 2 ^ w * packCodes w cs

/-- The first `n` codes of `w` bits of a packed number. -/
def unpackCodes (w : Nat) : Nat → Nat → List Nat
  | 0, _ => []
  | n + 1, x => x % 2 ^ w :: unpackCodes w n (x / 2 ^ w)

/-! ### Block scales -/

/-- Multiplication by `2 ^ k`. -/
def Num.scale (v : Num) (k : Int) : Num :=
  match v with
  | .fin s n d e => .fin s n d (e + k)
  | w => w

/-- Decoding of 32 elements under an E8M0 scale; 0xFF makes every element a NaN (R53). -/
def decodeMx (f : Format) (scale : Nat) (codes : List Nat) : List Num :=
  codes.map (fun c => if scale = 0xFF then .nan else (f.elem c).scale (scale - 127))

/-- The scale byte of Saffron, unsigned E5M3 (R59), as a number of 2⁻¹⁷. -/
def e5m3 (b : Nat) : Nat :=
  if b / 8 % 32 = 0 then b % 8 else (8 + b % 8) * 2 ^ (b / 8 % 32 - 1)

/-- An outlier magnitude, unsigned E3M3 (R60), in quarters. -/
def e3m3 (o : Nat) : Nat := 3 * (8 + o % 8) * 2 ^ (o / 8 % 8)

/-- Magnitude of an E2M1 code in halves (Table 2-3). -/
def e2m1Halves (c : Nat) : Nat :=
  match c % 8 with
  | 0 => 0 | 1 => 1 | 2 => 2 | 3 => 3 | 4 => 4 | 5 => 6 | 6 => 8 | _ => 12

/-- The magnitude in quarters of element `i`: its code's, or the outlier's whose slot names it, slot 1 over slot 0 (R61). -/
def s4Quarters (hdr i code : Nat) : Nat :=
  let o0 := bits hdr 5 0
  let o1 := bits hdr 17 12
  if o1 ≠ 0 ∧ bits hdr 23 18 = i then e3m3 o1
  else if o0 ≠ 0 ∧ bits hdr 11 6 = i then e3m3 o0
  else 2 * e2m1Halves code

/-- Decoding of a Saffron block (R61). -/
def decodeS4 (hdr : Nat) (codes : List Nat) : List Num :=
  codes.mapIdx (fun i c =>
    if bits hdr 31 24 = 0xFF then .nan
    else .fin (bit c 3) (s4Quarters hdr i c * e5m3 (bits hdr 31 24)) 1 (-19))

/-- The 64 values of element codes `codes` with second-plane bytes `p2` (low byte first in the number). -/
def Format.decode64 (f : Format) (codes : List Nat) (p2 : Nat) : List Num :=
  if f == .s4 then decodeS4 (p2 % 2 ^ 32) codes
  else if f.isMx then decodeMx f (p2 % 256) (codes.take 32) ++ decodeMx f (p2 / 256 % 256) (codes.drop 32)
  else codes.map f.elem

/-! ### Conversion into blocks (R74, R75, R555) -/

/-- A magnitude `(n / d) * 2 ^ e`. -/
abbrev Mag := Nat × Nat × Int

/-- `a < b` on magnitudes. -/
def magLt (a b : Mag) : Bool :=
  decide (a.1 * b.2.1 * pow2 (a.2.2 - b.2.2) < b.1 * a.2.1 * pow2 (b.2.2 - a.2.2))

/-- The largest finite FP32. -/
def magTop : Mag := (2 ^ 24 - 1, 1, 104)

/-- The magnitude of a value, at most the largest finite FP32: `a[i]` of R74 and R75. -/
def Num.mag : Num → Mag
  | .nan => (0, 1, 0)
  | .inf _ => magTop
  | .fin _ n d e => if magLt magTop (n, d, e) then magTop else (n, d, e)

/-- The greatest magnitude of a list. -/
def magMax (l : List Mag) : Mag := l.foldl (fun m a => if magLt m a then a else m) (0, 1, 0)

/-- emax of R74. -/
def Format.emax : Format → Int
  | .mxfp8e4 => 8
  | .mxfp8e5 => 15
  | .mxfp6e3 => 4
  | .mxfp6e2 | .mxfp4 => 2
  | _ => 0

/-- encode_mx (R74): the scale byte, the element codes and the rounding source. -/
def encodeMx (f : Format) (sr : Bool) (xs : List Num) (g : W64) : Nat × List Nat × W64 :=
  if xs.any Num.isNan then (0xFF, xs.map (fun _ => 0), if sr then skipDraws xs.length g else g)
  else
    let a := magMax (xs.map Num.mag)
    let X : Int := if a.1 = 0 then -127 else max (-127) (min 127 (floorLog2 a.1 a.2.1 + a.2.2 - f.emax))
    let (codes, g') := f.convertList sr (xs.map (fun x => x.scale (-X))) g
    ((X + 127).toNat, codes, g')

/-- ceil_e5m3 (R75): the least scale byte whose value is at least `v`, at most 0xFE. -/
def ceilE5m3 (v : Mag) : Nat :=
  ((List.range 0xFE).find? (fun b => !magLt (e5m3 b, 1, -17) v)).getD 0xFE

/-- round_e3m3 (R75) of the magnitude `v`: the outlier code, 0 for 6.0 and below; the second part says that SR drew. -/
def roundE3m3 (sr : Bool) (v : Mag) (g : W64) : Nat × W64 :=
  let (r, g') := if sr then draw16 g else (0, g)
  -- v / 6 on a grid of steps 2 ^ (k - 3), k from 0 to 7
  let n := v.1
  let d := v.2.1 * 6
  let e := v.2.2
  if n = 0 then (0, g')
  else
    let k := floorLog2 n d + e
    if k < 0 then (0, g')
    else if 7 < k then (63, g')
    else
      let (M, rem, D) := inUnits n d e (k - 3)
      let lo := k.toNat * 8 + (M - 8)
      let c :=
        if sr then (if 63 ≤ lo then 63 else if r < rem * 65536 / D then lo + 1 else lo)
        else min (if D < 2 * rem || (2 * rem == D && M % 2 == 1) then lo + 1 else lo) 63
      (c, g')

/-- The index of the greatest magnitude among those not in `skip`; the lower index wins a tie (R75). -/
def argMaxMag (l : List Mag) (skip : List Nat) : Nat :=
  ((List.range l.length).foldl (fun (best : Option Nat) i =>
    if skip.contains i then best
    else match best with
      | none => some i
      | some j => if magLt (l.getD j (0, 1, 0)) (l.getD i (0, 1, 0)) then some i else best) none).getD 0

/-- A magnitude divided by the scale of byte `sc`. -/
def divScale (a : Mag) (sc : Nat) : Mag := if e5m3 sc = 0 then (0, 1, 0) else (a.1, a.2.1 * e5m3 sc, a.2.2 + 17)

/-- The code of one element that no outlier names (R75). -/
def s4Code (sr : Bool) (x : Num) (sc : Nat) (g : W64) : Nat × W64 :=
  let a := divScale x.mag sc
  let (c, g') := E2M1.convert sr (.fin false a.1 a.2.1 a.2.2) g
  (b2n x.isNeg * 8 + c, g')

/-- The codes of the elements in ascending index; those placed as outliers keep 0b111 and draw nothing (R555). -/
def s4Codes (sr : Bool) (sc : Nat) (placed : List Nat) : Nat → List Num → W64 → List Nat × W64
  | _, [], g => ([], g)
  | i, x :: xs, g =>
    let (c, g1) := if placed.contains i then (b2n x.isNeg * 8 + 7, g) else s4Code sr x sc g
    let (cs, g2) := s4Codes sr sc placed (i + 1) xs g1
    (c :: cs, g2)

/-- encode_s4 (R75): the header, the 64 codes and the rounding source. -/
def encodeS4 (sr : Bool) (xs : List Num) (g : W64) : Nat × List Nat × W64 :=
  if xs.any Num.isNan then (0xFF000000, xs.map (fun _ => 0), if sr then skipDraws xs.length g else g)
  else
    let a := xs.map Num.mag
    let j1 := argMaxMag a []
    let j2 := argMaxMag a [j1]
    let j3 := argMaxMag a [j1, j2]
    let at' (j : Nat) : Mag := a.getD j (0, 1, 0)
    let sc := if (at' j1).1 = 0 then 0
      else max (ceilE5m3 ((at' j3).1, (at' j3).2.1 * 6, (at' j3).2.2)) (ceilE5m3 ((at' j1).1, (at' j1).2.1 * 1440, (at' j1).2.2))
    let ja := min j1 j2
    let jb := max j1 j2
    let (oa, g1) := if sc = 0 then (0, g) else roundE3m3 sr (divScale (at' ja) sc) g
    let (ob, g2) := if sc = 0 then (0, g1) else roundE3m3 sr (divScale (at' jb) sc) g1
    let slots := (if oa = 0 then [] else [(ja, oa)]) ++ (if ob = 0 then [] else [(jb, ob)])
    let hdr := sc * 2 ^ 24 + (match slots with
      | [] => 0
      | [(j, o)] => j * 64 + o
      | (j, o) :: (k, p) :: _ => j * 64 + o + (k * 64 + p) * 2 ^ 12)
    let (codes, g3) := s4Codes sr sc (slots.map Prod.fst) 0 xs g2
    (hdr, codes, g3)

/-- Conversion of 64 values to format `f`: element codes, second plane (low byte first), rounding source (R130, R154). -/
def Format.encode64 (f : Format) (sr : Bool) (xs : List Num) (g : W64) : List Nat × Nat × W64 :=
  if f == .s4 then
    let (hdr, codes, g') := encodeS4 sr xs g
    (codes, hdr, g')
  else if f.isMx then
    let (s0, c0, g1) := encodeMx f sr (xs.take 32) g
    let (s1, c1, g2) := encodeMx f sr (xs.drop 32) g1
    (c0 ++ c1, s0 + 256 * s1, g2)
  else
    let (codes, g') := f.convertList sr xs g
    (codes, 0, g')

end Sys2Proof.Machine
end

