-- ==== Sys2Proof/Config.lean ====
section
/-!
DEFINITION. What an implementation or a die's manufacture fixes, and every value that the spec leaves open. Each constant
below has no meaning inside Lean beyond its type: nothing proves a value of it. Log entries 3, 4 and 5 name them.
-/
namespace Sys2Proof.Config

/-! ### Contents of the fuses and of the flash at module reset (R501, R515, R516, R530; log 4) -/

/-- PRIMARY_X1 (R490): 1 when X1 is the primary I/O die. -/
opaque fusePrimaryX1 : Nat
/-- The compute dies' metal digit and the I/O dies' stepping letter and metal digit of the revision code (R3): the digit's value, the letter's
place in the alphabet. -/
opaque fuseCdMetal : Nat
opaque fuseXdStep : Nat
opaque fuseXdMetal : Nat
opaque fuseSerial0 : Nat
opaque fuseSerial1 : Nat
opaque fuseDebugKill : Nat
opaque fuseRevoked : Nat
opaque fuseArb : Nat
opaque flashEnrolled : Nat
opaque flashFloor : Nat
opaque flashImgValid : Nat → Nat
opaque flashImgBooted : Nat → Nat
opaque flashImgSerial : Nat → Nat
opaque flashFwSvn : Nat → Nat
opaque flashFwValid : Nat → Nat
opaque fwBooted : Nat
opaque tripCount : Nat
opaque tripDie : Nat
opaque tripSensor : Nat
/-- Fused and revised maximum clock of a core, MHz (R450). -/
opaque fmaxFused : Nat → Nat
opaque fmaxRevised : Nat → Nat
/-- Units of receive buffer of an optical virtual channel, which the port offers as credits (R403; log 98). -/
opaque optRoom : Nat → Nat

/-- The n-th unpredictable nonce of SEC_NONCE (R524). -/
opaque secNonce : Nat → Nat

/-- The map-out list in flash (R337), image and firmware copies, enrolled keys (R510, R517, R526). -/
opaque flashMapout : List Nat
opaque flashImg : Nat → Option (List Byte)
opaque flashFw : Nat → Option (List Byte)
opaque flashKey : Nat → Option (BitVec 256)

/-! ### Cryptographic functions and keys (R509, R517, R521, R522, R524, R527-R529; log 5) -/

/-- SHA-512. -/
opaque sha512 : List (BitVec 8) → BitVec 512
/-- Ed25519ph of RFC 8032: verification of a signature over a message with a public key. -/
opaque verify : BitVec 256 → List (BitVec 8) → BitVec 512 → Bool
/-- Ed25519ph of RFC 8032: the signature with the key pair of a seed; and that key pair's public key. -/
opaque sign : BitVec 256 → List (BitVec 8) → BitVec 512
opaque publicKey : BitVec 256 → BitVec 256
opaque vendorFwKey : BitVec 256
opaque vendorDebugKey : BitVec 256
/-- ID_SEED (Table 21-1). -/
opaque idSeed : BitVec 256
/-- The vendor certificate chain of R522 and the alias certificate that the ROM signs for a public key. -/
opaque certChain : List (BitVec 8)
opaque aliasCert : BitVec 256 → List (BitVec 8)
/-- The die-controller digest that the header area of a firmware copy holds, and the major of its die-controller firmware's interface
version: the spec gives neither place (R518, R514). -/
opaque dcDigestHeld : List (BitVec 8) → BitVec 512
opaque dcMajor : List (BitVec 8) → Nat
/-- The debug challenge of the n-th reset (R529). -/
opaque debugChallenge : Nat → List (BitVec 8)
/-- The device's part of an SPDM key exchange, by the request's key and the n-th exchange. -/
opaque spdmKey : Nat → List (BitVec 8) → List (BitVec 8)
/-- The FINISH message authentication code is right. -/
opaque spdmMac : List (BitVec 8) → Bool

/-! ### Free values (log 3) -/

/-- The n-th free value: unconstrained. -/
opaque freeValue : Nat → BitVec 64

/-- The fixed function of input bits that an approximation of Table 5-3 computes, by op code and FP32 input (R150). -/
opaque approx : Nat → Nat → Nat

end Sys2Proof.Config
end

