-- ==== Sys2Proof/Machine/Regs.lean ====
section
/-!
DEFINITION. The register space of R46-R48: every register that a table of the spec places, by offset; every field of it
with its access code (Table 0-3), its value after module reset, whether it changes only while an image is applied, and the
encodings its description marks reserved (R17). `Reg` holds the offsets, `Fld` the fields, `Family` rows the tables.
-/
namespace Sys2Proof.Machine

/-- The access codes of Table 0-3; RSV bits are in no field. -/
inductive Acc where
  | ro | rw | w1c | wo
deriving DecidableEq, Repr

/-- One row of a register table: the field's bits, its access code, its reset value by the copy's indices, whether only an
image write changes it, and the reserved encodings (of the field's value and the whole word written). -/
structure FieldRow where
  hi : Nat
  lo : Nat
  acc : Acc
  img : Bool := false
  reset : List Nat → Nat := fun _ => 0
  resv : Nat → Nat → Bool := fun _ _ => false

/-- A register with its copies: copy `[k1, k2, ..]` lies at `base + k1 * stride1 + k2 * stride2 + ..` (R47, R48). -/
structure Family where
  base : Nat
  dims : List (Nat × Nat)
  fields : List FieldRow

/-- Core index of Table 1-10 from the copy indices of a CORE_ page (die, half and row in the first, slot in the second). -/
def coreOf (ix : List Nat) : Nat := ix.getD 0 0 * 16 + ix.getD 1 0

/-- The revision code (R3) as BOOT_ID shows it: letter, digit, letter, digit, the first character B (R1). -/
def revisionCode : Nat :=
  0x42 + (0x30 + Config.fuseCdMetal % 10) * 2 ^ 8 + (0x41 + Config.fuseXdStep % 26) * 2 ^ 16 + (0x30 + Config.fuseXdMetal % 10) * 2 ^ 24

/-- Bundles of link `l` of die index `i` (Table 13-2); 0 where the die has no such link. -/
def linkBundles (i l : Nat) : Nat :=
  if 10 ≤ i then 0
  else if 8 ≤ i then (if l < 2 then 16 else 0)
  else if 3 ≤ l then 0
  else if i % 4 == 0 && l == 0 then 16
  else if i % 4 == 3 && l == 1 then 16
  else 64

/-- Default link from die index `i` to die index `j` (R363): along the row, then vertically; 6 is this die. -/
def defaultRoute (i j : Nat) : Nat :=
  if i == j then 6
  else if 8 ≤ i then (if 8 ≤ j then 0 else if j < 4 then 0 else 1)
  else if j == 8 then 0
  else if j == 9 then 1
  else if i % 4 == j % 4 then 2
  else if j % 4 < i % 4 then 0 else 1

/-- CRL_ROUTE at reset: three bits for each die index (Table 13-8). -/
def defaultRouteWord (i : Nat) : Nat :=
  (List.range 10).foldl (fun acc j => acc + defaultRoute i j * 8 ^ j) 0

/-- CRL_BTAB(l, n) at reset: entry e names bundle e mod the link's bundle count (R351). -/
def btabReset (i l n : Nat) : Nat :=
  (List.range 8).foldl (fun acc q => acc + (8 * n + q) % linkBundles i l * 256 ^ q) 0

/-- Sources that are level sources at die index `i` (Table 16-1, Table 17-6). -/
def evcLevelSource (i n : Nat) : Bool :=
  if i < 8 then n == 0x141 || n == 0x142 || n == 0x147 || n == 0x161
  else n == 0x203 || n == 0x204 || ((n == 0x160 || n == 0x166) && i == 8 + Config.fusePrimaryX1 % 2)

namespace Reg

/-- Table 3-8 (R114). -/
def CORE_ID (c : Nat) : Nat := 0x1000000 + c * 0x2000
/-- Table 3-9 (R114). -/
def CORE_STATE (c : Nat) : Nat := 0x1000008 + c * 0x2000
/-- Table 3-10 (R114). -/
def CORE_PC (c : Nat) : Nat := 0x1000010 + c * 0x2000
/-- Table 3-11 (R114). -/
def CORE_FAULT (c : Nat) : Nat := 0x1000018 + c * 0x2000
/-- Table 3-12 (R114). -/
def CORE_ADDR_ERR (c : Nat) : Nat := 0x1000100 + c * 0x2000
/-- Table 3-13 (R114). -/
def CORE_ADDR_ERR_FIRST (c : Nat) : Nat := 0x1000108 + c * 0x2000
/-- Table 2-7 (R72). -/
def CORE_LFSR (c : Nat) : Nat := 0x1000180 + c * 0x2000
/-- Table 3-14 (R114). -/
def CORE_CYCLES (c : Nat) : Nat := 0x1000200 + c * 0x2000
/-- Table 3-14 (R114). -/
def CORE_STALL (c : Nat) : Nat := 0x1000208 + c * 0x2000
/-- Table 4-6 (R136). -/
def CORE_ME_STATE (c : Nat) : Nat := 0x1000400 + c * 0x2000
/-- Table 4-7 (R136). -/
def CORE_ME_POISON0 (c : Nat) : Nat := 0x1000408 + c * 0x2000
/-- Table 4-7 (R136). -/
def CORE_ME_POISON1 (c : Nat) : Nat := 0x1000410 + c * 0x2000
/-- Table 4-8 (R136). -/
def CORE_ME_MMA (c : Nat) : Nat := 0x1000418 + c * 0x2000
/-- Table 4-8 (R136). -/
def CORE_ME_BUSY (c : Nat) : Nat := 0x1000420 + c * 0x2000
/-- Table 4-8 (R136). -/
def CORE_ME_OUTLIER (c : Nat) : Nat := 0x1000428 + c * 0x2000
/-- Table 5-7 (R164). -/
def CORE_VE_STATUS (c : Nat) : Nat := 0x1000500 + c * 0x2000
/-- Table 5-8 (R164). -/
def CORE_VE_OPS (c : Nat) : Nat := 0x1000508 + c * 0x2000
/-- Table 5-8 (R164). -/
def CORE_VE_BUSY (c : Nat) : Nat := 0x1000510 + c * 0x2000
/-- Table 5-8 (R164). -/
def CORE_VE_SR (c : Nat) : Nat := 0x1000518 + c * 0x2000
/-- Table 6-8 (R185). -/
def CORE_MV_STATE (c : Nat) : Nat := 0x1000600 + c * 0x2000
/-- Table 6-9 (R185). -/
def CORE_MV_OUT (c n : Nat) : Nat := 0x1000608 + c * 0x2000 + n * 8
/-- Table 6-9 (R185). -/
def CORE_MV_BYTES (c : Nat) : Nat := 0x1000628 + c * 0x2000
/-- Table 6-9 (R185). -/
def CORE_MV_RECALL (c : Nat) : Nat := 0x1000630 + c * 0x2000
/-- Table 7-13 (R221). -/
def CORE_L1_HIT (c : Nat) : Nat := 0x1000700 + c * 0x2000
/-- Table 7-13 (R221). -/
def CORE_L1_MISS (c : Nat) : Nat := 0x1000708 + c * 0x2000
/-- Table 7-13 (R221). -/
def CORE_WSD (c : Nat) : Nat := 0x1000710 + c * 0x2000
/-- Table 9-8 (R268). -/
def CORE_SYNC_EPOCH (c : Nat) : Nat := 0x1000800 + c * 0x2000
/-- Table 9-8 (R268). -/
def CORE_SYNC_ACQ (c : Nat) : Nat := 0x1000808 + c * 0x2000
/-- Table 9-8 (R268). -/
def CORE_SYNC_REL (c : Nat) : Nat := 0x1000810 + c * 0x2000
/-- Table 9-8 (R268). -/
def CORE_SYNC_STALL (c : Nat) : Nat := 0x1000818 + c * 0x2000
/-- Table 11-11 (R323). -/
def CORE_PREEMPT (c : Nat) : Nat := 0x1000900 + c * 0x2000
/-- Table 15-11 (R420). -/
def CORE_REMOTE (c : Nat) : Nat := 0x1000a00 + c * 0x2000
/-- Table 17-10 (R457). -/
def CORE_FMAX (c : Nat) : Nat := 0x1000b00 + c * 0x2000
/-- Table 18-9 (R484). -/
def CORE_ERR (c : Nat) : Nat := 0x1000c00 + c * 0x2000
/-- Table 7-2 (R218). -/
def LLC_DIE_CTL (d : Nat) : Nat := 0x4000000 + d * 0x100000
/-- Table 7-3 (R218). -/
def LLC_THRASH (d : Nat) : Nat := 0x4000008 + d * 0x100000
/-- Table 7-4 (R218). -/
def LLC_THRASH_FLAGS (d : Nat) : Nat := 0x4000010 + d * 0x100000
/-- Table 7-5 (R218). -/
def LLC_WMASK_A (d p : Nat) : Nat := 0x4000800 + d * 0x100000 + p * 0x10
/-- Table 7-5 (R218). -/
def LLC_WMASK_B (d p : Nat) : Nat := 0x4000808 + d * 0x100000 + p * 0x10
/-- Table 7-6 (R218). -/
def LLC_RETIRE (d n : Nat) : Nat := 0x4001000 + d * 0x100000 + n * 0x8
/-- Table 7-7 (R219). -/
def LLC_PIN_FLOOR (d i : Nat) : Nat := 0x4004000 + d * 0x100000 + i * 0x400
/-- Table 7-8 (R219). -/
def LLC_REPLICA_WAYS (d i : Nat) : Nat := 0x4004008 + d * 0x100000 + i * 0x400
/-- Table 7-9 (R219). -/
def LLC_SLICE_LFSR (d i : Nat) : Nat := 0x4004010 + d * 0x100000 + i * 0x400
/-- Table 7-10 (R219). -/
def LLC_SLICE_STATUS (d i : Nat) : Nat := 0x4004018 + d * 0x100000 + i * 0x400
/-- Table 7-11 (R219). -/
def LLC_THRASH_STATE (d i : Nat) : Nat := 0x4004020 + d * 0x100000 + i * 0x400
/-- Table 7-12 (R220). -/
def LLC_CNT_LOOKUP (d i : Nat) : Nat := 0x4004100 + d * 0x100000 + i * 0x400
/-- Table 7-12 (R220). -/
def LLC_CNT_MISS (d i : Nat) : Nat := 0x4004108 + d * 0x100000 + i * 0x400
/-- Table 7-12 (R220). -/
def LLC_CNT_REPL_HIT (d i : Nat) : Nat := 0x4004110 + d * 0x100000 + i * 0x400
/-- Table 7-12 (R220). -/
def LLC_CNT_REPL_FILL (d i : Nat) : Nat := 0x4004118 + d * 0x100000 + i * 0x400
/-- Table 7-12 (R220). -/
def LLC_CNT_EVICT (d i : Nat) : Nat := 0x4004120 + d * 0x100000 + i * 0x400
/-- Table 7-12 (R220). -/
def LLC_CNT_WB (d i : Nat) : Nat := 0x4004128 + d * 0x100000 + i * 0x400
/-- Table 7-12 (R220). -/
def LLC_CNT_VB_STALL (d i : Nat) : Nat := 0x4004130 + d * 0x100000 + i * 0x400
/-- Table 7-12 (R220). -/
def LLC_CNT_DECLINE (d i : Nat) : Nat := 0x4004138 + d * 0x100000 + i * 0x400
/-- Table 7-12 (R220). -/
def LLC_CNT_SHADOW (d i : Nat) : Nat := 0x4004140 + d * 0x100000 + i * 0x400
/-- Table 7-12 (R220). -/
def LLC_CNT_NALLOC (d i : Nat) : Nat := 0x4004148 + d * 0x100000 + i * 0x400
/-- Table 7-12 (R220). -/
def LLC_CNT_PIN_FAIL (d i : Nat) : Nat := 0x4004150 + d * 0x100000 + i * 0x400
/-- Table 7-12 (R220). -/
def LLC_CNT_PIN_LOST (d i : Nat) : Nat := 0x4004158 + d * 0x100000 + i * 0x400
/-- Table 8-12 (R249). -/
def DIR_CTL (d : Nat) : Nat := 0x5000000 + d * 0x100000
/-- Table 8-13 (R250). -/
def DIR_PROBE_ADDR (d : Nat) : Nat := 0x5000010 + d * 0x100000
/-- Table 8-14 (R250). -/
def DIR_PROBE_ENTRY (d : Nat) : Nat := 0x5000018 + d * 0x100000
/-- Table 8-14 (R250). -/
def DIR_PROBE_STATUS (d : Nat) : Nat := 0x5000020 + d * 0x100000
/-- Table 9-9 (R268). -/
def DIR_ACQ_EPOCH (d : Nat) : Nat := 0x5000028 + d * 0x100000
/-- Table 8-15 (R250). -/
def DIR_SLICE_TIE (d i : Nat) : Nat := 0x5004000 + d * 0x100000 + i * 0x400
/-- Table 8-16 (R251). -/
def DIR_CNT_TXN (d i : Nat) : Nat := 0x5004100 + d * 0x100000 + i * 0x400
/-- Table 8-16 (R251). -/
def DIR_CNT_FWD (d i : Nat) : Nat := 0x5004108 + d * 0x100000 + i * 0x400
/-- Table 8-16 (R251). -/
def DIR_CNT_TIE (d i : Nat) : Nat := 0x5004110 + d * 0x100000 + i * 0x400
/-- Table 8-16 (R251). -/
def DIR_CNT_RETRY (d i : Nat) : Nat := 0x5004118 + d * 0x100000 + i * 0x400
/-- Table 8-16 (R251). -/
def DIR_CNT_COARSE (d i : Nat) : Nat := 0x5004120 + d * 0x100000 + i * 0x400
/-- Table 8-16 (R251). -/
def DIR_CNT_BINV (d i : Nat) : Nat := 0x5004128 + d * 0x100000 + i * 0x400
/-- Table 8-16 (R251). -/
def DIR_CNT_REP_INV (d i : Nat) : Nat := 0x5004130 + d * 0x100000 + i * 0x400
/-- Table 8-16 (R251). -/
def DIR_CNT_RECALL (d i : Nat) : Nat := 0x5004138 + d * 0x100000 + i * 0x400
/-- Table 8-16 (R251). -/
def DIR_CNT_AMO_HOME (d i : Nat) : Nat := 0x5004140 + d * 0x100000 + i * 0x400
/-- Table 8-16 (R251). -/
def DIR_CNT_RADD (d i : Nat) : Nat := 0x5004148 + d * 0x100000 + i * 0x400
/-- Table 8-16 (R251). -/
def DIR_CNT_RADD_VB (d i : Nat) : Nat := 0x5004150 + d * 0x100000 + i * 0x400
/-- Table 8-16 (R251). -/
def DIR_CNT_RADD_REALLOC (d i : Nat) : Nat := 0x5004158 + d * 0x100000 + i * 0x400
/-- Table 8-16 (R251). -/
def DIR_CNT_RBUF_STALL (d i : Nat) : Nat := 0x5004160 + d * 0x100000 + i * 0x400
/-- Table 9-9 (R268). -/
def DIR_CNT_REP_STALE (d i : Nat) : Nat := 0x5004168 + d * 0x100000 + i * 0x400
/-- Table 10-8 (R293). -/
def FRM_CTL : Nat := 0x800000
/-- Table 10-8 (R293). -/
def FRM_PERIOD : Nat := 0x800008
/-- Table 10-9 (R293). -/
def FRM_REF : Nat := 0x800010
/-- Table 10-10 (R293). -/
def FRM_COUNT : Nat := 0x800018
/-- Table 10-10 (R293). -/
def FRM_COUNT_LOAD : Nat := 0x800020
/-- Table 10-10 (R293). -/
def FRM_ABORT_TAG : Nat := 0x800040
/-- Table 10-10 (R293). -/
def FRM_ABORT : Nat := 0x800048
/-- Table 10-10 (R293). -/
def FRM_ABORT_STATUS : Nat := 0x800050
/-- Table 10-11 (R293). -/
def FRM_BUDGET_C (p : Nat) : Nat := 0x801000 + p * 0x20
/-- Table 10-11 (R293). -/
def FRM_BUDGET_D (p : Nat) : Nat := 0x801008 + p * 0x20
/-- Table 10-11 (R293). -/
def FRM_BUDGET_L (p : Nat) : Nat := 0x801010 + p * 0x20
/-- Table 10-11 (R293). -/
def FRM_BUDGET_T (p : Nat) : Nat := 0x801018 + p * 0x20
/-- Table 10-11 (R293). -/
def FRM_TOLLS (p : Nat) : Nat := 0x801400 + p * 0x8
/-- Table 10-12 (R293). -/
def FRM_SLOT (i : Nat) : Nat := 0x808000 + i * 0x10
/-- Table 10-12 (R293). -/
def FRM_INST_STATE (i : Nat) : Nat := 0x808008 + i * 0x10
/-- Table 10-12 (R293). -/
def FRM_CNT_ADMIT : Nat := 0x800100
/-- Table 10-12 (R293). -/
def FRM_CNT_REFUSE : Nat := 0x800108
/-- Table 10-12 (R293). -/
def FRM_CNT_OVERRUN : Nat := 0x800110
/-- Table 10-12 (R293). -/
def FRM_CNT_RING_WAIT : Nat := 0x800118
/-- Table 11-7 (R322). -/
def PRT_CTL : Nat := 0xa00000
/-- Table 11-7 (R322). -/
def PRT_LEDGER : Nat := 0xa00008
/-- Table 11-7 (R322). -/
def PRT_CNT_SAVE : Nat := 0xa00010
/-- Table 11-7 (R322). -/
def PRT_CNT_RESTORE : Nat := 0xa00018
/-- Table 11-7 (R322). -/
def PRT_CNT_LEDGER_WAIT : Nat := 0xa00020
/-- Table 11-7 (R322). -/
def PRT_CNT_REISSUE : Nat := 0xa00028
/-- Table 11-8 (R322). -/
def PRT_DESC (p : Nat) : Nat := 0xa01000 + p * 0x100
/-- Table 11-8 (R322). -/
def PRT_OWN (p : Nat) : Nat := 0xa01008 + p * 0x100
/-- Table 11-8 (R322). -/
def PRT_ROWS (p n : Nat) : Nat := 0xa01010 + p * 0x100 + n * 0x8
/-- Table 11-8 (R322). -/
def PRT_LCROWS (p n : Nat) : Nat := 0xa01030 + p * 0x100 + n * 0x8
/-- Table 11-8 (R322). -/
def PRT_SAVE (p d : Nat) : Nat := 0xa01050 + p * 0x100 + d * 0x8
/-- Table 11-8 (R322). -/
def PRT_STATUS (p : Nat) : Nat := 0xa01090 + p * 0x100
/-- Table 11-9 (R322). -/
def PRT_GMAP (n : Nat) : Nat := 0xa04000 + n * 0x8
/-- Table 11-10 (R322). -/
def PRT_INST (i : Nat) : Nat := 0xa08000 + i * 0x8
/-- Table 12-6 (R345). -/
def MEM_DIE_CTL (d : Nat) : Nat := 0x6000000 + d * 0x200000
/-- Table 12-7 (R345). -/
def MEM_CE (d : Nat) : Nat := 0x6000008 + d * 0x200000
/-- Table 12-7 (R345). -/
def MEM_SCRUB (d : Nat) : Nat := 0x6000010 + d * 0x200000
/-- Table 12-8 (R345). -/
def MEM_MAP_INFO (d : Nat) : Nat := 0x6000018 + d * 0x200000
/-- Table 12-9 (R345). -/
def MEM_MAPOUT (d j : Nat) : Nat := 0x6000100 + d * 0x200000 + j * 0x8
/-- Table 12-10 (R345). -/
def MEM_STK_STATUS (d m : Nat) : Nat := 0x6010000 + d * 0x200000 + m * 0x10000
/-- Table 12-10 (R345). -/
def MEM_STK_SCRUB (d m : Nat) : Nat := 0x6010008 + d * 0x200000 + m * 0x10000
/-- Table 12-10 (R345). -/
def MEM_STK_HOT (d m : Nat) : Nat := 0x6010010 + d * 0x200000 + m * 0x10000
/-- Table 12-11 (R345). -/
def MEM_CH_STATUS (d m ch : Nat) : Nat := 0x6011000 + d * 0x200000 + m * 0x10000 + ch * 0x100
/-- Table 12-12 (R345). -/
def MEM_CH_CE (d m ch : Nat) : Nat := 0x6011008 + d * 0x200000 + m * 0x10000 + ch * 0x100
/-- Table 12-12 (R345). -/
def MEM_CH_ERR (d m ch : Nat) : Nat := 0x6011010 + d * 0x200000 + m * 0x10000 + ch * 0x100
/-- Table 12-12 (R345). -/
def MEM_CH_RETRY (d m ch : Nat) : Nat := 0x6011018 + d * 0x200000 + m * 0x10000 + ch * 0x100
/-- Table 12-12 (R345). -/
def MEM_CH_MIRROR (d m ch : Nat) : Nat := 0x6011020 + d * 0x200000 + m * 0x10000 + ch * 0x100
/-- Table 12-12 (R345). -/
def MEM_CH_SCRUB_FIX (d m ch : Nat) : Nat := 0x6011028 + d * 0x200000 + m * 0x10000 + ch * 0x100
/-- Table 13-7 (R371). -/
def CRL_CTL (i : Nat) : Nat := 0x8000000 + i * 0x80000
/-- Table 13-8 (R371). -/
def CRL_ROUTE (i : Nat) : Nat := 0x8000008 + i * 0x80000
/-- Table 13-8 (R371). -/
def CRL_SEAM (i : Nat) : Nat := 0x8000010 + i * 0x80000
/-- Table 13-8 (R371). -/
def CRL_SEAM_STALL (i : Nat) : Nat := 0x8000018 + i * 0x80000
/-- Table 13-9 (R371). -/
def CRL_LINK (i l : Nat) : Nat := 0x8000100 + i * 0x80000 + l * 0x80
/-- Table 13-10 (R371). -/
def CRL_BTAB (i l n : Nat) : Nat := 0x8000140 + i * 0x80000 + l * 0x80 + n * 8
/-- Table 13-11 (R371). -/
def CRL_BUN_STATUS (i l b : Nat) : Nat := 0x8010000 + i * 0x80000 + l * 0x10000 + b * 0x100
/-- Table 13-11 (R371). -/
def CRL_BUN_SPARE (i l b : Nat) : Nat := 0x8010008 + i * 0x80000 + l * 0x10000 + b * 0x100
/-- Table 13-12 (R371). -/
def CRL_BUN_ERR (i l b : Nat) : Nat := 0x8010010 + i * 0x80000 + l * 0x10000 + b * 0x100
/-- Table 13-12 (R371). -/
def CRL_BUN_LANES (i l b : Nat) : Nat := 0x8010018 + i * 0x80000 + l * 0x10000 + b * 0x100
/-- Table 13-12 (R371). -/
def CRL_BUN_WORST (i l b : Nat) : Nat := 0x8010020 + i * 0x80000 + l * 0x10000 + b * 0x100
/-- Table 14-5 (R398). -/
def HIF_PORT_CFG : Nat := 0x0
/-- Table 14-5 (R398). -/
def HIF_PORT (p : Nat) : Nat := 0x100 + p * 0x40
/-- Table 14-5 (R398). -/
def HIF_STAT (p : Nat) : Nat := 0x108 + p * 0x40
/-- Table 14-5 (R398). -/
def HIF_BAR2 (p : Nat) : Nat := 0x110 + p * 0x40
/-- Table 14-5 (R398). -/
def HIF_VEC (p v : Nat) : Nat := 0x20000 + p * 0x4000 + v * 0x8
/-- Table 14-5 (R398). -/
def HIF_PEER (p n : Nat) : Nat := 0x30000 + p * 0x80 + n * 0x8
/-- Table 14-5 (R398). -/
def HIF_PEER_WIN (n : Nat) : Nat := 0x30200 + n * 0x8
/-- Table 14-5 (R398). -/
def HIF_DLOG_CTL (i : Nat) : Nat := 0x180000 + i * 0x8
/-- Table 14-5 (R398). -/
def HIF_DLOG_BASE (i r : Nat) : Nat := 0x200000 + i * 0x200 + r * 0x20
/-- Table 14-5 (R398). -/
def HIF_DLOG_LEN (i r : Nat) : Nat := 0x200008 + i * 0x200 + r * 0x20
/-- Table 14-5 (R398). -/
def HIF_DLOG_MAP (i r : Nat) : Nat := 0x200010 + i * 0x200 + r * 0x20
/-- Table 14-6 (R399). -/
def MBX_ID (i : Nat) : Nat := 0x400000 + i * 0x1000
/-- Table 14-6 (R399). -/
def MBX_VER (i : Nat) : Nat := 0x400008 + i * 0x1000
/-- Table 14-6 (R399). -/
def MBX_REQ (i : Nat) : Nat := 0x400010 + i * 0x1000
/-- Table 14-6 (R399). -/
def MBX_ABORT_TAG (i : Nat) : Nat := 0x400018 + i * 0x1000
/-- Table 14-6 (R399). -/
def MBX_STATUS (i : Nat) : Nat := 0x400020 + i * 0x1000
/-- Table 14-6 (R399). -/
def MBX_IRQ (i : Nat) : Nat := 0x400028 + i * 0x1000
/-- Table 14-6 (R399). -/
def MBX_T2M (i : Nat) : Nat := 0x400030 + i * 0x1000
/-- Table 14-6 (R399). -/
def MBX_M2T (i : Nat) : Nat := 0x400038 + i * 0x1000
/-- Table 14-6 (R399). -/
def MBX_T2M_SLOT (i n w : Nat) : Nat := 0x400400 + i * 0x1000 + n * 0x40 + w * 8
/-- Table 14-6 (R399). -/
def MBX_M2T_SLOT (i n w : Nat) : Nat := 0x400800 + i * 0x1000 + n * 0x40 + w * 8
/-- Table 15-6 (R419). -/
def OPT_ID : Nat := 0x8800000
/-- Table 15-6 (R419). -/
def OPT_CTL : Nat := 0x8800008
/-- Table 15-6 (R419). -/
def OPT_DOMAIN : Nat := 0x8800010
/-- Table 15-6 (R419). -/
def OPT_CNT_REFUSED : Nat := 0x8800018
/-- Table 15-6 (R419). -/
def OPT_CNT_NOROUTE : Nat := 0x8800020
/-- Table 15-6 (R419). -/
def OPT_CNT_LOST : Nat := 0x8800028
/-- Table 15-7 (R419). -/
def OPT_ROUTE (e : Nat) : Nat := 0x8801000 + e * 0x8
/-- Table 15-8 (R419). -/
def OPT_PORT (n : Nat) : Nat := 0x8802000 + n * 0x40
/-- Table 15-8 (R419). -/
def OPT_PORT_ERR (n : Nat) : Nat := 0x8802008 + n * 0x40
/-- Table 15-9 (R419). -/
def OPT_WIN (n : Nat) : Nat := 0x8804000 + n * 0x10
/-- Table 15-9 (R419). -/
def OPT_WIN_BUS (n : Nat) : Nat := 0x8804008 + n * 0x10
/-- Table 15-10 (R419). -/
def OPT_EXPORT (n : Nat) : Nat := 0x8806000 + n * 0x8
/-- Table 16-3 (R436). -/
def EVC_ORDER (i : Nat) : Nat := 0x9000000 + i * 0x100000
/-- Table 16-3 (R436). -/
def EVC_HOST_ACK (i : Nat) : Nat := 0x9000008 + i * 0x100000
/-- Table 16-3 (R436). -/
def EVC_SW_SET (i : Nat) : Nat := 0x9000010 + i * 0x100000
/-- Table 16-3 (R436). -/
def EVC_CNT_MERGED (i : Nat) : Nat := 0x9000018 + i * 0x100000
/-- Table 16-3 (R436). -/
def EVC_CNT_DROPPED (i : Nat) : Nat := 0x9000020 + i * 0x100000
/-- Table 16-4 (R436). -/
def EVC_CPU (i c : Nat) : Nat := 0x9000100 + i * 0x100000 + c * 0x20
/-- Table 16-4 (R436). -/
def EVC_DONE (i c : Nat) : Nat := 0x9000108 + i * 0x100000 + c * 0x20
/-- Table 16-4 (R436). -/
def EVC_FAST_DONE (i c : Nat) : Nat := 0x9000110 + i * 0x100000 + c * 0x20
/-- Table 16-5 (R436). -/
def EVC_SRC (i n : Nat) : Nat := 0x9001000 + i * 0x100000 + n * 0x8
/-- Table 16-5 (R436). -/
def EVC_PEND (i k : Nat) : Nat := 0x9003000 + i * 0x100000 + k * 0x8
/-- Table 16-6 (R436). -/
def EVC_WATCH (n : Nat) : Nat := 0x9804000 + n * 0x8
/-- Table 16-6 (R436). -/
def EVC_WATCH_STATUS : Nat := 0x9804200
/-- Table 16-6 (R436). -/
def EVC_WATCH_TIMER : Nat := 0x9804208
/-- Table 17-7 (R456). -/
def PWR_STATE : Nat := 0xa800000
/-- Table 17-7 (R456). -/
def PWR_REQ : Nat := 0xa800008
/-- Table 17-7 (R456). -/
def PWR_CAP : Nat := 0xa800010
/-- Table 17-7 (R456). -/
def PWR_INPUT : Nat := 0xa800018
/-- Table 17-7 (R456). -/
def PWR_THERM : Nat := 0xa800020
/-- Table 17-7 (R456). -/
def PWR_TRIP : Nat := 0xa800028
/-- Table 17-8 (R456). -/
def PWR_TOLL (p : Nat) : Nat := 0xa801000 + p * 0x8
/-- Table 17-8 (R456). -/
def PWR_RATIO (i : Nat) : Nat := 0xa802000 + i * 0x8
/-- Table 17-9 (R456). -/
def PWR_DIE (d : Nat) : Nat := 0xa000040 + d * 0x100000
/-- Table 17-9 (R456). -/
def PWR_DROOP (d : Nat) : Nat := 0xa000048 + d * 0x100000
/-- Table 17-9 (R456). -/
def PWR_HALF (d h : Nat) : Nat := 0xa000100 + d * 0x100000 + h * 0x8
/-- Table 17-9 (R456). -/
def PWR_ROW (d h r : Nat) : Nat := 0xa000200 + d * 0x100000 + h * 0x80 + r * 8
/-- Table 18-8 (R483). -/
def ERR_CTL (i : Nat) : Nat := 0xb000000 + i * 0x100000
/-- Table 18-8 (R483). -/
def ERR_RING (i : Nat) : Nat := 0xb000008 + i * 0x100000
/-- Table 18-8 (R483). -/
def ERR_STAT (i : Nat) : Nat := 0xb000010 + i * 0x100000
/-- Table 18-8 (R483). -/
def ERR_OVF (i : Nat) : Nat := 0xb000018 + i * 0x100000
/-- Table 18-8 (R483). -/
def ERR_INJECT (i : Nat) : Nat := 0xb000020 + i * 0x100000
/-- R483, Table 18-6. -/
def ERR_REC (i n w : Nat) : Nat := 0xb010000 + i * 0x100000 + n * 0x40 + w * 8
/-- Table 19-8 (R501). -/
def BOOT_ID : Nat := 0xc000000
/-- Table 19-8 (R501). -/
def BOOT_SERIAL0 : Nat := 0xc000008
/-- Table 19-8 (R501). -/
def BOOT_SERIAL1 : Nat := 0xc000010
/-- Table 19-8 (R501). -/
def BOOT_STAGE : Nat := 0xc000018
/-- Table 19-8 (R501). -/
def BOOT_MODULE_RESET : Nat := 0xc000200
/-- Table 19-8 (R501). -/
def BOOT_DIE_RESET : Nat := 0xc000208
/-- Table 19-9 (R501). -/
def BOOT_READY0 : Nat := 0xc000020
/-- Table 19-9 (R501). -/
def BOOT_READY_STK : Nat := 0xc000028
/-- Table 19-9 (R501). -/
def BOOT_READY_PRT : Nat := 0xc000030
/-- Table 19-9 (R501). -/
def BOOT_STRAP (i : Nat) : Nat := 0xc000100 + i * 0x8
/-- Table 20-12 (R515). -/
def BOOT_IMG_ADDR : Nat := 0xc000300
/-- Table 20-12 (R515). -/
def BOOT_IMG_CTL : Nat := 0xc000308
/-- Table 20-12 (R515). -/
def BOOT_IMG_STATUS : Nat := 0xc000310
/-- Table 20-12 (R515). -/
def BOOT_IMG_SERIAL : Nat := 0xc000318
/-- Table 20-12 (R515). -/
def BOOT_IMG_COPY (k : Nat) : Nat := 0xc000320 + k * 0x8
/-- Table 21-7 (R530). -/
def SEC_FUSE : Nat := 0xd000000
/-- Table 21-7 (R530). -/
def SEC_NONCE : Nat := 0xd000008
/-- Table 21-7 (R530). -/
def SEC_CMD_ADDR : Nat := 0xd000010
/-- Table 21-7 (R530). -/
def SEC_CMD_CTL : Nat := 0xd000018
/-- Table 21-7 (R530). -/
def SEC_CMD_STATUS : Nat := 0xd000020
/-- Table 21-7 (R530). -/
def SEC_FW : Nat := 0xd000028
/-- Table 21-7 (R530). -/
def SEC_ATTEST : Nat := 0xd000100
/-- Table 21-7 (R530). -/
def SEC_ATTEST_NONCE (n : Nat) : Nat := 0xd000108 + n * 0x8
/-- Table 21-7 (R530). -/
def SEC_ATTEST_STATUS : Nat := 0xd000128
/-- Table 21-7 (R530). -/
def SEC_REPORT (n : Nat) : Nat := 0xd001000 + n * 0x8

end Reg

namespace Fld

def CORE_ID_outrider : Fld := ⟨15, 1⟩
def CORE_ID_in_service : Fld := ⟨14, 1⟩
def CORE_ID_index : Fld := ⟨0, 12⟩
def CORE_STATE_tokens_busy : Fld := ⟨16, 16⟩
def CORE_STATE_mv_q : Fld := ⟨12, 4⟩
def CORE_STATE_ve_q : Fld := ⟨8, 4⟩
def CORE_STATE_me_q : Fld := ⟨4, 4⟩
def CORE_STATE_state : Fld := ⟨0, 4⟩
def CORE_PC_pc : Fld := ⟨0, 52⟩
def CORE_FAULT_cause : Fld := ⟨56, 8⟩
def CORE_FAULT_pc : Fld := ⟨0, 52⟩
def CORE_ADDR_ERR_seen : Fld := ⟨63, 1⟩
def CORE_ADDR_ERR_first_valid : Fld := ⟨62, 1⟩
def CORE_ADDR_ERR_count : Fld := ⟨0, 32⟩
def CORE_ADDR_ERR_FIRST_addr : Fld := ⟨0, 64⟩
def CORE_LFSR_state : Fld := ⟨0, 64⟩
def CORE_CYCLES_count : Fld := ⟨0, 64⟩
def CORE_STALL_queue_full : Fld := ⟨48, 16⟩
def CORE_STALL_token_wait : Fld := ⟨32, 16⟩
def CORE_STALL_reg_wait : Fld := ⟨16, 16⟩
def CORE_STALL_fetch_miss : Fld := ⟨0, 16⟩
def CORE_ME_STATE_fmt_b : Fld := ⟨16, 4⟩
def CORE_ME_STATE_fmt_a : Fld := ⟨12, 4⟩
def CORE_ME_STATE_k_b : Fld := ⟨10, 2⟩
def CORE_ME_STATE_k_a : Fld := ⟨8, 2⟩
def CORE_ME_STATE_live_bank : Fld := ⟨0, 1⟩
def CORE_ME_POISON0_rows : Fld := ⟨0, 64⟩
def CORE_ME_POISON1_rows : Fld := ⟨0, 64⟩
def CORE_ME_MMA_count : Fld := ⟨0, 64⟩
def CORE_ME_BUSY_count : Fld := ⟨0, 64⟩
def CORE_ME_OUTLIER_count : Fld := ⟨0, 64⟩
def CORE_VE_STATUS_poison_escape : Fld := ⟨63, 1⟩
def CORE_VE_STATUS_escape_pc : Fld := ⟨0, 52⟩
def CORE_VE_OPS_count : Fld := ⟨0, 64⟩
def CORE_VE_BUSY_count : Fld := ⟨0, 64⟩
def CORE_VE_SR_count : Fld := ⟨0, 64⟩
def CORE_MV_STATE_last_tag : Fld := ⟨16, 8⟩
def CORE_MV_STATE_last_status : Fld := ⟨8, 8⟩
def CORE_MV_OUT_tags : Fld := ⟨0, 64⟩
def CORE_MV_BYTES_count : Fld := ⟨0, 64⟩
def CORE_MV_RECALL_count : Fld := ⟨0, 64⟩
def CORE_L1_HIT_count : Fld := ⟨0, 64⟩
def CORE_L1_MISS_count : Fld := ⟨0, 64⟩
def CORE_WSD_active : Fld := ⟨63, 1⟩
def CORE_WSD_run : Fld := ⟨32, 6⟩
def CORE_WSD_lines : Fld := ⟨0, 32⟩
def CORE_SYNC_EPOCH_epoch : Fld := ⟨0, 64⟩
def CORE_SYNC_ACQ_count : Fld := ⟨0, 64⟩
def CORE_SYNC_REL_count : Fld := ⟨0, 64⟩
def CORE_SYNC_STALL_count : Fld := ⟨0, 64⟩
def CORE_PREEMPT_level : Fld := ⟨32, 3⟩
def CORE_PREEMPT_ledger : Fld := ⟨16, 12⟩
def CORE_PREEMPT_state : Fld := ⟨0, 4⟩
def CORE_REMOTE_lost : Fld := ⟨63, 1⟩
def CORE_REMOTE_gen : Fld := ⟨24, 8⟩
def CORE_REMOTE_mv_out : Fld := ⟨16, 8⟩
def CORE_REMOTE_seq_out : Fld := ⟨0, 8⟩
def CORE_FMAX_read_valid : Fld := ⟨63, 1⟩
def CORE_FMAX_set_mhz : Fld := ⟨36, 12⟩
def CORE_FMAX_revised : Fld := ⟨24, 12⟩
def CORE_FMAX_fused : Fld := ⟨12, 12⟩
def CORE_ERR_write_failed : Fld := ⟨63, 1⟩
def CORE_ERR_seq_poison : Fld := ⟨62, 1⟩
def CORE_ERR_rel_blocked : Fld := ⟨61, 1⟩
def CORE_ERR_cause : Fld := ⟨52, 4⟩
def CORE_ERR_pc : Fld := ⟨0, 52⟩
def LLC_DIE_CTL_replica_en : Fld := ⟨7, 1⟩
def LLC_DIE_CTL_thrash_en : Fld := ⟨6, 1⟩
def LLC_DIE_CTL_stream_en : Fld := ⟨5, 1⟩
def LLC_THRASH_min_acc : Fld := ⟨32, 32⟩
def LLC_THRASH_thresh : Fld := ⟨0, 10⟩
def LLC_THRASH_FLAGS_entered : Fld := ⟨0, 64⟩
def LLC_WMASK_A_stream_be : Fld := ⟨48, 16⟩
def LLC_WMASK_A_stream_lc : Fld := ⟨32, 16⟩
def LLC_WMASK_A_core_be : Fld := ⟨16, 16⟩
def LLC_WMASK_A_core_lc : Fld := ⟨0, 16⟩
def LLC_WMASK_B_pin : Fld := ⟨32, 16⟩
def LLC_WMASK_B_repl_be : Fld := ⟨16, 16⟩
def LLC_WMASK_B_repl_lc : Fld := ⟨0, 16⟩
def LLC_RETIRE_retired : Fld := ⟨15, 1⟩
def LLC_RETIRE_target : Fld := ⟨0, 9⟩
def LLC_PIN_FLOOR_floor : Fld := ⟨0, 4⟩
def LLC_REPLICA_WAYS_ways : Fld := ⟨0, 16⟩
def LLC_SLICE_LFSR_state : Fld := ⟨0, 16⟩
def LLC_SLICE_STATUS_pinned_max : Fld := ⟨32, 5⟩
def LLC_SLICE_STATUS_sweep : Fld := ⟨3, 1⟩
def LLC_SLICE_STATUS_nalloc_be : Fld := ⟨2, 1⟩
def LLC_SLICE_STATUS_bypass : Fld := ⟨1, 1⟩
def LLC_SLICE_STATUS_in_service : Fld := ⟨0, 1⟩
def LLC_THRASH_STATE_looks : Fld := ⟨32, 32⟩
def LLC_THRASH_STATE_misses : Fld := ⟨0, 32⟩
def LLC_CNT_LOOKUP_count : Fld := ⟨0, 64⟩
def LLC_CNT_MISS_count : Fld := ⟨0, 64⟩
def LLC_CNT_REPL_HIT_count : Fld := ⟨0, 64⟩
def LLC_CNT_REPL_FILL_count : Fld := ⟨0, 64⟩
def LLC_CNT_EVICT_count : Fld := ⟨0, 64⟩
def LLC_CNT_WB_count : Fld := ⟨0, 64⟩
def LLC_CNT_VB_STALL_count : Fld := ⟨0, 64⟩
def LLC_CNT_DECLINE_count : Fld := ⟨0, 64⟩
def LLC_CNT_SHADOW_count : Fld := ⟨0, 64⟩
def LLC_CNT_NALLOC_count : Fld := ⟨0, 64⟩
def LLC_CNT_PIN_FAIL_count : Fld := ⟨0, 64⟩
def LLC_CNT_PIN_LOST_count : Fld := ⟨0, 64⟩
def DIR_CTL_hold : Fld := ⟨0, 9⟩
def DIR_PROBE_ADDR_line : Fld := ⟨7, 45⟩
def DIR_PROBE_ENTRY_rep_dies : Fld := ⟨56, 8⟩
def DIR_PROBE_ENTRY_ptrs : Fld := ⟨0, 56⟩
def DIR_PROBE_STATUS_done : Fld := ⟨63, 1⟩
def DIR_PROBE_STATUS_not_home : Fld := ⟨62, 1⟩
def DIR_PROBE_STATUS_where : Fld := ⟨60, 2⟩
def DIR_PROBE_STATUS_state : Fld := ⟨6, 2⟩
def DIR_PROBE_STATUS_coarse : Fld := ⟨5, 1⟩
def DIR_PROBE_STATUS_red_pin : Fld := ⟨4, 1⟩
def DIR_PROBE_STATUS_pinned : Fld := ⟨3, 1⟩
def DIR_ACQ_EPOCH_epoch : Fld := ⟨0, 64⟩
def DIR_SLICE_TIE_next : Fld := ⟨0, 13⟩
def DIR_CNT_TXN_count : Fld := ⟨0, 64⟩
def DIR_CNT_FWD_count : Fld := ⟨0, 64⟩
def DIR_CNT_TIE_count : Fld := ⟨0, 64⟩
def DIR_CNT_RETRY_count : Fld := ⟨0, 64⟩
def DIR_CNT_COARSE_count : Fld := ⟨0, 64⟩
def DIR_CNT_BINV_count : Fld := ⟨0, 64⟩
def DIR_CNT_REP_INV_count : Fld := ⟨0, 64⟩
def DIR_CNT_RECALL_count : Fld := ⟨0, 64⟩
def DIR_CNT_AMO_HOME_count : Fld := ⟨0, 64⟩
def DIR_CNT_RADD_count : Fld := ⟨0, 64⟩
def DIR_CNT_RADD_VB_count : Fld := ⟨0, 64⟩
def DIR_CNT_RADD_REALLOC_count : Fld := ⟨0, 64⟩
def DIR_CNT_RBUF_STALL_count : Fld := ⟨0, 64⟩
def DIR_CNT_REP_STALE_count : Fld := ⟨0, 64⟩
def FRM_CTL_overrun_max : Fld := ⟨0, 4⟩
def FRM_PERIOD_period_us : Fld := ⟨0, 14⟩
def FRM_REF_ref_lost : Fld := ⟨63, 1⟩
def FRM_REF_locked : Fld := ⟨62, 1⟩
def FRM_REF_offset_ns : Fld := ⟨16, 16⟩
def FRM_REF_mode : Fld := ⟨0, 1⟩
def FRM_COUNT_count : Fld := ⟨0, 64⟩
def FRM_COUNT_LOAD_value : Fld := ⟨0, 64⟩
def FRM_ABORT_TAG_tag : Fld := ⟨0, 64⟩
def FRM_ABORT_all : Fld := ⟨10, 1⟩
def FRM_ABORT_instance : Fld := ⟨0, 10⟩
def FRM_ABORT_STATUS_done : Fld := ⟨63, 1⟩
def FRM_ABORT_STATUS_busy_drop : Fld := ⟨62, 1⟩
def FRM_ABORT_STATUS_result : Fld := ⟨16, 2⟩
def FRM_ABORT_STATUS_matched : Fld := ⟨0, 16⟩
def FRM_BUDGET_C_budget : Fld := ⟨32, 32⟩
def FRM_BUDGET_C_remain : Fld := ⟨0, 32⟩
def FRM_BUDGET_D_remain : Fld := ⟨0, 64⟩
def FRM_BUDGET_L_remain : Fld := ⟨0, 64⟩
def FRM_BUDGET_T_rot : Fld := ⟨0, 10⟩
def FRM_TOLLS_remain : Fld := ⟨0, 64⟩
def FRM_SLOT_addr : Fld := ⟨8, 56⟩
def FRM_SLOT_ring_wait : Fld := ⟨3, 1⟩
def FRM_SLOT_space : Fld := ⟨1, 2⟩
def FRM_SLOT_active : Fld := ⟨0, 1⟩
def FRM_INST_STATE_produced : Fld := ⟨32, 32⟩
def FRM_INST_STATE_last_gen : Fld := ⟨0, 32⟩
def FRM_CNT_ADMIT_count : Fld := ⟨0, 64⟩
def FRM_CNT_REFUSE_count : Fld := ⟨0, 64⟩
def FRM_CNT_OVERRUN_count : Fld := ⟨0, 64⟩
def FRM_CNT_RING_WAIT_count : Fld := ⟨0, 64⟩
def PRT_CTL_remote_wait_us : Fld := ⟨0, 10⟩
def PRT_LEDGER_lost : Fld := ⟨32, 13⟩
def PRT_LEDGER_high : Fld := ⟨16, 13⟩
def PRT_LEDGER_used : Fld := ⟨0, 13⟩
def PRT_CNT_SAVE_count : Fld := ⟨0, 64⟩
def PRT_CNT_RESTORE_count : Fld := ⟨0, 64⟩
def PRT_CNT_LEDGER_WAIT_count : Fld := ⟨0, 64⟩
def PRT_CNT_REISSUE_count : Fld := ⟨0, 64⟩
def PRT_DESC_state : Fld := ⟨61, 3⟩
def PRT_DESC_hold : Fld := ⟨60, 1⟩
def PRT_DESC_scrub : Fld := ⟨59, 1⟩
def PRT_DESC_levels : Fld := ⟨56, 3⟩
def PRT_DESC_share : Fld := ⟨47, 9⟩
def PRT_DESC_fg_mhz : Fld := ⟨35, 12⟩
def PRT_DESC_nrows : Fld := ⟨15, 9⟩
def PRT_DESC_nlc : Fld := ⟨6, 9⟩
def PRT_OWN_owned : Fld := ⟨63, 1⟩
def PRT_OWN_pending : Fld := ⟨62, 1⟩
def PRT_OWN_refused : Fld := ⟨61, 1⟩
def PRT_OWN_req : Fld := ⟨16, 1⟩
def PRT_OWN_instance : Fld := ⟨0, 10⟩
def PRT_ROWS_rows : Fld := ⟨0, 64⟩
def PRT_LCROWS_rows : Fld := ⟨0, 64⟩
def PRT_SAVE_valid : Fld := ⟨63, 1⟩
def PRT_SAVE_base_gib : Fld := ⟨0, 12⟩
def PRT_STATUS_lc_at_risk : Fld := ⟨63, 1⟩
def PRT_STATUS_saved : Fld := ⟨8, 8⟩
def PRT_STATUS_running : Fld := ⟨0, 8⟩
def PRT_GMAP_valid (q : Nat) : Fld := ⟨16 * q + 15, 1⟩
def PRT_GMAP_kind (q : Nat) : Fld := ⟨16 * q + 13, 2⟩
def PRT_GMAP_die_local (q : Nat) : Fld := ⟨16 * q + 12, 1⟩
def PRT_GMAP_die (q : Nat) : Fld := ⟨16 * q + 9, 3⟩
def PRT_GMAP_mirrored (q : Nat) : Fld := ⟨16 * q + 8, 1⟩
def PRT_GMAP_partition (q : Nat) : Fld := ⟨16 * q + 0, 5⟩
def PRT_INST_bound : Fld := ⟨63, 1⟩
def PRT_INST_owns : Fld := ⟨62, 1⟩
def PRT_INST_bind_err : Fld := ⟨61, 1⟩
def PRT_INST_unbinding : Fld := ⟨60, 1⟩
def PRT_INST_port : Fld := ⟨56, 2⟩
def PRT_INST_partition : Fld := ⟨48, 5⟩
def PRT_INST_pasid : Fld := ⟨0, 20⟩
def MEM_DIE_CTL_retry_max : Fld := ⟨4, 4⟩
def MEM_DIE_CTL_scrub_en : Fld := ⟨0, 1⟩
def MEM_CE_fail_lines : Fld := ⟨48, 16⟩
def MEM_CE_window_ms : Fld := ⟨32, 16⟩
def MEM_CE_thresh : Fld := ⟨0, 32⟩
def MEM_SCRUB_period_h : Fld := ⟨0, 8⟩
def MEM_MAP_INFO_full : Fld := ⟨63, 1⟩
def MEM_MAP_INFO_reloc_dl : Fld := ⟨32, 24⟩
def MEM_MAP_INFO_mirror_near : Fld := ⟨8, 24⟩
def MEM_MAP_INFO_mapped_out : Fld := ⟨0, 7⟩
def MEM_MAPOUT_valid : Fld := ⟨63, 1⟩
def MEM_MAPOUT_channel : Fld := ⟨0, 10⟩
def MEM_STK_STATUS_temp_c : Fld := ⟨40, 8⟩
def MEM_STK_STATUS_temp_max : Fld := ⟨32, 8⟩
def MEM_STK_STATUS_self_refresh : Fld := ⟨3, 1⟩
def MEM_STK_STATUS_throttled : Fld := ⟨2, 1⟩
def MEM_STK_STATUS_refresh : Fld := ⟨0, 2⟩
def MEM_STK_SCRUB_passes : Fld := ⟨32, 32⟩
def MEM_STK_SCRUB_position : Fld := ⟨0, 32⟩
def MEM_STK_HOT_count : Fld := ⟨0, 64⟩
def MEM_CH_STATUS_spare1 : Fld := ⟨24, 8⟩
def MEM_CH_STATUS_spare0 : Fld := ⟨16, 8⟩
def MEM_CH_STATUS_fail_lines : Fld := ⟨8, 8⟩
def MEM_CH_STATUS_state : Fld := ⟨0, 3⟩
def MEM_CH_CE_count : Fld := ⟨0, 64⟩
def MEM_CH_ERR_transient : Fld := ⟨32, 32⟩
def MEM_CH_ERR_uncorrected : Fld := ⟨0, 32⟩
def MEM_CH_RETRY_count : Fld := ⟨0, 64⟩
def MEM_CH_MIRROR_count : Fld := ⟨0, 64⟩
def MEM_CH_SCRUB_FIX_count : Fld := ⟨0, 64⟩
def CRL_CTL_window_ms : Fld := ⟨48, 16⟩
def CRL_CTL_bundle_thresh : Fld := ⟨32, 16⟩
def CRL_CTL_lane_thresh : Fld := ⟨16, 16⟩
def CRL_CTL_replay_max : Fld := ⟨0, 4⟩
def CRL_ROUTE_route : Fld := ⟨0, 30⟩
def CRL_SEAM_e_mhz : Fld := ⟨28, 12⟩
def CRL_SEAM_w_mhz : Fld := ⟨16, 12⟩
def CRL_SEAM_gated_e : Fld := ⟨1, 1⟩
def CRL_SEAM_gated_w : Fld := ⟨0, 1⟩
def CRL_SEAM_STALL_e_to_w : Fld := ⟨32, 32⟩
def CRL_SEAM_STALL_w_to_e : Fld := ⟨0, 32⟩
def CRL_LINK_mismatch : Fld := ⟨63, 1⟩
def CRL_LINK_state : Fld := ⟨60, 3⟩
def CRL_LINK_peer : Fld := ⟨56, 4⟩
def CRL_LINK_ver_major : Fld := ⟨52, 4⟩
def CRL_LINK_ver_minor : Fld := ⟨48, 4⟩
def CRL_LINK_built : Fld := ⟨28, 7⟩
def CRL_LINK_full : Fld := ⟨21, 7⟩
def CRL_LINK_half : Fld := ⟨14, 7⟩
def CRL_LINK_retired : Fld := ⟨7, 7⟩
def CRL_BTAB_entries : Fld := ⟨0, 64⟩
def CRL_BUN_STATUS_cause : Fld := ⟨13, 3⟩
def CRL_BUN_STATUS_pending : Fld := ⟨11, 2⟩
def CRL_BUN_STATUS_quiesce : Fld := ⟨10, 1⟩
def CRL_BUN_STATUS_peer_state : Fld := ⟨3, 3⟩
def CRL_BUN_STATUS_state : Fld := ⟨0, 3⟩
def CRL_BUN_SPARE_map : Fld := ⟨0, 32⟩
def CRL_BUN_ERR_crc : Fld := ⟨32, 32⟩
def CRL_BUN_ERR_replays : Fld := ⟨0, 32⟩
def CRL_BUN_LANES_failed : Fld := ⟨0, 64⟩
def CRL_BUN_WORST_lane : Fld := ⟨32, 6⟩
def CRL_BUN_WORST_count : Fld := ⟨0, 32⟩
def HIF_PORT_CFG_p1_role : Fld := ⟨0, 1⟩
def HIF_PORT_up : Fld := ⟨63, 1⟩
def HIF_PORT_down_seen : Fld := ⟨62, 1⟩
def HIF_PORT_flit : Fld := ⟨61, 1⟩
def HIF_PORT_ats_en : Fld := ⟨60, 1⟩
def HIF_PORT_ide_link : Fld := ⟨59, 1⟩
def HIF_PORT_ide_sel : Fld := ⟨55, 4⟩
def HIF_PORT_width : Fld := ⟨4, 4⟩
def HIF_PORT_rate : Fld := ⟨0, 4⟩
def HIF_STAT_denied : Fld := ⟨32, 32⟩
def HIF_STAT_vec_denied : Fld := ⟨0, 32⟩
def HIF_BAR2_base_gib : Fld := ⟨0, 12⟩
def HIF_VEC_inst : Fld := ⟨63, 1⟩
def HIF_VEC_instance : Fld := ⟨0, 10⟩
def HIF_PEER_valid : Fld := ⟨63, 1⟩
def HIF_PEER_mask : Fld := ⟨16, 16⟩
def HIF_PEER_rid : Fld := ⟨0, 16⟩
def HIF_PEER_WIN_valid : Fld := ⟨63, 1⟩
def HIF_PEER_WIN_wr : Fld := ⟨62, 1⟩
def HIF_PEER_WIN_count : Fld := ⟨12, 12⟩
def HIF_PEER_WIN_base_gib : Fld := ⟨0, 12⟩
def HIF_DLOG_CTL_en : Fld := ⟨63, 1⟩
def HIF_DLOG_CTL_busy : Fld := ⟨62, 1⟩
def HIF_DLOG_CTL_unranged : Fld := ⟨61, 1⟩
def HIF_DLOG_CTL_map_fault : Fld := ⟨60, 1⟩
def HIF_DLOG_CTL_range_en : Fld := ⟨0, 16⟩
def HIF_DLOG_BASE_base : Fld := ⟨12, 52⟩
def HIF_DLOG_LEN_pages : Fld := ⟨0, 36⟩
def HIF_DLOG_MAP_addr : Fld := ⟨3, 61⟩
def MBX_ID_bound : Fld := ⟨63, 1⟩
def MBX_ID_unbinding : Fld := ⟨62, 1⟩
def MBX_ID_tdi_state : Fld := ⟨60, 2⟩
def MBX_ID_port : Fld := ⟨58, 2⟩
def MBX_ID_partition : Fld := ⟨48, 5⟩
def MBX_ID_instance : Fld := ⟨0, 10⟩
def MBX_VER_ten_max : Fld := ⟨12, 4⟩
def MBX_VER_ten_min : Fld := ⟨8, 4⟩
def MBX_VER_major : Fld := ⟨4, 4⟩
def MBX_VER_minor : Fld := ⟨0, 4⟩
def MBX_REQ_op : Fld := ⟨0, 3⟩
def MBX_ABORT_TAG_tag : Fld := ⟨0, 64⟩
def MBX_STATUS_owned : Fld := ⟨63, 1⟩
def MBX_STATUS_own_pending : Fld := ⟨62, 1⟩
def MBX_STATUS_own_refused : Fld := ⟨61, 1⟩
def MBX_STATUS_abort_done : Fld := ⟨60, 1⟩
def MBX_STATUS_abort_busy_drop : Fld := ⟨59, 1⟩
def MBX_STATUS_abort_result : Fld := ⟨57, 2⟩
def MBX_STATUS_slot_fault : Fld := ⟨56, 1⟩
def MBX_STATUS_ring_fault : Fld := ⟨55, 1⟩
def MBX_STATUS_drops : Fld := ⟨16, 16⟩
def MBX_STATUS_matched : Fld := ⟨0, 16⟩
def MBX_IRQ_t2m_en : Fld := ⟨63, 1⟩
def MBX_IRQ_t2m_vec : Fld := ⟨32, 11⟩
def MBX_IRQ_m2t_en : Fld := ⟨31, 1⟩
def MBX_IRQ_m2t_vec : Fld := ⟨0, 11⟩
def MBX_T2M_acked : Fld := ⟨16, 16⟩
def MBX_T2M_next : Fld := ⟨0, 16⟩
def MBX_M2T_consumed : Fld := ⟨16, 16⟩
def MBX_M2T_next : Fld := ⟨0, 16⟩
def OPT_ID_valid : Fld := ⟨63, 1⟩
def OPT_ID_module_id : Fld := ⟨0, 12⟩
def OPT_CTL_replay_max : Fld := ⟨16, 4⟩
def OPT_CTL_hb_us : Fld := ⟨0, 16⟩
def OPT_DOMAIN_notices : Fld := ⟨32, 32⟩
def OPT_DOMAIN_loss_count : Fld := ⟨16, 16⟩
def OPT_DOMAIN_epoch : Fld := ⟨0, 16⟩
def OPT_CNT_REFUSED_count : Fld := ⟨0, 64⟩
def OPT_CNT_NOROUTE_count : Fld := ⟨0, 64⟩
def OPT_CNT_LOST_count : Fld := ⟨0, 64⟩
def OPT_ROUTE_valid : Fld := ⟨63, 1⟩
def OPT_ROUTE_npaths : Fld := ⟨60, 3⟩
def OPT_ROUTE_live : Fld := ⟨56, 4⟩
def OPT_ROUTE_dest : Fld := ⟨32, 12⟩
def OPT_ROUTE_ports : Fld := ⟨0, 16⟩
def OPT_PORT_state : Fld := ⟨61, 3⟩
def OPT_PORT_cause : Fld := ⟨58, 3⟩
def OPT_PORT_half : Fld := ⟨57, 1⟩
def OPT_PORT_ver : Fld := ⟨40, 8⟩
def OPT_PORT_peer_port : Fld := ⟨36, 4⟩
def OPT_PORT_peer_id : Fld := ⟨24, 12⟩
def OPT_PORT_ERR_fec_fixed : Fld := ⟨32, 32⟩
def OPT_PORT_ERR_fec_bad : Fld := ⟨16, 16⟩
def OPT_PORT_ERR_naks : Fld := ⟨0, 16⟩
def OPT_WIN_valid : Fld := ⟨63, 1⟩
def OPT_WIN_port : Fld := ⟨62, 1⟩
def OPT_WIN_size_log2 : Fld := ⟨56, 6⟩
def OPT_WIN_module : Fld := ⟨44, 12⟩
def OPT_WIN_target_gib : Fld := ⟨0, 12⟩
def OPT_WIN_BUS_base : Fld := ⟨0, 64⟩
def OPT_EXPORT_valid : Fld := ⟨63, 1⟩
def OPT_EXPORT_wr : Fld := ⟨62, 1⟩
def OPT_EXPORT_kind : Fld := ⟨61, 1⟩
def OPT_EXPORT_src_mask : Fld := ⟨36, 12⟩
def OPT_EXPORT_src_id : Fld := ⟨24, 12⟩
def OPT_EXPORT_count : Fld := ⟨12, 12⟩
def OPT_EXPORT_base : Fld := ⟨0, 12⟩
def EVC_ORDER_count : Fld := ⟨32, 32⟩
def EVC_ORDER_cpu : Fld := ⟨30, 2⟩
def EVC_ORDER_written : Fld := ⟨16, 10⟩
def EVC_ORDER_empty : Fld := ⟨10, 1⟩
def EVC_ORDER_top : Fld := ⟨0, 10⟩
def EVC_HOST_ACK_source : Fld := ⟨0, 10⟩
def EVC_SW_SET_n : Fld := ⟨0, 5⟩
def EVC_CNT_MERGED_count : Fld := ⟨0, 64⟩
def EVC_CNT_DROPPED_count : Fld := ⟨0, 64⟩
def EVC_CPU_fast_busy : Fld := ⟨63, 1⟩
def EVC_CPU_fast_src : Fld := ⟨42, 10⟩
def EVC_CPU_depth : Fld := ⟨14, 5⟩
def EVC_CPU_top_prio : Fld := ⟨10, 4⟩
def EVC_CPU_top_src : Fld := ⟨0, 10⟩
def EVC_DONE_source : Fld := ⟨0, 10⟩
def EVC_FAST_DONE_source : Fld := ⟨0, 10⟩
def EVC_SRC_level : Fld := ⟨63, 1⟩
def EVC_SRC_asserted : Fld := ⟨62, 1⟩
def EVC_SRC_pending : Fld := ⟨61, 1⟩
def EVC_SRC_in_service : Fld := ⟨60, 1⟩
def EVC_SRC_host_wait : Fld := ⟨59, 1⟩
def EVC_SRC_host_again : Fld := ⟨58, 1⟩
def EVC_SRC_dc_en : Fld := ⟨55, 1⟩
def EVC_SRC_fast : Fld := ⟨54, 1⟩
def EVC_SRC_cpu : Fld := ⟨52, 2⟩
def EVC_SRC_prio : Fld := ⟨48, 4⟩
def EVC_SRC_host_en : Fld := ⟨47, 1⟩
def EVC_SRC_host_port : Fld := ⟨46, 1⟩
def EVC_SRC_vector : Fld := ⟨35, 11⟩
def EVC_SRC_core_en : Fld := ⟨34, 1⟩
def EVC_SRC_wake : Fld := ⟨30, 4⟩
def EVC_SRC_core : Fld := ⟨18, 12⟩
def EVC_PEND_pending : Fld := ⟨0, 64⟩
def EVC_WATCH_en : Fld := ⟨63, 1⟩
def EVC_WATCH_die : Fld := ⟨10, 4⟩
def EVC_WATCH_source : Fld := ⟨0, 10⟩
def EVC_WATCH_STATUS_woke : Fld := ⟨63, 1⟩
def EVC_WATCH_STATUS_entry : Fld := ⟨0, 6⟩
def EVC_WATCH_TIMER_ms : Fld := ⟨0, 32⟩
def PWR_STATE_req_refused : Fld := ⟨63, 1⟩
def PWR_STATE_wake_blocked : Fld := ⟨62, 1⟩
def PWR_STATE_busy : Fld := ⟨61, 1⟩
def PWR_STATE_cause : Fld := ⟨4, 4⟩
def PWR_STATE_state : Fld := ⟨0, 4⟩
def PWR_REQ_target : Fld := ⟨0, 2⟩
def PWR_CAP_amp_lim : Fld := ⟨48, 16⟩
def PWR_CAP_uplift : Fld := ⟨38, 10⟩
def PWR_CAP_base_w : Fld := ⟨26, 12⟩
def PWR_CAP_cap_w : Fld := ⟨13, 13⟩
def PWR_INPUT_volts : Fld := ⟨48, 16⟩
def PWR_INPUT_amps : Fld := ⟨32, 16⟩
def PWR_INPUT_watts : Fld := ⟨0, 32⟩
def PWR_THERM_throttle_c : Fld := ⟨16, 8⟩
def PWR_THERM_hot_die : Fld := ⟨12, 4⟩
def PWR_THERM_hot_c : Fld := ⟨0, 8⟩
def PWR_TRIP_count : Fld := ⟨32, 32⟩
def PWR_TRIP_die : Fld := ⟨12, 4⟩
def PWR_TRIP_sensor : Fld := ⟨0, 12⟩
def PWR_TOLL_over : Fld := ⟨48, 16⟩
def PWR_TOLL_spent : Fld := ⟨32, 16⟩
def PWR_TOLL_pred : Fld := ⟨16, 16⟩
def PWR_TOLL_be_lim : Fld := ⟨0, 16⟩
def PWR_RATIO_warm : Fld := ⟨10, 5⟩
def PWR_RATIO_r : Fld := ⟨0, 10⟩
def PWR_DIE_temp_c : Fld := ⟨40, 8⟩
def PWR_DIE_temp_max : Fld := ⟨32, 8⟩
def PWR_DIE_watts : Fld := ⟨0, 32⟩
def PWR_DROOP_burst : Fld := ⟨32, 32⟩
def PWR_DROOP_thresh_mv : Fld := ⟨0, 8⟩
def PWR_HALF_ceil_mhz : Fld := ⟨52, 12⟩
def PWR_HALF_set_mhz : Fld := ⟨40, 12⟩
def PWR_HALF_therm_mhz : Fld := ⟨28, 12⟩
def PWR_HALF_gated : Fld := ⟨0, 1⟩
def PWR_ROW_heavy : Fld := ⟨61, 3⟩
def PWR_ROW_droops : Fld := ⟨48, 13⟩
def PWR_ROW_energy_uj : Fld := ⟨0, 48⟩
def ERR_CTL_slice_ue : Fld := ⟨16, 8⟩
def ERR_CTL_merge_ms : Fld := ⟨0, 16⟩
def ERR_RING_consumed : Fld := ⟨32, 32⟩
def ERR_RING_produced : Fld := ⟨0, 32⟩
def ERR_STAT_fatal : Fld := ⟨48, 16⟩
def ERR_STAT_contained : Fld := ⟨32, 16⟩
def ERR_STAT_deferred : Fld := ⟨16, 16⟩
def ERR_STAT_corrected : Fld := ⟨0, 16⟩
def ERR_OVF_overflow : Fld := ⟨63, 1⟩
def ERR_OVF_overwritten : Fld := ⟨32, 16⟩
def ERR_OVF_dropped : Fld := ⟨0, 32⟩
def ERR_INJECT_core : Fld := ⟨16, 12⟩
def ERR_INJECT_kind : Fld := ⟨4, 2⟩
def ERR_INJECT_unit : Fld := ⟨0, 4⟩
def BOOT_ID_primary : Fld := ⟨40, 1⟩
def BOOT_ID_revision : Fld := ⟨0, 32⟩
def BOOT_SERIAL0_chars : Fld := ⟨0, 64⟩
def BOOT_SERIAL1_chars : Fld := ⟨0, 32⟩
def BOOT_STAGE_ms : Fld := ⟨32, 32⟩
def BOOT_STAGE_stage : Fld := ⟨0, 4⟩
def BOOT_MODULE_RESET_key : Fld := ⟨48, 16⟩
def BOOT_DIE_RESET_busy : Fld := ⟨63, 1⟩
def BOOT_DIE_RESET_refused : Fld := ⟨62, 1⟩
def BOOT_DIE_RESET_die : Fld := ⟨0, 4⟩
def BOOT_READY0_opt : Fld := ⟨30, 16⟩
def BOOT_READY0_slices : Fld := ⟨14, 16⟩
def BOOT_READY0_die : Fld := ⟨4, 10⟩
def BOOT_READY0_image : Fld := ⟨3, 1⟩
def BOOT_READY0_mailbox : Fld := ⟨2, 1⟩
def BOOT_READY0_p1 : Fld := ⟨1, 1⟩
def BOOT_READY0_p0 : Fld := ⟨0, 1⟩
def BOOT_READY_STK_stacks : Fld := ⟨0, 32⟩
def BOOT_READY_PRT_parts : Fld := ⟨0, 32⟩
def BOOT_STRAP_valid : Fld := ⟨63, 1⟩
def BOOT_STRAP_par_err : Fld := ⟨62, 1⟩
def BOOT_STRAP_dup : Fld := ⟨61, 1⟩
def BOOT_STRAP_held : Fld := ⟨60, 1⟩
def BOOT_STRAP_die_role : Fld := ⟨4, 2⟩
def BOOT_STRAP_die_id : Fld := ⟨1, 3⟩
def BOOT_STRAP_die_par : Fld := ⟨0, 1⟩
def BOOT_IMG_ADDR_addr : Fld := ⟨12, 52⟩
def BOOT_IMG_CTL_len : Fld := ⟨18, 25⟩
def BOOT_IMG_CTL_partition : Fld := ⟨13, 5⟩
def BOOT_IMG_CTL_port : Fld := ⟨8, 1⟩
def BOOT_IMG_CTL_op : Fld := ⟨0, 3⟩
def BOOT_IMG_STATUS_done : Fld := ⟨63, 1⟩
def BOOT_IMG_STATUS_busy : Fld := ⟨62, 1⟩
def BOOT_IMG_STATUS_busy_drop : Fld := ⟨61, 1⟩
def BOOT_IMG_STATUS_check : Fld := ⟨48, 8⟩
def BOOT_IMG_STATUS_partition : Fld := ⟨43, 5⟩
def BOOT_IMG_STATUS_section : Fld := ⟨32, 8⟩
def BOOT_IMG_STATUS_result : Fld := ⟨0, 4⟩
def BOOT_IMG_SERIAL_applied : Fld := ⟨32, 32⟩
def BOOT_IMG_SERIAL_floor : Fld := ⟨0, 32⟩
def BOOT_IMG_COPY_valid : Fld := ⟨63, 1⟩
def BOOT_IMG_COPY_booted : Fld := ⟨62, 1⟩
def BOOT_IMG_COPY_serial : Fld := ⟨0, 32⟩
def SEC_FUSE_debug_kill : Fld := ⟨63, 1⟩
def SEC_FUSE_primary_x1 : Fld := ⟨62, 1⟩
def SEC_FUSE_debug_unlocked : Fld := ⟨61, 1⟩
def SEC_FUSE_revoked : Fld := ⟨32, 16⟩
def SEC_FUSE_arb : Fld := ⟨16, 7⟩
def SEC_FUSE_enrolled : Fld := ⟨0, 16⟩
def SEC_NONCE_nonce : Fld := ⟨0, 64⟩
def SEC_CMD_ADDR_addr : Fld := ⟨7, 57⟩
def SEC_CMD_CTL_len : Fld := ⟨16, 27⟩
def SEC_CMD_CTL_port : Fld := ⟨8, 1⟩
def SEC_CMD_CTL_op : Fld := ⟨0, 3⟩
def SEC_CMD_STATUS_done : Fld := ⟨63, 1⟩
def SEC_CMD_STATUS_busy : Fld := ⟨62, 1⟩
def SEC_CMD_STATUS_busy_drop : Fld := ⟨61, 1⟩
def SEC_CMD_STATUS_result : Fld := ⟨0, 4⟩
def SEC_FW_svn1 : Fld := ⟨56, 8⟩
def SEC_FW_svn0 : Fld := ⟨48, 8⟩
def SEC_FW_valid1 : Fld := ⟨47, 1⟩
def SEC_FW_valid0 : Fld := ⟨46, 1⟩
def SEC_FW_booted : Fld := ⟨0, 1⟩
def SEC_ATTEST_inst_en : Fld := ⟨63, 1⟩
def SEC_ATTEST_instance : Fld := ⟨0, 10⟩
def SEC_ATTEST_NONCE_nonce : Fld := ⟨0, 64⟩
def SEC_ATTEST_STATUS_done : Fld := ⟨63, 1⟩
def SEC_ATTEST_STATUS_busy : Fld := ⟨62, 1⟩
def SEC_ATTEST_STATUS_busy_drop : Fld := ⟨61, 1⟩
def SEC_ATTEST_STATUS_result : Fld := ⟨0, 2⟩
def SEC_REPORT_bytes : Fld := ⟨0, 64⟩

end Fld

namespace Fam

/-- Table 3-8 (R114). -/
def CORE_ID : Family := { base := 0x1000000, dims := [(256, 0x20000), (10, 0x2000)], fields := [
  { hi := 15, lo := 15, acc := .ro, reset := fun ix => if coreOf ix % 16 == 9 then 1 else 0 },
  { hi := 14, lo := 14, acc := .ro },
  { hi := 11, lo := 0, acc := .ro, reset := fun ix => coreOf ix } ] }
/-- Table 3-9 (R114). -/
def CORE_STATE : Family := { base := 0x1000008, dims := [(256, 0x20000), (10, 0x2000)], fields := [
  { hi := 31, lo := 16, acc := .ro },
  { hi := 15, lo := 12, acc := .ro },
  { hi := 11, lo := 8, acc := .ro },
  { hi := 7, lo := 4, acc := .ro },
  { hi := 3, lo := 0, acc := .ro } ] }
/-- Table 3-10 (R114). -/
def CORE_PC : Family := { base := 0x1000010, dims := [(256, 0x20000), (10, 0x2000)], fields := [
  { hi := 51, lo := 0, acc := .ro } ] }
/-- Table 3-11 (R114). -/
def CORE_FAULT : Family := { base := 0x1000018, dims := [(256, 0x20000), (10, 0x2000)], fields := [
  { hi := 63, lo := 56, acc := .ro },
  { hi := 51, lo := 0, acc := .ro } ] }
/-- Table 3-12 (R114). -/
def CORE_ADDR_ERR : Family := { base := 0x1000100, dims := [(256, 0x20000), (10, 0x2000)], fields := [
  { hi := 63, lo := 63, acc := .w1c },
  { hi := 62, lo := 62, acc := .ro },
  { hi := 31, lo := 0, acc := .ro } ] }
/-- Table 3-13 (R114). -/
def CORE_ADDR_ERR_FIRST : Family := { base := 0x1000108, dims := [(256, 0x20000), (10, 0x2000)], fields := [
  { hi := 63, lo := 0, acc := .ro } ] }
/-- Table 2-7 (R72). -/
def CORE_LFSR : Family := { base := 0x1000180, dims := [(256, 0x20000), (10, 0x2000)], fields := [
  { hi := 63, lo := 0, acc := .rw, resv := fun v _ => v == 0, reset := fun ix => 0xC2B5000000000001 + coreOf ix * 0x10 } ] }
/-- Table 3-14 (R114). -/
def CORE_CYCLES : Family := { base := 0x1000200, dims := [(256, 0x20000), (10, 0x2000)], fields := [
  { hi := 63, lo := 0, acc := .ro } ] }
/-- Table 3-14 (R114). -/
def CORE_STALL : Family := { base := 0x1000208, dims := [(256, 0x20000), (10, 0x2000)], fields := [
  { hi := 63, lo := 48, acc := .ro },
  { hi := 47, lo := 32, acc := .ro },
  { hi := 31, lo := 16, acc := .ro },
  { hi := 15, lo := 0, acc := .ro } ] }
/-- Table 4-6 (R136). -/
def CORE_ME_STATE : Family := { base := 0x1000400, dims := [(256, 0x20000), (10, 0x2000)], fields := [
  { hi := 19, lo := 16, acc := .ro, reset := fun _ => 0xF },
  { hi := 15, lo := 12, acc := .ro, reset := fun _ => 0xF },
  { hi := 11, lo := 10, acc := .ro },
  { hi := 9, lo := 8, acc := .ro },
  { hi := 0, lo := 0, acc := .ro } ] }
/-- Table 4-7 (R136). -/
def CORE_ME_POISON0 : Family := { base := 0x1000408, dims := [(256, 0x20000), (10, 0x2000)], fields := [
  { hi := 63, lo := 0, acc := .ro } ] }
/-- Table 4-7 (R136). -/
def CORE_ME_POISON1 : Family := { base := 0x1000410, dims := [(256, 0x20000), (10, 0x2000)], fields := [
  { hi := 63, lo := 0, acc := .ro } ] }
/-- Table 4-8 (R136). -/
def CORE_ME_MMA : Family := { base := 0x1000418, dims := [(256, 0x20000), (10, 0x2000)], fields := [
  { hi := 63, lo := 0, acc := .ro } ] }
/-- Table 4-8 (R136). -/
def CORE_ME_BUSY : Family := { base := 0x1000420, dims := [(256, 0x20000), (10, 0x2000)], fields := [
  { hi := 63, lo := 0, acc := .ro } ] }
/-- Table 4-8 (R136). -/
def CORE_ME_OUTLIER : Family := { base := 0x1000428, dims := [(256, 0x20000), (10, 0x2000)], fields := [
  { hi := 63, lo := 0, acc := .ro } ] }
/-- Table 5-7 (R164). -/
def CORE_VE_STATUS : Family := { base := 0x1000500, dims := [(256, 0x20000), (10, 0x2000)], fields := [
  { hi := 63, lo := 63, acc := .w1c },
  { hi := 51, lo := 0, acc := .ro } ] }
/-- Table 5-8 (R164). -/
def CORE_VE_OPS : Family := { base := 0x1000508, dims := [(256, 0x20000), (10, 0x2000)], fields := [
  { hi := 63, lo := 0, acc := .ro } ] }
/-- Table 5-8 (R164). -/
def CORE_VE_BUSY : Family := { base := 0x1000510, dims := [(256, 0x20000), (10, 0x2000)], fields := [
  { hi := 63, lo := 0, acc := .ro } ] }
/-- Table 5-8 (R164). -/
def CORE_VE_SR : Family := { base := 0x1000518, dims := [(256, 0x20000), (10, 0x2000)], fields := [
  { hi := 63, lo := 0, acc := .ro } ] }
/-- Table 6-8 (R185). -/
def CORE_MV_STATE : Family := { base := 0x1000600, dims := [(256, 0x20000), (10, 0x2000)], fields := [
  { hi := 23, lo := 16, acc := .ro },
  { hi := 15, lo := 8, acc := .ro } ] }
/-- Table 6-9 (R185). -/
def CORE_MV_OUT : Family := { base := 0x1000608, dims := [(256, 0x20000), (10, 0x2000), (4, 0x8)], fields := [
  { hi := 63, lo := 0, acc := .ro } ] }
/-- Table 6-9 (R185). -/
def CORE_MV_BYTES : Family := { base := 0x1000628, dims := [(256, 0x20000), (10, 0x2000)], fields := [
  { hi := 63, lo := 0, acc := .ro } ] }
/-- Table 6-9 (R185). -/
def CORE_MV_RECALL : Family := { base := 0x1000630, dims := [(256, 0x20000), (10, 0x2000)], fields := [
  { hi := 63, lo := 0, acc := .ro } ] }
/-- Table 7-13 (R221). -/
def CORE_L1_HIT : Family := { base := 0x1000700, dims := [(256, 0x20000), (10, 0x2000)], fields := [
  { hi := 63, lo := 0, acc := .ro } ] }
/-- Table 7-13 (R221). -/
def CORE_L1_MISS : Family := { base := 0x1000708, dims := [(256, 0x20000), (10, 0x2000)], fields := [
  { hi := 63, lo := 0, acc := .ro } ] }
/-- Table 7-13 (R221). -/
def CORE_WSD : Family := { base := 0x1000710, dims := [(256, 0x20000), (10, 0x2000)], fields := [
  { hi := 63, lo := 63, acc := .ro },
  { hi := 37, lo := 32, acc := .ro },
  { hi := 31, lo := 0, acc := .ro } ] }
/-- Table 9-8 (R268). -/
def CORE_SYNC_EPOCH : Family := { base := 0x1000800, dims := [(256, 0x20000), (10, 0x2000)], fields := [
  { hi := 63, lo := 0, acc := .ro } ] }
/-- Table 9-8 (R268). -/
def CORE_SYNC_ACQ : Family := { base := 0x1000808, dims := [(256, 0x20000), (10, 0x2000)], fields := [
  { hi := 63, lo := 0, acc := .ro } ] }
/-- Table 9-8 (R268). -/
def CORE_SYNC_REL : Family := { base := 0x1000810, dims := [(256, 0x20000), (10, 0x2000)], fields := [
  { hi := 63, lo := 0, acc := .ro } ] }
/-- Table 9-8 (R268). -/
def CORE_SYNC_STALL : Family := { base := 0x1000818, dims := [(256, 0x20000), (10, 0x2000)], fields := [
  { hi := 63, lo := 0, acc := .ro } ] }
/-- Table 11-11 (R323). -/
def CORE_PREEMPT : Family := { base := 0x1000900, dims := [(256, 0x20000), (10, 0x2000)], fields := [
  { hi := 34, lo := 32, acc := .ro },
  { hi := 27, lo := 16, acc := .ro },
  { hi := 3, lo := 0, acc := .ro } ] }
/-- Table 15-11 (R420). -/
def CORE_REMOTE : Family := { base := 0x1000a00, dims := [(256, 0x20000), (10, 0x2000)], fields := [
  { hi := 63, lo := 63, acc := .ro },
  { hi := 31, lo := 24, acc := .ro },
  { hi := 23, lo := 16, acc := .ro },
  { hi := 7, lo := 0, acc := .ro } ] }
/-- Table 17-10 (R457). -/
def CORE_FMAX : Family := { base := 0x1000b00, dims := [(256, 0x20000), (10, 0x2000)], fields := [
  { hi := 63, lo := 63, acc := .ro },
  { hi := 47, lo := 36, acc := .ro, reset := fun _ => 1800 },
  { hi := 35, lo := 24, acc := .ro, reset := fun ix => Config.fmaxRevised (coreOf ix) },
  { hi := 23, lo := 12, acc := .ro, reset := fun ix => Config.fmaxFused (coreOf ix) } ] }
/-- Table 18-9 (R484). -/
def CORE_ERR : Family := { base := 0x1000c00, dims := [(256, 0x20000), (10, 0x2000)], fields := [
  { hi := 63, lo := 63, acc := .ro },
  { hi := 62, lo := 62, acc := .ro },
  { hi := 61, lo := 61, acc := .ro },
  { hi := 55, lo := 52, acc := .ro },
  { hi := 51, lo := 0, acc := .ro } ] }

/-- The register families of the CORE_ block. -/
def block_core : List Family := [CORE_ID, CORE_STATE, CORE_PC, CORE_FAULT, CORE_ADDR_ERR, CORE_ADDR_ERR_FIRST, CORE_LFSR, CORE_CYCLES, CORE_STALL, CORE_ME_STATE, CORE_ME_POISON0, CORE_ME_POISON1, CORE_ME_MMA, CORE_ME_BUSY, CORE_ME_OUTLIER, CORE_VE_STATUS, CORE_VE_OPS, CORE_VE_BUSY, CORE_VE_SR, CORE_MV_STATE, CORE_MV_OUT, CORE_MV_BYTES, CORE_MV_RECALL, CORE_L1_HIT, CORE_L1_MISS, CORE_WSD, CORE_SYNC_EPOCH, CORE_SYNC_ACQ, CORE_SYNC_REL, CORE_SYNC_STALL, CORE_PREEMPT, CORE_REMOTE, CORE_FMAX, CORE_ERR]

/-- Table 7-2 (R218). -/
def LLC_DIE_CTL : Family := { base := 0x4000000, dims := [(8, 0x100000)], fields := [
  { hi := 7, lo := 7, acc := .rw, reset := fun _ => 1 },
  { hi := 6, lo := 6, acc := .rw, reset := fun _ => 1 },
  { hi := 5, lo := 5, acc := .rw, reset := fun _ => 1 } ] }
/-- Table 7-3 (R218). -/
def LLC_THRASH : Family := { base := 0x4000008, dims := [(8, 0x100000)], fields := [
  { hi := 63, lo := 32, acc := .rw, reset := fun _ => 0x00001000 },
  { hi := 9, lo := 0, acc := .rw, reset := fun _ => 0x180 } ] }
/-- Table 7-4 (R218). -/
def LLC_THRASH_FLAGS : Family := { base := 0x4000010, dims := [(8, 0x100000)], fields := [
  { hi := 63, lo := 0, acc := .w1c } ] }
/-- Table 7-5 (R218). -/
def LLC_WMASK_A : Family := { base := 0x4000800, dims := [(8, 0x100000), (32, 0x10)], fields := [
  { hi := 63, lo := 48, acc := .rw, img := true },
  { hi := 47, lo := 32, acc := .rw, img := true },
  { hi := 31, lo := 16, acc := .rw, img := true },
  { hi := 15, lo := 0, acc := .rw, img := true } ] }
/-- Table 7-5 (R218). -/
def LLC_WMASK_B : Family := { base := 0x4000808, dims := [(8, 0x100000), (32, 0x10)], fields := [
  { hi := 47, lo := 32, acc := .rw, img := true },
  { hi := 31, lo := 16, acc := .rw, img := true },
  { hi := 15, lo := 0, acc := .rw, img := true } ] }
/-- Table 7-6 (R218). -/
def LLC_RETIRE : Family := { base := 0x4001000, dims := [(8, 0x100000), (512, 0x8)], fields := [
  { hi := 15, lo := 15, acc := .ro },
  { hi := 8, lo := 0, acc := .ro, reset := fun ix => ix.getD 1 0 } ] }
/-- Table 7-7 (R219). -/
def LLC_PIN_FLOOR : Family := { base := 0x4004000, dims := [(8, 0x100000), (64, 0x400)], fields := [
  { hi := 3, lo := 0, acc := .rw, img := true, reset := fun _ => 2, resv := fun v _ => v < 2 || 8 < v } ] }
/-- Table 7-8 (R219). -/
def LLC_REPLICA_WAYS : Family := { base := 0x4004008, dims := [(8, 0x100000), (64, 0x400)], fields := [
  { hi := 15, lo := 0, acc := .rw, img := true, reset := fun _ => 0xC000, resv := fun v _ => 8 < popCount 16 v } ] }
/-- Table 7-9 (R219). -/
def LLC_SLICE_LFSR : Family := { base := 0x4004010, dims := [(8, 0x100000), (64, 0x400)], fields := [
  { hi := 15, lo := 0, acc := .rw, reset := fun ix => (ix.getD 0 0 * 64 + ix.getD 1 0) * 128 ||| 0x5B, resv := fun v _ => v == 0 } ] }
/-- Table 7-10 (R219). -/
def LLC_SLICE_STATUS : Family := { base := 0x4004018, dims := [(8, 0x100000), (64, 0x400)], fields := [
  { hi := 36, lo := 32, acc := .ro },
  { hi := 3, lo := 3, acc := .ro },
  { hi := 2, lo := 2, acc := .ro },
  { hi := 1, lo := 1, acc := .ro },
  { hi := 0, lo := 0, acc := .ro } ] }
/-- Table 7-11 (R219). -/
def LLC_THRASH_STATE : Family := { base := 0x4004020, dims := [(8, 0x100000), (64, 0x400)], fields := [
  { hi := 63, lo := 32, acc := .ro },
  { hi := 31, lo := 0, acc := .ro } ] }
/-- Table 7-12 (R220). -/
def LLC_CNT_LOOKUP : Family := { base := 0x4004100, dims := [(8, 0x100000), (64, 0x400)], fields := [
  { hi := 63, lo := 0, acc := .ro } ] }
/-- Table 7-12 (R220). -/
def LLC_CNT_MISS : Family := { base := 0x4004108, dims := [(8, 0x100000), (64, 0x400)], fields := [
  { hi := 63, lo := 0, acc := .ro } ] }
/-- Table 7-12 (R220). -/
def LLC_CNT_REPL_HIT : Family := { base := 0x4004110, dims := [(8, 0x100000), (64, 0x400)], fields := [
  { hi := 63, lo := 0, acc := .ro } ] }
/-- Table 7-12 (R220). -/
def LLC_CNT_REPL_FILL : Family := { base := 0x4004118, dims := [(8, 0x100000), (64, 0x400)], fields := [
  { hi := 63, lo := 0, acc := .ro } ] }
/-- Table 7-12 (R220). -/
def LLC_CNT_EVICT : Family := { base := 0x4004120, dims := [(8, 0x100000), (64, 0x400)], fields := [
  { hi := 63, lo := 0, acc := .ro } ] }
/-- Table 7-12 (R220). -/
def LLC_CNT_WB : Family := { base := 0x4004128, dims := [(8, 0x100000), (64, 0x400)], fields := [
  { hi := 63, lo := 0, acc := .ro } ] }
/-- Table 7-12 (R220). -/
def LLC_CNT_VB_STALL : Family := { base := 0x4004130, dims := [(8, 0x100000), (64, 0x400)], fields := [
  { hi := 63, lo := 0, acc := .ro } ] }
/-- Table 7-12 (R220). -/
def LLC_CNT_DECLINE : Family := { base := 0x4004138, dims := [(8, 0x100000), (64, 0x400)], fields := [
  { hi := 63, lo := 0, acc := .ro } ] }
/-- Table 7-12 (R220). -/
def LLC_CNT_SHADOW : Family := { base := 0x4004140, dims := [(8, 0x100000), (64, 0x400)], fields := [
  { hi := 63, lo := 0, acc := .ro } ] }
/-- Table 7-12 (R220). -/
def LLC_CNT_NALLOC : Family := { base := 0x4004148, dims := [(8, 0x100000), (64, 0x400)], fields := [
  { hi := 63, lo := 0, acc := .ro } ] }
/-- Table 7-12 (R220). -/
def LLC_CNT_PIN_FAIL : Family := { base := 0x4004150, dims := [(8, 0x100000), (64, 0x400)], fields := [
  { hi := 63, lo := 0, acc := .ro } ] }
/-- Table 7-12 (R220). -/
def LLC_CNT_PIN_LOST : Family := { base := 0x4004158, dims := [(8, 0x100000), (64, 0x400)], fields := [
  { hi := 63, lo := 0, acc := .ro } ] }

/-- The register families of the LLC_ block. -/
def block_llc : List Family := [LLC_DIE_CTL, LLC_THRASH, LLC_THRASH_FLAGS, LLC_WMASK_A, LLC_WMASK_B, LLC_RETIRE, LLC_PIN_FLOOR, LLC_REPLICA_WAYS, LLC_SLICE_LFSR, LLC_SLICE_STATUS, LLC_THRASH_STATE, LLC_CNT_LOOKUP, LLC_CNT_MISS, LLC_CNT_REPL_HIT, LLC_CNT_REPL_FILL, LLC_CNT_EVICT, LLC_CNT_WB, LLC_CNT_VB_STALL, LLC_CNT_DECLINE, LLC_CNT_SHADOW, LLC_CNT_NALLOC, LLC_CNT_PIN_FAIL, LLC_CNT_PIN_LOST]

/-- Table 8-12 (R249). -/
def DIR_CTL : Family := { base := 0x5000000, dims := [(8, 0x100000)], fields := [
  { hi := 8, lo := 0, acc := .rw, img := true, reset := fun _ => 24, resv := fun v _ => v < 16 || 256 < v } ] }
/-- Table 8-13 (R250). -/
def DIR_PROBE_ADDR : Family := { base := 0x5000010, dims := [(8, 0x100000)], fields := [
  { hi := 51, lo := 7, acc := .wo } ] }
/-- Table 8-14 (R250). -/
def DIR_PROBE_ENTRY : Family := { base := 0x5000018, dims := [(8, 0x100000)], fields := [
  { hi := 63, lo := 56, acc := .ro },
  { hi := 55, lo := 0, acc := .ro } ] }
/-- Table 8-14 (R250). -/
def DIR_PROBE_STATUS : Family := { base := 0x5000020, dims := [(8, 0x100000)], fields := [
  { hi := 63, lo := 63, acc := .ro },
  { hi := 62, lo := 62, acc := .ro },
  { hi := 61, lo := 60, acc := .ro },
  { hi := 7, lo := 6, acc := .ro },
  { hi := 5, lo := 5, acc := .ro },
  { hi := 4, lo := 4, acc := .ro },
  { hi := 3, lo := 3, acc := .ro } ] }
/-- Table 9-9 (R268). -/
def DIR_ACQ_EPOCH : Family := { base := 0x5000028, dims := [(8, 0x100000)], fields := [
  { hi := 63, lo := 0, acc := .ro } ] }
/-- Table 8-15 (R250). -/
def DIR_SLICE_TIE : Family := { base := 0x5004000, dims := [(8, 0x100000), (64, 0x400)], fields := [
  { hi := 12, lo := 0, acc := .ro } ] }
/-- Table 8-16 (R251). -/
def DIR_CNT_TXN : Family := { base := 0x5004100, dims := [(8, 0x100000), (64, 0x400)], fields := [
  { hi := 63, lo := 0, acc := .ro } ] }
/-- Table 8-16 (R251). -/
def DIR_CNT_FWD : Family := { base := 0x5004108, dims := [(8, 0x100000), (64, 0x400)], fields := [
  { hi := 63, lo := 0, acc := .ro } ] }
/-- Table 8-16 (R251). -/
def DIR_CNT_TIE : Family := { base := 0x5004110, dims := [(8, 0x100000), (64, 0x400)], fields := [
  { hi := 63, lo := 0, acc := .ro } ] }
/-- Table 8-16 (R251). -/
def DIR_CNT_RETRY : Family := { base := 0x5004118, dims := [(8, 0x100000), (64, 0x400)], fields := [
  { hi := 63, lo := 0, acc := .ro } ] }
/-- Table 8-16 (R251). -/
def DIR_CNT_COARSE : Family := { base := 0x5004120, dims := [(8, 0x100000), (64, 0x400)], fields := [
  { hi := 63, lo := 0, acc := .ro } ] }
/-- Table 8-16 (R251). -/
def DIR_CNT_BINV : Family := { base := 0x5004128, dims := [(8, 0x100000), (64, 0x400)], fields := [
  { hi := 63, lo := 0, acc := .ro } ] }
/-- Table 8-16 (R251). -/
def DIR_CNT_REP_INV : Family := { base := 0x5004130, dims := [(8, 0x100000), (64, 0x400)], fields := [
  { hi := 63, lo := 0, acc := .ro } ] }
/-- Table 8-16 (R251). -/
def DIR_CNT_RECALL : Family := { base := 0x5004138, dims := [(8, 0x100000), (64, 0x400)], fields := [
  { hi := 63, lo := 0, acc := .ro } ] }
/-- Table 8-16 (R251). -/
def DIR_CNT_AMO_HOME : Family := { base := 0x5004140, dims := [(8, 0x100000), (64, 0x400)], fields := [
  { hi := 63, lo := 0, acc := .ro } ] }
/-- Table 8-16 (R251). -/
def DIR_CNT_RADD : Family := { base := 0x5004148, dims := [(8, 0x100000), (64, 0x400)], fields := [
  { hi := 63, lo := 0, acc := .ro } ] }
/-- Table 8-16 (R251). -/
def DIR_CNT_RADD_VB : Family := { base := 0x5004150, dims := [(8, 0x100000), (64, 0x400)], fields := [
  { hi := 63, lo := 0, acc := .ro } ] }
/-- Table 8-16 (R251). -/
def DIR_CNT_RADD_REALLOC : Family := { base := 0x5004158, dims := [(8, 0x100000), (64, 0x400)], fields := [
  { hi := 63, lo := 0, acc := .ro } ] }
/-- Table 8-16 (R251). -/
def DIR_CNT_RBUF_STALL : Family := { base := 0x5004160, dims := [(8, 0x100000), (64, 0x400)], fields := [
  { hi := 63, lo := 0, acc := .ro } ] }
/-- Table 9-9 (R268). -/
def DIR_CNT_REP_STALE : Family := { base := 0x5004168, dims := [(8, 0x100000), (64, 0x400)], fields := [
  { hi := 63, lo := 0, acc := .ro } ] }

/-- The register families of the DIR_ block. -/
def block_dir : List Family := [DIR_CTL, DIR_PROBE_ADDR, DIR_PROBE_ENTRY, DIR_PROBE_STATUS, DIR_ACQ_EPOCH, DIR_SLICE_TIE, DIR_CNT_TXN, DIR_CNT_FWD, DIR_CNT_TIE, DIR_CNT_RETRY, DIR_CNT_COARSE, DIR_CNT_BINV, DIR_CNT_REP_INV, DIR_CNT_RECALL, DIR_CNT_AMO_HOME, DIR_CNT_RADD, DIR_CNT_RADD_VB, DIR_CNT_RADD_REALLOC, DIR_CNT_RBUF_STALL, DIR_CNT_REP_STALE]

/-- Table 10-8 (R293). -/
def FRM_CTL : Family := { base := 0x800000, dims := [], fields := [
  { hi := 3, lo := 0, acc := .rw, img := true, reset := fun _ => 4, resv := fun v _ => v == 0 } ] }
/-- Table 10-8 (R293). -/
def FRM_PERIOD : Family := { base := 0x800008, dims := [], fields := [
  { hi := 13, lo := 0, acc := .rw, img := true, reset := fun _ => 250, resv := fun v _ => v < 20 || 10000 < v } ] }
/-- Table 10-9 (R293). -/
def FRM_REF : Family := { base := 0x800010, dims := [], fields := [
  { hi := 63, lo := 63, acc := .w1c },
  { hi := 62, lo := 62, acc := .ro },
  { hi := 31, lo := 16, acc := .rw, img := true },
  { hi := 0, lo := 0, acc := .rw, img := true } ] }
/-- Table 10-10 (R293). -/
def FRM_COUNT : Family := { base := 0x800018, dims := [], fields := [
  { hi := 63, lo := 0, acc := .ro } ] }
/-- Table 10-10 (R293). -/
def FRM_COUNT_LOAD : Family := { base := 0x800020, dims := [], fields := [
  { hi := 63, lo := 0, acc := .wo } ] }
/-- Table 10-10 (R293). -/
def FRM_ABORT_TAG : Family := { base := 0x800040, dims := [], fields := [
  { hi := 63, lo := 0, acc := .rw } ] }
/-- Table 10-10 (R293). -/
def FRM_ABORT : Family := { base := 0x800048, dims := [], fields := [
  { hi := 10, lo := 10, acc := .wo },
  { hi := 9, lo := 0, acc := .wo } ] }
/-- Table 10-10 (R293). -/
def FRM_ABORT_STATUS : Family := { base := 0x800050, dims := [], fields := [
  { hi := 63, lo := 63, acc := .ro },
  { hi := 62, lo := 62, acc := .w1c },
  { hi := 17, lo := 16, acc := .ro },
  { hi := 15, lo := 0, acc := .ro } ] }
/-- Table 10-11 (R293). -/
def FRM_BUDGET_C : Family := { base := 0x801000, dims := [(32, 0x20)], fields := [
  { hi := 63, lo := 32, acc := .ro },
  { hi := 31, lo := 0, acc := .ro } ] }
/-- Table 10-11 (R293). -/
def FRM_BUDGET_D : Family := { base := 0x801008, dims := [(32, 0x20)], fields := [
  { hi := 63, lo := 0, acc := .ro } ] }
/-- Table 10-11 (R293). -/
def FRM_BUDGET_L : Family := { base := 0x801010, dims := [(32, 0x20)], fields := [
  { hi := 63, lo := 0, acc := .ro } ] }
/-- Table 10-11 (R293). -/
def FRM_BUDGET_T : Family := { base := 0x801018, dims := [(32, 0x20)], fields := [
  { hi := 9, lo := 0, acc := .ro } ] }
/-- Table 10-11 (R293). -/
def FRM_TOLLS : Family := { base := 0x801400, dims := [(32, 0x8)], fields := [
  { hi := 63, lo := 0, acc := .ro } ] }
/-- Table 10-12 (R293). -/
def FRM_SLOT : Family := { base := 0x808000, dims := [(1024, 0x10)], fields := [
  { hi := 63, lo := 8, acc := .rw },
  { hi := 3, lo := 3, acc := .ro },
  { hi := 2, lo := 1, acc := .rw, resv := fun v _ => v == 3 },
  { hi := 0, lo := 0, acc := .rw } ] }
/-- Table 10-12 (R293). -/
def FRM_INST_STATE : Family := { base := 0x808008, dims := [(1024, 0x10)], fields := [
  { hi := 63, lo := 32, acc := .ro },
  { hi := 31, lo := 0, acc := .ro } ] }
/-- Table 10-12 (R293). -/
def FRM_CNT_ADMIT : Family := { base := 0x800100, dims := [], fields := [
  { hi := 63, lo := 0, acc := .ro } ] }
/-- Table 10-12 (R293). -/
def FRM_CNT_REFUSE : Family := { base := 0x800108, dims := [], fields := [
  { hi := 63, lo := 0, acc := .ro } ] }
/-- Table 10-12 (R293). -/
def FRM_CNT_OVERRUN : Family := { base := 0x800110, dims := [], fields := [
  { hi := 63, lo := 0, acc := .ro } ] }
/-- Table 10-12 (R293). -/
def FRM_CNT_RING_WAIT : Family := { base := 0x800118, dims := [], fields := [
  { hi := 63, lo := 0, acc := .ro } ] }

/-- The register families of the FRM_ block. -/
def block_frm : List Family := [FRM_CTL, FRM_PERIOD, FRM_REF, FRM_COUNT, FRM_COUNT_LOAD, FRM_ABORT_TAG, FRM_ABORT, FRM_ABORT_STATUS, FRM_BUDGET_C, FRM_BUDGET_D, FRM_BUDGET_L, FRM_BUDGET_T, FRM_TOLLS, FRM_SLOT, FRM_INST_STATE, FRM_CNT_ADMIT, FRM_CNT_REFUSE, FRM_CNT_OVERRUN, FRM_CNT_RING_WAIT]

/-- Table 11-7 (R322). -/
def PRT_CTL : Family := { base := 0xa00000, dims := [], fields := [
  { hi := 9, lo := 0, acc := .rw, reset := fun _ => 50, resv := fun v _ => v == 0 || 1000 < v } ] }
/-- Table 11-7 (R322). -/
def PRT_LEDGER : Family := { base := 0xa00008, dims := [], fields := [
  { hi := 44, lo := 32, acc := .ro },
  { hi := 28, lo := 16, acc := .ro },
  { hi := 12, lo := 0, acc := .ro } ] }
/-- Table 11-7 (R322). -/
def PRT_CNT_SAVE : Family := { base := 0xa00010, dims := [], fields := [
  { hi := 63, lo := 0, acc := .ro } ] }
/-- Table 11-7 (R322). -/
def PRT_CNT_RESTORE : Family := { base := 0xa00018, dims := [], fields := [
  { hi := 63, lo := 0, acc := .ro } ] }
/-- Table 11-7 (R322). -/
def PRT_CNT_LEDGER_WAIT : Family := { base := 0xa00020, dims := [], fields := [
  { hi := 63, lo := 0, acc := .ro } ] }
/-- Table 11-7 (R322). -/
def PRT_CNT_REISSUE : Family := { base := 0xa00028, dims := [], fields := [
  { hi := 63, lo := 0, acc := .ro } ] }
/-- Table 11-8 (R322). -/
def PRT_DESC : Family := { base := 0xa01000, dims := [(32, 0x100)], fields := [
  { hi := 63, lo := 61, acc := .ro },
  { hi := 60, lo := 60, acc := .rw },
  { hi := 59, lo := 59, acc := .rw, img := true },
  { hi := 58, lo := 56, acc := .rw, img := true, reset := fun _ => 2, resv := fun v _ => v == 1 },
  { hi := 55, lo := 47, acc := .rw, img := true },
  { hi := 46, lo := 35, acc := .rw, img := true, reset := fun _ => 1800 },
  { hi := 23, lo := 15, acc := .ro },
  { hi := 14, lo := 6, acc := .ro } ] }
/-- Table 11-8 (R322). -/
def PRT_OWN : Family := { base := 0xa01008, dims := [(32, 0x100)], fields := [
  { hi := 63, lo := 63, acc := .ro },
  { hi := 62, lo := 62, acc := .ro },
  { hi := 61, lo := 61, acc := .w1c },
  { hi := 16, lo := 16, acc := .wo },
  { hi := 9, lo := 0, acc := .rw } ] }
/-- Table 11-8 (R322). -/
def PRT_ROWS : Family := { base := 0xa01010, dims := [(32, 0x100), (4, 0x8)], fields := [
  { hi := 63, lo := 0, acc := .rw, img := true } ] }
/-- Table 11-8 (R322). -/
def PRT_LCROWS : Family := { base := 0xa01030, dims := [(32, 0x100), (4, 0x8)], fields := [
  { hi := 63, lo := 0, acc := .rw, img := true } ] }
/-- Table 11-8 (R322). -/
def PRT_SAVE : Family := { base := 0xa01050, dims := [(32, 0x100), (8, 0x8)], fields := [
  { hi := 63, lo := 63, acc := .rw, img := true },
  { hi := 11, lo := 0, acc := .rw, img := true } ] }
/-- Table 11-8 (R322). -/
def PRT_STATUS : Family := { base := 0xa01090, dims := [(32, 0x100)], fields := [
  { hi := 63, lo := 63, acc := .w1c },
  { hi := 15, lo := 8, acc := .ro },
  { hi := 7, lo := 0, acc := .ro } ] }
/-- Table 11-9 (R322). -/
def PRT_GMAP : Family := { base := 0xa04000, dims := [(768, 0x8)], fields := [
  { hi := 15, lo := 15, acc := .rw, img := true },
  { hi := 31, lo := 31, acc := .rw, img := true },
  { hi := 47, lo := 47, acc := .rw, img := true },
  { hi := 63, lo := 63, acc := .rw, img := true },
  { hi := 14, lo := 13, acc := .rw, img := true, resv := fun v _ => v == 3 },
  { hi := 30, lo := 29, acc := .rw, img := true, resv := fun v _ => v == 3 },
  { hi := 46, lo := 45, acc := .rw, img := true, resv := fun v _ => v == 3 },
  { hi := 62, lo := 61, acc := .rw, img := true, resv := fun v _ => v == 3 },
  { hi := 12, lo := 12, acc := .rw, img := true },
  { hi := 28, lo := 28, acc := .rw, img := true },
  { hi := 44, lo := 44, acc := .rw, img := true },
  { hi := 60, lo := 60, acc := .rw, img := true },
  { hi := 11, lo := 9, acc := .rw, img := true },
  { hi := 27, lo := 25, acc := .rw, img := true },
  { hi := 43, lo := 41, acc := .rw, img := true },
  { hi := 59, lo := 57, acc := .rw, img := true },
  { hi := 8, lo := 8, acc := .rw, img := true },
  { hi := 24, lo := 24, acc := .rw, img := true },
  { hi := 40, lo := 40, acc := .rw, img := true },
  { hi := 56, lo := 56, acc := .rw, img := true },
  { hi := 4, lo := 0, acc := .rw, img := true },
  { hi := 20, lo := 16, acc := .rw, img := true },
  { hi := 36, lo := 32, acc := .rw, img := true },
  { hi := 52, lo := 48, acc := .rw, img := true } ] }
/-- Table 11-10 (R322). -/
def PRT_INST : Family := { base := 0xa08000, dims := [(1024, 0x8)], fields := [
  { hi := 63, lo := 63, acc := .rw },
  { hi := 62, lo := 62, acc := .ro },
  { hi := 61, lo := 61, acc := .w1c },
  { hi := 60, lo := 60, acc := .ro },
  { hi := 57, lo := 56, acc := .rw, resv := fun v _ => 2 <= v },
  { hi := 52, lo := 48, acc := .rw },
  { hi := 19, lo := 0, acc := .rw } ] }

/-- The register families of the PRT_ block. -/
def block_prt : List Family := [PRT_CTL, PRT_LEDGER, PRT_CNT_SAVE, PRT_CNT_RESTORE, PRT_CNT_LEDGER_WAIT, PRT_CNT_REISSUE, PRT_DESC, PRT_OWN, PRT_ROWS, PRT_LCROWS, PRT_SAVE, PRT_STATUS, PRT_GMAP, PRT_INST]

/-- Table 12-6 (R345). -/
def MEM_DIE_CTL : Family := { base := 0x6000000, dims := [(8, 0x200000)], fields := [
  { hi := 7, lo := 4, acc := .rw, img := true, reset := fun _ => 2, resv := fun v _ => 4 < v },
  { hi := 0, lo := 0, acc := .rw, img := true, reset := fun _ => 1 } ] }
/-- Table 12-7 (R345). -/
def MEM_CE : Family := { base := 0x6000008, dims := [(8, 0x200000)], fields := [
  { hi := 63, lo := 48, acc := .rw, img := true, reset := fun _ => 16, resv := fun v _ => v == 0 },
  { hi := 47, lo := 32, acc := .rw, img := true, reset := fun _ => 1000, resv := fun v _ => v == 0 },
  { hi := 31, lo := 0, acc := .rw, img := true, reset := fun _ => 0x00000400, resv := fun v _ => v == 0 } ] }
/-- Table 12-7 (R345). -/
def MEM_SCRUB : Family := { base := 0x6000010, dims := [(8, 0x200000)], fields := [
  { hi := 7, lo := 0, acc := .rw, img := true, reset := fun _ => 24, resv := fun v _ => v == 0 || 168 < v } ] }
/-- Table 12-8 (R345). -/
def MEM_MAP_INFO : Family := { base := 0x6000018, dims := [(8, 0x200000)], fields := [
  { hi := 63, lo := 63, acc := .ro },
  { hi := 55, lo := 32, acc := .ro },
  { hi := 31, lo := 8, acc := .ro },
  { hi := 6, lo := 0, acc := .ro } ] }
/-- Table 12-9 (R345). -/
def MEM_MAPOUT : Family := { base := 0x6000100, dims := [(8, 0x200000), (64, 0x8)], fields := [
  { hi := 63, lo := 63, acc := .ro },
  { hi := 9, lo := 0, acc := .ro } ] }
/-- Table 12-10 (R345). -/
def MEM_STK_STATUS : Family := { base := 0x6010000, dims := [(8, 0x200000), (4, 0x10000)], fields := [
  { hi := 47, lo := 40, acc := .ro },
  { hi := 39, lo := 32, acc := .ro },
  { hi := 3, lo := 3, acc := .ro },
  { hi := 2, lo := 2, acc := .ro },
  { hi := 1, lo := 0, acc := .ro } ] }
/-- Table 12-10 (R345). -/
def MEM_STK_SCRUB : Family := { base := 0x6010008, dims := [(8, 0x200000), (4, 0x10000)], fields := [
  { hi := 63, lo := 32, acc := .ro },
  { hi := 31, lo := 0, acc := .ro } ] }
/-- Table 12-10 (R345). -/
def MEM_STK_HOT : Family := { base := 0x6010010, dims := [(8, 0x200000), (4, 0x10000)], fields := [
  { hi := 63, lo := 0, acc := .ro } ] }
/-- Table 12-11 (R345). -/
def MEM_CH_STATUS : Family := { base := 0x6011000, dims := [(8, 0x200000), (4, 0x10000), (32, 0x100)], fields := [
  { hi := 31, lo := 24, acc := .ro, reset := fun _ => 0xFF },
  { hi := 23, lo := 16, acc := .ro, reset := fun _ => 0xFF },
  { hi := 15, lo := 8, acc := .ro },
  { hi := 2, lo := 0, acc := .ro } ] }
/-- Table 12-12 (R345). -/
def MEM_CH_CE : Family := { base := 0x6011008, dims := [(8, 0x200000), (4, 0x10000), (32, 0x100)], fields := [
  { hi := 63, lo := 0, acc := .ro } ] }
/-- Table 12-12 (R345). -/
def MEM_CH_ERR : Family := { base := 0x6011010, dims := [(8, 0x200000), (4, 0x10000), (32, 0x100)], fields := [
  { hi := 63, lo := 32, acc := .ro },
  { hi := 31, lo := 0, acc := .ro } ] }
/-- Table 12-12 (R345). -/
def MEM_CH_RETRY : Family := { base := 0x6011018, dims := [(8, 0x200000), (4, 0x10000), (32, 0x100)], fields := [
  { hi := 63, lo := 0, acc := .ro } ] }
/-- Table 12-12 (R345). -/
def MEM_CH_MIRROR : Family := { base := 0x6011020, dims := [(8, 0x200000), (4, 0x10000), (32, 0x100)], fields := [
  { hi := 63, lo := 0, acc := .ro } ] }
/-- Table 12-12 (R345). -/
def MEM_CH_SCRUB_FIX : Family := { base := 0x6011028, dims := [(8, 0x200000), (4, 0x10000), (32, 0x100)], fields := [
  { hi := 63, lo := 0, acc := .ro } ] }

/-- The register families of the MEM_ block. -/
def block_mem : List Family := [MEM_DIE_CTL, MEM_CE, MEM_SCRUB, MEM_MAP_INFO, MEM_MAPOUT, MEM_STK_STATUS, MEM_STK_SCRUB, MEM_STK_HOT, MEM_CH_STATUS, MEM_CH_CE, MEM_CH_ERR, MEM_CH_RETRY, MEM_CH_MIRROR, MEM_CH_SCRUB_FIX]

/-- Table 13-7 (R371). -/
def CRL_CTL : Family := { base := 0x8000000, dims := [(10, 0x80000)], fields := [
  { hi := 63, lo := 48, acc := .rw, img := true, reset := fun _ => 100, resv := fun v _ => v == 0 },
  { hi := 47, lo := 32, acc := .rw, img := true, reset := fun _ => 64, resv := fun v _ => v == 0 },
  { hi := 31, lo := 16, acc := .rw, img := true, reset := fun _ => 16, resv := fun v _ => v == 0 },
  { hi := 3, lo := 0, acc := .rw, img := true, reset := fun _ => 8, resv := fun v _ => v == 0 } ] }
/-- Table 13-8 (R371). -/
def CRL_ROUTE : Family := { base := 0x8000008, dims := [(10, 0x80000)], fields := [
  { hi := 29, lo := 0, acc := .ro, reset := fun ix => defaultRouteWord (ix.getD 0 0) } ] }
/-- Table 13-8 (R371). -/
def CRL_SEAM : Family := { base := 0x8000010, dims := [(10, 0x80000)], fields := [
  { hi := 39, lo := 28, acc := .ro, reset := fun _ => 1800 },
  { hi := 27, lo := 16, acc := .ro, reset := fun _ => 1800 },
  { hi := 1, lo := 1, acc := .ro },
  { hi := 0, lo := 0, acc := .ro } ] }
/-- Table 13-8 (R371). -/
def CRL_SEAM_STALL : Family := { base := 0x8000018, dims := [(10, 0x80000)], fields := [
  { hi := 63, lo := 32, acc := .ro },
  { hi := 31, lo := 0, acc := .ro } ] }
/-- Table 13-9 (R371). -/
def CRL_LINK : Family := { base := 0x8000100, dims := [(10, 0x80000), (3, 0x80)], fields := [
  { hi := 63, lo := 63, acc := .w1c },
  { hi := 62, lo := 60, acc := .ro },
  { hi := 59, lo := 56, acc := .ro },
  { hi := 55, lo := 52, acc := .ro },
  { hi := 51, lo := 48, acc := .ro },
  { hi := 34, lo := 28, acc := .ro, reset := fun ix => linkBundles (ix.getD 0 0) (ix.getD 1 0) },
  { hi := 27, lo := 21, acc := .ro },
  { hi := 20, lo := 14, acc := .ro },
  { hi := 13, lo := 7, acc := .ro } ] }
/-- Table 13-10 (R371). -/
def CRL_BTAB : Family := { base := 0x8000140, dims := [(10, 0x80000), (3, 0x80), (8, 0x8)], fields := [
  { hi := 63, lo := 0, acc := .ro, reset := fun ix => btabReset (ix.getD 0 0) (ix.getD 1 0) (ix.getD 2 0) } ] }
/-- Table 13-11 (R371). -/
def CRL_BUN_STATUS : Family := { base := 0x8010000, dims := [(10, 0x80000), (3, 0x10000), (64, 0x100)], fields := [
  { hi := 15, lo := 13, acc := .ro },
  { hi := 12, lo := 11, acc := .ro },
  { hi := 10, lo := 10, acc := .ro },
  { hi := 5, lo := 3, acc := .ro },
  { hi := 2, lo := 0, acc := .ro } ] }
/-- Table 13-11 (R371). -/
def CRL_BUN_SPARE : Family := { base := 0x8010008, dims := [(10, 0x80000), (3, 0x10000), (64, 0x100)], fields := [
  { hi := 31, lo := 0, acc := .ro, reset := fun _ => 0xFFFFFFFF } ] }
/-- Table 13-12 (R371). -/
def CRL_BUN_ERR : Family := { base := 0x8010010, dims := [(10, 0x80000), (3, 0x10000), (64, 0x100)], fields := [
  { hi := 63, lo := 32, acc := .ro },
  { hi := 31, lo := 0, acc := .ro } ] }
/-- Table 13-12 (R371). -/
def CRL_BUN_LANES : Family := { base := 0x8010018, dims := [(10, 0x80000), (3, 0x10000), (64, 0x100)], fields := [
  { hi := 63, lo := 0, acc := .ro } ] }
/-- Table 13-12 (R371). -/
def CRL_BUN_WORST : Family := { base := 0x8010020, dims := [(10, 0x80000), (3, 0x10000), (64, 0x100)], fields := [
  { hi := 37, lo := 32, acc := .ro },
  { hi := 31, lo := 0, acc := .ro } ] }

/-- The register families of the CRL_ block. -/
def block_crl : List Family := [CRL_CTL, CRL_ROUTE, CRL_SEAM, CRL_SEAM_STALL, CRL_LINK, CRL_BTAB, CRL_BUN_STATUS, CRL_BUN_SPARE, CRL_BUN_ERR, CRL_BUN_LANES, CRL_BUN_WORST]

/-- Table 14-5 (R398). -/
def HIF_PORT_CFG : Family := { base := 0x0, dims := [], fields := [
  { hi := 0, lo := 0, acc := .rw, img := true } ] }
/-- Table 14-5 (R398). -/
def HIF_PORT : Family := { base := 0x100, dims := [(2, 0x40)], fields := [
  { hi := 63, lo := 63, acc := .ro },
  { hi := 62, lo := 62, acc := .w1c },
  { hi := 61, lo := 61, acc := .ro },
  { hi := 60, lo := 60, acc := .ro },
  { hi := 59, lo := 59, acc := .ro },
  { hi := 58, lo := 55, acc := .ro },
  { hi := 7, lo := 4, acc := .ro },
  { hi := 3, lo := 0, acc := .ro } ] }
/-- Table 14-5 (R398). -/
def HIF_STAT : Family := { base := 0x108, dims := [(2, 0x40)], fields := [
  { hi := 63, lo := 32, acc := .ro },
  { hi := 31, lo := 0, acc := .ro } ] }
/-- Table 14-5 (R398). -/
def HIF_BAR2 : Family := { base := 0x110, dims := [(2, 0x40)], fields := [
  { hi := 11, lo := 0, acc := .rw } ] }
/-- Table 14-5 (R398). -/
def HIF_VEC : Family := { base := 0x20000, dims := [(2, 0x4000), (2048, 0x8)], fields := [
  { hi := 63, lo := 63, acc := .rw },
  { hi := 9, lo := 0, acc := .rw } ] }
/-- Table 14-5 (R398). -/
def HIF_PEER : Family := { base := 0x30000, dims := [(2, 0x80), (16, 0x8)], fields := [
  { hi := 63, lo := 63, acc := .rw, img := true },
  { hi := 31, lo := 16, acc := .rw, img := true },
  { hi := 15, lo := 0, acc := .rw, img := true } ] }
/-- Table 14-5 (R398). -/
def HIF_PEER_WIN : Family := { base := 0x30200, dims := [(8, 0x8)], fields := [
  { hi := 63, lo := 63, acc := .rw, img := true },
  { hi := 62, lo := 62, acc := .rw, img := true },
  { hi := 23, lo := 12, acc := .rw, img := true },
  { hi := 11, lo := 0, acc := .rw, img := true } ] }
/-- Table 14-5 (R398). -/
def HIF_DLOG_CTL : Family := { base := 0x180000, dims := [(1024, 0x8)], fields := [
  { hi := 63, lo := 63, acc := .rw },
  { hi := 62, lo := 62, acc := .ro },
  { hi := 61, lo := 61, acc := .w1c },
  { hi := 60, lo := 60, acc := .w1c },
  { hi := 15, lo := 0, acc := .rw } ] }
/-- Table 14-5 (R398). -/
def HIF_DLOG_BASE : Family := { base := 0x200000, dims := [(1024, 0x200), (16, 0x20)], fields := [
  { hi := 63, lo := 12, acc := .rw } ] }
/-- Table 14-5 (R398). -/
def HIF_DLOG_LEN : Family := { base := 0x200008, dims := [(1024, 0x200), (16, 0x20)], fields := [
  { hi := 35, lo := 0, acc := .rw } ] }
/-- Table 14-5 (R398). -/
def HIF_DLOG_MAP : Family := { base := 0x200010, dims := [(1024, 0x200), (16, 0x20)], fields := [
  { hi := 63, lo := 3, acc := .rw } ] }

/-- The register families of the HIF_ block. -/
def block_hif : List Family := [HIF_PORT_CFG, HIF_PORT, HIF_STAT, HIF_BAR2, HIF_VEC, HIF_PEER, HIF_PEER_WIN, HIF_DLOG_CTL, HIF_DLOG_BASE, HIF_DLOG_LEN, HIF_DLOG_MAP]

/-- Table 14-6 (R399). -/
def MBX_ID : Family := { base := 0x400000, dims := [(1024, 0x1000)], fields := [
  { hi := 63, lo := 63, acc := .ro },
  { hi := 62, lo := 62, acc := .ro },
  { hi := 61, lo := 60, acc := .ro },
  { hi := 59, lo := 58, acc := .ro },
  { hi := 52, lo := 48, acc := .ro },
  { hi := 9, lo := 0, acc := .ro, reset := fun ix => ix.getD 0 0 } ] }
/-- Table 14-6 (R399). -/
def MBX_VER : Family := { base := 0x400008, dims := [(1024, 0x1000)], fields := [
  { hi := 15, lo := 12, acc := .rw, reset := fun _ => 1 },
  { hi := 11, lo := 8, acc := .rw, reset := fun _ => 1 },
  { hi := 7, lo := 4, acc := .ro, reset := fun _ => 1 },
  { hi := 3, lo := 0, acc := .ro } ] }
/-- Table 14-6 (R399). -/
def MBX_REQ : Family := { base := 0x400010, dims := [(1024, 0x1000)], fields := [
  { hi := 2, lo := 0, acc := .wo, resv := fun v _ => v == 0 || 5 <= v } ] }
/-- Table 14-6 (R399). -/
def MBX_ABORT_TAG : Family := { base := 0x400018, dims := [(1024, 0x1000)], fields := [
  { hi := 63, lo := 0, acc := .rw } ] }
/-- Table 14-6 (R399). -/
def MBX_STATUS : Family := { base := 0x400020, dims := [(1024, 0x1000)], fields := [
  { hi := 63, lo := 63, acc := .ro },
  { hi := 62, lo := 62, acc := .ro },
  { hi := 61, lo := 61, acc := .w1c },
  { hi := 60, lo := 60, acc := .ro },
  { hi := 59, lo := 59, acc := .w1c },
  { hi := 58, lo := 57, acc := .ro },
  { hi := 56, lo := 56, acc := .w1c },
  { hi := 55, lo := 55, acc := .w1c },
  { hi := 31, lo := 16, acc := .ro },
  { hi := 15, lo := 0, acc := .ro } ] }
/-- Table 14-6 (R399). -/
def MBX_IRQ : Family := { base := 0x400028, dims := [(1024, 0x1000)], fields := [
  { hi := 63, lo := 63, acc := .ro },
  { hi := 42, lo := 32, acc := .ro },
  { hi := 31, lo := 31, acc := .ro },
  { hi := 10, lo := 0, acc := .ro } ] }
/-- Table 14-6 (R399). -/
def MBX_T2M : Family := { base := 0x400030, dims := [(1024, 0x1000)], fields := [
  { hi := 31, lo := 16, acc := .ro },
  { hi := 15, lo := 0, acc := .ro } ] }
/-- Table 14-6 (R399). -/
def MBX_M2T : Family := { base := 0x400038, dims := [(1024, 0x1000)], fields := [
  { hi := 31, lo := 16, acc := .rw },
  { hi := 15, lo := 0, acc := .ro } ] }
/-- Table 14-6 (R399). -/
def MBX_T2M_SLOT : Family := { base := 0x400400, dims := [(1024, 0x1000), (16, 0x40), (8, 0x8)], fields := [
  { hi := 63, lo := 0, acc := .rw } ] }
/-- Table 14-6 (R399). -/
def MBX_M2T_SLOT : Family := { base := 0x400800, dims := [(1024, 0x1000), (16, 0x40), (8, 0x8)], fields := [
  { hi := 63, lo := 0, acc := .ro } ] }

/-- The register families of the MBX_ block. -/
def block_mbx : List Family := [MBX_ID, MBX_VER, MBX_REQ, MBX_ABORT_TAG, MBX_STATUS, MBX_IRQ, MBX_T2M, MBX_M2T, MBX_T2M_SLOT, MBX_M2T_SLOT]

/-- Table 15-6 (R419). -/
def OPT_ID : Family := { base := 0x8800000, dims := [], fields := [
  { hi := 63, lo := 63, acc := .rw, img := true },
  { hi := 11, lo := 0, acc := .rw, img := true, resv := fun v _ => v == 0xFFF } ] }
/-- Table 15-6 (R419). -/
def OPT_CTL : Family := { base := 0x8800008, dims := [], fields := [
  { hi := 19, lo := 16, acc := .rw, img := true, reset := fun _ => 8, resv := fun v _ => v == 0 },
  { hi := 15, lo := 0, acc := .rw, img := true, reset := fun _ => 100, resv := fun v _ => v < 20 || 10000 < v } ] }
/-- Table 15-6 (R419). -/
def OPT_DOMAIN : Family := { base := 0x8800010, dims := [], fields := [
  { hi := 63, lo := 32, acc := .ro },
  { hi := 31, lo := 16, acc := .ro },
  { hi := 15, lo := 0, acc := .ro } ] }
/-- Table 15-6 (R419). -/
def OPT_CNT_REFUSED : Family := { base := 0x8800018, dims := [], fields := [
  { hi := 63, lo := 0, acc := .ro } ] }
/-- Table 15-6 (R419). -/
def OPT_CNT_NOROUTE : Family := { base := 0x8800020, dims := [], fields := [
  { hi := 63, lo := 0, acc := .ro } ] }
/-- Table 15-6 (R419). -/
def OPT_CNT_LOST : Family := { base := 0x8800028, dims := [], fields := [
  { hi := 63, lo := 0, acc := .ro } ] }
/-- Table 15-7 (R419). -/
def OPT_ROUTE : Family := { base := 0x8801000, dims := [(32, 0x8)], fields := [
  { hi := 63, lo := 63, acc := .rw },
  { hi := 62, lo := 60, acc := .rw, resv := fun v w => (v == 0 || 5 <= v) && w / 2 ^ 63 % 2 == 1 },
  { hi := 59, lo := 56, acc := .ro },
  { hi := 43, lo := 32, acc := .rw },
  { hi := 15, lo := 0, acc := .rw } ] }
/-- Table 15-8 (R419). -/
def OPT_PORT : Family := { base := 0x8802000, dims := [(16, 0x40)], fields := [
  { hi := 63, lo := 61, acc := .ro },
  { hi := 60, lo := 58, acc := .ro },
  { hi := 57, lo := 57, acc := .ro },
  { hi := 47, lo := 40, acc := .ro },
  { hi := 39, lo := 36, acc := .ro },
  { hi := 35, lo := 24, acc := .ro } ] }
/-- Table 15-8 (R419). -/
def OPT_PORT_ERR : Family := { base := 0x8802008, dims := [(16, 0x40)], fields := [
  { hi := 63, lo := 32, acc := .ro },
  { hi := 31, lo := 16, acc := .ro },
  { hi := 15, lo := 0, acc := .ro } ] }
/-- Table 15-9 (R419). -/
def OPT_WIN : Family := { base := 0x8804000, dims := [(64, 0x10)], fields := [
  { hi := 63, lo := 63, acc := .rw },
  { hi := 62, lo := 62, acc := .rw },
  { hi := 61, lo := 56, acc := .rw, reset := fun _ => 30, resv := fun v _ => v < 30 || 42 < v },
  { hi := 55, lo := 44, acc := .rw, reset := fun _ => 0xFFF },
  { hi := 11, lo := 0, acc := .rw } ] }
/-- Table 15-9 (R419). -/
def OPT_WIN_BUS : Family := { base := 0x8804008, dims := [(64, 0x10)], fields := [
  { hi := 63, lo := 0, acc := .rw } ] }
/-- Table 15-10 (R419). -/
def OPT_EXPORT : Family := { base := 0x8806000, dims := [(16, 0x8)], fields := [
  { hi := 63, lo := 63, acc := .rw, img := true },
  { hi := 62, lo := 62, acc := .rw, img := true },
  { hi := 61, lo := 61, acc := .rw, img := true },
  { hi := 47, lo := 36, acc := .rw, img := true },
  { hi := 35, lo := 24, acc := .rw, img := true },
  { hi := 23, lo := 12, acc := .rw, img := true },
  { hi := 11, lo := 0, acc := .rw, img := true } ] }

/-- The register families of the OPT_ block. -/
def block_opt : List Family := [OPT_ID, OPT_CTL, OPT_DOMAIN, OPT_CNT_REFUSED, OPT_CNT_NOROUTE, OPT_CNT_LOST, OPT_ROUTE, OPT_PORT, OPT_PORT_ERR, OPT_WIN, OPT_WIN_BUS, OPT_EXPORT]

/-- Table 16-3 (R436). -/
def EVC_ORDER : Family := { base := 0x9000000, dims := [(10, 0x100000)], fields := [
  { hi := 63, lo := 32, acc := .ro },
  { hi := 31, lo := 30, acc := .ro },
  { hi := 25, lo := 16, acc := .ro },
  { hi := 10, lo := 10, acc := .ro },
  { hi := 9, lo := 0, acc := .ro } ] }
/-- Table 16-3 (R436). -/
def EVC_HOST_ACK : Family := { base := 0x9000008, dims := [(10, 0x100000)], fields := [
  { hi := 9, lo := 0, acc := .wo } ] }
/-- Table 16-3 (R436). -/
def EVC_SW_SET : Family := { base := 0x9000010, dims := [(10, 0x100000)], fields := [
  { hi := 4, lo := 0, acc := .wo } ] }
/-- Table 16-3 (R436). -/
def EVC_CNT_MERGED : Family := { base := 0x9000018, dims := [(10, 0x100000)], fields := [
  { hi := 63, lo := 0, acc := .ro } ] }
/-- Table 16-3 (R436). -/
def EVC_CNT_DROPPED : Family := { base := 0x9000020, dims := [(10, 0x100000)], fields := [
  { hi := 63, lo := 0, acc := .ro } ] }
/-- Table 16-4 (R436). -/
def EVC_CPU : Family := { base := 0x9000100, dims := [(10, 0x100000), (4, 0x20)], fields := [
  { hi := 63, lo := 63, acc := .ro },
  { hi := 51, lo := 42, acc := .ro },
  { hi := 18, lo := 14, acc := .ro },
  { hi := 13, lo := 10, acc := .ro },
  { hi := 9, lo := 0, acc := .ro } ] }
/-- Table 16-4 (R436). -/
def EVC_DONE : Family := { base := 0x9000108, dims := [(10, 0x100000), (4, 0x20)], fields := [
  { hi := 9, lo := 0, acc := .wo } ] }
/-- Table 16-4 (R436). -/
def EVC_FAST_DONE : Family := { base := 0x9000110, dims := [(10, 0x100000), (4, 0x20)], fields := [
  { hi := 9, lo := 0, acc := .wo } ] }
/-- Table 16-5 (R436). -/
def EVC_SRC : Family := { base := 0x9001000, dims := [(10, 0x100000), (1024, 0x8)], fields := [
  { hi := 63, lo := 63, acc := .ro, reset := fun ix => if evcLevelSource (ix.getD 0 0) (ix.getD 1 0) then 1 else 0 },
  { hi := 62, lo := 62, acc := .ro },
  { hi := 61, lo := 61, acc := .ro },
  { hi := 60, lo := 60, acc := .ro },
  { hi := 59, lo := 59, acc := .ro },
  { hi := 58, lo := 58, acc := .ro },
  { hi := 55, lo := 55, acc := .rw },
  { hi := 54, lo := 54, acc := .rw },
  { hi := 53, lo := 52, acc := .rw },
  { hi := 51, lo := 48, acc := .rw },
  { hi := 47, lo := 47, acc := .rw },
  { hi := 46, lo := 46, acc := .rw },
  { hi := 45, lo := 35, acc := .rw },
  { hi := 34, lo := 34, acc := .rw },
  { hi := 33, lo := 30, acc := .rw },
  { hi := 29, lo := 18, acc := .rw } ] }
/-- Table 16-5 (R436). -/
def EVC_PEND : Family := { base := 0x9003000, dims := [(10, 0x100000), (16, 0x8)], fields := [
  { hi := 63, lo := 0, acc := .ro } ] }
/-- Table 16-6 (R436). -/
def EVC_WATCH : Family := { base := 0x9804000, dims := [(64, 0x8)], fields := [
  { hi := 63, lo := 63, acc := .rw },
  { hi := 13, lo := 10, acc := .rw, reset := fun _ => 8, resv := fun v _ => !(v == 8 || v == 9) },
  { hi := 9, lo := 0, acc := .rw } ] }
/-- Table 16-6 (R436). -/
def EVC_WATCH_STATUS : Family := { base := 0x9804200, dims := [], fields := [
  { hi := 63, lo := 63, acc := .w1c },
  { hi := 5, lo := 0, acc := .ro } ] }
/-- Table 16-6 (R436). -/
def EVC_WATCH_TIMER : Family := { base := 0x9804208, dims := [], fields := [
  { hi := 31, lo := 0, acc := .rw } ] }

/-- The register families of the EVC_ block. -/
def block_evc : List Family := [EVC_ORDER, EVC_HOST_ACK, EVC_SW_SET, EVC_CNT_MERGED, EVC_CNT_DROPPED, EVC_CPU, EVC_DONE, EVC_FAST_DONE, EVC_SRC, EVC_PEND, EVC_WATCH, EVC_WATCH_STATUS, EVC_WATCH_TIMER]

/-- Table 17-7 (R456). -/
def PWR_STATE : Family := { base := 0xa800000, dims := [], fields := [
  { hi := 63, lo := 63, acc := .w1c },
  { hi := 62, lo := 62, acc := .w1c },
  { hi := 61, lo := 61, acc := .ro },
  { hi := 7, lo := 4, acc := .ro },
  { hi := 3, lo := 0, acc := .ro } ] }
/-- Table 17-7 (R456). -/
def PWR_REQ : Family := { base := 0xa800008, dims := [], fields := [
  { hi := 1, lo := 0, acc := .wo, resv := fun v _ => v == 1 } ] }
/-- Table 17-7 (R456). -/
def PWR_CAP : Family := { base := 0xa800010, dims := [], fields := [
  { hi := 63, lo := 48, acc := .rw, img := true, reset := fun _ => 1700, resv := fun v _ => v < 1000 || 1750 < v },
  { hi := 47, lo := 38, acc := .rw, img := true, reset := fun _ => 320 },
  { hi := 37, lo := 26, acc := .rw, img := true, reset := fun _ => 900 },
  { hi := 25, lo := 13, acc := .rw, img := true, reset := fun _ => 7600, resv := fun v _ => v < 1000 || 7600 < v } ] }
/-- Table 17-7 (R456). -/
def PWR_INPUT : Family := { base := 0xa800018, dims := [], fields := [
  { hi := 63, lo := 48, acc := .ro },
  { hi := 47, lo := 32, acc := .ro },
  { hi := 31, lo := 0, acc := .ro } ] }
/-- Table 17-7 (R456). -/
def PWR_THERM : Family := { base := 0xa800020, dims := [], fields := [
  { hi := 23, lo := 16, acc := .rw, img := true, reset := fun _ => 100, resv := fun v _ => v < 85 || 110 < v },
  { hi := 15, lo := 12, acc := .ro },
  { hi := 7, lo := 0, acc := .ro } ] }
/-- Table 17-7 (R456). -/
def PWR_TRIP : Family := { base := 0xa800028, dims := [], fields := [
  { hi := 63, lo := 32, acc := .ro, reset := fun _ => Config.tripCount },
  { hi := 15, lo := 12, acc := .ro, reset := fun _ => Config.tripDie },
  { hi := 11, lo := 0, acc := .ro, reset := fun _ => Config.tripSensor } ] }
/-- Table 17-8 (R456). -/
def PWR_TOLL : Family := { base := 0xa801000, dims := [(32, 0x8)], fields := [
  { hi := 63, lo := 48, acc := .ro },
  { hi := 47, lo := 32, acc := .ro },
  { hi := 31, lo := 16, acc := .ro },
  { hi := 15, lo := 0, acc := .ro } ] }
/-- Table 17-8 (R456). -/
def PWR_RATIO : Family := { base := 0xa802000, dims := [(1024, 0x8)], fields := [
  { hi := 14, lo := 10, acc := .ro },
  { hi := 9, lo := 0, acc := .ro, reset := fun _ => 256 } ] }
/-- Table 17-9 (R456). -/
def PWR_DIE : Family := { base := 0xa000040, dims := [(8, 0x100000)], fields := [
  { hi := 47, lo := 40, acc := .ro },
  { hi := 39, lo := 32, acc := .ro },
  { hi := 31, lo := 0, acc := .ro } ] }
/-- Table 17-9 (R456). -/
def PWR_DROOP : Family := { base := 0xa000048, dims := [(8, 0x100000)], fields := [
  { hi := 63, lo := 32, acc := .rw, img := true, reset := fun _ => 1000 },
  { hi := 7, lo := 0, acc := .rw, img := true, reset := fun _ => 30, resv := fun v _ => v < 10 || 100 < v } ] }
/-- Table 17-9 (R456). -/
def PWR_HALF : Family := { base := 0xa000100, dims := [(8, 0x100000), (2, 0x8)], fields := [
  { hi := 63, lo := 52, acc := .rw, img := true, reset := fun _ => 1800 },
  { hi := 51, lo := 40, acc := .ro, reset := fun _ => 1800 },
  { hi := 39, lo := 28, acc := .ro, reset := fun _ => 2100 },
  { hi := 0, lo := 0, acc := .ro } ] }
/-- Table 17-9 (R456). -/
def PWR_ROW : Family := { base := 0xa000200, dims := [(8, 0x100000), (2, 0x80), (16, 0x8)], fields := [
  { hi := 63, lo := 61, acc := .ro },
  { hi := 60, lo := 48, acc := .ro },
  { hi := 47, lo := 0, acc := .ro } ] }

/-- The register families of the PWR_ block. -/
def block_pwr : List Family := [PWR_STATE, PWR_REQ, PWR_CAP, PWR_INPUT, PWR_THERM, PWR_TRIP, PWR_TOLL, PWR_RATIO, PWR_DIE, PWR_DROOP, PWR_HALF, PWR_ROW]

/-- Table 18-8 (R483). -/
def ERR_CTL : Family := { base := 0xb000000, dims := [(10, 0x100000)], fields := [
  { hi := 23, lo := 16, acc := .rw, img := true, reset := fun _ => 4, resv := fun v _ => v == 0 },
  { hi := 15, lo := 0, acc := .rw, img := true, reset := fun _ => 1000 } ] }
/-- Table 18-8 (R483). -/
def ERR_RING : Family := { base := 0xb000008, dims := [(10, 0x100000)], fields := [
  { hi := 63, lo := 32, acc := .rw },
  { hi := 31, lo := 0, acc := .ro } ] }
/-- Table 18-8 (R483). -/
def ERR_STAT : Family := { base := 0xb000010, dims := [(10, 0x100000)], fields := [
  { hi := 63, lo := 48, acc := .ro },
  { hi := 47, lo := 32, acc := .ro },
  { hi := 31, lo := 16, acc := .ro },
  { hi := 15, lo := 0, acc := .ro } ] }
/-- Table 18-8 (R483). -/
def ERR_OVF : Family := { base := 0xb000018, dims := [(10, 0x100000)], fields := [
  { hi := 63, lo := 63, acc := .w1c },
  { hi := 47, lo := 32, acc := .ro },
  { hi := 31, lo := 0, acc := .ro } ] }
/-- Table 18-8 (R483). -/
def ERR_INJECT : Family := { base := 0xb000020, dims := [(10, 0x100000)], fields := [
  { hi := 27, lo := 16, acc := .wo },
  { hi := 5, lo := 4, acc := .wo, resv := fun v _ => v == 0 },
  { hi := 3, lo := 0, acc := .wo, resv := fun v _ => v == 0 || 5 <= v } ] }
/-- R483, Table 18-6. -/
def ERR_REC : Family := { base := 0xb010000, dims := [(10, 0x100000), (512, 0x40), (8, 0x8)], fields := [
  { hi := 63, lo := 0, acc := .ro } ] }

/-- The register families of the ERR_ block. -/
def block_err : List Family := [ERR_CTL, ERR_RING, ERR_STAT, ERR_OVF, ERR_INJECT, ERR_REC]

/-- Table 19-8 (R501). -/
def BOOT_ID : Family := { base := 0xc000000, dims := [], fields := [
  { hi := 40, lo := 40, acc := .ro, reset := fun _ => Config.fusePrimaryX1 },
  { hi := 31, lo := 0, acc := .ro, reset := fun _ => revisionCode } ] }
/-- Table 19-8 (R501). -/
def BOOT_SERIAL0 : Family := { base := 0xc000008, dims := [], fields := [
  { hi := 63, lo := 0, acc := .ro, reset := fun _ => Config.fuseSerial0 } ] }
/-- Table 19-8 (R501). -/
def BOOT_SERIAL1 : Family := { base := 0xc000010, dims := [], fields := [
  { hi := 31, lo := 0, acc := .ro, reset := fun _ => Config.fuseSerial1 } ] }
/-- Table 19-8 (R501). -/
def BOOT_STAGE : Family := { base := 0xc000018, dims := [], fields := [
  { hi := 63, lo := 32, acc := .ro },
  { hi := 3, lo := 0, acc := .ro } ] }
/-- Table 19-8 (R501). -/
def BOOT_MODULE_RESET : Family := { base := 0xc000200, dims := [], fields := [
  { hi := 63, lo := 48, acc := .wo } ] }
/-- Table 19-8 (R501). -/
def BOOT_DIE_RESET : Family := { base := 0xc000208, dims := [], fields := [
  { hi := 63, lo := 63, acc := .ro },
  { hi := 62, lo := 62, acc := .w1c },
  { hi := 3, lo := 0, acc := .wo, resv := fun v _ => 8 <= v } ] }
/-- Table 19-9 (R501). -/
def BOOT_READY0 : Family := { base := 0xc000020, dims := [], fields := [
  { hi := 45, lo := 30, acc := .ro },
  { hi := 29, lo := 14, acc := .ro },
  { hi := 13, lo := 4, acc := .ro },
  { hi := 3, lo := 3, acc := .ro },
  { hi := 2, lo := 2, acc := .ro },
  { hi := 1, lo := 1, acc := .ro },
  { hi := 0, lo := 0, acc := .ro } ] }
/-- Table 19-9 (R501). -/
def BOOT_READY_STK : Family := { base := 0xc000028, dims := [], fields := [
  { hi := 31, lo := 0, acc := .ro } ] }
/-- Table 19-9 (R501). -/
def BOOT_READY_PRT : Family := { base := 0xc000030, dims := [], fields := [
  { hi := 31, lo := 0, acc := .ro } ] }
/-- Table 19-9 (R501). -/
def BOOT_STRAP : Family := { base := 0xc000100, dims := [(10, 0x8)], fields := [
  { hi := 63, lo := 63, acc := .ro },
  { hi := 62, lo := 62, acc := .ro },
  { hi := 61, lo := 61, acc := .ro },
  { hi := 60, lo := 60, acc := .ro, reset := fun ix => if ix = [8] then Config.fusePrimaryX1 % 2 else 0 },
  { hi := 5, lo := 4, acc := .ro },
  { hi := 3, lo := 1, acc := .ro },
  { hi := 0, lo := 0, acc := .ro } ] }
/-- Table 20-12 (R515). -/
def BOOT_IMG_ADDR : Family := { base := 0xc000300, dims := [], fields := [
  { hi := 63, lo := 12, acc := .rw } ] }
/-- Table 20-12 (R515). -/
def BOOT_IMG_CTL : Family := { base := 0xc000308, dims := [], fields := [
  { hi := 42, lo := 18, acc := .rw },
  { hi := 17, lo := 13, acc := .rw },
  { hi := 8, lo := 8, acc := .rw },
  { hi := 2, lo := 0, acc := .wo, resv := fun v _ => v == 0 || 5 <= v } ] }
/-- Table 20-12 (R515). -/
def BOOT_IMG_STATUS : Family := { base := 0xc000310, dims := [], fields := [
  { hi := 63, lo := 63, acc := .ro },
  { hi := 62, lo := 62, acc := .ro },
  { hi := 61, lo := 61, acc := .w1c },
  { hi := 55, lo := 48, acc := .ro },
  { hi := 47, lo := 43, acc := .ro },
  { hi := 39, lo := 32, acc := .ro, reset := fun _ => 0xFF },
  { hi := 3, lo := 0, acc := .ro } ] }
/-- Table 20-12 (R515). -/
def BOOT_IMG_SERIAL : Family := { base := 0xc000318, dims := [], fields := [
  { hi := 63, lo := 32, acc := .ro },
  { hi := 31, lo := 0, acc := .ro, reset := fun _ => Config.flashFloor } ] }
/-- Table 20-12 (R515). -/
def BOOT_IMG_COPY : Family := { base := 0xc000320, dims := [(2, 0x8)], fields := [
  { hi := 63, lo := 63, acc := .ro, reset := fun ix => Config.flashImgValid (ix.getD 0 0) },
  { hi := 62, lo := 62, acc := .ro, reset := fun ix => Config.flashImgBooted (ix.getD 0 0) },
  { hi := 31, lo := 0, acc := .ro, reset := fun ix => Config.flashImgSerial (ix.getD 0 0) } ] }

/-- The register families of the BOOT_ block. -/
def block_boot : List Family := [BOOT_ID, BOOT_SERIAL0, BOOT_SERIAL1, BOOT_STAGE, BOOT_MODULE_RESET, BOOT_DIE_RESET, BOOT_READY0, BOOT_READY_STK, BOOT_READY_PRT, BOOT_STRAP, BOOT_IMG_ADDR, BOOT_IMG_CTL, BOOT_IMG_STATUS, BOOT_IMG_SERIAL, BOOT_IMG_COPY]

/-- Table 21-7 (R530). -/
def SEC_FUSE : Family := { base := 0xd000000, dims := [], fields := [
  { hi := 63, lo := 63, acc := .ro, reset := fun _ => Config.fuseDebugKill },
  { hi := 62, lo := 62, acc := .ro, reset := fun _ => Config.fusePrimaryX1 },
  { hi := 61, lo := 61, acc := .ro },
  { hi := 47, lo := 32, acc := .ro, reset := fun _ => Config.fuseRevoked },
  { hi := 22, lo := 16, acc := .ro, reset := fun _ => Config.fuseArb },
  { hi := 15, lo := 0, acc := .ro, reset := fun _ => Config.flashEnrolled } ] }
/-- Table 21-7 (R530). -/
def SEC_NONCE : Family := { base := 0xd000008, dims := [], fields := [
  { hi := 63, lo := 0, acc := .ro, reset := fun _ => Config.secNonce 0 } ] }
/-- Table 21-7 (R530). -/
def SEC_CMD_ADDR : Family := { base := 0xd000010, dims := [], fields := [
  { hi := 63, lo := 7, acc := .rw } ] }
/-- Table 21-7 (R530). -/
def SEC_CMD_CTL : Family := { base := 0xd000018, dims := [], fields := [
  { hi := 42, lo := 16, acc := .rw },
  { hi := 8, lo := 8, acc := .rw },
  { hi := 2, lo := 0, acc := .wo, resv := fun v _ => v == 0 || 6 <= v } ] }
/-- Table 21-7 (R530). -/
def SEC_CMD_STATUS : Family := { base := 0xd000020, dims := [], fields := [
  { hi := 63, lo := 63, acc := .ro },
  { hi := 62, lo := 62, acc := .ro },
  { hi := 61, lo := 61, acc := .w1c },
  { hi := 3, lo := 0, acc := .ro } ] }
/-- Table 21-7 (R530). -/
def SEC_FW : Family := { base := 0xd000028, dims := [], fields := [
  { hi := 63, lo := 56, acc := .ro, reset := fun _ => Config.flashFwSvn 1 },
  { hi := 55, lo := 48, acc := .ro, reset := fun _ => Config.flashFwSvn 0 },
  { hi := 47, lo := 47, acc := .ro, reset := fun _ => Config.flashFwValid 1 },
  { hi := 46, lo := 46, acc := .ro, reset := fun _ => Config.flashFwValid 0 },
  { hi := 0, lo := 0, acc := .ro, reset := fun _ => Config.fwBooted } ] }
/-- Table 21-7 (R530). -/
def SEC_ATTEST : Family := { base := 0xd000100, dims := [], fields := [
  { hi := 63, lo := 63, acc := .wo },
  { hi := 9, lo := 0, acc := .wo } ] }
/-- Table 21-7 (R530). -/
def SEC_ATTEST_NONCE : Family := { base := 0xd000108, dims := [(4, 0x8)], fields := [
  { hi := 63, lo := 0, acc := .rw } ] }
/-- Table 21-7 (R530). -/
def SEC_ATTEST_STATUS : Family := { base := 0xd000128, dims := [], fields := [
  { hi := 63, lo := 63, acc := .ro },
  { hi := 62, lo := 62, acc := .ro },
  { hi := 61, lo := 61, acc := .w1c },
  { hi := 1, lo := 0, acc := .ro } ] }
/-- Table 21-7 (R530). -/
def SEC_REPORT : Family := { base := 0xd001000, dims := [(64, 0x8)], fields := [
  { hi := 63, lo := 0, acc := .ro } ] }

/-- The register families of the SEC_ block. -/
def block_sec : List Family := [SEC_FUSE, SEC_NONCE, SEC_CMD_ADDR, SEC_CMD_CTL, SEC_CMD_STATUS, SEC_FW, SEC_ATTEST, SEC_ATTEST_NONCE, SEC_ATTEST_STATUS, SEC_REPORT]


end Fam

/-- The copy indices of offset `rem` (relative to the base) in the strides `dims`; none outside the family. -/
def dimIndex : List (Nat × Nat) → Nat → Option (List Nat)
  | [], rem => if rem = 0 then some [] else none
  | (n, st) :: ds, rem =>
    if rem / st < n then
      match dimIndex ds (rem % st) with
      | some ix => some (rem / st :: ix)
      | none => none
    else none

/-- The copy indices of register-space offset `off` in family `f`. -/
def Family.index (f : Family) (off : Nat) : Option (List Nat) :=
  if f.base ≤ off then dimIndex f.dims (off - f.base) else none

/-- The families of the block that holds `off` (Table 1-12). -/
def blockFamilies (off : Nat) : List Family :=
  if off < 0x400000 then Fam.block_hif
  else if off < 0x800000 then Fam.block_mbx
  else if off < 0xA00000 then Fam.block_frm
  else if off < 0x1000000 then Fam.block_prt
  else if off < 0x3000000 then Fam.block_core
  else if off < 0x4000000 then []
  else if off < 0x5000000 then Fam.block_llc
  else if off < 0x6000000 then Fam.block_dir
  else if off < 0x8000000 then Fam.block_mem
  else if off < 0x8800000 then Fam.block_crl
  else if off < 0x9000000 then Fam.block_opt
  else if off < 0xA000000 then Fam.block_evc
  else if off < 0xB000000 then Fam.block_pwr
  else if off < 0xC000000 then Fam.block_err
  else if off < 0xD000000 then Fam.block_boot
  else if off < 0xE000000 then Fam.block_sec
  else []

/-- The first family of `fs` that holds `off`, with the copy indices. -/
def findFamily : List Family → Nat → Option (Family × List Nat)
  | [], _ => none
  | f :: fs, off =>
    match f.index off with
    | some ix => some (f, ix)
    | none => findFamily fs off

/-- Links and bundles that a die lacks follow R18 (R371). -/
def crlAbsent (off : Nat) : Bool :=
  let rel := off % 0x80000
  let i := (off - 0x8000000) / 0x80000
  if off < 0x8000000 || 0x8800000 ≤ off then false
  else if 0x10000 ≤ rel then linkBundles i (rel / 0x10000 - 1) ≤ rel % 0x10000 / 0x100
  else if 0x100 ≤ rel then linkBundles i ((rel - 0x100) / 0x80) == 0
  else false

/-- The register that a chapter defines at `off`, with its copy indices; none where R18 applies. -/
def regFamily (off : Nat) : Option (Family × List Nat) :=
  if crlAbsent off then none else findFamily (blockFamilies off) off

/-- A field's contribution to the reset value of its register. -/
def FieldRow.resetBits (r : FieldRow) (ix : List Nat) : Nat :=
  r.reset ix % 2 ^ (r.hi - r.lo + 1) * 2 ^ r.lo

/-- The value of the register at `off` after module reset (R16): the Reset column of its fields, zero elsewhere. -/
def Reg.resetVal (off : Nat) : W64 :=
  match regFamily off with
  | some (f, ix) => BitVec.ofNat 64 (f.fields.foldl (fun acc r => acc + r.resetBits ix) 0)
  | none => 0

end Sys2Proof.Machine
end

