-- ==== Sys2Proof/Machine/Map.lean ====
section
/-!
DEFINITION. Sparse storage by number, in one canonical form: a list of pairs with strictly rising keys and no entry equal to
what an unlisted key reads as. Registers, memory bytes, cores, ways, queues of a line are all held this way.
-/
namespace Sys2Proof.Machine

/-- The value listed at key `k`, if any. -/
def mapFind {α : Type} : List (Nat × α) → Nat → Option α
  | [], _ => none
  | (k', v) :: m, k => if k' = k then some v else mapFind m k

/-- What key `k` reads as: the listed value, else `d k`. -/
def mapGet {α : Type} (d : Nat → α) (m : List (Nat × α)) (k : Nat) : α :=
  match mapFind m k with
  | some v => v
  | none => d k

/-- The list without key `k`. -/
def mapDrop {α : Type} (m : List (Nat × α)) (k : Nat) : List (Nat × α) :=
  m.filter (fun e => e.1 != k)

/-- Insert `(k, v)` before the first greater key. -/
def mapIns {α : Type} : List (Nat × α) → Nat → α → List (Nat × α)
  | [], k, v => [(k, v)]
  | (k', v') :: m, k, v => if k < k' then (k, v) :: (k', v') :: m else (k', v') :: mapIns m k v

/-- The map in which key `k` reads as `v`; writing `d k` removes the entry. -/
def mapSet {α : Type} [DecidableEq α] (d : Nat → α) (m : List (Nat × α)) (k : Nat) (v : α) : List (Nat × α) :=
  if v = d k then mapDrop m k else mapIns (mapDrop m k) k v

/-- Keys strictly rising. -/
def mapSorted {α : Type} : List (Nat × α) → Bool
  | [] => true
  | [_] => true
  | (k, _) :: (k', v') :: m => decide (k < k') && mapSorted ((k', v') :: m)

/-- The canonical form: keys strictly rising, no entry equal to the default of its key. -/
def mapWf {α : Type} [DecidableEq α] (d : Nat → α) (m : List (Nat × α)) : Bool :=
  mapSorted m && m.all (fun e => decide (e.2 ≠ d e.1))

/-- The set of numbers held as a strictly rising list: membership. -/
def setHas (l : List Nat) (k : Nat) : Bool := l.contains k

/-- Add a number to a strictly rising list. -/
def setIns : List Nat → Nat → List Nat
  | [], k => [k]
  | x :: l, k => if k < x then k :: x :: l else if k = x then x :: l else x :: setIns l k

/-- Remove a number from a list. -/
def setDel (l : List Nat) (k : Nat) : List Nat := l.filter (· != k)

/-- Strictly rising. -/
def setSorted : List Nat → Bool
  | [] => true
  | [_] => true
  | x :: y :: l => decide (x < y) && setSorted (y :: l)

end Sys2Proof.Machine
end

