-- ==== Sys2Proof/Machine/State.lean ====
section
/-!
DEFINITION. The state of the module: every register by its register-space offset, memory, every core, the caches and the
directory, the messages in flight, the schedulers, links, ports, controllers, and the queue of waiting commands. Plain data.
-/
namespace Sys2Proof.Machine

/-- Why a step stops. The spec stops the block nowhere (INVENTORY.md, Faults): no meaning of the model raises a fault. -/
inductive Fault where
  /-- Nobody raises it: safe. -/
  | never
deriving DecidableEq, Repr

/-- Why a command has no meaning. -/
inductive Refusal where
  /-- Raised by an arm of exec whose command has no meaning yet: safe, since a claim about it cannot be proved. -/
  | notModelled (mnemonic : String)
deriving DecidableEq, Repr

/-! ### Lines and messages -/

/-- The contents of a line with its poison mark (R462). -/
structure LineData where
  d : Line
  poison : Bool
deriving DecidableEq, Repr

/-- Directory states (Table 8-2). -/
inductive DirState where
  | uncached | shared | owned | replicated
deriving DecidableEq, Repr

/-- A directory entry (Table 8-2); `ptrs` is bits 55:0 of the entry, pointers or l1_dies. -/
structure Dir where
  state : DirState
  coarse : Bool
  reps : BitVec 8
  ptrs : BitVec 56
deriving DecidableEq, Repr

/-- An UNCACHED entry. -/
def Dir.empty : Dir := ⟨.uncached, false, 0, 0⟩

/-- A stored word that holds an error (R459): one symbol, two symbols. -/
inductive WordErr where
  | one | two
deriving DecidableEq, Repr

/-- What a data way holds: a home line, with its directory entry, pin owner (R201) and reduction pin (R247), or a replica, with
its row vector (R238) and recorded epoch (R258). -/
inductive WayUse where
  | home (dir : Dir) (pin : Option PartId) (redPin : Bool)
  | replica (rows : BitVec 32) (epoch : W64)
deriving DecidableEq, Repr

/-- A valid data way (R187). -/
structure Way where
  line : LineNo
  ld : LineData
  dirty : Bool
  bad : Option WordErr               -- an injected symbol error in one word (R459, R483)
  use : WayUse
deriving DecidableEq, Repr

/-- A shadow entry (R187). -/
structure Shadow where
  line : LineNo
  dir : Dir
deriving DecidableEq, Repr

/-- A victim-buffer entry (R212); `issued` once its memory write has been issued (R246, R247). -/
structure VbEnt where
  line : LineNo
  ld : LineData
  issued : Bool
deriving DecidableEq, Repr

/-- What a home transaction is for: the request messages of Table 8-4 with what they carry. -/
inductive ReqOp where
  | gets (ifetch : Bool) (viaRep : Option SliceId)
  | getx
  | upg
  | swr (d : Line) (be : BitVec 128) (poison : Bool)
  | mrd
  | mwr (d : Line) (be : BitVec 128) (poison : Bool)
  | mwrs (d : Line) (be : BitVec 128) (poison : Bool)
  | amoH (off : BitVec 7) (op : BitVec 4) (w : Bool) (x y : W64)
  | radd (typ : BitVec 2) (d : Line) (poison : Bool)
  | leave (shadow : Bool) (k : Nat) -- no request: the line leaves the way or shadow entry `k` (R188)
deriving DecidableEq, Repr

/-- A request at its home: sender, requester number (R229), key (R195), arrival cycle (R228). -/
structure Req where
  src : Ep
  num : ReqNum
  key : Key
  op : ReqOp
  cyc : Option Nat
deriving DecidableEq, Repr

/-- A transaction in progress (R230) and what it still waits for. -/
structure Txn where
  req : Req
  invs : List Nat                -- L1s whose INV_ACK is awaited, by core index
  binv : Option Nat              -- the die whose BINV_ACK is awaited
  binvNext : List Nat            -- dies whose BINV is still to be sent, ascending
  reps : List Nat                -- dies whose REP_ACK is awaited
  owner : Option Nat             -- the owner whose FWD_DONE or RECALL_DATA is awaited
  fwdNext : Option Nat           -- the owner to which FWD_GETX follows once every other copy has gone (R255)
  fifth : Bool                   -- a fifth L1, whose RECALL keep S the owner answers (R225)
  mem : Bool                     -- memory data is awaited
  wrWait : Bool                  -- the two writes of a mirrored line are awaited (R344)
  got : Option (LineData × Bool) -- data gathered and whether it is dirty
  upgHit : Bool                  -- an UPG served as an UPG (GRANT, no data)
  fromMem : Bool                 -- the data gathered came from memory
  sent : Bool                    -- the owner has sent the data to the requester itself (R234)
deriving DecidableEq, Repr

/-- The line order of one line at its home (R228). -/
structure LineQ where
  act : Option Txn
  wait : List Req
  tie : Option Nat               -- the rotation pointer under which the last requests of `wait` are a tie (R228)
deriving DecidableEq, Repr

/-- The coherence messages in flight (Table 8-4). -/
inductive MsgBody where
  | gets (num : ReqNum) (key : Key) (ifetch : Bool)
  | getx (num : ReqNum) (key : Key)
  | upg (num : ReqNum) (key : Key)
  | victC (key : Key)
  | victD (ld : LineData)
  | cleanD (ld : LineData)
  | swr (d : Line) (be : BitVec 128) (poison : Bool)
  | mrd (num : ReqNum) (key : Key)
  | mwr (num : ReqNum) (key : Key) (d : Line) (be : BitVec 128) (poison : Bool)
  | mwrs (num : ReqNum) (key : Key) (d : Line) (be : BitVec 128) (poison : Bool)
  | amoH (num : ReqNum) (key : Key) (off : BitVec 7) (op : BitVec 4) (w : Bool) (x y : W64)
  | radd (num : ReqNum) (key : Key) (typ : BitVec 2) (d : Line) (poison : Bool)
  | dataS (ld : LineData)
  | dataE (ld : LineData)
  | dataM (ld : LineData)
  | dataI (ld : LineData)           -- data for an instruction-cache fill (R233)
  | dataP (ld : LineData)           -- data for a port or mover read (MRD)
  | grant
  | fwdGets (num : ReqNum) (ifetch : Bool)
  | fwdGetx (num : ReqNum)
  | fwdRd
  | recall (keepS : Bool)
  | inv
  | binv
  | invAck
  | binvAck
  | fwdDone (dirty : Bool) (st : Option Moesi) (ld : Option LineData)
  | fwdMiss
  | recallData (ld : LineData) (dirty : Bool)
  | wbAck (accepted : Bool)
  | repData (ld : LineData) (num : ReqNum) (key : Key) (ifetch : Bool)
  | repFwd (num : ReqNum) (key : Key) (ifetch : Bool) (dst : Option SliceId)
  | repInv
  | repAck
  | repDrop
  | done (status : BitVec 4) (old : W64) (poison : Bool)
deriving DecidableEq, Repr

/-- A message in flight between two endpoints (R351). -/
structure Msg where
  src : Ep
  dst : Ep
  l : LineNo
  body : MsgBody
deriving DecidableEq, Repr

/-- A replica fill in flight (R239): slice, line, requester, whether REP_INV has made it dead, the epoch of its GETS (R258), and its data and
key once they have come and wait for a way. -/
structure RepFill where
  slice : Nat
  line : LineNo
  num : ReqNum
  ifetch : Bool
  dead : Bool
  epoch : W64
  got : Option (LineData × Key)
deriving DecidableEq, Repr

/-- A way or shadow entry `k` of a slice that an allocation for `line` has chosen and that is still being emptied (R188, R200). -/
structure Promise where
  line : LineNo
  slice : Nat
  shadow : Bool
  k : Nat
deriving DecidableEq, Repr

/-- The caches and the directory of every slice. Ways are keyed `(slice * 8192 + set) * 16 + way`, shadow entries
`(slice * 8192 + set) * 2 + entry`, buffers by slice, line orders by line. -/
structure Llc where
  ways : List (Nat × Option Way)
  shadows : List (Nat × Option Shadow)
  vbuf : List (Nat × List VbEnt)
  rbuf : List (Nat × List VbEnt)
  lineq : List (Nat × LineQ)
  stale : List Nat                       -- lines to which R262 applies
  fills : List RepFill
  promises : List Promise
  repInv : List (Nat × Nat × List Nat × Bool) -- replica removals: slice, line, INV_ACKs awaited, answer by REP_ACK
  binv : List (Nat × Nat × List Nat)     -- die broadcasts: die, line, INV_ACKs awaited
  ueLines : List (Nat × List Nat)        -- per slice, distinct lines found uncorrectable (R473)
  done : List (Nat × Bool × Bool)        -- mirrored lines whose write is in progress: line, primary, copy (R344)
  probes : List (Nat × Nat)              -- directory probes that wait for the end of a transaction: die, line (R250)
deriving DecidableEq, Repr

/-! ### One tile core -/

/-- A token counter (R84): setters issued and completed, and the engine of the pending ones (R85). -/
structure Tok where
  issued : Nat
  done : Nat
  eng : Option Engine
deriving DecidableEq, Repr

/-- A register that an issued instruction has still to write (R86). -/
inductive PendReg where
  | s (n : Nat)
  | p (n : Nat)
  | m (n : Nat)
deriving DecidableEq, Repr

/-- A pending register with the number of its writer. -/
structure Pend where
  reg : PendReg
  id : Nat
deriving DecidableEq, Repr

/-- What the leg that a core runs is (R79, R92): the caravan, the leg within it, rank, size, partition, instance and class. -/
structure Leg where
  car : Nat
  ix : Nat
  rank : Nat
  size : Nat
  part : PartId
  inst : InstId
  lc : Bool
deriving DecidableEq, Repr

/-- Where the sequencer stands. `wait` names the instruction at which issue stopped. -/
inductive Phase where
  | idle
  | run
  | wait (i : Instr)
  | stopped          -- END executed, or held, or aborted: issues nothing further
  | faulted          -- a bad operation (R93)
  | save             -- its caravan is being saved
  | restore          -- its caravan is being restored
deriving DecidableEq, Repr

/-- An engine instruction of a queue with what it captured at issue (R83): the instruction, its pc, captured scalars, the
captured mask pair, the twait count (R84) and the writer number of its pending registers. -/
structure QEnt where
  ins : Instr
  pc : BitVec 52
  a : W64
  b : W64
  c : W64
  d : W64
  m : W64
  m2 : W64
  need : Nat
  id : Nat
deriving DecidableEq, Repr

/-- An operand buffer of the matrix engine (R115): bytes as a number, and the marks of its lines. Format and K are
CORE_ME_STATE. The scratchpad offsets are those of the MLD that loaded it (R133). -/
structure OpBuf where
  elems : Nat
  plane : Nat
  fmt : Nat
  marks : BitVec 256                 -- poison marks: bit 64 * panel + line (R134)
  offA : W64
  offB : W64
deriving DecidableEq, Repr

/-- An element of a VST with its data: in stacked memory, else in the own scratchpad, at its address or offset. -/
structure VstElem where
  mem : Bool
  addr : Nat
  val : Nat
  poison : Bool
deriving DecidableEq, Repr

/-- What a started engine instruction has read or computed, applied when it completes (R113, R126, R130, R140). -/
inductive EngRes where
  | none
  | mld (opd : Bool) (buf : OpBuf) (k : Nat)
  | mma (z : Bool) (fa fb : Nat) (a b : OpBuf)
  | mswap
  | mdrain (out : List (Nat × List Byte × Bool))          -- scratchpad offset, bytes, poison
  | vec (ents : List (Nat × Entry × W64)) (sreg : Option (Nat × W64)) (masks : List (Nat × W64)) (esc : Bool)
  | vld (vd : Nat) (e : Entry) (mark : W64) (left : Nat)  -- elements still to come
  -- the own scratchpad bytes written so far, the lines stored to so far, the elements still to be stored in ascending index (R148)
  | vst (own : List (Nat × Nat × Bool)) (lines : List Nat) (left : List VstElem)
deriving DecidableEq, Repr

/-- A started engine instruction. -/
structure Started where
  q : QEnt
  res : EngRes
deriving DecidableEq, Repr

/-- A valid L1 line (R217, R222). -/
structure L1Line where
  line : LineNo
  st : Moesi
  ld : LineData
deriving DecidableEq, Repr

/-- What an access does to the bytes it names in one line. -/
inductive AccKind where
  | load (id : Nat)                                      -- bytes go to load record `id`
  | store (bytes : Nat) (poison : Bool)
  | amo (id : Nat) (op : BitVec 4) (w : Bool) (x y : W64)
deriving DecidableEq, Repr

/-- A part of an access within one line (R98): byte offset, length, whether an engine issued it. -/
structure MemAcc where
  off : Nat
  len : Nat
  pos : Nat            -- byte position of this part within the whole access
  kind : AccKind
  eng : Bool
deriving DecidableEq, Repr

/-- An outstanding L1 miss: the state wanted (`own`: ownership), whether it is an UPG, and the accesses waiting, in order. -/
structure Miss where
  line : LineNo
  own : Bool
  upg : Bool
  asked : Bool         -- its request has been sent (R231)
  once : Bool          -- data in S serves the access that asked and is not installed (R239)
  accs : List MemAcc
deriving DecidableEq, Repr

/-- Where a load's value goes once every byte is there. -/
inductive LoadDest where
  | sreg (n : Nat) (bytes : Nat) (sx : Bool) (wid : Nat)
  | elem (vid e : Nat)                                   -- element e of the started VLD with writer number vid
  | acqLoad (n : Nat) (bytes : Nat) (wid : Nat)
deriving DecidableEq, Repr

/-- A load whose bytes are being gathered: its address as the instruction formed it, and whether it leaves the module (another module
or a remote window). `dead` once a part of it was lost or refused: the whole load reads zero (R111, R418). -/
structure LoadRec where
  id : Nat
  dest : LoadDest
  addr : W64
  far : Bool
  got : Nat
  left : Nat
  poison : Bool
  dead : Bool
  bad : Option W64     -- the lowest byte that another module refused
  counted : Bool       -- its instruction has counted an address error already (R112)
deriving DecidableEq, Repr

/-- The write streaming detector (R208-R210): bytes of the current and next line stored so far, the last completed line, the
line buffers with their byte masks and marks. CORE_WSD holds mode and run. -/
structure Wsd where
  cur : Option (Nat × BitVec 128)
  nxt : Option (Nat × BitVec 128)
  last : Option Nat
  bufs : List (Nat × Line × BitVec 128 × Bool)
deriving DecidableEq, Repr

/-- What the acknowledgement of an issued piece comes from (R180, R253): nothing more, a DONE of its line's home, the DONE of a
remote tag, a flush read still to be sent on a host port (2 + port for a piece that went through a remote window), or the flush read
outstanding there. -/
inductive PieceWait where
  | ready
  | line (l : LineNo)
  | remote (n : Nat)
  | host (p : Nat)
  | flushing (p : Nat)
deriving DecidableEq, Repr

/-- What the gather index of a row gives (R172, R556): the row is skipped, it is poisoned, or the index. -/
inductive GatherIx where
  | skip
  | poison
  | row (x : Nat)
deriving DecidableEq, Repr

/-- A piece issued and not yet performed, with its bytes. -/
structure Flight where
  bytes : Nat
  wait : PieceWait
deriving DecidableEq, Repr

/-- A descriptor that a tag has started (R173): its eight words, the unit of rows and the piece that come next, the gather index of that
row once it has been read (R556), and the pieces in flight. -/
structure DescRun where
  idx : Nat
  words : BitVec 512
  row : Nat
  col : Nat
  index : Option GatherIx
  issued : Bool
  flight : List Flight
deriving DecidableEq, Repr

/-- A mover tag (R179-R183): its status word, whether the leg has used it, whether it is outstanding, the list's first descriptor
address and the next index, the descriptors running, whether the last has been read, how its abort stands (0 none, 1 sent, 2 in
time, 3 too late), an error status that ends it, what the last descriptor read requests, whether a poisoned piece left the core
(R467), ports whose flush read is outstanding, whether partner loss met a piece, and whether the MOVE has counted its address error (R112). -/
structure TagSt where
  word : W64
  used : Bool
  out : Bool
  base : W64
  next : Nat
  runs : List DescRun
  lastRead : Bool
  abort : Nat
  ended : Option (BitVec 8)
  wakeEn : Bool
  wake : BitVec 4
  evt : Bool
  poisonOut : Bool
  flush : List Nat
  lost : Bool
  counted : Bool
deriving DecidableEq, Repr

/-- A source line that the mover reads for a tag (R176): its number (`State.lineKey`, `hostKey`), and its data once it has come. -/
structure MvLine where
  tag : Nat
  key : Nat
  d : Option LineData
deriving DecidableEq, Repr

/-- A remote request of a core under its tag (R412). -/
inductive RemKind where
  | read (id pos len : Nat) (addr : W64)         -- bytes of load record `id` from byte `pos`
  | write (id : Nat) (addr : W64) (bad : Option W64) (counted : Bool) -- one line of store `id` (R112)
  | amo (n : Nat) (w : Bool) (wid : Nat)
  | radd
  | piece (tag : BitVec 8)
  | pieceRead (tag : BitVec 8) (key : Nat)
deriving DecidableEq, Repr

structure RemReq where
  tag : Nat
  gen : BitVec 8
  module : BitVec 12
  kind : RemKind
deriving DecidableEq, Repr

/-- A remote read recorded by a save (R314): register, size, sign extension, address. -/
structure RemRead where
  reg : Nat
  size : Nat
  sx : Bool
  addr : W64
deriving DecidableEq, Repr

/-- One tile core: sequencer (R77), engines, arrays, L1, detector, mover. -/
structure Core where
  phase : Phase
  ended : Bool                       -- its part of the leg has ended (R95, R96)
  held : Bool                        -- held in place (R285)
  pc : BitVec 52
  s : List (Nat × W64)
  p : BitVec 8
  m : List (Nat × W64)
  toks : List (Nat × Tok)
  wf : BitVec 16
  bars : List (Nat × (Bool × Bool))  -- 4 * scope index + id: arrived, phase (Table 11-4)
  barWait : Option Instr             -- a BAR at which the core has arrived and waits (R312)
  pend : List Pend
  nextId : Nat
  leg : Option Leg
  lastInst : Option InstId           -- instance of the latest leg, none since the row was prepared (R301, R302)
  fails : List Nat                   -- failed writes of the leg, by cause of Table 18-9; a mover's have 10 added (R475)
  meq : List QEnt
  veq : List QEnt
  mvq : List QEnt
  meRun : List Started
  veRun : List Started
  icache : List (Nat × Option (LineNo × LineData))
  fetch : List Nat                   -- lines requested by fetch misses
  fetchOnce : List Nat               -- of those, the lines whose data is used once and not installed (R239)
  oc : List (Nat × Entry)
  ocMark : List (Nat × W64)
  bufA : OpBuf
  bufB : OpBuf
  acc0 : List (Nat × Entry)
  acc1 : List (Nat × Entry)
  l1 : List (Nat × Option L1Line)
  plru : List (Nat × BitVec 3)
  hold : List Nat                    -- lines under the hold of R237
  kept : List Msg                    -- forwards and recalls kept (R231, R237)
  offered : List (Nat × LineData)    -- victim offers not yet settled, with their data
  miss : List Miss
  loads : List LoadRec
  swrOut : List Nat                  -- streaming writes not yet in line order
  raddOut : List Nat                 -- RADDs not yet in line order
  wsd : Wsd
  tags : List (Nat × TagSt)
  mvBuf : List MvLine
  remote : List RemReq
  ledReg : List (Nat × Nat)          -- registers awaiting a ledger value, with the number of the write (R316)
  remRead : List RemRead             -- remote reads to issue again (R316)
  winPorts : List (Nat × Nat)        -- ports written through windows since the last FENCE or REL at T6, with the last address (R256)
  winLines : List (Nat × Nat)        -- port and line of window writes since the port's last flush read (R414)
  mvLast : Nat                       -- tag whose piece the mover issued last (R184)
  escaped : Bool                     -- an instruction of the leg has set poison_escape (R164)
  barFail : List Nat                 -- barriers (as in bars) at which the core's arrival marked the phase failed (R476)
  ann : List (Nat × Nat × Bool)      -- announcements by frame: frame, amount or level, HEAVY (R106)
deriving DecidableEq, Repr

/-- An operand buffer with nothing loaded (R132). -/
def OpBuf.empty : OpBuf := ⟨0, 0, 0xF, 0, 0, 0⟩

/-- A tag that the leg has not used (R179). -/
def TagSt.idle : TagSt :=
  { word := 0, used := false, out := false, base := 0, next := 0, runs := [], lastRead := false, abort := 0, ended := none,
    wakeEn := false, wake := 0, evt := false, poisonOut := false, flush := [], lost := false, counted := false }

def Tok.zero : Tok := ⟨0, 0, none⟩

/-- A core right after reset. Log entry 2 names the values that the spec does not give. -/
def Core.reset : Core :=
  { phase := .idle, ended := false, held := false, pc := 0, s := [], p := 0, m := [], toks := [], wf := 0, bars := [],
    barWait := none, pend := [], nextId := 0, leg := none, lastInst := none, fails := [], meq := [], veq := [], mvq := [], meRun := [], veRun := [],
    icache := [], fetch := [], fetchOnce := [], oc := [], ocMark := [], bufA := OpBuf.empty, bufB := OpBuf.empty, acc0 := [], acc1 := [],
    l1 := [], plru := [], hold := [], kept := [], offered := [], miss := [], loads := [], swrOut := [], raddOut := [],
    wsd := ⟨none, none, none, []⟩, tags := [], mvBuf := [], remote := [], ledReg := [], remRead := [], winPorts := [], winLines := [], mvLast := 255, escaped := false, barFail := [],
    ann := [] }

/-! ### Frames and caravans -/

/-- A leg record (Table 10-3) and whether its binding block has been checked. -/
structure LegRec where
  rows : BitVec 256
  entry : W64
  binding : W64
  nbind : BitVec 16
deriving DecidableEq, Repr

/-- What a save keeps of one core beside its save area (R478): its CORE_ERR flags, CORE_FAULT, failed writes, failed barrier arrivals, whether
a remote request was lost, where the sequencer stood, the BAR it waits at, and what Table 11-5 has no place for. -/
structure CoreKeep where
  core : Nat
  err : W64
  fault : W64
  fails : List Nat
  barFail : List Nat
  lost : Bool
  escaped : Bool
  phase : Phase
  bar : Option Instr
  queued : List (BitVec 52 × W64)    -- pc and second captured mask of each queue entry, matrix, vector, mover
  winPorts : List (Nat × Nat)
  winLines : List (Nat × Nat)
  ann : List (Nat × Nat × Bool)
deriving DecidableEq, Repr

/-- Where a caravan stands. -/
inductive CarPhase where
  | admitted | queued | running | held | saving | saved | restoring | ended
deriving DecidableEq, Repr

/-- A caravan that the scheduler has read (R277): its header, legs, class and progress. -/
structure Caravan where
  id : Nat
  inst : InstId
  part : PartId
  lc : Bool
  tag : W64
  cycles : BitVec 32
  tolls : BitVec 32
  dram : W64
  link : W64
  legs : List LegRec
  phase : CarPhase
  resume : CarPhase                 -- the phase a save or restore returns to
  level : Option Nat                -- save level (R309)
  since : Nat                       -- start of the interval running now, ns
  elapsed : Nat                     -- elapsed time without held intervals, ns
  overruns : Nat
  ovCause : Nat                     -- OVERRUN cause, 0 none (Table 10-5)
  ledWait : Bool                    -- counted as waiting for a ledger entry in the save in progress
  slow : Bool                       -- a core ran below fg while it ran (R285)
  ending : Option (Nat × Nat)       -- FAULT or ABORTED with its cause, once due (R290)
  poisoned : Bool                   -- R467
  spent : Nat                       -- energy metered, µJ (R444)
  leaves : List CoreKeep            -- by core, while the caravan is saved (R478)
  last : List Nat                   -- cores whose part has ended
  done : List Nat                   -- cores that have finished the save or restore in progress
deriving DecidableEq, Repr

/-- A receipt that is due (Table 10-4 without seq and phase), with whether its caravan holds ring room. -/
structure Receipt where
  tag : W64
  status : Nat
  cause : Nat
  overruns : Nat
  lc : Bool
  untagged : Bool
  cycles : Nat
  addrErr : Nat
  tolls : Nat
  frame : Nat
  spent : Nat                       -- tolls before saturation, and declared: for the ratio of R446
  declared : Nat
deriving DecidableEq, Repr

/-- What the waybill reader expects next from an instance's slot (R265, R275): list entries that cannot be read are `none`; `bad` are the
causes of refusal found so far. -/
inductive ReadStage where
  | idle
  | first                           -- the first read of a slot that became active (R273)
  | gen
  | slot (gen : BitVec 32)
  | list (gen : BitVec 32)
  | header (gen : BitVec 32) (i : Nat) (addrs : List (Option W64))
  | legs (gen : BitVec 32) (i : Nat) (addrs : List (Option W64)) (head : List Byte)
  | binds (gen : BitVec 32) (i : Nat) (addrs : List (Option W64)) (car : Caravan) (leg : Nat) (bad : List Nat)
deriving DecidableEq, Repr

/-- The fields of Table 10-1 that the scheduler has taken from a slot. -/
structure SlotInfo where
  lc : Bool
  irq : Bool
  listSpace : Nat
  ringSpace : Nat
  count : Nat
  list : W64
  ring : W64
  ringLog2 : Nat
  vector : Nat
  consumed : BitVec 32
deriving DecidableEq, Repr

/-- One caravan of a taken list: refused with its cause at reading, or a candidate. -/
inductive Cand where
  | refused (tag : W64) (untagged : Bool) (cause : Nat)
  | car (v : Caravan)
deriving DecidableEq, Repr

/-- One instance at the scheduler. -/
structure InstRd where
  fresh : Bool                      -- the slot became active and its first read has not yet succeeded (R273)
  stage : ReadStage
  slot : SlotInfo
  taken : List Cand                 -- the taken list, in list order
  owed : Nat                        -- caravans that have not yet had a receipt (R275)
  due : List Receipt
  writes : List (Nat × Option Nat)  -- lines of receipt writes to stacked memory not yet entered at their homes, and the vector that follows (R291, R304)
  flush : Bool                      -- the flush read after the last receipt of an unbind is outstanding (R304)
  req : Option Nat                  -- the host read that the stage waits for (R380)
deriving DecidableEq, Repr

def SlotInfo.empty : SlotInfo := ⟨false, false, 0, 0, 0, 0, 0, 0, 0, 0⟩
def InstRd.empty : InstRd := ⟨false, .idle, SlotInfo.empty, [], 0, [], [], false, none⟩

/-- An abort in progress (R287): who asked (none the manager, or a tenant's instance), and the caravans named. -/
structure AbortReq where
  tenant : Option InstId
  named : List Nat
  aborted : Bool
deriving DecidableEq, Repr

/-- One partition at the scheduler: order of admitted LC caravans, the BE queue, saved BE caravans, budgets of its section
(R294), the fg used this frame (R280). -/
structure PartSt where
  lcq : List Nat
  beq : List Nat
  bd : W64
  bl : W64
  bt : W64
  fg : Nat
  risk : Bool
  ownEff : Bool                     -- stage one of R306: only the requesting instance is read and admitted
  stuck : Bool                      -- held by a contained error until a reload (R470)
  spentT : Nat                      -- tolls metered this frame, µJ
  admitDue : Bool                   -- the frame's admission has still to come (R281)
  reloaded : Bool                   -- a reload has been applied: the next tick makes it ACTIVE (R513)
deriving DecidableEq, Repr

def PartSt.empty : PartSt := ⟨[], [], 0, 0, 0, 0, false, false, false, 0, false, false⟩

/-- States of a ledger entry (R315). -/
inductive LedSt where
  | waiting | acked | lost
deriving DecidableEq, Repr

/-- A ledger entry (R315). -/
structure Ledger where
  car : Nat
  inst : InstId
  tag : Nat
  gen : BitVec 8
  core : Nat
  module : BitVec 12
  reg : Option (Nat × Bool)         -- destination register of an AMO, and its width
  mvTag : Option (BitVec 8)
  st : LedSt
  val : W64
  orphan : Bool                     -- its caravan has ended while it waited (R318)
  poison : Bool                     -- the AMO read poison, still to be reported (R466)
deriving DecidableEq, Repr

/-- The frame generator and the frame scheduler. -/
structure Sched where
  run : Bool                        -- ticks are produced (R272)
  t0 : Nat                          -- instant of the opening tick, ns
  len : Nat                         -- length of the frame in progress, µs (R269)
  slew : Int                        -- by how much the frame in progress is lengthened, ns (R271)
  load : Option W64                 -- FRM_COUNT_LOAD (R270)
  lastEdge : Option Nat
  goodEdges : Nat
  badEdges : Nat
  cars : List Caravan
  nextCar : Nat
  insts : List (Nat × InstRd)
  parts : List (Nat × PartSt)
  abort : Option AbortReq
  abortQ : List (InstId × Bool × W64)  -- tenants' aborts that wait: instance, all, tag (R390)
  ledger : List Ledger
  dueq : List Nat                   -- instances of the receipts that are due, in the order of R289
deriving DecidableEq, Repr

def Sched.reset : Sched :=
  { run := false, t0 := 0, len := 250, slew := 0, load := none, lastEdge := none, goodEdges := 0, badEdges := 0, cars := [], nextCar := 0,
    insts := [], parts := [], abort := none, abortQ := [], ledger := [], dueq := [] }

/-! ### Stacked memory -/

/-- The memory controllers: error condition of stored words by byte address of the word, distinct failed lines of a channel,
corrected reads of the window, good windows in WATCH, spares at module reset, claimed map-out entries not yet in flash. -/
structure Mem where
  bad : List (Nat × WordErr)
  ue : List (Nat × List Nat)
  win : List (Nat × Nat)
  good : List (Nat × Nat)
  skipWin : List Nat                -- channels in the window in which they entered WATCH (R341)
  spares0 : List (Nat × BitVec 16)
  mapped : List Nat                 -- the map-out list in force (R331)
  claims : List Nat                 -- claimed, flash write pending
  fills : List Nat                  -- lines whose memory read the home has issued
  wr : List (Nat × LineData)        -- line writes received by a controller and not yet complete
deriving DecidableEq, Repr

/-- An armed injection of a die (R483). -/
structure Inject where
  core : CoreId
  kind : BitVec 2
  unit : BitVec 4
deriving DecidableEq, Repr

/-- Error reporting: armed injections by die, first occurrence times of the latest record by die, the fatal condition. -/
structure Errs where
  inj : List (Nat × Option Inject)
  first : List (Nat × Nat)
  fatal : Bool
deriving DecidableEq, Repr

/-! ### Die links -/

/-- One end of a bundle. The direction it sends: next seq, the replay buffer of unacknowledged flits with their send counts (R352), flits of
a retired bundle that still wait to be sent on it (R360), the credits it holds by class (R367). The direction it receives: expected seq, flits
since its last ack, the copies it discarded, errors by physical lane and NAKs sent in the window, physical lanes found failing (R357). Physical
lanes 64 to 67 are the spares. -/
structure BunEnd where
  txNext : Nat
  buf : List (BitVec 1536 × Nat)
  moved : List (BitVec 1536)
  credits : List (Nat × Nat)
  rxExp : Nat
  sinceAck : Nat
  disc : List (BitVec 1536)
  laneErr : List (Nat × Nat)
  replays : Nat
  attributed : Bool
  excess : Bool                     -- a window ended with too many replays, none attributed (R357)
  bad : List Nat
  target : Nat                      -- change its quiesce makes: 0 none, 1 spare, 2 HALF_LOW, 3 HALF_HIGH (R361)
  swap : List (Nat × Nat)           -- logical lanes that the quiesce gives a spare, each with the spare
deriving DecidableEq, Repr

/-- A bundle end after training (R370). -/
def BunEnd.reset : BunEnd :=
  { txNext := 0, buf := [], moved := [], credits := [], rxExp := 0, sinceAck := 0, disc := [], laneErr := [], replays := 0, attributed := false,
    excess := false, bad := [], target := 0, swap := [] }

/-- The die links. Bundle ends are keyed `(die * 3 + link) * 64 + bundle`, links `die * 3 + link`. -/
structure Ceral where
  ends : List (Nat × BunEnd)
  keep : List Nat                   -- link ends whose die keeps its records at the next training (R365)
  degraded : List Nat               -- degraded links, by the end at the lower die index (R362)
  isolated : List Nat               -- isolated dies (R364)
  untrained : List Nat              -- links that have yet to train since module reset or a die reset, by the end at the lower die index (R354)
  waits : List (Nat × Nat)          -- die pairs (16 * from + to) whose route changed, with the earlier messages still to be delivered (R363)
deriving DecidableEq, Repr

/-- The die links right after module reset: every link has yet to train (R354, R370). -/
def Ceral.reset : Ceral := ⟨[], [], [], [], [0, 1, 2, 4, 5, 7, 8, 10, 11, 12, 13, 16, 19, 22], []⟩

/-! ### Host ports -/

/-- An MSI-X table entry. -/
structure MsixEnt where
  addr : W64
  data : BitVec 32
  mask : Bool
deriving DecidableEq, Repr

/-- A cached translation (R381). -/
structure AtsEnt where
  pasid : BitVec 20
  va : Nat
  len : Nat
deriving DecidableEq, Repr

/-- What a device-issued non-posted request is for: the flush read of a mover tag's pieces, a source line of a mover tag, a load through a
window, the flush read of a release, that of an unbind, or a read of the waybill reader. -/
inductive HostFor where
  | piece (core : Nat) (tag : BitVec 8)
  | source (core : Nat) (tag : BitVec 8) (key : Nat)
  | waybill (inst : InstId)
  | winLoad (core : Nat) (id pos len : Nat)
  | flush (core : Nat)
  | unbind (inst : InstId)
deriving DecidableEq, Repr

/-- A device-issued request that has not completed, with the translation it was issued under; `dead` when its port was down or its translation
failed, so that it can only fail (R382, R414). -/
structure HostReq where
  id : Nat
  pasid : Option (BitVec 20)
  addr : Nat
  len : Nat
  what : HostFor
  dead : Bool
deriving DecidableEq, Repr

/-- An Invalidate Request whose completion is due: its tag, and the outstanding requests it still waits for (R381). -/
structure Inval where
  itag : BitVec 5
  wait : List Nat
deriving DecidableEq, Repr

/-- An error that a port logs under AER (Table 14-3, R379). -/
inductive AerErr where
  | timeout | unsupported | abort | translation | poisoned | unexpected | ideCheck | egress | internal
deriving DecidableEq, Repr

/-- One host port beside its registers: the fields of its configuration space that the spec gives a choice (R372, R378, R382: MSI-X Enable and
Function Mask, Max Payload Size and Max Read Request Size as coded there, the size of BAR2 as a power of two, the errors logged under AER),
MSI-X table and pending bits (R384), ATS cache, IDE streams (0 the link stream, n + 1 selective stream n), DOE session (R528). -/
structure HostPort where
  msixEn : Bool
  fmask : Bool
  mps : Nat
  mrrs : Nat
  bar2 : Nat
  aer : List AerErr
  msix : List (Nat × MsixEnt)
  pba : List Nat
  ats : List AtsEnt
  reqs : List HostReq
  nextReq : Nat
  inval : List Inval
  streams : List Nat
  session : Nat                     -- 0 none, 1 KEY_EXCHANGE answered, 2 FINISH answered
deriving DecidableEq, Repr

/-- A table entry after reset: masked, as PCI Express resets it (log 20). -/
def MsixEnt.reset : MsixEnt := ⟨0, 0, true⟩

def HostPort.reset : HostPort :=
  { msixEn := false, fmask := false, mps := 0, mrrs := 2, bar2 := 42, aer := [], msix := [], pba := [], ats := [], reqs := [], nextReq := 0, inval := [], streams := [],
    session := 0 }

/-- A bitmap word of dirty logging (R395): last-known value, gathered bits not yet sent, and the bits of an outstanding CAS. -/
structure DlogWord where
  inst : Nat
  range : Nat
  word : Nat
  last : W64
  bits : W64
  out : Option W64
deriving DecidableEq, Repr

/-- The host interface: ports, TDIs by instance (the stream a locked TDI uses, R391), zeroing in progress (R393), dirty words. -/
structure HostIf where
  p0 : HostPort
  p1 : HostPort
  perst : Bool
  tdiStream : List (Nat × Nat)
  zeroing : List (Nat × Bool)       -- instance, and whether CONFIG_UNLOCKED follows (STOP_INTERFACE or an unbind)
  dlog : List DlogWord
deriving DecidableEq, Repr

/-! ### Optical ports -/

/-- One optical port beside its registers: its sending direction with the replay buffer of unacknowledged flits and their send counts, its
receiving direction, flits since its last ack (R405), trained lanes. -/
structure OptEnd where
  txNext : Nat
  buf : List (BitVec 2048 × Nat)
  queue : List (Nat × List (BitVec 128))   -- units that wait to be sent, by virtual channel (R403)
  credits : List (Nat × Nat)               -- units that may be sent, by virtual channel
  owed : List (Nat × Nat)                  -- credits to return, by virtual channel
  rxExp : Nat
  sinceAck : Nat
  lanes : BitVec 8
deriving DecidableEq, Repr

def OptEnd.reset : OptEnd := ⟨0, [], [], [], [], 0, 0, 0⟩

/-- A request of another module or of a host being served (R411, R379): the endpoint it came by, its op of Table 15-3, its header (of a
remote request), the bytes it names, and what it still waits for. -/
structure InbReq where
  id : Nat
  ep : Ep
  op : BitVec 8
  h : RemHdr
  addr : Nat
  len : Nat
  left : List Nat                   -- lines not yet answered by their homes
  got : List (Nat × Line)           -- read data by line
  poison : Bool
  failed : Bool
  old : W64
deriving DecidableEq, Repr

/-- The optical links and routing. -/
structure Optical where
  ends : List (Nat × OptEnd)
  seen : List (Nat × Nat)           -- LOSS notices processed: detecting module, loss count (R417)
  newRoute : List (Nat × W64)       -- OPT_ROUTE writes that the next tick applies (R409)
  newWin : List (Nat × W64)         -- OPT_WIN and OPT_WIN_BUS writes that the next tick applies, by offset
  routeHold : List Nat              -- destinations whose new requests wait for older ones (R409)
  inb : List InbReq
  nextInb : Nat
deriving DecidableEq, Repr

/-! ### Events, power, boot, image, security -/

/-- A management processor's normal stack, top first, and its fast bank (R425, R426). -/
structure EvcCpu where
  stack : List (Nat × Nat)
  fast : Option Nat
deriving DecidableEq, Repr

def EvcCpu.reset : EvcCpu := ⟨[], none⟩

/-- A transition of Table 17-2 in progress: target, the step it stands at, and whether a coolant halt drives it (R453). -/
structure PwrEntry where
  target : Nat
  step : Nat
  coolant : Bool
deriving DecidableEq, Repr

/-- The power controller beside its registers. Clock rates are MHz. -/
structure Power where
  entry : Option PwrEntry
  held : List Nat                   -- partitions that step 1 held (Table 17-2)
  ret : Option Nat                  -- return in progress, from this state (R442)
  woke : Option Nat                 -- the watch entry that started the return
  wakeNext : Option Nat             -- a watched source during entry (R435)
  halt : Bool                       -- coolant halt in effect
  coolant : Bool                    -- COOLANT_FAULT_N asserted, or deasserted for less than 1 s (R547)
  trip : Bool                       -- junction trip and its hold (R454)
  stretch : Bool                    -- current stretch (R449)
  rates : List (Nat × Nat)          -- set rate by core (R448)
  newMax : List (Nat × Nat)         -- lowered maxima that the next tick applies (R450)
  alarm : List Nat                  -- halves at 450 MHz under R452 (2 * die + half)
  cool : List (Nat × Nat)           -- readings at or below throttle_c - 3 in a row, by half
  thermLc : List (Nat × Nat)        -- thermal limit of cores that run LC caravans, by half (therm_mhz is the others')
  capLow : List Nat                 -- LC cores lowered under steps 2 and 3 of R448
  beLow : Nat                       -- loops in a row with BE power below 90 % of the limit (R447)
  droop : List Nat                  -- rows stretched
  droopsFrame : List (Nat × Nat)    -- onsets by die in the frame (PWR(4))
  pred : List (Nat × Nat)           -- prediction of each admitted LC caravan
  hist : List Nat                   -- instances whose history is in use in the frame: 16 ticks had passed before its tick (R446)
  ebe : Nat                         -- BE allowance of the frame, mJ (R447)
  temps : List (Nat × Nat)          -- latest hottest reading by half of a die, °C (R452)
deriving DecidableEq, Repr

def Power.reset : Power :=
  { entry := none, held := [], ret := none, woke := none, wakeNext := none, halt := false, coolant := false,
    trip := false, stretch := false, rates := [], newMax := [], alarm := [], cool := [], thermLc := [], capLow := [], beLow := 0, droop := [],
    droopsFrame := [], pred := [], hist := [], ebe := 0, temps := [] }

/-- The boot beside its registers: rails, released dies, a die reset in progress (R498). -/
structure Boot where
  rails : List Nat                  -- power-good rail steps: 1, 2, and 8 * (die + 1) + step for the steps of a compute die
  released : List Nat
  reported : List Nat               -- dies whose straps were reported
  dieReset : Option Nat
  trained : List Nat                -- stacks that have ended training
  inputOk : Bool
deriving DecidableEq, Repr

def Boot.reset : Boot :=
  { rails := [1, 2], released := [], reported := [], dieReset := none, trained := [], inputOk := true }

/-- A PARTITION section in force (Table 20-7), as its bytes. -/
structure PartSec where
  bytes : List Byte
deriving DecidableEq, Repr

/-- The image in force (R502): TOPOLOGY rows, gated halves, POLICY, PARTITION sections; and the operation in progress. -/
structure Image where
  applied : Bool
  digest : BitVec 512
  rows : List (Nat × BitVec 16)     -- row records (R505)
  gated : BitVec 16
  reachMax : BitVec 16
  flags : BitVec 8
  module : List Byte                -- the MODULE, DIE and TOPOLOGY sections in force
  die : List Byte
  topo : List Byte
  parts : List (Nat × PartSec)
  op : Option Nat
  opPart : Nat                      -- partition that the operation in progress names
deriving DecidableEq, Repr

def Image.reset : Image :=
  { applied := false, digest := 0, rows := [], gated := 0, reachMax := 0, flags := 0, module := [], die := [], topo := [], parts := [],
    op := none, opPart := 0 }

/-- The flash and the fuses as they stand, which no reset clears: sparse over the Config constants that give their contents. -/
structure Flash where
  img : List (Nat × Option (List Byte))
  fw : List (Nat × Option (List Byte))
  keys : List (Nat × Option (BitVec 256))
  revoked : BitVec 16
  arb : Nat
  debugKill : Bool
  floor : BitVec 32
  booted : Nat                      -- image copy applied at the last boot
  fmax : List (Nat × Nat)
  mapout : List Nat
  tripCount : BitVec 32
  tripDie : BitVec 4
  tripSensor : BitVec 12
deriving DecidableEq, Repr

/-- Security state beside the registers: nonces drawn, SPDM, the firmware copy that runs, the operation in progress. -/
structure Sec where
  nonces : Nat
  unlocked : Bool
  fwRuns : Option (List Byte)
  op : Option Nat
  attest : Option (Option Nat)      -- a report request that waits for an operation (R527): the instance it names
  keySeed : Option (BitVec 256)     -- alias_seed as the boot ROM derived it in stage 0 (R521)
  turns : List Nat                  -- operations started and not ended, oldest first (R523): 0 image, 1 command, 2 report
deriving DecidableEq, Repr

def Sec.reset : Sec := ⟨0, false, none, none, none, none, []⟩

/-! ### What the device sends outside -/

/-- Attributes of a request that the device sends on PCI Express: its PASID (R380), Relaxed Ordering and ID-Based Ordering (R260), and the
selective IDE stream that carries it with the T bit set (R392). -/
structure Tlp where
  pasid : Option (BitVec 20)
  relaxed : Bool
  ido : Bool
  tee : Option Nat
deriving DecidableEq, Repr

/-- Something the device sends or does outside the model, in order. -/
inductive Out where
  | hostWrite (p : Nat) (t : Tlp) (addr : Nat) (d : List Byte) (poison : Bool)
  | hostRead (p : Nat) (t : Tlp) (addr : Nat) (len : Nat) (id : Nat)
  | translate (p : Nat) (pasid : BitVec 20) (addr : Nat)
  | hostCas (p : Nat) (addr : Nat) (cmp swap : W64)
  | completion (p : Nat) (d : List Byte) (ep : Bool)
  | unsupported (p : Nat)
  | msix (p : Nat) (v : Nat) (t : Tlp)
  | invalidated (p : Nat) (itag : BitVec 5)
  | fatal (p : Nat)
  | crlCtrl (die link bun : Nat) (nak : Bool) (header : W64)
  | crlFlit (die link bun : Nat) (flit : BitVec 1536)
  | crlTaken (die link bun : Nat) (cls : Nat) (msgs : List (BitVec 256)) (line : List (BitVec 144)) (poison : Bool)
  | optCtrl (o : Nat) (nak : Bool) (ack vc credits : Nat)
  | optFlit (o : Nat) (flit : BitVec 2048)
  | version (o : Nat) (v : Version)
  | heartbeat (o : Nat) (id : BitVec 12)
  | loss (o : Nat) (n : LossNotice)
  | optMsg (o : Nat) (op : BitVec 8) (h : RemHdr) (mask : Option (BitVec 128)) (d : List Line) (status : Nat)
  | winFlush (p : Nat) (addr : Option Nat) (id : Nat)
  | die (die : Nat) (what : String)
  | spdm (p : Nat) (what : String) (d : List Byte)
  | tdisp (p : Nat) (ok : Bool) (d : List Byte)
  | wake (die cpu : Nat) (fast : Bool) (src : Nat)
deriving DecidableEq, Repr

/-! ### The module -/

/-- The whole state of the module. `regs` is the register space by offset, sparse over `Reg.resetVal`; `mem` is stacked memory and
every scratchpad by module physical address, sparse over 0 (log 1); `poison` is the poisoned granules by their first byte; `now`
is the latest time a command has carried, ns; `free` counts the free values drawn (log 3). -/
structure State where
  pending : List Instr
  regs : List (Nat × W64)
  mem : List Host.Cell
  poison : List Nat
  cores : List (Nat × Core)
  llc : Llc
  net : List Msg
  sched : Sched
  stk : Mem
  errs : Errs
  ceral : Ceral
  host : HostIf
  opt : Optical
  evc : List (Nat × EvcCpu)
  pwr : Power
  boot : Boot
  img : Image
  flash : Flash
  sec : Sec
  outbox : List Out
  now : Nat
  free : Nat
deriving DecidableEq, Repr

def Llc.reset : Llc :=
  { ways := [], shadows := [], vbuf := [], rbuf := [], lineq := [], stale := [], fills := [], promises := [], repInv := [], binv := [],
    ueLines := [], done := [], probes := [] }

def Mem.reset : Mem :=
  { bad := [], ue := [], win := [], good := [], skipWin := [], spares0 := [], mapped := Config.flashMapout,
    claims := [], fills := [], wr := [] }

def Flash.reset : Flash :=
  { img := [], fw := [], keys := [], revoked := BitVec.ofNat 16 Config.fuseRevoked, arb := Config.fuseArb,
    debugKill := Config.fuseDebugKill % 2 == 1, floor := BitVec.ofNat 32 Config.flashFloor,
    booted := if Config.flashImgBooted 1 % 2 == 1 then 1 else 0, fmax := [], mapout := Config.flashMapout,
    tripCount := BitVec.ofNat 32 Config.tripCount, tripDie := BitVec.ofNat 4 Config.tripDie,
    tripSensor := BitVec.ofNat 12 Config.tripSensor }

/-- The module right after module reset: every register at its reset value, every mechanism in the state of Table 19-7. -/
def State.reset : State :=
  { pending := [], regs := [], mem := [], poison := [], cores := [], llc := Llc.reset, net := [], sched := Sched.reset,
    stk := Mem.reset, errs := ⟨[], [], false⟩, ceral := Ceral.reset,
    host := { p0 := HostPort.reset, p1 := HostPort.reset, perst := false, tdiStream := [], zeroing := [], dlog := [] },
    opt := { ends := [], seen := [], newRoute := [], newWin := [], routeHold := [], inb := [], nextInb := 0 },
    evc := [], pwr := Power.reset, boot := Boot.reset, img := Image.reset, flash := Flash.reset, sec := Sec.reset,
    outbox := [], now := 0, free := 0 }

end Sys2Proof.Machine
end

