-- ==== Sys2Proof/Machine/Ops.lean ====
section
/-!
DEFINITION. The named operations over the state: registers and their fields, memory bytes and poison, cores, messages in
flight, what leaves the module, free values, time.
-/
namespace Sys2Proof.Machine

/-! ### Registers -/

/-- The register at register-space offset `off`. -/
def State.reg (s : State) (off : Nat) : W64 := mapGet Reg.resetVal s.regs off

def State.setReg (s : State) (off : Nat) (v : W64) : State := { s with regs := mapSet Reg.resetVal s.regs off v }

/-- A field of a register. -/
def State.get (s : State) (off : Nat) (f : Fld) : Nat := f.get (s.reg off)

def State.put (s : State) (off : Nat) (f : Fld) (v : Nat) : State := s.setReg off (f.put (s.reg off) v)

/-- A one-bit field. -/
def State.flag (s : State) (off : Nat) (f : Fld) : Bool := s.get off f == 1

def State.setFlag (s : State) (off : Nat) (f : Fld) (b : Bool) : State := s.put off f (b2n b)

/-- The bits of a field. -/
def FieldRow.mask (r : FieldRow) : W64 := BitVec.ofNat 64 ((2 ^ (r.hi - r.lo + 1) - 1) * 2 ^ r.lo)

/-- The word `v` as the register at `off` holds it: its reserved bits are zero (Table 0-3). -/
def fieldBits (off : Nat) (v : W64) : W64 :=
  match regFamily off with
  | some (f, _) => v &&& f.fields.foldl (fun m r => m ||| r.mask) 0
  | none => 0

/-- The register at `off` is written whole by an image (R504). -/
def State.setFields (s : State) (off : Nat) (v : W64) : State := s.setReg off (fieldBits off v)

/-- A saturating counter steps. -/
def State.incSat (s : State) (off : Nat) (f : Fld) : State := s.put off f (satInc f.width (s.get off f))

/-- A saturating counter grows by `n`. -/
def State.addSat (s : State) (off : Nat) (f : Fld) (n : Nat) : State := s.put off f (satTo f.width (s.get off f + n))

/-- A wrapping counter grows by `n`. -/
def State.addWrap (s : State) (off : Nat) (f : Fld) (n : Nat) : State := s.put off f (s.get off f + n)

/-- A field of the region-map entry of GiB `g`: four entries to a register. -/
def State.gmap (s : State) (g : Nat) (f : Nat → Fld) : Nat := s.get (Reg.PRT_GMAP (g / 4)) (f (g % 4))

def State.setGmap (s : State) (g : Nat) (f : Nat → Fld) (v : Nat) : State := s.put (Reg.PRT_GMAP (g / 4)) (f (g % 4)) v

/-! ### Memory -/

/-- What an address that memory does not list reads as (log 1). -/
def Memory.unlisted (_ : Nat) : Byte := 0

/-- The canonical form of memory: addresses strictly rising, no entry equal to what an unlisted address reads as. -/
def Memory.wf (m : List Host.Cell) : Bool := mapWf Memory.unlisted m

/-- The byte at module physical address `a`. -/
def State.byte (s : State) (a : Nat) : Byte := mapGet Memory.unlisted s.mem a

def State.setByte (s : State) (a : Nat) (v : Byte) : State := { s with mem := mapSet Memory.unlisted s.mem a v }

/-- `n` bytes from address `a`. -/
def State.bytes (s : State) (a n : Nat) : List Byte := (List.range n).map (fun i => s.byte (a + i))

/-- Store bytes from address `a` on. -/
def State.setBytes (s : State) (a : Nat) : List Byte → State
  | [] => s
  | b :: bs => (s.setByte a b).setBytes (a + 1) bs

/-- The little-endian number in `n` bytes at `a` (R7). -/
def State.num (s : State) (a n : Nat) : Nat := ofBytes (s.bytes a n)

/-- First address of the scratchpad window of core `c` (Table 1-10). -/
def scrBase (c : Nat) : Nat := 0x100000000000 + c * 0x100000

/-- Granule of R462 that holds address `a`: 64 B of a scratchpad, a 128 B line of stacked memory. -/
def granule (a : Nat) : Nat := if a < 0x100000000000 then a / 128 * 128 else a / 64 * 64

/-- Whether the granule of address `a` is poisoned. -/
def State.poisoned (s : State) (a : Nat) : Bool := setHas s.poison (granule a)

def State.setPoison (s : State) (a : Nat) (b : Bool) : State :=
  { s with poison := if b then setIns s.poison (granule a) else setDel s.poison (granule a) }

/-- Whether any of `n` bytes at `a` lies in a poisoned granule. -/
def State.anyPoison (s : State) (a n : Nat) : Bool := (List.range n).any (fun i => s.poisoned (a + i))

/-! ### Cores -/

/-- Core slot by core index. -/
def State.core (s : State) (c : Nat) : Core := mapGet (fun _ => Core.reset) s.cores c

def State.setCore (s : State) (c : Nat) (k : Core) : State := { s with cores := mapSet (fun _ => Core.reset) s.cores c k }

def State.modCore (s : State) (c : Nat) (f : Core → Core) : State := s.setCore c (f (s.core c))

/-- The 2,560 core slots by core index (Table 1-10). -/
def allCores : List Nat := (List.range 256).flatMap (fun j => (List.range 10).map (fun k => j * 16 + k))

/-- The die, half (0 W, 1 E), row and slot of a core index. -/
def coreDie (c : Nat) : Nat := c / 512
def coreHalf (c : Nat) : Nat := c / 256 % 2
def coreRow (c : Nat) : Nat := c / 16
def coreSlot (c : Nat) : Nat := c % 16

/-- The slot is in service (R37). -/
def State.inService (s : State) (c : Nat) : Bool := c % 16 < 10 && s.flag (Reg.CORE_ID c) Fld.CORE_ID_in_service

/-- Core `c` is in service on a row of partition `p`. -/
def State.coreOfPart (s : State) (p c : Nat) : Bool :=
  s.inService c && bit (s.reg (Reg.PRT_ROWS p (c / 16 / 64))).toNat (c / 16 % 64)

/-- The slot reads OFF (R114). -/
def State.coreOff (s : State) (c : Nat) : Bool :=
  !s.inService c || 2 ≤ s.get Reg.PWR_STATE Fld.PWR_STATE_state || s.flag (Reg.PWR_HALF (coreDie c) (coreHalf c)) Fld.PWR_HALF_gated ||
    (List.range 32).all (fun p => !s.coreOfPart p c)

/-! ### Dies -/

/-- A die held in reset (R489, R490). -/
def State.dieHeld (s : State) (d : Nat) : Bool := s.flag (Reg.BOOT_STRAP d) Fld.BOOT_STRAP_held

/-- A die that has reported ready (R494). -/
def State.dieReady (s : State) (d : Nat) : Bool := bit (s.get Reg.BOOT_READY0 Fld.BOOT_READY0_die) d

/-- The register copies of die `d` read zero and drop writes: it is not ready, held in reset or isolated (R49). -/
def State.copyDark (s : State) (d : Nat) : Bool := !s.dieReady d || s.dieHeld d || s.ceral.isolated.contains d

/-! ### Messages, outputs, free values, time -/

/-- A coherence message leaves (R227). -/
def State.send (s : State) (src dst : Ep) (l : LineNo) (b : MsgBody) : State := { s with net := s.net ++ [⟨src, dst, l, b⟩] }

/-- The die on which an endpoint lies (R351). -/
def epDie (e : Ep) : Nat :=
  let n := e.toNat
  if n < 0x1000 then n / 512
  else if n < 0x1200 then (n - 0x1000) / 64
  else if n < 0x1210 then n - 0x1200
  else if n < 0x1220 then n - 0x1210
  else if n < 0x1230 then 8 + (n - 0x1220) / 8
  else 8 + (n - 0x1230)

/-- The die pair of a message. -/
def Msg.pair (m : Msg) : Nat := 16 * epDie m.src + epDie m.dst

/-- The first message equal to `m` leaves the fabric, where there is one: of the earlier messages of its die pair that others wait for one less
is to come (R363). -/
def State.recv (s : State) (m : Msg) : State :=
  { s with
    net := s.net.erase m
    ceral := { s.ceral with waits := s.ceral.waits.filterMap (fun e =>
      if e.1 = m.pair then (if e.2 ≤ 1 then none else some (e.1, e.2 - 1)) else some e) } }

/-- The module sends `o` outside. -/
def State.out (s : State) (o : Out) : State := { s with outbox := s.outbox ++ [o] }

/-- A fresh free value (log 3). -/
def State.fresh (s : State) : W64 := Config.freeValue s.free

/-- The free value that `fresh` gave is used up. -/
def State.drawn (s : State) : State := { s with free := s.free + 1 }

/-- Field `f` of the register at `off` grows by a free amount and stops at its greatest value: a count of cycles that the model does not time
(log 3). -/
def State.growFree (s : State) (off : Nat) (f : Fld) : State := (s.addSat off f s.fresh.toNat).drawn

/-- CORE_CYCLES brought up to date (R114): it has grown by some cycles where the core is not OFF and its clock runs; in IDLE the clock of a core
without a caravan is gated (R437). -/
def countCycles (s : State) (c : Nat) : State :=
  if s.coreOff c || (s.get Reg.PWR_STATE Fld.PWR_STATE_state == 1 && (s.core c).leg.isNone) then s
  else s.growFree (Reg.CORE_CYCLES c) Fld.CORE_CYCLES_count

/-- The wake watch is armed: in GATED and STANDBY, and while the module enters them (R434, R435). -/
def State.watchArmed (s : State) : Bool := s.pwr.entry.isSome || 2 ≤ s.get Reg.PWR_STATE Fld.PWR_STATE_state

/-- EVC_WATCH_TIMER brought up to date (R434): while the watch is armed it has counted down by a free number of milliseconds (log 3), not to 0,
which WATCH_TIMER reports. -/
def countTimer (s : State) : State :=
  let n := s.get Reg.EVC_WATCH_TIMER Fld.EVC_WATCH_TIMER_ms
  if s.watchArmed && n != 0 then (s.put Reg.EVC_WATCH_TIMER Fld.EVC_WATCH_TIMER_ms (1 + s.fresh.toNat % n)).drawn else s

/-- Every count brought up to date, before a change of what is OFF. -/
def settleCycles (s : State) : State := countTimer (allCores.foldl countCycles s)

/-- The latest time a command has carried. -/
def State.at (s : State) (now : Nat) : State := { s with now := max s.now now }

/-- Die index of the primary I/O die (R490). -/
def primaryDie : Nat := 8 + Config.fusePrimaryX1 % 2

/-- FRM_COUNT. -/
def State.frame (s : State) : Nat := s.get Reg.FRM_COUNT Fld.FRM_COUNT_count

/-! ### Endpoints (R351) -/

def epCore (c : Nat) : Ep := BitVec.ofNat 14 c
def epSlice (g : Nat) : Ep := BitVec.ofNat 14 (0x1000 + g)
def epBroadcast (d : Nat) : Ep := BitVec.ofNat 14 (0x1200 + d)
def epOptical (o : Nat) : Ep := BitVec.ofNat 14 (0x1220 + o)
def epHost (p : Nat) : Ep := BitVec.ofNat 14 (0x1230 + p)
def epDieCtl (d : Nat) : Ep := BitVec.ofNat 14 (0x1210 + d)

/-! ### Channels of stacked memory -/

/-- Register page indices of channel `c` (R345). -/
def chanReg (f : Nat → Nat → Nat → Nat) (c : Nat) : Nat := f (c / 128) (c / 32 % 4) (c % 32)

def State.chanState (s : State) (c : Nat) : Nat := s.get (chanReg Reg.MEM_CH_STATUS c) Fld.MEM_CH_STATUS_state

def setChan (s : State) (c st : Nat) : State := s.put (chanReg Reg.MEM_CH_STATUS c) Fld.MEM_CH_STATUS_state st

/-- The channel serves nothing: FAILED_DEAD, or on an isolated die (R335, R364). -/
def State.chanGone (s : State) (c : Nat) : Bool := s.chanState c == 4 || s.ceral.isolated.contains (c / 128)

/-- The channel takes part in a retraining: it is neither mapped out nor FAILED_DEAD, and its die is not isolated. -/
def State.retrains (s : State) (c : Nat) : Bool := !(s.stk.mapped.contains c || s.chanGone c)

/-- The instruction is carried out and the state goes on. -/
abbrev Result := Host.Outcome State Fault Refusal

/-- Apply `f` for each element. -/
def forEach {α : Type} (l : List α) (s : State) (f : State → α → State) : State := l.foldl f s

end Sys2Proof.Machine
end

