-- ==== Sys2Proof/Machine/Event.lean ====
section
/-!
DEFINITION. MSI-X messages (R384), the event controllers (chapter 16) and the wake watch (R434): raising a source and its three
routes, delivery, completion, and the meanings of the commands of chapter 16.
-/
namespace Sys2Proof.Machine

/-! ### MSI-X -/

/-- The state of host port `p`. -/
def State.port (s : State) (p : Nat) : HostPort := if p = 0 then s.host.p0 else s.host.p1

def State.setPort (s : State) (p : Nat) (h : HostPort) : State :=
  if p = 0 then { s with host := { s.host with p0 := h } } else { s with host := { s.host with p1 := h } }

/-- The MSI-X table entry of vector `v`. -/
def HostPort.vec (h : HostPort) (v : Nat) : MsixEnt := mapGet (fun _ => MsixEnt.reset) h.msix v

/-- Whether vector `v` of port `p` belongs to `owner`: an instance, or the manager. -/
def State.vecOwned (s : State) (p v : Nat) (owner : Option Nat) : Bool :=
  match owner with
  | some i => s.flag (Reg.HIF_VEC p v) Fld.HIF_VEC_inst && s.get (Reg.HIF_VEC p v) Fld.HIF_VEC_instance == i
  | none => !s.flag (Reg.HIF_VEC p v) Fld.HIF_VEC_inst

/-- Attributes of an MSI-X message (R260, R380, R392): no PASID, both ordering bits clear, and the T bit for a vector of an instance in RUN. -/
def State.msixTlp (s : State) (p v : Nat) : Tlp :=
  let i := s.get (Reg.HIF_VEC p v) Fld.HIF_VEC_instance
  { pasid := none, relaxed := false, ido := false,
    tee := if s.flag (Reg.HIF_VEC p v) Fld.HIF_VEC_inst && s.get (Reg.MBX_ID i) Fld.MBX_ID_tdi_state == 2 then
      (s.host.tdiStream.find? (fun e => e.1 == i)).map (·.2) else none }

/-- Send an MSI-X message that must reach `owner` (R384). The Bool says whether it was sent or is held pending. -/
def sendMsix (s : State) (p v : Nat) (owner : Option Nat) : State × Bool :=
  let h := s.port p
  if !s.vecOwned p v owner || !h.msixEn then (s.incSat (Reg.HIF_STAT p) Fld.HIF_STAT_vec_denied, false)
  else if (h.vec v).mask || h.fmask then (s.setPort p { h with pba := setIns h.pba v }, true)
  else (s.out (.msix p v (s.msixTlp p v)), true)

/-! ### Sources -/

/-- The number of a PWR source (Table 17-6) or another listed number of Table 16-1, by kind of die. -/
def sourceListed (die n : Nat) : Bool :=
  let compute := die < 8
  let primary := die == primaryDie
  if n < 0x140 then compute
  else if n == 0x140 || n == 0x145 || n == 0x146 || n == 0x148 then true
  else if n ≤ 0x144 || n == 0x147 then compute && 0x140 < n
  else if 0x150 ≤ n && n ≤ 0x153 then true
  else if n == 0x160 || (0x166 ≤ n && n ≤ 0x169) then primary
  else if 0x161 ≤ n && n ≤ 0x164 then compute
  else if 0x1E0 ≤ n && n ≤ 0x1FF then true
  else if 0x200 ≤ n && n ≤ 0x202 then primary
  else if n == 0x203 || n == 0x204 then !compute
  else if n == 0x205 || n == 0x206 then primary
  else if 0x208 ≤ n && n ≤ 0x20F then !compute
  else false

def evSrc (die n : Nat) : Nat := Reg.EVC_SRC die n

def State.isLevel (s : State) (die n : Nat) : Bool := s.flag (evSrc die n) Fld.EVC_SRC_level

/-- A compute die's controller neither samples nor delivers in GATED and STANDBY (R433). -/
def State.evcAsleep (s : State) (die : Nat) : Bool := die < 8 && 2 ≤ s.get Reg.PWR_STATE Fld.PWR_STATE_state

/-- The core route (R431). -/
def routeCore (s : State) (die n : Nat) : State :=
  if s.flag (evSrc die n) Fld.EVC_SRC_core_en then
    let c := s.get (evSrc die n) Fld.EVC_SRC_core
    if s.inService c then
      let w := s.get (evSrc die n) Fld.EVC_SRC_wake
      s.modCore c (fun k => { k with wf := k.wf ||| BitVec.ofNat 16 (2 ^ w) })
    else s.addWrap (Reg.EVC_CNT_DROPPED die) Fld.EVC_CNT_DROPPED_count 1
  else s

/-- Send the host-route message of a source; host_wait says whether it was sent or is pending (R430). -/
def hostMessage (s : State) (die n : Nat) : State :=
  let r := sendMsix s (s.get (evSrc die n) Fld.EVC_SRC_host_port) (s.get (evSrc die n) Fld.EVC_SRC_vector) none
  r.1.setFlag (evSrc die n) Fld.EVC_SRC_host_wait r.2

/-- The host route on a raise (R430): `edge` says whether a raise during host_wait is remembered. -/
def routeHost (s : State) (die n : Nat) (edge : Bool) : State :=
  if s.flag (evSrc die n) Fld.EVC_SRC_host_en then
    if s.flag (evSrc die n) Fld.EVC_SRC_host_wait then
      (if edge then s.setFlag (evSrc die n) Fld.EVC_SRC_host_again true else s)
    else hostMessage s die n
  else s

/-- The wake watch names source `n` of `die` in entry `e` (R434). -/
def State.watches (s : State) (e die n : Nat) : Bool :=
  s.flag (Reg.EVC_WATCH e) Fld.EVC_WATCH_en && s.get (Reg.EVC_WATCH e) Fld.EVC_WATCH_die == die &&
    s.get (Reg.EVC_WATCH e) Fld.EVC_WATCH_source == n

/-- The lowest watch entry that names the source. -/
def State.watchEntry (s : State) (die n : Nat) : Option Nat := (List.range 64).find? (fun e => s.watches e die n)

/-- A return to RUN begins (R442), for watch entry `woke` where the watch starts it. From STANDBY the channels take recovery training: they
show TRAINING, and their requests wait, until the return completes (R334, R336). -/
def returnBegin (s : State) (woke : Option Nat) : State :=
  let st := s.get Reg.PWR_STATE Fld.PWR_STATE_state
  let s1 := if st = 3 then forEach ((List.range 1024).filter s.retrains) s (fun s c => setChan s c 0) else s
  { s1 with pwr := { s1.pwr with ret := some st, woke := woke } }

/-- Start the return to RUN of R442 for watch entry `e`; a coolant halt blocks it (R453). -/
def watchWake (s : State) (e : Nat) : State :=
  if s.pwr.halt then s.setFlag Reg.PWR_STATE Fld.PWR_STATE_wake_blocked true
  else if s.pwr.ret.isSome then s
  else
    returnBegin ((s.put Reg.EVC_WATCH_STATUS Fld.EVC_WATCH_STATUS_entry e).setFlag Reg.PWR_STATE Fld.PWR_STATE_busy true) (some e)

/-- The watch meets a raised or asserted source (R434, R435). -/
def watchSource (s : State) (die n : Nat) : State :=
  if die < 8 then s else
  match s.watchEntry die n with
  | none => s
  | some e =>
    if s.pwr.entry.isSome then
      { s with pwr := { s.pwr with wakeNext := some (match s.pwr.wakeNext with | some e0 => min e0 e | none => e) } }
    else if 2 ≤ s.get Reg.PWR_STATE Fld.PWR_STATE_state then watchWake s e
    else s

/-- The die-controller route of an edge (R423). -/
def routeDie (s : State) (die n : Nat) : State :=
  if s.flag (evSrc die n) Fld.EVC_SRC_dc_en then
    if s.flag (evSrc die n) Fld.EVC_SRC_pending then s.addWrap (Reg.EVC_CNT_MERGED die) Fld.EVC_CNT_MERGED_count 1
    else s.setFlag (evSrc die n) Fld.EVC_SRC_pending true
  else s

/-- An edge source is raised (R423, R424). A reserved source and a level source have no edges (R421), and a die held in reset asserts none
(R490). -/
def raiseEdge (s : State) (die n : Nat) : State :=
  if sourceListed die n && !s.isLevel die n && !s.dieHeld die then
    watchSource (routeCore (routeHost (routeDie s die n) die n true) die n) die n
  else s

/-- The controller samples a level source (R423). -/
def sampleLevel (s : State) (die n : Nat) : State :=
  if s.flag (evSrc die n) Fld.EVC_SRC_asserted && s.flag (evSrc die n) Fld.EVC_SRC_dc_en && !s.evcAsleep die then
    s.setFlag (evSrc die n) Fld.EVC_SRC_pending true
  else s

/-- A level source takes the level `v` (R423, R430, R431). -/
def setLevel (s : State) (die n : Nat) (v : Bool) : State :=
  if sourceListed die n && s.isLevel die n && !s.dieHeld die && s.flag (evSrc die n) Fld.EVC_SRC_asserted != v then
    let s1 := s.setFlag (evSrc die n) Fld.EVC_SRC_asserted v
    if v then watchSource (routeCore (routeHost (sampleLevel s1 die n) die n false) die n) die n
    else s1.setFlag (evSrc die n) Fld.EVC_SRC_pending false
  else s

/-- A die's OPT_STATE source number and die for optical port `o`. -/
def optSource (o : Nat) : Nat × Nat := (8 + o / 8, 0x208 + o % 8)

/-! ### Delivery -/

def cpuKey (die c : Nat) : Nat := die * 4 + c

def State.cpu (s : State) (die c : Nat) : EvcCpu := mapGet (fun _ => EvcCpu.reset) s.evc (cpuKey die c)

def State.setCpu (s : State) (die c : Nat) (v : EvcCpu) : State :=
  { s with evc := mapSet (fun _ => EvcCpu.reset) s.evc (cpuKey die c) v }

/-- Source `n` is pending for processor `c` in the class `fast`. -/
def State.pendingFor (s : State) (die c : Nat) (fast : Bool) (n : Nat) : Bool :=
  s.flag (evSrc die n) Fld.EVC_SRC_pending && s.flag (evSrc die n) Fld.EVC_SRC_dc_en &&
    s.flag (evSrc die n) Fld.EVC_SRC_fast == fast && s.get (evSrc die n) Fld.EVC_SRC_cpu == c

/-- The better of two normal sources: the higher priority, then the lower number (R425). -/
def State.betterSrc (s : State) (die : Nat) (best : Option Nat) (n : Nat) : Option Nat :=
  match best with
  | none => some n
  | some m => if s.get (evSrc die m) Fld.EVC_SRC_prio < s.get (evSrc die n) Fld.EVC_SRC_prio then some n else some m

/-- The normal source that R425 puts first. -/
def State.firstNormal (s : State) (die c : Nat) : Option Nat :=
  ((List.range 1024).filter (s.pendingFor die c false)).foldl (s.betterSrc die) none

/-- The fast source that R426 puts first. -/
def State.firstFast (s : State) (die c : Nat) : Option Nat := (List.range 1024).find? (s.pendingFor die c true)

/-- Clear the pending bit, mark in service, interrupt the processor (R425). -/
def takeSource (s : State) (die c n : Nat) (fast : Bool) : State :=
  (((s.setFlag (evSrc die n) Fld.EVC_SRC_pending false).setFlag (evSrc die n) Fld.EVC_SRC_in_service true).out
    (.wake die c fast n))

/-- Delivery of a normal source (R425). -/
def deliverNormal (s : State) (die c : Nat) : State :=
  let k := s.cpu die c
  match s.firstNormal die c, k.fast with
  | some n, none =>
    let pr := s.get (evSrc die n) Fld.EVC_SRC_prio
    let above := match k.stack with | [] => true | (_, top) :: _ => decide (top < pr)
    if above && !s.evcAsleep die then (takeSource s die c n false).setCpu die c { k with stack := (n, pr) :: k.stack } else s
  | _, _ => s

/-- Delivery of a fast source (R426). -/
def deliverFast (s : State) (die c : Nat) : State :=
  let k := s.cpu die c
  match s.firstFast die c, k.fast with
  | some n, none => if s.evcAsleep die then s else (takeSource s die c n true).setCpu die c { k with fast := some n }
  | _, _ => s

/-- An order fault (R428). -/
def orderFault (s : State) (die c written : Nat) (top : Option Nat) : State :=
  let r := Reg.EVC_ORDER die
  let s1 := ((s.incSat r Fld.EVC_ORDER_count).put r Fld.EVC_ORDER_cpu c).put r Fld.EVC_ORDER_written written
  let s2 := (s1.setFlag r Fld.EVC_ORDER_empty top.isNone).put r Fld.EVC_ORDER_top (top.getD 0)
  raiseEdge s2 die 0x148

/-- A completed source leaves service; a level source is sampled in the same cycle (R427). -/
def completeSource (s : State) (die n : Nat) : State :=
  let s1 := s.setFlag (evSrc die n) Fld.EVC_SRC_in_service false
  if s1.isLevel die n then sampleLevel s1 die n else s1

/-- A write of EVC_DONE(c) (R427, R428). -/
def evcComplete (s : State) (die c n : Nat) : State :=
  let k := s.cpu die c
  match k.stack with
  | (top, _) :: rest =>
    if top = n then completeSource (s.setCpu die c { k with stack := rest }) die n else orderFault s die c n (some top)
  | [] => orderFault s die c n none

/-- A write of EVC_FAST_DONE(c) (R427, R428). -/
def evcFastComplete (s : State) (die c n : Nat) : State :=
  let k := s.cpu die c
  if k.fast = some n then completeSource (s.setCpu die c { k with fast := none }) die n else orderFault s die c n k.fast

/-- A write of EVC_HOST_ACK (R430). -/
def hostAck (s : State) (die n : Nat) : State :=
  let r := evSrc die n
  if s.flag r Fld.EVC_SRC_host_wait then
    let again := s.flag r Fld.EVC_SRC_host_again || (s.isLevel die n && s.flag r Fld.EVC_SRC_asserted)
    let s1 := (s.setFlag r Fld.EVC_SRC_host_wait false).setFlag r Fld.EVC_SRC_host_again false
    if again && s1.flag r Fld.EVC_SRC_host_en then hostMessage s1 die n else s1
  else s

/-- Bits of EVC_SRC that only the die controller's firmware writes, and those that the manager may write (R432, Table 16-5). -/
def evcFwMask : W64 := 0x00FF000000000000#64
def evcMgrMask : W64 := 0x0000FFFFFFFC0000#64

/-- A write of an EVC_SRC of `die` is dropped (R49). The die controller's firmware sets the routes before its die reports ready (R432), so its own
writes are dropped only on a die that is held in reset or isolated. -/
def State.srcDark (s : State) (die : Nat) (fw : Bool) : Bool :=
  if fw then s.dieHeld die || s.ceral.isolated.contains die else s.copyDark die

/-- A write of EVC_SRC(n) (R423, R424, R432). -/
def evcSrcWrite (s : State) (die n : Nat) (v : W64) (fw : Bool) : State :=
  let r := evSrc die n
  let m := if fw then evcFwMask ||| evcMgrMask else evcMgrMask
  let old := s.reg r
  let s1 := s.setReg r ((old &&& ~~~ m) ||| (v &&& m))
  if s1.flag r Fld.EVC_SRC_dc_en then
    (if Fld.EVC_SRC_dc_en.get old == 0 && s1.isLevel die n then sampleLevel s1 die n else s1)
  else s1.setFlag r Fld.EVC_SRC_pending false

/-- EVC_WATCH_TIMER, non-zero and counting while the watch is armed, reaches 0 (R434). -/
def watchTimerExpire (s : State) : State :=
  if s.watchArmed && s.get Reg.EVC_WATCH_TIMER Fld.EVC_WATCH_TIMER_ms != 0 then
    raiseEdge (s.put Reg.EVC_WATCH_TIMER Fld.EVC_WATCH_TIMER_ms 0) primaryDie 0x205
  else s

/-! ### The commands of chapter 16 -/

/-- EVENT_RAISE: one occurrence of an edge source's condition (R423). -/
def execEventRaise (die : DieIx) (n : SrcId) (s : State) : Result := .next (raiseEdge s die.val n.val)

/-- LEVEL_CHANGE: a level source asserts or deasserts (R423). -/
def execLevelChange (die : DieIx) (n : SrcId) (v : Bool) (s : State) : Result := .next (setLevel s die.val n.val v)

/-- EVENT_DELIVER (R425). -/
def execEventDeliver (die : DieIx) (c : Fin 4) (s : State) : Result := .next (deliverNormal s die.val c.val)

/-- FAST_EVENT_DELIVER (R426). -/
def execFastEventDeliver (die : DieIx) (c : Fin 4) (s : State) : Result := .next (deliverFast s die.val c.val)

/-- EVC_DONE (R427, R428). -/
def execEvcDone (die : DieIx) (c : Fin 4) (n : SrcId) (s : State) : Result := .next (evcComplete s die.val c.val n.val)

/-- EVC_FAST_DONE (R427, R428). -/
def execEvcFastDone (die : DieIx) (c : Fin 4) (n : SrcId) (s : State) : Result := .next (evcFastComplete s die.val c.val n.val)

/-- EVC_HOST_ACK (R430). -/
def execEvcHostAck (die : DieIx) (n : SrcId) (s : State) : Result :=
  .next (if s.copyDark die.val then s else hostAck s die.val n.val)

/-- EVC_SW_SET raises SW(n) (R422). -/
def execEvcSwSet (die : DieIx) (n : Fin 32) (s : State) : Result :=
  .next (if s.copyDark die.val then s else raiseEdge s die.val (0x1E0 + n.val))

/-- EVC_SRC: a write of a source's route fields (R423, R432). -/
def execEvcSrc (die : DieIx) (n : SrcId) (v : W64) (fw : Bool) (s : State) : Result :=
  .next (if s.srcDark die.val fw then s else evcSrcWrite s die.val n.val v fw)

/-- WATCH_TIMER (R434). -/
def execWatchTimer (s : State) : Result := .next (watchTimerExpire s)

end Sys2Proof.Machine
end

