-- ==== Sys2Proof/Machine/ErrorRec.lean ====
section
/-!
DEFINITION. Error records and rings (R480-R482), injections (R483) and the commands that consume records and arm injections.
-/
namespace Sys2Proof.Machine

/-- What a record says beside its sequence number (Table 18-6). `cls` 0 corrected, 1 deferred, 2 contained, 3 fatal. -/
structure ErrRec where
  cls : Nat
  cause : Nat
  block : Nat
  loc : Nat
  addr : Nat
  part : Option Nat
  inst : Option Nat
  detail : Nat
deriving DecidableEq, Repr

/-- A record with no partition, instance or detail. -/
def ErrRec.plain (cls cause block loc addr : Nat) : ErrRec := ⟨cls, cause, block, loc, addr, none, none, 0⟩

/-- The header word of a record (Table 18-6). -/
def ErrRec.header (r : ErrRec) (die seq : Nat) : Nat :=
  2 ^ 63 + r.cls * 2 ^ 60 + r.cause * 2 ^ 48 + r.block * 2 ^ 40 + die * 2 ^ 36 + seq

/-- Records written and not yet consumed. -/
def State.errHeld (s : State) (die : Nat) : Nat :=
  (s.get (Reg.ERR_RING die) Fld.ERR_RING_produced + 2 ^ 32 - s.get (Reg.ERR_RING die) Fld.ERR_RING_consumed) % 2 ^ 32

/-- The statistics field of a class (Table 18-8). -/
def errStatField (cls : Nat) : Fld :=
  if cls = 0 then Fld.ERR_STAT_corrected
  else if cls = 1 then Fld.ERR_STAT_deferred
  else if cls = 2 then Fld.ERR_STAT_contained
  else Fld.ERR_STAT_fatal

/-- Causes whose detail is the syndrome and the symbol of the word that a decoder read (Table 18-6): the word code itself is not given, so that both
are free values (log 3). -/
def wordCause (cause : Nat) : Bool := cause == 0x001 || cause == 0x002 || cause == 0x003 || cause == 0x040

/-- The record stands in its ring entry and raises the class source (R480). -/
def errStore (s : State) (die : Nat) (r : ErrRec) : State :=
  let seq := s.get (Reg.ERR_RING die) Fld.ERR_RING_produced
  let at_ (w : Nat) := Reg.ERR_REC die (seq % 512) w
  let tail := 1 + (match r.part with | some p => 2 ^ 47 + p * 2 ^ 32 | none => 0) +
    (match r.inst with | some i => 2 ^ 63 + i * 2 ^ 48 | none => 0)
  let s1 := (((s.setReg (at_ 0) (BitVec.ofNat 64 (r.header die seq))).setReg (at_ 1) (BitVec.ofNat 64 r.loc)).setReg (at_ 2)
    (BitVec.ofNat 64 r.addr)).setReg (at_ 3) (BitVec.ofNat 64 s.frame)
  let s2 := (((s1.setReg (at_ 4) (BitVec.ofNat 64 tail)).setReg (at_ 5) (BitVec.ofNat 64 r.detail)).setReg (at_ 6) 0).setReg (at_ 7) 0
  let s3 := s2.put (Reg.ERR_RING die) Fld.ERR_RING_produced (seq + 1)
  raiseEdge { s3 with errs := { s3.errs with first := mapSet (fun _ => 0) s3.errs.first die s3.now } } die (0x150 + r.cls)

/-- Write a record. The detail of a word error's record is a free value of 22 bits (log 3). -/
def errWrite (s : State) (die : Nat) (r : ErrRec) : State :=
  if wordCause r.cause then errStore s.drawn die { r with detail := s.fresh.toNat % 2 ^ 22 } else errStore s die r

/-- The latest unconsumed record of the ring takes the merge of R481. -/
def State.errMerges (s : State) (die : Nat) (r : ErrRec) : Bool :=
  let seq := s.get (Reg.ERR_RING die) Fld.ERR_RING_produced
  let last := (seq + 2 ^ 32 - 1) % 2 ^ 32 % 512
  let hdr := (s.reg (Reg.ERR_REC die last 0)).toNat
  let ms := s.get (Reg.ERR_CTL die) Fld.ERR_CTL_merge_ms
  r.cls == 0 && 0 < s.errHeld die && bits hdr 59 48 == r.cause && bits hdr 62 60 == 0 &&
    (s.reg (Reg.ERR_REC die last 1)).toNat == r.loc && ms != 0 &&
    s.now ≤ mapGet (fun _ => 0) s.errs.first die + ms * 1000000

/-- ERROR_RECORD_WRITE: the error is written, merged or dropped (R480, R481). -/
def errRecord (s : State) (die : Nat) (r : ErrRec) : State :=
  let s0 := s.incSat (Reg.ERR_STAT die) (errStatField r.cls)
  if s.errMerges die r then
    let seq := s.get (Reg.ERR_RING die) Fld.ERR_RING_produced
    s0.incSat (Reg.ERR_REC die ((seq + 2 ^ 32 - 1) % 2 ^ 32 % 512) 4) ⟨0, 32⟩
  else if s.errHeld die = 512 then
    if r.cls = 0 then s0.incSat (Reg.ERR_OVF die) Fld.ERR_OVF_dropped
    else
      let s1 := (s0.addWrap (Reg.ERR_RING die) Fld.ERR_RING_consumed 1).incSat (Reg.ERR_OVF die) Fld.ERR_OVF_overwritten
      errWrite (s1.setFlag (Reg.ERR_OVF die) Fld.ERR_OVF_overflow true) die r
  else errWrite s0 die r

/-- A write of ERR_RING.consumed (R481); a value outside the window is a reserved encoding (R17). -/
def errConsume (s : State) (die v : Nat) : State :=
  let old := s.get (Reg.ERR_RING die) Fld.ERR_RING_consumed
  if (v + 2 ^ 32 - old) % 2 ^ 32 ≤ s.errHeld die then s.put (Reg.ERR_RING die) Fld.ERR_RING_consumed v else s

/-- The units that ERR_INJECT names (Table 18-8). -/
def injectUnit (unit : Nat) : Bool := 1 ≤ unit && unit ≤ 3

/-- A write of ERR_INJECT arms one injection (R483). -/
def errArm (s : State) (die : Nat) (core : CoreId) (kind : BitVec 2) (unit : BitVec 4) : State :=
  if kind = 0 || !injectUnit unit.toNat then s
  else { s with errs := { s.errs with inj := mapSet (fun _ => none) s.errs.inj die (some ⟨core, kind, unit⟩) } }

/-- The injection armed on `die` for `unit` (and core, for unit 3), if any. -/
def State.armed (s : State) (die unit core : Nat) : Option Inject :=
  match mapGet (fun _ => none) s.errs.inj die with
  | some i => if i.unit.toNat = unit && (unit != 3 || i.core.toNat == core) then some i else none
  | none => none

/-- The armed injection of `die` has been applied. -/
def State.disarm (s : State) (die : Nat) : State :=
  { s with errs := { s.errs with inj := mapSet (fun _ => none) s.errs.inj die none } }

/-- ERR_RING_CONSUME (R481). -/
def execErrRingConsume (die : DieIx) (v : BitVec 32) (s : State) : Result :=
  .next (if s.copyDark die.val then s else errConsume s die.val v.toNat)

/-- ERR_INJECT (R483). -/
def execErrInject (die : DieIx) (core : CoreId) (kind : BitVec 2) (unit : BitVec 4) (s : State) : Result :=
  .next (if s.copyDark die.val then s else errArm s die.val core kind unit)

end Sys2Proof.Machine
end

