-- ==== Sys2Proof/Machine/CeralOps.lean ====
section
/-!
DEFINITION. Die links (chapter 13): flits, replay, lane failure, spare substitution, width change and retirement of bundles,
training, degraded links and routes.
-/
namespace Sys2Proof.Machine

/-! ### Structure -/

/-- The far end of link `l` of die `i`: die and link (Table 13-2). -/
def peerOf (i l : Nat) : Option (Nat × Nat) :=
  if i < 8 then
    (if l = 0 then (if i % 4 = 0 then some (8, i / 4) else some (i - 1, 1))
     else if l = 1 then (if i % 4 = 3 then some (9, i / 4) else some (i + 1, 0))
     else if l = 2 then some ((i + 4) % 8, 2)
     else none)
  else if i = 8 then (if l < 2 then some (4 * l, 0) else none)
  else if i = 9 then (if l < 2 then some (4 * l + 3, 1) else none)
  else none

/-- Links of a die (R348). -/
def linksOf (i : Nat) : List Nat := if i < 8 then [0, 1, 2] else [0, 1]

def endKey (i l b : Nat) : Nat := (i * 3 + l) * 64 + b

def State.bun (s : State) (i l b : Nat) : BunEnd := mapGet (fun _ => BunEnd.reset) s.ceral.ends (endKey i l b)

def State.setBun (s : State) (i l b : Nat) (e : BunEnd) : State :=
  { s with ceral := { s.ceral with ends := mapSet (fun _ => BunEnd.reset) s.ceral.ends (endKey i l b) e } }

/-- A bundle's trained-width record (R355). -/
def State.bunState (s : State) (i l b : Nat) : Nat := s.get (Reg.CRL_BUN_STATUS i l b) Fld.CRL_BUN_STATUS_state

/-- The link carries traffic: UP or DEGRADED. -/
def State.linkUp (s : State) (i l : Nat) : Bool :=
  let st := s.get (Reg.CRL_LINK i l) Fld.CRL_LINK_state
  st == 2 || st == 3

/-- A change pending for a bundle takes the place of a less severe one (R359). -/
def markBundle (s : State) (i l b change : Nat) : State :=
  let r := Reg.CRL_BUN_STATUS i l b
  s.put r Fld.CRL_BUN_STATUS_pending (max (s.get r Fld.CRL_BUN_STATUS_pending) change)

/-! ### Flits -/

/-- `n` steps of the CRC-32 of IEEE 802.3, least significant bit first. -/
def crcBits : Nat → Nat → Nat
  | 0, c => c
  | n + 1, c => crcBits n (if c % 2 = 1 then (c / 2) ^^^ 0xEDB88320 else c / 2)

/-- The CRC-32 of IEEE 802.3 over bytes (R349). -/
def crc32 (bs : List Byte) : Nat := (bs.foldl (fun c b => crcBits 8 (c ^^^ b.toNat)) 0xFFFFFFFF) ^^^ 0xFFFFFFFF

/-- The CRC of a flit of `n` bytes is good: its last 4 bytes hold the CRC of those before. -/
def crcGood (n x : Nat) : Bool := crc32 (bytesOf (n - 4) x) == bits x (8 * n - 1) (8 * n - 32)

/-- A flit of `n` bytes with its CRC: its last 4 bytes are replaced. -/
def withCrc (n x : Nat) : Nat :=
  let y := x % 256 ^ (n - 4)
  y + crc32 (bytesOf (n - 4) y) * 256 ^ (n - 4)

/-- Fields of the link header (Table 13-3). -/
def flitKind (f : BitVec 1536) : Nat := bits f.toNat 63 60
def flitSeq (f : BitVec 1536) : Nat := bits f.toNat 59 48
def flitAck (f : BitVec 1536) : Nat := bits f.toNat 47 36
def flitCreditClass (f : BitVec 1536) : Nat := bits f.toNat 35 34
def flitCredits (f : BitVec 1536) : Nat := bits f.toNat 33 28
def flitClass (f : BitVec 1536) : Nat := bits f.toNat 27 26
def flitPoison (f : BitVec 1536) : Bool := bit f.toNat 25
def flitReplay (f : BitVec 1536) : Bool := bit f.toNat 24
def flitCount (f : BitVec 1536) : Nat := bits f.toNat 23 21

/-- Kinds MSG and DATA are numbered and kept for replay. -/
def flitNumbered (f : BitVec 1536) : Bool := flitKind f == 1 || flitKind f == 2

/-- The message areas of a flit: bytes 8 to 39, and in a MSG flit 32 B each from byte 40 on. What an area holds is internal to the module. -/
def flitMsgs (f : BitVec 1536) : List (BitVec 256) := (List.range (flitCount f)).map (fun k => f.extractLsb' (64 + 256 * k) 256)

/-- The line of a DATA flit: eight 144-bit words with their word code (R350). -/
def flitLine (f : BitVec 1536) : List (BitVec 144) :=
  if flitKind f = 2 then (List.range 8).map (fun k => f.extractLsb' (320 + 144 * k) 144) else []

/-- The flit is laid out as Table 13-3 says: a DATA flit carries one message, a MSG flit one to five, and what the table calls zero is zero. -/
def flitForm (f : BitVec 1536) : Bool :=
  bits f.toNat 20 0 == 0 && bits f.toNat 1503 1472 == 0 && crcGood 192 f.toNat &&
    (if flitKind f = 1 then 1 ≤ flitCount f && flitCount f ≤ 5 && flitClass f != 3 && bits f.toNat 1471 1344 == 0
     else if flitKind f = 2 then flitCount f == 1 && flitClass f != 3
     else flitKind f == 0 || flitKind f == 3)

/-- A link header of kind `kind` that returns no credits (Table 13-3). -/
def linkHeader (kind seq ack : Nat) (replay : Bool) : Nat := kind * 2 ^ 60 + seq * 2 ^ 48 + ack * 2 ^ 36 + 3 * 2 ^ 34 + b2n replay * 2 ^ 24

/-- Flit `f` as it is sent under `seq` with the ack `ack`: it returns no credits, and its CRC is computed again. -/
def flitAs (f : BitVec 1536) (seq ack : Nat) (replay : Bool) : BitVec 1536 :=
  let x := f.toNat
  BitVec.ofNat 1536 (withCrc 192 (linkHeader (flitKind f) seq ack replay + bits x 27 25 * 2 ^ 25 + bits x 23 0 + x / 2 ^ 64 * 2 ^ 64))

/-- Two flits carry the same under one seq: all but ack, credits, replay bit and CRC. -/
def flitSame (f g : BitVec 1536) : Bool := flitAs f (flitSeq f) 0 false == flitAs g (flitSeq g) 0 false

/-- The flits that a cumulative ack leaves unacknowledged: those from `ack` on, in a space of `n` numbers. -/
def ackTrim {α : Type} (seq : α → Nat) (n ack : Nat) (buf : List (α × Nat)) : List (α × Nat) :=
  buf.filter (fun e => (seq e.1 + n - ack) % n < n / 2)

/-- `ack` is a seq that a receiver expecting `exp` expects or has expected. -/
def ackMay (n exp ack : Nat) : Bool := (exp + n - ack) % n < n / 2

/-- The logical lane that carries bit `k` of byte `j` (R349), by the record of the bundle. -/
def laneOf (st j k : Nat) : Nat :=
  if st = 1 then 8 * (j % 8) + k else if st = 3 then 32 + 8 * (j % 4) + k else 8 * (j % 4) + k

/-- The logical lanes of the differing bits of two copies of a flit, in bytes 8 to 187, one entry a bit (R357). -/
def lanesDiffer (st : Nat) (x y : BitVec 1536) : List Nat :=
  ((List.range 1440).map (· + 64)).filterMap (fun n =>
    if bit (x.toNat ^^^ y.toNat) n then some (laneOf st (n / 8) (n % 8)) else none)

/-- Count one attributed error on each lane listed. -/
def countLanes (m : List (Nat × Nat)) (lanes : List Nat) : List (Nat × Nat) :=
  lanes.foldl (fun m l => mapSet (fun _ => 0) m l (mapGet (fun _ => 0) m l + 1)) m

/-- The lane with the most errors, lowest first, and its count. -/
def worstLane (m : List (Nat × Nat)) : Nat × Nat := m.foldl (fun w e => if w.2 < e.2 then e else w) (0, 0)

/-- Byte `q` of a spare map. -/
def spareByte (m : W64) (q : Nat) : Nat := bits m.toNat (8 * q + 7) (8 * q)

/-- The physical lane that carries logical lane `n` of the direction received: the spare that replaces it, or the lane itself. -/
def State.physLane (s : State) (i l b n : Nat) : Nat :=
  match (List.range 4).find? (fun q => spareByte (s.reg (Reg.CRL_BUN_SPARE i l b)) q == n) with
  | some q => 64 + q
  | none => n

/-- The logical lane of a physical lane. -/
def State.logicLane (s : State) (i l b p : Nat) : Nat := if p < 64 then p else spareByte (s.reg (Reg.CRL_BUN_SPARE i l b)) (p - 64)

/-- Spares of the direction that replace no lane and have not failed. -/
def State.freeSpares (s : State) (i l b : Nat) : List Nat :=
  (List.range 4).filter (fun q => spareByte (s.reg (Reg.CRL_BUN_SPARE i l b)) q == 0xFF && !(s.bun i l b).bad.contains (64 + q))

/-- Logical lanes of the direction whose physical lane has failed. -/
def State.failedLanes (s : State) (i l b : Nat) : List Nat := (List.range 64).filter (fun n => (s.bun i l b).bad.contains (s.physLane i l b n))

/-- Whether a record uses logical lane `n`. -/
def laneUsed (st n : Nat) : Bool := st == 1 || (st == 2 && n < 32) || (st == 3 && 32 ≤ n)

/-- LANE_FAIL: physical lane `p` of the direction received at the end is declared failed (R357-R359). A FULL bundle takes a spare, or half width
where the direction has none; a half-width bundle retires. -/
def laneFail (s : State) (i l b p : Nat) : State :=
  let r := Reg.CRL_BUN_LANES i l b
  let e := s.bun i l b
  let s1 := (s.put r Fld.CRL_BUN_LANES_failed (s.get r Fld.CRL_BUN_LANES_failed ||| 2 ^ s.logicLane i l b p)).setBun i l b { e with bad := setIns e.bad p }
  let change := if s.bunState i l b != 1 then 3 else if (s1.failedLanes i l b).length ≤ (s1.freeSpares i l b).length then 1 else 2
  raiseEdge (errRecord (markBundle s1 i l b change) i (ErrRec.plain 0 0x010 5 (l * 256 + b) 0)) i 0x145

/-- A replayed flit is accepted: its differences from the copy discarded under its seq are attributed to physical lanes (R357). -/
def attributeErr (s : State) (i l b : Nat) (old new : BitVec 1536) : State :=
  let lanes := (lanesDiffer (s.bunState i l b) old new).map (s.physLane i l b)
  let e := s.bun i l b
  let m := countLanes e.laneErr lanes
  let w := worstLane m
  let s1 := s.setBun i l b { e with laneErr := m, attributed := e.attributed || !lanes.isEmpty }
  let s2 := (s1.put (Reg.CRL_BUN_WORST i l b) Fld.CRL_BUN_WORST_lane (s.logicLane i l b w.1)).put (Reg.CRL_BUN_WORST i l b)
    Fld.CRL_BUN_WORST_count w.2
  let thr := s.get (Reg.CRL_CTL i) Fld.CRL_CTL_lane_thresh
  let newly := (m.filter (fun x => thr ≤ x.2 && !e.bad.contains x.1)).map (·.1)
  forEach newly s2 (fun s p => laneFail s i l b p)

/-- The bundle is being quiesced. -/
def State.bunQuiet (s : State) (i l b : Nat) : Bool := s.flag (Reg.CRL_BUN_STATUS i l b) Fld.CRL_BUN_STATUS_quiesce

/-- The end sends flit `f` in its state: a new one under the next seq, with room in the replay buffer (R352), a credit of its class (R367), after
the flits of a retired bundle (R360) and not during a quiesce (R361); or one of the replay buffer again. -/
def BunEnd.sends (e : BunEnd) (quiet : Bool) (f : BitVec 1536) : Bool :=
  flitForm f && ackMay 4096 e.rxExp (flitAck f) &&
    (if !flitNumbered f then true
     else if flitReplay f then e.buf.any (fun x => flitSame x.1 f)
     else !quiet && flitSeq f == e.txNext && e.buf.length < 256 && e.moved.isEmpty && 1 ≤ mapGet (fun _ => 0) e.credits (flitClass f))

/-- The end after it has sent `f`: a new flit uses a credit of its class and stays in the replay buffer. -/
def BunEnd.sent (e : BunEnd) (f : BitVec 1536) : BunEnd :=
  if flitNumbered f && !flitReplay f then
    { e with txNext := (e.txNext + 1) % 4096, buf := e.buf ++ [(f, 1)],
             credits := mapSet (fun _ => 0) e.credits (flitClass f) (mapGet (fun _ => 0) e.credits (flitClass f) - 1) }
  else e

/-- The credits that a flit returns (R367). -/
def BunEnd.credit (e : BunEnd) (f : BitVec 1536) : BunEnd :=
  if flitCreditClass f = 3 then e
  else { e with credits := mapSet (fun _ => 0) e.credits (flitCreditClass f) (mapGet (fun _ => 0) e.credits (flitCreditClass f) + flitCredits f) }

/-- Flits of a retired bundle go out as the replay buffer has room (R360). -/
def sendMoved (s : State) (i l b : Nat) : State :=
  if s.bunQuiet i l b then s
  else forEach (s.bun i l b).moved s (fun s f =>
    let e := s.bun i l b
    if e.buf.length < 256 then
      let g := flitAs f e.txNext e.rxExp false
      (s.setBun i l b { e with txNext := (e.txNext + 1) % 4096, buf := e.buf ++ [(g, 1)], moved := e.moved.drop 1 }).out (.crlFlit i l b g)
    else s)

/-- An acknowledgement leaves in a link header; NAK is a kind of CTRL flit (R352). -/
def sendAck (s : State) (i l b : Nat) (nak : Bool) : State :=
  s.out (.crlCtrl i l b nak (BitVec.ofNat 64 (linkHeader (if nak then 3 else 0) 0 (s.bun i l b).rxExp false)))

/-- A flit is accepted: its messages and its line, with the word code unchanged, are handed on; an ack is due every 32 flits (R350, R352). -/
def flitAccept (s : State) (i l b : Nat) (f : BitVec 1536) : State :=
  let e := s.bun i l b
  let due := e.sinceAck + 1
  let e1 := { e.credit f with
    rxExp := (e.rxExp + 1) % 4096, sinceAck := if due < 32 then due else 0, disc := e.disc.filter (fun g => flitSeq g != flitSeq f) }
  let s1 := (s.setBun i l b e1).out (.crlTaken i l b (flitClass f) (flitMsgs f) (flitLine f) (flitPoison f))
  let s2 := if due < 32 then s1 else sendAck s1 i l b false
  match e.disc.find? (fun g => flitSeq g == flitSeq f) with
  | some old => if flitReplay f then attributeErr s2 i l b old f else s2
  | none => s2

/-- The receiver takes a flit that arrived as `f` (R352). Of a flit with a bad CRC it keeps the copy, the latest under each seq. -/
def flitArrives (s : State) (i l b : Nat) (f : BitVec 1536) : State :=
  let e := s.bun i l b
  let r := Reg.CRL_BUN_ERR i l b
  if crcGood 192 f.toNat then
    let s1 := sendMoved (s.setBun i l b { e with buf := ackTrim flitSeq 4096 (flitAck f) e.buf }) i l b
    if !flitNumbered f then s1.setBun i l b ((s1.bun i l b).credit f)
    else if flitSeq f == e.rxExp then flitAccept s1 i l b f
    else s1
  else
    let s1 := s.setBun i l b { e with disc := e.disc.filter (fun g => flitSeq g != flitSeq f) ++ [f], replays := e.replays + 1 }
    sendAck ((s1.incSat r Fld.CRL_BUN_ERR_crc).incSat r Fld.CRL_BUN_ERR_replays) i l b true

/-- A flit that the far end sends as `sent` arrives at die `i` with the bits `err` changed. -/
def flitReceive (s : State) (i l b : Nat) (sent err : BitVec 1536) : State :=
  match peerOf i l with
  | some (j, k) =>
    if s.linkUp i l && s.bunState i l b != 0 && (s.bun j k b).sends (s.bunQuiet j k b) sent then
      flitArrives (s.setBun j k b ((s.bun j k b).sent sent)) i l b (sent ^^^ err)
    else s
  | none => s

/-! ### Retirement, width, spares -/

/-- Bundles of the link in service. -/
def State.bundlesUp (s : State) (i l : Nat) : List Nat :=
  (List.range (linkBundles i l)).filter (fun b => s.bunState i l b != 0)

/-- The counts of CRL_LINK (Table 13-9) and its state after a bundle changed: DOWN with none in service, DEGRADED under R362. -/
def linkCount (s : State) (i l : Nat) : State :=
  let r := Reg.CRL_LINK i l
  let sts := (List.range (linkBundles i l)).map (s.bunState i l)
  let up := (sts.filter (· != 0)).length
  let s1 := ((s.put r Fld.CRL_LINK_full (sts.filter (· == 1)).length).put r Fld.CRL_LINK_half (sts.filter (2 ≤ ·)).length).put r
    Fld.CRL_LINK_retired (sts.filter (· == 0)).length
  if s.linkUp i l then
    s1.put r Fld.CRL_LINK_state (if up = 0 then 0 else if up < linkBundles i l / 4 then 3 else 2)
  else s1

/-- X0 marks a link that has become degraded and raises CRL_DEGRADED (R362). -/
def linkDegrade (s : State) (i l : Nat) : State :=
  let key := i * 3 + l
  if s.get (Reg.CRL_LINK i l) Fld.CRL_LINK_state == 3 && !setHas s.ceral.degraded key then
    let s1 := { s with ceral := { s.ceral with degraded := setIns s.ceral.degraded key } }
    raiseEdge (errRecord s1 primaryDie (ErrRec.plain 0 0x013 5 (l * 256) 0)) primaryDie 0x202
  else s

/-- The end of a link at the lower die index, by which the link is marked. -/
def lowEnd (i l : Nat) : Nat × Nat :=
  match peerOf i l with
  | some (j, k) => if j < i then (j, k) else (i, l)
  | none => (i, l)

/-- Recount both ends of a link. -/
def recount (s : State) (i l : Nat) : State :=
  match peerOf i l with
  | some (j, k) =>
    let s1 := linkCount (linkCount s i l) j k
    linkDegrade s1 (lowEnd i l).1 (lowEnd i l).2
  | none => s

/-- Give a bundle's record to both ends. -/
def setWidth (s : State) (i l b st : Nat) : State :=
  match peerOf i l with
  | some (j, k) =>
    let a := (s.put (Reg.CRL_BUN_STATUS i l b) Fld.CRL_BUN_STATUS_state st).put (Reg.CRL_BUN_STATUS i l b) Fld.CRL_BUN_STATUS_peer_state st
    (a.put (Reg.CRL_BUN_STATUS j k b) Fld.CRL_BUN_STATUS_state st).put (Reg.CRL_BUN_STATUS j k b) Fld.CRL_BUN_STATUS_peer_state st
  | none => s

/-- The next in-service bundle of a link after `b`, ascending and wrapping. -/
def State.nextBundle (s : State) (i l b : Nat) : Option Nat :=
  let n := linkBundles i l
  ((List.range n).map (fun k => (b + 1 + k) % n)).find? (fun x => x != b && s.bunState i l x != 0)

/-- Rewrite the bundle table entries that name `b` to name `b'` (R360). -/
def retable (s : State) (i l b b' : Nat) : State :=
  forEach (List.range 8) s (fun s n =>
    let v := (s.reg (Reg.CRL_BTAB i l n)).toNat
    s.setReg (Reg.CRL_BTAB i l n) (BitVec.ofNat 64 ((List.range 8).foldl (fun acc q =>
      acc + (if bits v (8 * q + 5) (8 * q) = b then b' else bits v (8 * q + 5) (8 * q)) * 256 ^ q) 0)))

/-- The flits of the replay buffer that the far end has not accepted: those from the seq `exp` that it expects. -/
def BunEnd.unaccepted (e : BunEnd) (exp : Nat) : List (BitVec 1536 × Nat) := ackTrim flitSeq 4096 exp e.buf

/-- The unaccepted flits of a retired bundle, whose far end expects `exp`, go out on bundle `b'` in seq order (R360). -/
def moveFlits (s : State) (i l b b' exp : Nat) : State :=
  let e := s.bun i l b
  let t := s.bun i l b'
  sendMoved ((s.setBun i l b { e with buf := [], moved := [] }).setBun i l b'
    { t with moved := t.moved ++ (e.unaccepted exp).map (·.1) ++ e.moved }) i l b'

/-- One end of a retirement: its cause, its table, its flits. -/
def retireEnd (s : State) (i l b cause exp : Nat) : State :=
  let r := Reg.CRL_BUN_STATUS i l b
  let s1 := ((s.put r Fld.CRL_BUN_STATUS_cause cause).put r Fld.CRL_BUN_STATUS_pending 0).put r Fld.CRL_BUN_STATUS_quiesce 0
  let s2 := match s1.nextBundle i l b with
    | some b' => moveFlits (retable s1 i l b b') i l b b' exp
    | none => s1
  raiseEdge s2 i 0x146

/-- A bundle retires (R360), detected at die `i`. -/
def retire (s : State) (i l b cause : Nat) : State :=
  match peerOf i l with
  | some (j, k) =>
    let s1 := setWidth s i l b 0
    let s2 := retireEnd (retireEnd s1 i l b cause (s.bun j k b).rxExp) j k b cause (s.bun i l b).rxExp
    recount (errRecord s2 i (ErrRec.plain 0 0x011 5 (l * 256 + b) 0)) i l
  | none => s

/-- The far end's expected seq at an end. -/
def State.farExp (s : State) (i l b : Nat) : Nat :=
  match peerOf i l with
  | some (j, k) => (s.bun j k b).rxExp
  | none => 0

/-- The flits of the replay buffer are sent again in seq order, with the replay bit (R352). -/
def replayFlits (s : State) (i l b : Nat) : State :=
  let e := s.bun i l b
  forEach e.buf (s.setBun i l b { e with buf := e.buf.map (fun x => (x.1, x.2 + 1)) })
    (fun s x => s.out (.crlFlit i l b (flitAs x.1 (flitSeq x.1) e.rxExp true)))

/-- A flit has been sent replay_max + 1 times without acceptance: replay is exhausted (R353). -/
def State.exhausted (s : State) (i l b : Nat) : Bool :=
  ((s.bun i l b).unaccepted (s.farExp i l b)).any (fun x => s.get (Reg.CRL_CTL i) Fld.CRL_CTL_replay_max < x.2)

/-- The sender receives NAK for `seq`, which the far end expects or has expected: every flit before it is acknowledged, and every flit from it on
is sent again, or the bundle retires (R352, R353). -/
def nakReceive (s : State) (i l b seq : Nat) : State :=
  if !s.linkUp i l || s.bunState i l b == 0 || !ackMay 4096 (s.farExp i l b) seq then s
  else
    let e := s.bun i l b
    let s1 := s.setBun i l b { e with buf := ackTrim flitSeq 4096 seq e.buf }
    if s1.exhausted i l b then retire s1 i l b 3 else sendMoved (replayFlits s1 i l b) i l b

/-- A receiver's ack interval expires (R352). -/
def ackTimer (s : State) (i l b : Nat) : State :=
  let e := s.bun i l b
  if s.linkUp i l && s.bunState i l b != 0 then
    sendAck (s.setBun i l b { e with sinceAck := 0 }) i l b false
  else s

/-- The error window of one bundle ends (R357). -/
def windowEnd (s : State) (i l b : Nat) : State :=
  let e := s.bun i l b
  let many := decide (s.get (Reg.CRL_CTL i) Fld.CRL_CTL_bundle_thresh < e.replays) && !e.attributed && s.bunState i l b != 0
  let s1 := if many then markBundle s i l b 3 else s
  let s2 := s1.setBun i l b { e with laneErr := [], replays := 0, attributed := false, excess := e.excess || many }
  (s2.put (Reg.CRL_BUN_WORST i l b) Fld.CRL_BUN_WORST_lane 0).put (Reg.CRL_BUN_WORST i l b) Fld.CRL_BUN_WORST_count 0

/-- The width that R359 gives a FULL bundle with failed lanes; 0 retires it. -/
def State.halfWidth (s : State) (i l b : Nat) : Nat :=
  match peerOf i l with
  | some (j, k) =>
    let bad := s.failedLanes i l b ++ s.failedLanes j k b
    if bad.all (fun n => 32 ≤ n) then 2 else if bad.all (· < 32) then 3 else 0
  | none => 0

/-- Start a quiesce of the bundle for change `t` (R361). -/
def quiesce (s : State) (i l b t : Nat) : State :=
  match peerOf i l with
  | some (j, k) =>
    let f (s : State) (i l : Nat) : State :=
      let r := Reg.CRL_BUN_STATUS i l b
      ((s.put r Fld.CRL_BUN_STATUS_pending 0).put r Fld.CRL_BUN_STATUS_quiesce 1).setBun i l b { s.bun i l b with
        target := t, swap := if t = 1 then (s.failedLanes i l b).zip (s.freeSpares i l b) else [] }
    f (f s i l) j k
  | none => s

/-- The change that a tick applies to a bundle: the most severe pending at either end (R359). -/
def State.bunChange (s : State) (i l b : Nat) : Nat :=
  match peerOf i l with
  | some (j, k) => max (s.get (Reg.CRL_BUN_STATUS i l b) Fld.CRL_BUN_STATUS_pending)
      (s.get (Reg.CRL_BUN_STATUS j k b) Fld.CRL_BUN_STATUS_pending)
  | none => 0

/-- The cause with which a bundle retires at a tick: 4 where a window of either end found too many unattributed replays, else 2. -/
def State.bunCause (s : State) (i l b : Nat) : Nat :=
  if (s.bun i l b).excess || (match peerOf i l with | some (j, k) => (s.bun j k b).excess | none => false) then 4 else 2

/-- A lane that the record uses has failed at either end. -/
def State.halfFailed (s : State) (i l b : Nat) : Bool :=
  match peerOf i l with
  | some (j, k) => (s.failedLanes i l b ++ s.failedLanes j k b).any (laneUsed (s.bunState i l b))
  | none => false

/-- One bundle at a tick. The second component counts the quiesces that the link may still start (R361). -/
def bundleTick (i l : Nat) (a : State × Nat) (b : Nat) : State × Nat :=
  let s := a.1
  if s.bunState i l b == 0 || s.bunQuiet i l b then a else
  let c := s.bunChange i l b
  if c = 0 then a
  else if c = 3 || (s.bunState i l b != 1 && s.halfFailed i l b) then (retire s i l b (s.bunCause i l b), a.2)
  else if a.2 = 0 then a
  else if c = 1 then (quiesce s i l b 1, a.2 - 1)
  else match s.halfWidth i l b with
    | 0 => (retire s i l b 2, a.2)
    | w => (quiesce s i l b w, a.2 - 1)

/-- The changes of one link at a tick, by the end at the lower die index. -/
def linkTick (s : State) (i l : Nat) : State :=
  if s.linkUp i l && lowEnd i l = (i, l) then
    ((List.range (linkBundles i l)).foldl (bundleTick i l) (s, ceilDiv (linkBundles i l) 4)).1
  else s

/-- Each lane that the quiesce began with is replaced by its spare; a spare that it replaces is no longer in use (R358, R359). -/
def takeSpares (s : State) (i l b : Nat) : State :=
  forEach (s.bun i l b).swap s (fun s x =>
    let m := s.reg (Reg.CRL_BUN_SPARE i l b)
    let at_ (q : Nat) : Nat := if q = x.2 then x.1 else if spareByte m q = x.1 then 0xFF else spareByte m q
    s.setReg (Reg.CRL_BUN_SPARE i l b) (BitVec.ofNat 64 ((List.range 4).foldl (fun acc q => acc + at_ q * 256 ^ q) 0)))

/-- One end of a quiesce that ends: the replay buffer goes out again, and the waiting messages are released (R361). -/
def quiesceEnd (s : State) (i l b : Nat) : State :=
  let s1 := (s.setFlag (Reg.CRL_BUN_STATUS i l b) Fld.CRL_BUN_STATUS_quiesce false).setBun i l b { s.bun i l b with target := 0, swap := [] }
  sendMoved (replayFlits s1 i l b) i l b

/-- A quiesce ends (R361); a bundle whose replay is exhausted retires (R353). -/
def quiesceComplete (s : State) (i l b : Nat) : State :=
  match peerOf i l with
  | some (j, k) =>
    if s.bunQuiet i l b then
      let t := (s.bun i l b).target
      let s1 := if t = 1 then takeSpares (takeSpares s i l b) j k b else setWidth s i l b t
      if s1.exhausted i l b || s1.exhausted j k b then retire s1 i l b 3
      else recount (quiesceEnd (quiesceEnd s1 i l b) j k b) i l
    else s
  | none => s

/-! ### Training -/

/-- Failing data lanes that no working spare replaces, with the spare map (R356). -/
def spareFit (lanes : BitVec 68) : List Nat × Nat :=
  let bad := (List.range 64).filter (fun n => bit lanes.toNat n)
  let map := (List.range 4).foldl (fun acc q => acc + (match bad[q]? with | some n => n | none => 0xFF) * 256 ^ q) 0
  let left := (bad.zip (List.range bad.length)).filterMap (fun x => if x.2 < 4 && !bit lanes.toNat (64 + x.2) then none else some x.1)
  (left, map)

/-- The record that lane test gives a bundle (R356). -/
def testWidth (t : LaneTest) : Nat :=
  let bad := (spareFit t.near).1 ++ (spareFit t.far).1
  if t.dead then 0 else if bad.isEmpty then 1
  else if bad.all (fun n => 32 ≤ n) then 2 else if bad.all (· < 32) then 3 else 0

/-- The narrower of two records (R365). -/
def narrower (a b : Nat) : Nat := if a = b then a else if a = 1 then b else if b = 1 then a else 0

/-- A common major with this device's 1.0 exists (R514). -/
def versionFits (v : Version) : Bool := 1 ≤ v.hi.toNat && v.lo.toNat ≤ 1

/-- One bundle at training: records compared, adopted, ends reset (R355, R356, R365). True where the records differed. -/
def trainBundle (s : State) (i l j k b : Nat) (t : LaneTest) : State × Bool :=
  let w := testWidth t
  let ra := if setHas s.ceral.keep (i * 3 + l) then s.bunState i l b else w
  let rb := if setHas s.ceral.keep (j * 3 + k) then s.bunState j k b else w
  let rec_ := narrower ra rb
  let one (s : State) (i l : Nat) (lanes : BitVec 68) : State :=
    let r := Reg.CRL_BUN_STATUS i l b
    let s1 := s.setReg r 0
    let s2 := s1.put r Fld.CRL_BUN_STATUS_cause (if rec_ != 0 then 0 else if ra != rb then 5 else 1)
    let s3 := s2.setReg (Reg.CRL_BUN_SPARE i l b) (BitVec.ofNat 64 (spareFit lanes).2)
    (s3.setReg (Reg.CRL_BUN_WORST i l b) 0).setBun i l b { BunEnd.reset with bad := (List.range 68).filter (fun p => bit lanes.toNat p) }
  let s1 := one (one s i l t.near) j k t.far
  let s2 := setWidth s1 i l b rec_
  if ra = rb then (s2, false)
  else (errRecord s2 primaryDie { ErrRec.plain 0 0x012 5 (l * 256 + b) 0 with detail := ra * 8 + rb }, true)

/-- Bundle table entries of a link that name a RETIRED bundle name the next one in service (R360). -/
def tableTrained (s : State) (i l : Nat) : State :=
  forEach ((List.range (linkBundles i l)).filter (fun b => s.bunState i l b == 0)) s (fun s b =>
    match s.nextBundle i l b with
    | some b' => retable s i l b b'
    | none => s)

/-- A link's bundles finish training (R354, R355, R365, R514). -/
def linkTrain (s : State) (i l : Nat) (tests : List LaneTest) (peer : Version) : State :=
  match peerOf i l with
  | none => s
  | some (j, k) =>
    let n := linkBundles i l
    let r := (List.range n).foldl (fun (a : State × Bool) b =>
      let x := trainBundle a.1 i l j k b (tests.getD b ⟨0, 0, true⟩)
      (x.1, a.2 || x.2)) (s, false)
    let s1 := if r.2 then (r.1.setFlag (Reg.CRL_LINK i l) Fld.CRL_LINK_mismatch true).setFlag (Reg.CRL_LINK j k)
      Fld.CRL_LINK_mismatch true else r.1
    let sts := (List.range n).map (s1.bunState i l)
    let width2 := 2 * (sts.filter (· == 1)).length + (sts.filter (2 ≤ ·)).length
    let fits := versionFits peer
    let st := if !fits || width2 < n / 2 then 4 else 2
    let side (s : State) (i l j : Nat) : State :=
      let q := Reg.CRL_LINK i l
      (((s.put q Fld.CRL_LINK_state st).put q Fld.CRL_LINK_peer j).put q Fld.CRL_LINK_ver_major (b2n fits)).put q
        Fld.CRL_LINK_ver_minor 0
    let s2 := tableTrained (tableTrained (side (side s1 i l j) j k i) i l) j k
    let low := lowEnd i l
    let c := s2.ceral
    recount { s2 with ceral := { c with keep := setDel (setDel c.keep (i * 3 + l)) (j * 3 + k),
                                        degraded := setDel c.degraded (low.1 * 3 + low.2),
                                        untrained := setDel c.untrained (low.1 * 3 + low.2) } } i l

/-! ### Routes -/

/-- The link is marked degraded (R362). -/
def State.marked (s : State) (i l : Nat) : Bool := setHas s.ceral.degraded ((lowEnd i l).1 * 3 + (lowEnd i l).2)

/-- Die `i` is joined to die `j` by a degraded link in service. -/
def State.weakJoin (s : State) (i j : Nat) : Bool :=
  (linksOf i).any (fun l => s.linkUp i l && s.marked i l && (peerOf i l).map (·.1) == some j)

/-- Link `l` of die `i` serves messages of other dies on their way to `dst`: it is in service, not degraded, and does not lead to a die that would
pass them over a degraded link of its own (R362). -/
def State.linkFor (s : State) (dst i l : Nat) : Bool :=
  match peerOf i l with
  | some (j, _) => s.linkUp i l && !s.marked i l && (j == dst || !s.weakJoin j dst)
  | none => false

/-- Hops from every die to `dst` over the links `ok`, after `n` rounds; 99 for none. -/
def hopsTo (ok : Nat → Nat → Bool) (dst : Nat) : Nat → List Nat
  | 0 => (List.range 10).map (fun i => if i = dst then 0 else 99)
  | n + 1 =>
    let d := hopsTo ok dst n
    (List.range 10).map (fun i =>
      (linksOf i).foldl (fun best l =>
        match peerOf i l with
        | some (j, _) => if ok i l then min best (d.getD j 99 + 1) else best
        | none => best) (d.getD i 99))

/-- Every link of the default route from a die to `dst`, of at most `n` hops, is `ok`. -/
def defaultServes (ok : Nat → Nat → Bool) (dst : Nat) : Nat → Nat → Bool
  | 0, _ => false
  | n + 1, i =>
    i == dst || (match peerOf i (defaultRoute i dst) with
      | some (j, _) => ok i (defaultRoute i dst) && defaultServes ok dst n j
      | none => false)

/-- The first link of a shortest path. -/
def firstHop (ok : Nat → Nat → Bool) (dst i : Nat) : Nat :=
  let d := hopsTo ok dst 10
  match (linksOf i).find? (fun l =>
    match peerOf i l with
    | some (j, _) => ok i l && d.getD j 99 + 1 == d.getD i 99 && d.getD i 99 < 99
    | none => false) with
  | some l => l
  | none => 7

/-- The route over the links `ok`: the default one where it serves, else a shortest one. -/
def routeOver (ok : Nat → Nat → Bool) (dst i : Nat) : Nat := if defaultServes ok dst 10 i then defaultRoute i dst else firstHop ok dst i

/-- The link from die `i` toward die `j` (R362, R363): a degraded link that joins the two; else a way around degraded links where one is longer
by at most two hops; else any path in service; 7 unreachable. Each die on the way makes the same choice, so the hops agree. -/
def State.route (s : State) (i j : Nat) : Nat :=
  let up (a l : Nat) : Bool := s.linkUp a l
  let far (ok : Nat → Nat → Bool) : Nat := (hopsTo ok j 10).getD i 99
  if i = j then 6
  else if s.weakJoin i j then routeOver up j i
  else if defaultServes (s.linkFor j) j 10 i then defaultRoute i j
  else if far (s.linkFor j) ≤ far up + 2 then firstHop (s.linkFor j) j i
  else routeOver up j i

/-- The links by which messages from die `i` reach die `j`, by CRL_ROUTE of each die on the way: (die, link) of each hop, none where no route
leads there in `n` hops (R363). -/
def State.path (s : State) (j : Nat) : Nat → Nat → Option (List (Nat × Nat))
  | 0, i => if i = j then some [] else none
  | n + 1, i =>
    if i = j then some []
    else
      let l := bits (s.reg (Reg.CRL_ROUTE i)).toNat (3 * j + 2) (3 * j)
      match peerOf i l with
      | some (k, _) => (s.path j n k).map (fun p => (i, l) :: p)
      | none => none

/-- The bundle table entry that carries messages from `src` to `dst` (R351). -/
def tableEntry (src dst : Ep) : Nat :=
  let e := (src ^^^ dst).toNat
  bits e 5 0 ^^^ bits e 11 6 ^^^ bits e 13 12

/-- The bundle of link `l` of die `i` that carries messages from `src` to `dst` (R351). -/
def State.bundleFor (s : State) (i l : Nat) (src dst : Ep) : Nat :=
  let n := tableEntry src dst
  bits (s.reg (Reg.CRL_BTAB i l (n / 8))).toNat (8 * (n % 8) + 5) (8 * (n % 8))

/-- The bundle carries messages: it is in service and not being quiesced (R360, R361). -/
def State.bunOpen (s : State) (i l b : Nat) : Bool := s.linkUp i l && s.bunState i l b != 0 && !s.bunQuiet i l b

/-- A message from `src` to `dst` may cross now: every link on its route carries it. -/
def State.wayOpen (s : State) (src dst : Ep) : Bool :=
  match s.path (epDie dst) 10 (epDie src) with
  | some p => p.all (fun h => s.bunOpen h.1 h.2 (s.bundleFor h.1 h.2 src dst))
  | none => false

/-- Message `m` need not wait for earlier messages of its die pair whose route changed (R363): it is one of them, or there are none left. -/
def State.waitsOver (s : State) (m : Msg) : Bool :=
  let place := ((s.net.filter (fun x => x.pair == m.pair)).takeWhile (· != m)).length
  s.ceral.waits.all (fun e => e.1 != m.pair || place < e.2)

/-- Message `m` was on its way before the route of its die pair changed. -/
def State.onOldRoute (s : State) (m : Msg) : Bool := s.waitsOver m && s.ceral.waits.any (fun e => e.1 == m.pair)

/-- Message `m` may cross the links of the module (R351, R361, R363). -/
def State.mayCross (s : State) (m : Msg) : Bool := s.onOldRoute m || (s.waitsOver m && s.wayOpen m.src m.dst)

/-- The traffic of each die pair whose route differs from that in `old` waits until its messages in flight have been delivered (R363). -/
def pairsWait (old s : State) : State :=
  let path (s : State) (k : Nat) := s.path (k % 16) 10 (k / 16)
  let ks := (s.net.map Msg.pair).eraseDups.filter (fun k => path s k != path old k)
  { s with ceral := { s.ceral with waits := s.ceral.waits ++ ks.map (fun k => (k, (s.net.filter (fun m => m.pair == k)).length)) } }

/-- Every CRL_ROUTE at a tick (R363). -/
def routeTick (s : State) : State :=
  pairsWait s (forEach (List.range 10) s (fun s i =>
    s.put (Reg.CRL_ROUTE i) Fld.CRL_ROUTE_route ((List.range 10).foldl (fun acc j => acc + s.route i j * 8 ^ j) 0)))

/-- The link has yet to train since module reset or a die reset, and neither of its dies is held (R354). -/
def State.linkDue (s : State) (i l : Nat) : Bool :=
  match peerOf i l with
  | some (j, _) => setHas s.ceral.untrained ((lowEnd i l).1 * 3 + (lowEnd i l).2) && !s.dieHeld i && !s.dieHeld j
  | none => false

/-- The ready dies that are not yet isolated and that no path of links in service, or of links that may still train, joins to the primary I/O die
(R364). -/
def State.cutOff (s : State) : List Nat :=
  (List.range 10).filter (fun i => i != primaryDie && bit (s.get Reg.BOOT_READY0 Fld.BOOT_READY0_die) i &&
    !setHas s.ceral.isolated i && (hopsTo (fun a l => s.linkUp a l || s.linkDue a l) primaryDie 10).getD i 99 == 99)

/-- Bundle and route changes of a tick (R358-R363). -/
def ceralTick (s : State) : State :=
  let s1 := forEach ((List.range 10).flatMap (fun i => (linksOf i).map (fun l => (i, l)))) s (fun s x => linkTick s x.1 x.2)
  routeTick s1

end Sys2Proof.Machine
end

