-- ==== Sys2Proof/Machine/Security.lean ====
section
/-!
DEFINITION. Identity, signing, attestation and fuses (chapter 21): firmware verification, keys, signed commands, attestation
reports, SPDM answers, debug unlock.
-/
namespace Sys2Proof.Machine

/-! ### Bytes -/

/-- Bytes `a` to `a + n - 1` of a list. -/
def slice (bs : List Byte) (a n : Nat) : List Byte := (bs.drop a).take n

/-- The little-endian number in `n` bytes at `a`. -/
def numAt (bs : List Byte) (a n : Nat) : Nat := ofBytes (slice bs a n)

/-- Bytes `a` to `a + n - 1` are zero. -/
def zeroAt (bs : List Byte) (a n : Nat) : Bool := (slice bs a n).all (· == 0)

/-- The ASCII bytes of a label. -/
def ascii (t : String) : List Byte := t.toList.map (fun c => BitVec.ofNat 8 c.toNat)

def State.stage (s : State) : Nat := s.get Reg.BOOT_STAGE Fld.BOOT_STAGE_stage

/-- Stage 1 or later (Table 19-2): RECOVERY is not. -/
def State.stageOne (s : State) : Bool := 1 ≤ s.stage && s.stage != 8

/-! ### The flash -/

def Flash.key (f : Flash) (n : Nat) : Option (BitVec 256) := mapGet Config.flashKey f.keys n
def Flash.fwCopy (f : Flash) (k : Nat) : Option (List Byte) := mapGet Config.flashFw f.fw k
def Flash.imgCopy (f : Flash) (k : Nat) : Option (List Byte) := mapGet Config.flashImg f.img k

/-- Slot `n` holds a key that is not revoked (R524). -/
def Flash.keyGood (f : Flash) (n : Nat) : Option (BitVec 256) :=
  if n < 16 && !bit f.revoked.toNat n then f.key n else none

/-- Enrolled slots, bit by bit. -/
def Flash.enrolled (f : Flash) : Nat := ofBits 16 (fun n => (f.key n).isSome)

/-! ### Firmware (R517, R518) -/

def fwSvn (bs : List Byte) : Nat := numAt bs 5 1
def fwLen (bs : List Byte) : Nat := numAt bs 8 4

/-- Result codes of SEC_CMD_STATUS. -/
def secOk : Nat := 0

/-- Check a firmware copy under R518 against the ARB value: 0 accepted, else the result code of Table 21-7. -/
def fwCheck (bs : List Byte) (arb : Nat) : Nat :=
  let n := fwLen bs
  if numAt bs 0 4 != 0x5746444E || n % 16 != 0 || 0x4000000 < n || n < 128 || bs.length < n then 2
  else if !Config.verify Config.vendorFwKey (slice bs 0 (n - 64)) (BitVec.ofNat 512 (numAt bs (n - 64) 64)) then 3
  else if fwSvn bs < arb then 7
  else 0

/-- The digest of a firmware copy: SHA-512 of bytes 0 to len - 65 (R517). -/
def fwDigest (bs : List Byte) : BitVec 512 := Config.sha512 (slice bs 0 (fwLen bs - 64))

/-- The digest of the die-controller firmware within a copy (R518). -/
def dcDigest (bs : List Byte) : BitVec 512 :=
  Config.sha512 (slice bs (numAt bs 12 4) (fwLen bs - 64 - numAt bs 12 4))

/-- Copy `k` is accepted at boot. -/
def State.fwGood (s : State) (k : Nat) : Bool :=
  match s.flash.fwCopy k with
  | some bs => fwCheck bs s.flash.arb == 0
  | none => false

def State.fwSvnOf (s : State) (k : Nat) : Nat := match s.flash.fwCopy k with | some bs => fwSvn bs | none => 0

/-- The copy that the boot ROM runs (R518): the accepted copy with the higher svn, copy 0 on a tie. -/
def State.fwPick (s : State) : Option Nat :=
  if s.fwGood 0 && (!s.fwGood 1 || s.fwSvnOf 1 ≤ s.fwSvnOf 0) then some 0
  else if s.fwGood 1 then some 1 else none

/-- SEC_FW reports the copies as the flash holds them; `valid` and `booted` are the last boot's. -/
def fwReport (s : State) : State :=
  (s.put Reg.SEC_FW Fld.SEC_FW_svn0 (s.fwSvnOf 0)).put Reg.SEC_FW Fld.SEC_FW_svn1 (s.fwSvnOf 1)

/-- The boot ROM runs copy `k` (R518). -/
def runFirmware (s : State) (k : Nat) : State :=
  let s1 := ((fwReport s).setFlag Reg.SEC_FW Fld.SEC_FW_valid0 (s.fwGood 0)).setFlag Reg.SEC_FW Fld.SEC_FW_valid1 (s.fwGood 1)
  let s2 := s1.put Reg.SEC_FW Fld.SEC_FW_booted k
  { s2 with sec := { s2.sec with fwRuns := s.flash.fwCopy k } }

/-- The die-controller firmware matches the digest in the header area of the firmware that runs (R518). -/
def State.dcGood (s : State) : Bool :=
  match s.sec.fwRuns with
  | some bs => dcDigest bs == Config.dcDigestHeld bs
  | none => true

/-- The die-controller firmware and the primary die's firmware share an interface major (R514). -/
def State.dcSpeaks (s : State) : Bool :=
  match s.sec.fwRuns with
  | some bs => Config.dcMajor bs == bits (numAt bs 4 1) 7 4
  | none => true

/-- Write firmware bytes to a flash copy. -/
def storeFirmware (s : State) (k : Nat) (bs : List Byte) : State :=
  fwReport { s with flash := { s.flash with fw := mapSet Config.flashFw s.flash.fw k (some bs) } }

/-! ### Keys (R521) -/

def idKeySeed : BitVec 256 :=
  BitVec.ofNat 256 (Config.sha512 (ascii "NDOAD-IDK" ++ bytesOf 32 Config.idSeed.toNat)).toNat

/-- alias_seed of R521 for the firmware that runs, the ARB value and the debug state. -/
def State.aliasDerived (s : State) : BitVec 256 :=
  let dig := match s.sec.fwRuns with | some bs => fwDigest bs | none => 0
  BitVec.ofNat 256 (Config.sha512 (ascii "NDOAD-ALIAS" ++ bytesOf 32 idKeySeed.toNat ++ bytesOf 64 dig.toNat ++
    bytesOf 8 s.flash.arb ++ bytesOf 1 (b2n s.sec.unlocked))).toNat

/-- The ROM derives the alias key, in stage 0 only. -/
def deriveAlias (s : State) : State := { s with sec := { s.sec with keySeed := some s.aliasDerived } }

/-- The alias key in use: as derived in stage 0, so an ARB_ADVANCE changes it at the next module reset. -/
def State.aliasSeed (s : State) : BitVec 256 := s.sec.keySeed.getD s.aliasDerived

/-- The certificate chain of SPDM slot 0 (R522). -/
def State.chain (s : State) : List Byte := Config.certChain ++ Config.aliasCert (Config.publicKey s.aliasSeed)

/-! ### Signed commands (R523-R525) -/

/-- SEC_FUSE reports the fuses and the enrolled slots. -/
def fuseReport (s : State) : State :=
  (((s.put Reg.SEC_FUSE Fld.SEC_FUSE_revoked s.flash.revoked.toNat).put Reg.SEC_FUSE Fld.SEC_FUSE_arb s.flash.arb).put
    Reg.SEC_FUSE Fld.SEC_FUSE_enrolled s.flash.enrolled).setFlag Reg.SEC_FUSE Fld.SEC_FUSE_debug_kill s.flash.debugKill

/-- The serial number as 12 bytes. -/
def State.serial (s : State) : List Byte :=
  bytesOf 8 (s.reg Reg.BOOT_SERIAL0).toNat ++ bytesOf 4 (s.get Reg.BOOT_SERIAL1 Fld.BOOT_SERIAL1_chars)

/-- The first enrolment of R525: signer 0xFF while no slot has been enrolled and no KEY_REVOKE bit is blown. -/
def State.firstEnrol (s : State) (op signer : Nat) : Bool :=
  op == 2 && signer == 0xFF && s.flash.enrolled == 0 && s.flash.revoked == 0

/-- Check 4 of R524. -/
def State.signerGood (s : State) (bs : List Byte) (op : Nat) : Bool :=
  s.firstEnrol op (numAt bs 6 1) ||
    (match s.flash.keyGood (numAt bs 6 1) with
     | some k => Config.verify k (slice bs 0 64) (BitVec.ofNat 512 (numAt bs 64 64))
     | none => false)

/-- Enrolled slots that are not revoked. -/
def Flash.live (f : Flash) : List Nat := (List.range 16).filter (fun n => (f.keyGood n).isSome)

/-- Check 5 of R524: the target conditions of R525. -/
def State.targetGood (s : State) (op target : Nat) : Bool :=
  if op = 2 then target < 16 && (s.flash.key target).isNone && !bit s.flash.revoked.toNat target
  else if op = 3 then target < 16 && s.flash.live != [target]
  else if op = 4 then 1 ≤ target && target ≤ 64 &&
    (target ≤ s.flash.arb || target ≤ (match s.sec.fwRuns with | some bs => fwSvn bs | none => 0))
  else target == 0

/-- The result of a signed command's checks, in the order of R524. -/
def State.signedCheck (s : State) (bs : List Byte) (op : Nat) : Nat :=
  if bs.length != 128 || numAt bs 0 4 != 0x444D4353 || numAt bs 4 1 != op || !zeroAt bs 7 1 || !zeroAt bs 0x1C 4 then 2
  else if numAt bs 8 8 != (s.reg Reg.SEC_NONCE).toNat then 4
  else if slice bs 0x10 12 != s.serial then 5
  else if !s.signerGood bs op then 3
  else if !s.targetGood op (numAt bs 5 1) then 5
  else 0

/-- The effect of an accepted signed command (Table 21-3). -/
def signedEffect (s : State) (bs : List Byte) (op : Nat) : State :=
  let t := numAt bs 5 1
  let f := s.flash
  let f' :=
    if op = 2 then { f with keys := mapSet Config.flashKey f.keys t (some (BitVec.ofNat 256 (numAt bs 0x20 32))) }
    else if op = 3 then { f with revoked := f.revoked ||| BitVec.ofNat 16 (2 ^ t) }
    else if op = 4 then { f with arb := max f.arb t }
    else { f with debugKill := true }
  fuseReport { s with flash := f' }

/-! ### Attestation (R527) -/

/-- The bytes over which an instance digest is formed (R527). -/
def State.instBytes (s : State) (i : Nat) : List Byte :=
  let p := s.get (Reg.PRT_INST i) Fld.PRT_INST_partition
  bytesOf 8 (s.reg (Reg.PRT_INST i)).toNat ++ bytesOf 8 (s.reg (Reg.FRM_SLOT i)).toNat ++ bytesOf 8 (s.reg (Reg.MBX_IRQ i)).toNat ++
    bytesOf 1 (s.get (Reg.MBX_ID i) Fld.MBX_ID_tdi_state) ++
    (if s.get (Reg.PRT_DESC p) Fld.PRT_DESC_state = 1 then (mapGet (fun _ => ⟨[]⟩) s.img.parts p).bytes else [])

def State.keyTable (s : State) : List Byte :=
  (List.range 16).flatMap (fun n => bytesOf 32 (match s.flash.key n with | some k => k.toNat | none => 0))

/-- Bytes 0x028 to 0x03F of the report: revision, serial, KEY_REVOKE, enrolled, ARB, svn. -/
def State.reportIds (s : State) : List Byte :=
  bytesOf 4 (s.get Reg.BOOT_ID Fld.BOOT_ID_revision) ++ s.serial ++ bytesOf 2 s.flash.revoked.toNat ++
    bytesOf 2 s.flash.enrolled ++ bytesOf 1 s.flash.arb ++
    bytesOf 1 (match s.sec.fwRuns with | some bs => fwSvn bs | none => 0) ++ bytesOf 2 0

/-- Measurement `n` of R528. -/
def State.measurement (s : State) (n : Nat) : List Byte :=
  if n = 1 then bytesOf 64 (match s.sec.fwRuns with | some bs => (fwDigest bs).toNat | none => 0)
  else if n = 2 then bytesOf 64 (match s.sec.fwRuns with | some bs => (dcDigest bs).toNat | none => 0)
  else if n = 3 then bytesOf 64 s.img.digest.toNat
  else if n = 4 then bytesOf 64 (Config.sha512 s.keyTable).toNat
  else if n = 5 then s.reportIds
  else []

/-- Bytes 0x000 to 0x1BF of the report (Table 21-6). -/
def State.reportBody (s : State) (inst : Option Nat) : List Byte :=
  let flags := b2n inst.isSome + 2 * b2n s.sec.unlocked + 4 * (Config.fusePrimaryX1 % 2) + 8 * b2n s.flash.debugKill
  let dig := match inst with | some i => Config.sha512 (s.instBytes i) | none => 0
  bytesOf 4 0x52415A59 ++ [0x10, BitVec.ofNat 8 flags] ++ bytesOf 2 (inst.getD 0) ++
    (List.range 4).flatMap (fun n => bytesOf 8 (s.reg (Reg.SEC_ATTEST_NONCE n)).toNat) ++ s.reportIds ++
    s.measurement 1 ++ s.measurement 2 ++ s.measurement 3 ++ s.measurement 4 ++ bytesOf 64 dig.toNat ++ bytesOf 64 0

/-- The whole report with its alias-key signature. -/
def State.report (s : State) (inst : Option Nat) : List Byte :=
  let b := s.reportBody inst
  b ++ bytesOf 64 (Config.sign s.aliasSeed b).toNat

/-- Make the report, or end NOT_BOUND (R527). -/
def attestNow (s : State) (inst : Option Nat) : State :=
  let bound := match inst with | some i => s.flag (Reg.PRT_INST i) Fld.PRT_INST_bound | none => true
  let s1 := ((s.setFlag Reg.SEC_ATTEST_STATUS Fld.SEC_ATTEST_STATUS_busy false).setFlag Reg.SEC_ATTEST_STATUS
    Fld.SEC_ATTEST_STATUS_done true).put Reg.SEC_ATTEST_STATUS Fld.SEC_ATTEST_STATUS_result (b2n (!bound))
  let s2 := { s1 with sec := { s1.sec with attest := none } }
  if bound then
    let r := s.report inst
    forEach (List.range 64) s2 (fun s n => s.setReg (Reg.SEC_REPORT n) (BitVec.ofNat 64 (numAt r (8 * n) 8)))
  else s2

/-- A command, an image operation or a report has been started and has not ended. -/
def State.opBusy (s : State) : Bool := !s.sec.turns.isEmpty

/-- An operation of kind `k` is carried out now: none has been started, or it is the oldest one (R523). -/
def State.turn (s : State) (k : Nat) : Bool := match s.sec.turns with | [] => true | x :: _ => x == k

def beginTurn (s : State) (k : Nat) : State := { s with sec := { s.sec with turns := s.sec.turns ++ [k] } }
def endTurn (s : State) (k : Nat) : State := { s with sec := { s.sec with turns := s.sec.turns.erase k } }

/-- A write of SEC_ATTEST (R527). -/
def attestRequest (s : State) (inst : Option Nat) : State :=
  if s.flag Reg.SEC_ATTEST_STATUS Fld.SEC_ATTEST_STATUS_busy then
    s.setFlag Reg.SEC_ATTEST_STATUS Fld.SEC_ATTEST_STATUS_busy_drop true
  else if s.opBusy then
    let s1 := (s.setFlag Reg.SEC_ATTEST_STATUS Fld.SEC_ATTEST_STATUS_busy true).setFlag Reg.SEC_ATTEST_STATUS
      Fld.SEC_ATTEST_STATUS_done false
    beginTurn { s1 with sec := { s1.sec with attest := some inst } } 2
  else attestNow s inst

/-- A report that waited is made once what was started before it has ended. -/
def attestResume (s : State) : State :=
  match s.sec.attest with
  | some inst => if s.turn 2 then attestNow (endTurn s 2) inst else s
  | none => s

/-! ### Running a command -/

/-- A security command ends with `result`: SEC_NONCE takes a new value (R524). -/
def secEnd (s : State) (result : Nat) : State :=
  let s1 := ((s.setFlag Reg.SEC_CMD_STATUS Fld.SEC_CMD_STATUS_busy false).setFlag Reg.SEC_CMD_STATUS Fld.SEC_CMD_STATUS_done
    true).put Reg.SEC_CMD_STATUS Fld.SEC_CMD_STATUS_result result
  let n := s.sec.nonces + 1
  attestResume ((endTurn { s1 with sec := { s1.sec with nonces := n, op := none } } 1).setReg Reg.SEC_NONCE (BitVec.ofNat 64 (Config.secNonce n)))

/-- A port on which X0 reads a command or an image, and what it has fetched there: nothing where the port is down. -/
def State.fetched (s : State) (p : Nat) (d : Option (List Byte)) : Option (List Byte) :=
  if s.flag (Reg.HIF_PORT p) Fld.HIF_PORT_up then d else none

/-- The device asks for `n` bytes at bus address `a`: untranslated reads without PASID on port `p`, where it is up (R511, R523). -/
def bootAsk (s : State) (p a n : Nat) : State :=
  if s.flag (Reg.HIF_PORT p) Fld.HIF_PORT_up then s.out (.hostRead p ⟨none, false, false, none⟩ a n 0) else s

/-- The port that a security command names. -/
def State.secPort (s : State) : Nat := s.get Reg.SEC_CMD_CTL Fld.SEC_CMD_CTL_port

/-- A write of SEC_CMD_CTL with `op`: dropped while busy, a reserved op starts nothing (R17, R523). -/
def secStart (s : State) (op : Nat) : State :=
  if s.flag Reg.SEC_CMD_STATUS Fld.SEC_CMD_STATUS_busy then s.setFlag Reg.SEC_CMD_STATUS Fld.SEC_CMD_STATUS_busy_drop true
  else if 1 ≤ op && op ≤ 5 then
    let s1 := (s.setFlag Reg.SEC_CMD_STATUS Fld.SEC_CMD_STATUS_busy true).setFlag Reg.SEC_CMD_STATUS Fld.SEC_CMD_STATUS_done false
    bootAsk (beginTurn { s1 with sec := { s1.sec with op := some op } } 1) s.secPort (s.get Reg.SEC_CMD_ADDR Fld.SEC_CMD_ADDR_addr * 128)
      (s.get Reg.SEC_CMD_CTL Fld.SEC_CMD_CTL_len)
  else s

/-- Another command than the one started is dropped (R523). -/
def State.secBlocked (s : State) (op : Nat) : Bool :=
  s.flag Reg.SEC_CMD_STATUS Fld.SEC_CMD_STATUS_busy && s.sec.op != some op

/-- Run `f` as command `op`, or drop it; nothing happens while an operation started before it has not ended. -/
def secRun (s : State) (op : Nat) (f : State → State) : State :=
  if s.secBlocked op then s.setFlag Reg.SEC_CMD_STATUS Fld.SEC_CMD_STATUS_busy_drop true else if s.turn 1 then f s else s

/-- FW_STORE (R520, R523). -/
def fwStoreRun (s : State) (d : Option (List Byte)) : State :=
  if !s.stageOne && s.stage != 8 then secEnd s 6 else
  match s.fetched s.secPort d with
  | none => secEnd s 1
  | some bs =>
    match fwCheck bs s.flash.arb with
    | 0 =>
      let k := s.get Reg.SEC_FW Fld.SEC_FW_booted
      if s.stage = 8 then secEnd (storeFirmware (storeFirmware s 0 bs) 1 bs) 0 else secEnd (storeFirmware s (1 - k) bs) 0
    | r => secEnd s r

/-- A signed command `op` (R523-R525). -/
def signedRun (s : State) (op : Nat) (d : Option (List Byte)) : State :=
  if op != 5 && !s.stageOne then secEnd s 6 else
  match s.fetched s.secPort d with
  | none => secEnd s 1
  | some bs => match s.signedCheck bs op with
    | 0 => secEnd (signedEffect s bs op) 0
    | r => secEnd s r

/-! ### SPDM (R528) -/

/-- SPDM is served on a port whose link is up, from stage 1. -/
def State.spdmServed (s : State) (p : Nat) : Bool := s.stageOne && s.flag (Reg.HIF_PORT p) Fld.HIF_PORT_up

/-- Answer an SPDM request where it is served. -/
def spdmAnswer (s : State) (p : Nat) (what : String) (d : List Byte) : State :=
  if s.spdmServed p then s.out (.spdm p what d) else s

/-- Set the session state of a port. -/
def setSession (s : State) (p v : Nat) : State := s.setPort p { s.port p with session := v }

/-! ### The commands -/

def execFwStore (d : Option (List Byte)) (s : State) : Result := .next (secRun s 1 (fun s => fwStoreRun s d))
def execKeyEnroll (d : Option (List Byte)) (s : State) : Result := .next (secRun s 2 (fun s => signedRun s 2 d))
def execKeyRevoke (d : Option (List Byte)) (s : State) : Result := .next (secRun s 3 (fun s => signedRun s 3 d))
def execArbAdvance (d : Option (List Byte)) (s : State) : Result := .next (secRun s 4 (fun s => signedRun s 4 d))
def execDebugKill (d : Option (List Byte)) (s : State) : Result := .next (secRun s 5 (fun s => signedRun s 5 d))

/-- SEC_ATTEST (R527). -/
def execSecAttest (i : Option InstId) (s : State) : Result := .next (attestRequest s (i.map (·.val)))

/-- Debug is unlocked for this boot; the alias key follows the debug state (R521, R529). -/
def unlockedNow (s : State) : State :=
  let s1 : State := { s with sec := { s.sec with unlocked := true } }
  if s.sec.keySeed.isSome then deriveAlias s1 else s1

/-- DEBUG_UNLOCK (R529): only in stage 0, only while DEBUG_KILL is unblown. -/
def execDebugUnlock (response : List Byte) (s : State) : Result :=
  if s.stage = 0 && !s.flash.debugKill && Config.verify Config.vendorDebugKey (Config.debugChallenge s.sec.nonces)
      (BitVec.ofNat 512 (numAt response 0 64)) then
    .next ((unlockedNow s).setFlag Reg.SEC_FUSE Fld.SEC_FUSE_debug_unlocked true)
  else .next s

/-- PLDM_FIRMWARE_UPDATE: Shedy writes a copy, verified only at the next reset (R520). -/
def execPldmFirmwareUpdate (k : Fin 2) (d : List Byte) (s : State) : Result := .next (storeFirmware s k.val d)

/-- GET_VERSION: SPDM 1.2 and 1.3. -/
def execGetVersion (p : PortId) (s : State) : Result := .next (spdmAnswer s p.val "VERSION" [0x12, 0x13])

/-- GET_CAPABILITIES: no mutual authentication, no pre-shared keys. -/
def execGetCapabilities (p : PortId) (s : State) : Result := .next (spdmAnswer s p.val "CAPABILITIES" [])

/-- NEGOTIATE_ALGORITHMS: Ed25519, SHA-512, secp384r1, AES-256-GCM, each where the requester offers it. -/
def execNegotiateAlgorithms (p : PortId) (asym hash dhe aead : Bool) (s : State) : Result :=
  .next (spdmAnswer s p.val "ALGORITHMS" [BitVec.ofNat 8 (b2n asym + 2 * b2n hash + 4 * b2n dhe + 8 * b2n aead)])

/-- GET_DIGESTS: the digest of the chain of slot 0. -/
def execGetDigests (p : PortId) (s : State) : Result :=
  .next (spdmAnswer s p.val "DIGESTS" (bytesOf 64 (Config.sha512 s.chain).toNat))

/-- GET_CERTIFICATE of slot 0 (R522); another slot holds none. -/
def execGetCertificate (p : PortId) (slot : BitVec 4) (off len : BitVec 16) (s : State) : Result :=
  if slot = 0 then .next (spdmAnswer s p.val "CERTIFICATE" (slice s.chain off.toNat len.toNat))
  else .next (spdmAnswer s p.val "ERROR" [])

/-- CHALLENGE: signed with the alias key. -/
def execChallenge (p : PortId) (slot : BitVec 4) (nonce : BitVec 256) (s : State) : Result :=
  if slot = 0 then
    .next (spdmAnswer s p.val "CHALLENGE_AUTH" (bytesOf 64 (Config.sign s.aliasSeed (bytesOf 32 nonce.toNat)).toNat))
  else .next (spdmAnswer s p.val "ERROR" [])

/-- The measurements an index asks for: 0xFF all five, 0 their number. -/
def State.measured (s : State) (index : Nat) : List Byte :=
  if index = 0xFF then (List.range 5).flatMap (fun n => s.measurement (n + 1))
  else if index = 0 then [5]
  else s.measurement index

/-- GET_MEASUREMENTS, signed on request. -/
def execGetMeasurements (p : PortId) (index : BitVec 8) (nonce : BitVec 256) (signed : Bool) (s : State) : Result :=
  let m := s.measured index.toNat
  .next (spdmAnswer s p.val "MEASUREMENTS"
    (if signed then m ++ bytesOf 64 (Config.sign s.aliasSeed (bytesOf 32 nonce.toNat ++ m)).toNat else m))

/-- KEY_EXCHANGE opens a session in handshake. -/
def execKeyExchange (p : PortId) (slot : BitVec 4) (key : List Byte) (s : State) : Result :=
  if s.spdmServed p.val && slot == 0 then
    let r := Config.spdmKey s.free key
    .next (spdmAnswer (setSession s.drawn p.val 1) p.val "KEY_EXCHANGE_RSP" (r ++ bytesOf 64 (Config.sign s.aliasSeed (key ++ r)).toNat))
  else .next (spdmAnswer s p.val "ERROR" [])

/-- FINISH completes the handshake. -/
def execFinish (p : PortId) (mac : List Byte) (s : State) : Result :=
  if s.spdmServed p.val && (s.port p.val).session == 1 && Config.spdmMac mac then
    .next (spdmAnswer (setSession s p.val 2) p.val "FINISH_RSP" [])
  else .next (spdmAnswer s p.val "ERROR" [])

/-- END_SESSION. -/
def execEndSession (p : PortId) (s : State) : Result :=
  if s.spdmServed p.val && (s.port p.val).session == 2 then .next (spdmAnswer (setSession s p.val 0) p.val "END_SESSION_ACK" [])
  else .next (spdmAnswer s p.val "ERROR" [])

/-- GET_DEVICE_INTERFACE_REPORT, answered only inside a session (R528). -/
def execGetDeviceInterfaceReport (p : PortId) (i : InstId) (s : State) : Result :=
  if s.spdmServed p.val && (s.port p.val).session == 2 then .next (s.out (.tdisp p.val true (s.instBytes i.val)))
  else .next s

/-- IDE_KM inside a session programs or drops a stream (R391). -/
def execIdeKm (p : PortId) (stream : Fin 9) (establish : Bool) (s : State) : Result :=
  if s.spdmServed p.val && (s.port p.val).session == 2 then
    let h := s.port p.val
    let st := if establish then setIns h.streams stream.val else setDel h.streams stream.val
    let s1 := s.setPort p.val { h with streams := st }
    .next ((s1.setFlag (Reg.HIF_PORT p.val) Fld.HIF_PORT_ide_link (setHas st 0)).put (Reg.HIF_PORT p.val) Fld.HIF_PORT_ide_sel
      (st.filter (1 ≤ ·)).length)
  else .next s

end Sys2Proof.Machine
end

