-- ==== Sys2Proof/Machine/ImageCheck.lean ====
section
/-!
DEFINITION. The Bastas image: its layout (R502-R507), the field checks of R503, the consistency checks of R508 and the
verification order of R509.
-/
namespace Sys2Proof.Machine

/-! ### Layout -/

/-- A directory entry (Table 20-2) with its position. -/
structure DirEnt where
  pos : Nat
  type : Nat
  index : Nat
  flags : Nat
  off : Nat
  size : Nat
deriving DecidableEq, Repr

def imgLength (bs : List Byte) : Nat := numAt bs 0x0C 4
def imgSerial (bs : List Byte) : Nat := numAt bs 0x08 4
def imgKeySlot (bs : List Byte) : Nat := numAt bs 0x10 1
def imgNsect (bs : List Byte) : Nat := numAt bs 0x06 2

/-- The directory. -/
def imgDir (bs : List Byte) : List DirEnt :=
  (List.range (imgNsect bs)).map (fun k =>
    let e := slice bs (64 + 16 * k) 16
    ⟨k, numAt e 0 2, numAt e 2 1, numAt e 3 1, numAt e 4 4, numAt e 8 4⟩)

/-- Bytes of a section. -/
def secBytes (bs : List Byte) (e : DirEnt) : List Byte := slice bs e.off e.size

/-- The first section of a type and index, if any. -/
def imgSection (bs : List Byte) (type index : Nat) : Option (List Byte) :=
  ((imgDir bs).find? (fun e => e.type == type && e.index == index)).map (secBytes bs)

/-- The section of a type that must appear once; no bytes where it does not. -/
def imgModuleSec (bs : List Byte) (type : Nat) : List Byte := (imgSection bs type 0).getD []

/-- The prehash of the signature: SHA-512 of bytes 0 to length - 65 (R509). -/
def imgDigest (bs : List Byte) : BitVec 512 := Config.sha512 (slice bs 0 (imgLength bs - 64))

/-- PARTITION sections by index, ascending. -/
def imgParts (bs : List Byte) : List (Nat × List Byte) :=
  (List.range 32).filterMap (fun p => (imgSection bs 0x10 p).map (fun b => (p, b)))

/-! ### Fields of a section -/

/-- The value fits the register field and is no reserved encoding (R502). -/
def fieldFits (off : Nat) (f : Fld) (v : Nat) : Bool :=
  match regFamily off with
  | some (fam, _) => decide (v < 2 ^ f.width) &&
      fam.fields.all (fun r => r.lo != f.lo || !r.resv v (v * 2 ^ f.lo))
  | none => decide (v < 2 ^ f.width)

/-- Every field of a register word holds no reserved encoding. -/
def wordFits (off w : Nat) : Bool :=
  match regFamily off with
  | some (fam, _) => fam.fields.all (fun r => !r.resv (bits w r.hi r.lo) w)
  | none => true

/-- MODULE (Table 20-4). -/
def moduleFits (b : List Byte) : Bool :=
  let pw := numAt b 0x10 8
  fieldFits Reg.FRM_PERIOD Fld.FRM_PERIOD_period_us (numAt b 0 2) &&
  fieldFits Reg.FRM_CTL Fld.FRM_CTL_overrun_max (numAt b 2 2) &&
  fieldFits Reg.FRM_REF Fld.FRM_REF_mode (numAt b 4 1) &&
  fieldFits Reg.HIF_PORT_CFG Fld.HIF_PORT_CFG_p1_role (numAt b 5 1) &&
  fieldFits Reg.FRM_REF Fld.FRM_REF_offset_ns (numAt b 6 2) &&
  bits (numAt b 8 2) 14 12 == 0 &&
  fieldFits Reg.OPT_CTL Fld.OPT_CTL_hb_us (numAt b 0x0A 2) &&
  fieldFits Reg.OPT_CTL Fld.OPT_CTL_replay_max (numAt b 0x0C 1) &&
  fieldFits Reg.PRT_CTL Fld.PRT_CTL_remote_wait_us (numAt b 0x0E 2) &&
  fieldFits Reg.PWR_CAP Fld.PWR_CAP_amp_lim (bits pw 63 48) && fieldFits Reg.PWR_CAP Fld.PWR_CAP_uplift (bits pw 47 32) &&
  fieldFits Reg.PWR_CAP Fld.PWR_CAP_base_w (bits pw 31 16) && fieldFits Reg.PWR_CAP Fld.PWR_CAP_cap_w (bits pw 15 0) &&
  fieldFits Reg.PWR_THERM Fld.PWR_THERM_throttle_c (numAt b 0x18 1) &&
  fieldFits (Reg.PWR_DROOP 0) Fld.PWR_DROOP_thresh_mv (numAt b 0x19 1) &&
  fieldFits (Reg.ERR_CTL 0) Fld.ERR_CTL_merge_ms (numAt b 0x1A 2) &&
  fieldFits (Reg.ERR_CTL 0) Fld.ERR_CTL_slice_ue (numAt b 0x20 1)

/-- The 64 B of one die in DIE (Table 20-5). -/
def dieFits (b : List Byte) (i : Nat) : Bool :=
  let e := slice b (i * 0x40) 0x40
  let crl := wordFits (Reg.CRL_CTL 0) (numAt e 0x18 8)
  if 8 ≤ i then crl else
  crl && fieldFits (Reg.LLC_PIN_FLOOR 0 0) Fld.LLC_PIN_FLOOR_floor (numAt e 0 2) &&
  fieldFits (Reg.LLC_REPLICA_WAYS 0 0) Fld.LLC_REPLICA_WAYS_ways (numAt e 2 2) &&
  fieldFits (Reg.DIR_CTL 0) Fld.DIR_CTL_hold (numAt e 4 2) && bits (numAt e 6 1) 4 0 == 0 &&
  bits (numAt e 7 1) 3 1 == 0 && fieldFits (Reg.MEM_DIE_CTL 0) Fld.MEM_DIE_CTL_retry_max (bits (numAt e 7 1) 7 4) &&
  fieldFits (Reg.LLC_THRASH 0) Fld.LLC_THRASH_min_acc (numAt e 8 4) &&
  fieldFits (Reg.LLC_THRASH 0) Fld.LLC_THRASH_thresh (numAt e 0x0C 2) &&
  fieldFits (Reg.MEM_SCRUB 0) Fld.MEM_SCRUB_period_h (numAt e 0x0E 1) &&
  fieldFits (Reg.MEM_CE 0) Fld.MEM_CE_fail_lines (bits (numAt e 0x10 8) 63 48) &&
  fieldFits (Reg.MEM_CE 0) Fld.MEM_CE_window_ms (bits (numAt e 0x10 8) 47 32) &&
  fieldFits (Reg.MEM_CE 0) Fld.MEM_CE_thresh (bits (numAt e 0x10 8) 31 0)

/-- TOPOLOGY row record `j` (R505). -/
def rowRec (b : List Byte) (j : Nat) : Nat := numAt b (2 * j) 2
/-- Retirement entry `n`. -/
def retireRec (b : List Byte) (n : Nat) : Nat := numAt b (0x230 + 2 * n) 2
/-- The gated halves, bit 2d + half. -/
def gatedRec (b : List Byte) : Nat := numAt b 0x200 2

def rowFits (r : Nat) : Bool :=
  bits r 15 9 == 0 && bits r 3 0 < 10 && (bits r 7 4 < 10 || bits r 7 4 == 15) && bits r 7 4 != bits r 3 0

def topologyFits (b : List Byte) : Bool :=
  (List.range 256).all (fun j => rowFits (rowRec b j)) &&
  (List.range 16).all (fun h => fieldFits (Reg.PWR_HALF 0 0) Fld.PWR_HALF_ceil_mhz (numAt b (0x210 + 2 * h) 2)) &&
  (List.range 512).all (fun n => wordFits (Reg.LLC_RETIRE 0 0) (retireRec b n))

def routingFits (b : List Byte) : Bool :=
  (List.range 32).all (fun e => wordFits (Reg.OPT_ROUTE 0) (numAt b (8 * e) 8)) &&
  (List.range 16).all (fun e => wordFits (Reg.OPT_EXPORT 0) (numAt b (0x100 + 8 * e) 8)) &&
  (List.range 64).all (fun e => wordFits (Reg.OPT_WIN 0) (numAt b (0x180 + 16 * e) 8) &&
    wordFits (Reg.OPT_WIN_BUS 0) (numAt b (0x188 + 16 * e) 8)) &&
  (List.range 32).all (fun e => wordFits (Reg.HIF_PEER 0 0) (numAt b (0x580 + 8 * e) 8)) &&
  (List.range 8).all (fun e => wordFits (Reg.HIF_PEER_WIN 0) (numAt b (0x680 + 8 * e) 8))

def policyFits (b : List Byte) : Bool :=
  numAt b 2 2 < 2 ^ 15

/-! ### PARTITION sections (Table 20-7) -/

def partNreg (b : List Byte) : Nat := numAt b 0x80 2
def partNpin (b : List Byte) : Nat := numAt b 0x82 2
def partRows (b : List Byte) : Nat := numAt b 0x20 32
def partLcRows (b : List Byte) : Nat := numAt b 0x40 32
def partShare (b : List Byte) : Nat := numAt b 2 2
def partFg (b : List Byte) : Nat := numAt b 4 2
def partLevels (b : List Byte) : Nat := numAt b 0 1
def partTolls (b : List Byte) : Nat := numAt b 8 4
def partReach (b : List Byte) : Nat := numAt b 6 2
def partMask (b : List Byte) (k : Nat) : Nat := numAt b (0x60 + 2 * k) 2
def partSave (b : List Byte) (d : Nat) : Nat := numAt b (0x70 + 2 * d) 2

/-- Region records. -/
def partRegions (b : List Byte) : List Nat := (List.range (partNreg b)).map (fun k => numAt b (0x90 + 8 * k) 8)

/-- Pin records: first byte and length. -/
def partPins (b : List Byte) : List (Nat × Nat) :=
  (List.range (partNpin b)).map (fun k =>
    let o := 0x90 + 8 * partNreg b + 16 * k
    (numAt b o 8, numAt b (o + 8) 8))

def regFirst (r : Nat) : Nat := bits r 11 0
def regCount (r : Nat) : Nat := bits r 23 12
def regKind (r : Nat) : Nat := bits r 25 24
def regLocal (r : Nat) : Bool := bit r 26
def regDie (r : Nat) : Nat := bits r 29 27
def regMirror (r : Nat) : Bool := bit r 30

/-- The GiBs of a record. -/
def regGibs (r : Nat) : List Nat := (List.range (regCount r)).map (regFirst r + ·)

/-- Ones of a 256-bit row mask. -/
def rowList (m : Nat) : List Nat := (List.range 256).filter (bit m)

def partitionFits (b : List Byte) : Bool :=
  2 ≤ partLevels b && partLevels b ≤ 8 && numAt b 1 1 < 2 && partShare b ≤ 256 && 450 ≤ partFg b && partFg b ≤ 2100 &&
  partReach b < 2 ^ 15 && zeroAt b 0x6E 2 && (List.range 8).all (fun d => bits (partSave b d) 14 12 == 0) &&
  partNreg b ≤ 256 && partNpin b ≤ 64 &&
  (partRegions b).all (fun r => 1 ≤ regCount r && regKind r != 3 && bits r 63 31 == 0) &&
  (partPins b).all (fun x => x.1 % 128 == 0 && x.2 % 128 == 0 && x.1 + x.2 ≤ 2 ^ 52)

/-! ### R503 -/

/-- The least size of a section of a known type; none for an unknown type. -/
def secLayout (b : List Byte) (type : Nat) : Option Nat :=
  if type = 1 then some 64 else if type = 2 then some 1584 else if type = 3 then some 640 else if type = 4 then some 1728
  else if type = 5 then some 16 else if type = 0x10 then some (0x90 + 8 * partNreg b + 16 * partNpin b) else none

/-- One directory entry and its section pass R503 by themselves. -/
def secFits (bs : List Byte) (e : DirEnt) : Bool :=
  let b := secBytes bs e
  let place := e.off % 16 == 0 && 64 + 16 * imgNsect bs ≤ e.off && e.off + e.size ≤ imgLength bs - 64
  let shape := e.flags < 2 && zeroAt (slice bs (64 + 16 * e.pos) 16) 0x0C 4 &&
    (if e.type = 0x10 then e.index < 32 else e.index == 0)
  match secLayout b e.type with
  | none => place && shape && e.flags == 0
  | some n => place && shape && n ≤ e.size &&
      (if e.type = 1 then moduleFits b else if e.type = 2 then topologyFits b
       else if e.type = 3 then (List.range 10).all (dieFits b) else if e.type = 4 then routingFits b
       else if e.type = 5 then policyFits b else partitionFits b)

/-- The section appears with another of its type and index, or overlaps another. -/
def secClash (dir : List DirEnt) (e : DirEnt) : Bool :=
  dir.any (fun x => x.pos != e.pos && ((x.type == e.type && x.index == e.index && (e.type ≤ 5 || e.type == 0x10)) ||
    (x.off < e.off + e.size && e.off < x.off + x.size)))

/-- The header's own fields (Table 20-1). -/
def headFits (bs : List Byte) : Bool :=
  1 ≤ imgNsect bs && imgNsect bs ≤ 64 && imgKeySlot bs < 16 && zeroAt bs 0x13 1 && zeroAt bs 0x20 32

/-- R503 and the section fields: none passes, else the directory index concerned (0xFF none). -/
def formatBad (bs : List Byte) : Option Nat :=
  if !headFits bs then some 0xFF else
  match (imgDir bs).find? (fun e => !secFits bs e || secClash (imgDir bs) e) with
  | some e => some e.pos
  | none => if [1, 2, 3, 4, 5].all (fun t => (imgDir bs).any (fun e => e.type == t)) then none else some 0xFF

/-! ### Consistency (R508) -/

/-- What the checks of Table 20-8 look at: the image's module sections, or for a RELOAD the module's, and every partition. -/
structure ImgView where
  retire : Nat → Nat
  gated : Nat
  rowrec : Nat → Nat
  parts : List (Nat × List Byte)
  period : Nat
  cap : Nat
  base : Nat
  idValid : Bool
  id : Nat
  top : Nat                       -- usable GiBs
  fmax : Nat → Nat                -- revised maximum by core

/-- The half of row `j` (Table 10-3), as a bit of the gated mask. -/
def rowHalf (j : Nat) : Nat := j / 16

/-- In-service slots of a row record (R505). -/
def rowSlots (r : Nat) : List Nat :=
  if bit r 8 then []
  else if bits r 7 4 = 15 then (List.range 10).filter (· != bits r 3 0)
  else (List.range 10).filter (· != bits r 7 4)

/-- GiB records of every partition: partition, GiB, record. -/
def ImgView.gibs (v : ImgView) : List (Nat × Nat × Nat) :=
  v.parts.flatMap (fun x => (partRegions x.2).flatMap (fun r => (regGibs r).map (fun g => (x.1, g, r))))

/-- 1 SLICE_LOAD. -/
def ImgView.sliceLoad (v : ImgView) : Bool :=
  let tgt := (List.range 512).map (fun n => v.retire n % 512)
  (List.range 512).any (fun g => 4 < (tgt.filter (· == g)).length) ||
    tgt.any (fun g => bit (v.retire g) 15 || bit v.gated (g / 32))

/-- 2 HALF_GATED. -/
def ImgView.halfGated (v : ImgView) : Bool :=
  v.parts.any (fun x => (rowList (partRows x.2)).any (fun j => bit v.gated (rowHalf j))) ||
    (List.range 512).any (fun n => bit v.gated (n / 32) && v.retire n % 512 == n)

/-- 3 ROW_OWNER, for partition `p`. -/
def ImgView.rowOwner (v : ImgView) (p : Nat) (b : List Byte) : Bool :=
  v.parts.any (fun x => x.1 != p && partRows x.2 &&& partRows b != 0) ||
    (rowList (partRows b)).any (fun j => bit (v.rowrec j) 8 || bit v.gated (rowHalf j)) ||
    partLcRows b &&& partRows b != partLcRows b || (0 < partShare b && partLcRows b == 0)

/-- 4 FG. -/
def ImgView.fgBad (v : ImgView) (b : List Byte) : Bool :=
  (rowList (partLcRows b)).any (fun j => (rowSlots (v.rowrec j)).any (fun k => v.fmax (j * 16 + k) < partFg b))

/-- 5 GIB_OWNER, for partition `p`. -/
def ImgView.gibOwner (v : ImgView) (p : Nat) : Bool :=
  v.gibs.any (fun x => x.1 == p && (v.top ≤ x.2.1 || 1 < (v.gibs.filter (fun y => y.2.1 == x.2.1)).length))

/-- Bytes of a save pool on one die (R310). -/
def poolBytes (levels nrows : Nat) : Nat := levels * nrows * 10 * 1118208

/-- Rows of a section on die `d`. -/
def partDieRows (b : List Byte) (d : Nat) : Nat := ((rowList (partRows b)).filter (fun j => j / 32 == d)).length

/-- The GiBs that hold the section's save pool on die `d`, from base_gib upward. -/
def poolGibs (b : List Byte) (d : Nat) : List Nat :=
  (List.range (ceilDiv (poolBytes (partLevels b) (partDieRows b d)) (2 ^ 30))).map (bits (partSave b d) 11 0 + ·)

/-- A die-local save-pool GiB in the section's pool of one die whose record names another die (R300; log 99). -/
def ImgView.poolElsewhere (v : ImgView) (b : List Byte) : Bool :=
  (List.range 8).any (fun d => bit (partSave b d) 15 && (poolGibs b d).any (fun g =>
    v.gibs.any (fun x => x.2.1 == g && regKind x.2.2 == 2 && regLocal x.2.2 && regDie x.2.2 != d)))

/-- 6 DIE_LOCAL: the group rules of R329 and R331, and R300, for partition `p`. -/
def ImgView.dieLocal (v : ImgView) (p : Nat) (b : List Byte) : Bool :=
  v.poolElsewhere b ||
  v.gibs.any (fun x => x.1 == p &&
    (let grp := v.gibs.filter (fun y => y.2.1 / 8 == x.2.1 / 8)
     (grp.any (fun y => regLocal y.2.2) && (grp.any (fun y => !regLocal y.2.2) || v.top < x.2.1 / 8 * 8 + 8 ||
       grp.any (fun y => y.2.1 != x.2.1 && regDie y.2.2 == regDie x.2.2)))))

/-- 7 MIRROR, for partition `p` (R343). -/
def ImgView.mirrorBad (v : ImgView) (p : Nat) (b : List Byte) : Bool :=
  (partRegions b).any (fun r => regMirror r && (regFirst r % 2 != 0 || regCount r % 2 != 0)) ||
    v.gibs.any (fun x => x.1 == p && regMirror x.2.2 &&
      !v.gibs.any (fun y => y.1 == p && y.2.1 / 2 == x.2.1 / 2 && y.2.1 != x.2.1 && regMirror y.2.2))

/-- 8 SAVE_POOL, for partition `p`. -/
def ImgView.savePool (v : ImgView) (p : Nat) (b : List Byte) : Bool :=
  (List.range 8).any (fun d =>
    0 < partDieRows b d && (!bit (partSave b d) 15 ||
      !(poolGibs b d).all (fun g =>
        v.gibs.any (fun x => x.1 == p && x.2.1 == g && regKind x.2.2 == 2 && regLocal x.2.2 && regDie x.2.2 == d))))

/-- 9 TOLLS (R443), in thousandths of mJ. -/
def ImgView.tollsBad (v : ImgView) : Bool :=
  v.cap * v.period < v.base * v.period + 1000 * (v.parts.foldl (fun a x => a + partTolls x.2) 0)

/-- 10 PIN_RANGE, for partition `p`. -/
def ImgView.pinRange (v : ImgView) (p : Nat) (b : List Byte) : Bool :=
  (partPins b).any (fun x =>
    let g0 := x.1 / 2 ^ 30
    let g1 := (x.1 + x.2 - 1) / 2 ^ 30
    0 < x.2 && !(List.range (g1 - g0 + 1)).all (fun k => v.gibs.any (fun y => y.1 == p && y.2.1 == g0 + k &&
      regKind y.2.2 ≤ 1 && !(regMirror y.2.2 && y.2.1 % 2 == 1))))

/-- The first partition, ascending, for which a check fails. -/
def ImgView.firstPart (v : ImgView) (f : Nat → List Byte → Bool) : Option Nat :=
  (v.parts.find? (fun x => f x.1 x.2)).map (·.1)

/-- The first failing check of Table 20-8 from code `lo` on, and the partition concerned. -/
def ImgView.check (v : ImgView) (lo : Nat) : Option (Nat × Nat) :=
  let part (code : Nat) (f : Nat → List Byte → Bool) (next : Option (Nat × Nat)) : Option (Nat × Nat) :=
    match v.firstPart f with
    | some p => some (code, p)
    | none => next
  if lo ≤ 1 && v.sliceLoad then some (1, 0)
  else if lo ≤ 2 && v.halfGated then some (2, 0)
  else part 3 v.rowOwner (part 4 (fun _ b => v.fgBad b) (part 5 (fun p _ => v.gibOwner p) (part 6 v.dieLocal
    (part 7 v.mirrorBad (part 8 v.savePool
      (if v.tollsBad then some (9, 0)
       else part 10 v.pinRange (if v.idValid && v.id == 0xFFF then some (11, 0) else none)))))))

/-- Usable GiBs: 3,072 less 3 for each channel mapped out (R331). -/
def State.topGib (s : State) : Nat := 3072 - 3 * s.stk.mapped.length

/-- The image as the checks see it. -/
def State.viewOf (s : State) (bs : List Byte) : ImgView :=
  let t := imgModuleSec bs 2
  let m := imgModuleSec bs 1
  { retire := retireRec t, gated := gatedRec t, rowrec := rowRec t, parts := imgParts bs, period := numAt m 0 2,
    cap := bits (numAt m 0x10 8) 15 0, base := bits (numAt m 0x10 8) 31 16, idValid := bit (numAt m 8 2) 15,
    id := bits (numAt m 8 2) 11 0, top := s.topGib, fmax := fun c => s.get (Reg.CORE_FMAX c) Fld.CORE_FMAX_revised }

/-- The module with partition `p`'s section replaced (R513). -/
def State.viewWith (s : State) (p : Nat) (sec : Option (List Byte)) : ImgView :=
  let others := (s.img.parts.map (fun x => (x.1, x.2.bytes))).filter (fun x => x.1 != p)
  let parts := match sec with
    | some b => others.filter (fun x => x.1 < p) ++ (p, b) :: others.filter (fun x => p < x.1)
    | none => others
  { retire := fun n => (s.reg (Reg.LLC_RETIRE 0 n)).toNat, gated := s.img.gated.toNat,
    rowrec := fun j => (mapGet (fun _ => 0) s.img.rows j).toNat, parts := parts,
    period := s.get Reg.FRM_PERIOD Fld.FRM_PERIOD_period_us, cap := s.get Reg.PWR_CAP Fld.PWR_CAP_cap_w,
    base := s.get Reg.PWR_CAP Fld.PWR_CAP_base_w, idValid := false, id := 0, top := s.topGib,
    fmax := fun c => s.get (Reg.CORE_FMAX c) Fld.CORE_FMAX_revised }

/-! ### Verification (R509) -/

/-- The end of a verification: result (Table 20-12), check code, partition, directory index. -/
structure ImgResult where
  result : Nat
  check : Nat
  part : Nat
  sect : Nat
deriving DecidableEq, Repr

def ImgResult.of (r : Nat) : ImgResult := ⟨r, 0, 0, 0xFF⟩

/-- Steps 1 to 7 of Table 20-9; `floor` is the least serial accepted. -/
def State.verifyForm (s : State) (bs : List Byte) (floor : Nat) : ImgResult :=
  let n := imgLength bs
  let rev := s.get Reg.BOOT_ID Fld.BOOT_ID_revision
  if numAt bs 0 4 != 0x53545342 || n % 16 != 0 || n < 4096 || 16777216 < n || bs.length < n then ImgResult.of 2
  else if bit s.flash.revoked.toNat (imgKeySlot bs) then ImgResult.of 4
  else if !(match s.flash.key (imgKeySlot bs) with
      | some k => Config.verify k (slice bs 0 (n - 64)) (BitVec.ofNat 512 (numAt bs (n - 64) 64))
      | none => false) then ImgResult.of 3
  else if imgSerial bs < floor then ImgResult.of 5
  else if numAt bs 0x11 1 != bits rev 7 0 || numAt bs 0x12 1 != bits rev 23 16 then ImgResult.of 6
  else if !(1 ≤ bits (numAt bs 4 1) 7 4 && bits (numAt bs 4 1) 3 0 ≤ 1) then ImgResult.of 7
  else match formatBad bs with
    | some e => ⟨2, 0, 0, e⟩
    | none => ImgResult.of 0

/-- IMAGE_VERIFY of a whole image (R509). -/
def State.verifyImage (s : State) (bs : List Byte) : ImgResult :=
  let r := s.verifyForm bs s.flash.floor.toNat
  if r.result != 0 then r else
  match (s.viewOf bs).check 1 with
  | some (c, p) => ⟨8, c, p, 0xFF⟩
  | none => r

/-- IMAGE_VERIFY for a RELOAD of partition `p` (R513). -/
def State.verifyReload (s : State) (bs : List Byte) (p : Nat) : ImgResult :=
  let r := s.verifyForm bs (max s.flash.floor.toNat (s.get Reg.BOOT_IMG_SERIAL Fld.BOOT_IMG_SERIAL_applied))
  if r.result != 0 then r else
  match (s.viewWith p (imgSection bs 0x10 p)).check 3 with
  | some (c, q) => ⟨8, c, q, 0xFF⟩
  | none => r

end Sys2Proof.Machine
end

