-- ==== Sys2Proof/Machine/OpticalOps.lean ====
section
/-!
DEFINITION. Optical ports (chapter 15) below the requests they carry: flits and replay, training, heartbeats, routing entries and
their live ports, the choice of a port, and what a message that cannot be forwarded meets.
-/
namespace Sys2Proof.Machine

/-! ### Ports -/

def State.optEnd (s : State) (o : Nat) : OptEnd := mapGet (fun _ => OptEnd.reset) s.opt.ends o

def State.setOptEnd (s : State) (o : Nat) (e : OptEnd) : State :=
  { s with opt := { s.opt with ends := mapSet (fun _ => OptEnd.reset) s.opt.ends o e } }

def State.optState (s : State) (o : Nat) : Nat := s.get (Reg.OPT_PORT o) Fld.OPT_PORT_state

/-- The port is UP. -/
def State.optUp (s : State) (o : Nat) : Bool := s.optState o == 2

/-- OPT_STATE is raised on every change of a port's state (Table 16-1); BOOT_READY0.opt follows UP (Table 19-3). -/
def setOptState (s : State) (o st cause : Nat) : State :=
  let old := s.optState o
  let s1 := (s.put (Reg.OPT_PORT o) Fld.OPT_PORT_state st).put (Reg.OPT_PORT o) Fld.OPT_PORT_cause cause
  let r := s1.get Reg.BOOT_READY0 Fld.BOOT_READY0_opt
  let s2 := s1.put Reg.BOOT_READY0 Fld.BOOT_READY0_opt (if st = 2 then r ||| 2 ^ o else if bit r o then r - 2 ^ o else r)
  if old = st then s2 else raiseEdge s2 (optSource o).1 (optSource o).2

/-- This module's ID where OPT_ID.valid is 1, else the unassigned 0xFFF. -/
def State.moduleId (s : State) : Nat :=
  if s.flag Reg.OPT_ID Fld.OPT_ID_valid then s.get Reg.OPT_ID Fld.OPT_ID_module_id else 0xFFF

/-! ### Flits (R402-R405) -/

def optKind (f : BitVec 2048) : Nat := bits f.toNat 95 92
def optVc (f : BitVec 2048) : Nat := bits f.toNat 91 89
def optReplayed (f : BitVec 2048) : Bool := bit f.toNat 88
def optSeq (f : BitVec 2048) : Nat := bits f.toNat 87 72
def optAck (f : BitVec 2048) : Nat := bits f.toNat 71 56
def optCreditVc (f : BitVec 2048) : Nat := bits f.toNat 55 53
def optCredits (f : BitVec 2048) : Nat := bits f.toNat 52 40

/-- BODY flits are numbered and kept for replay. -/
def optNumbered (f : BitVec 2048) : Bool := optKind f == 1

/-- The virtual channel of a message that has crossed `hops` links: 2 * hops + class, requests 0 and responses 1 (R403). -/
def optChannel (op : BitVec 8) (hops : Nat) : Nat := 2 * hops + (if op.toNat < 0x10 then 0 else 1)

/-- The 32 B header of a message (Table 15-2), as a number. -/
def optHeader (op : BitVec 8) (h : RemHdr) (status : Nat) : Nat :=
  op.toNat + h.arg.toNat * 2 ^ 8 + h.lines.toNat * 2 ^ 16 + b2n h.poison * 2 ^ 23 + h.hops.toNat * 2 ^ 24 + h.dst.toNat * 2 ^ 32 +
    h.src.toNat * 2 ^ 48 + h.mpa.toNat * 2 ^ 64 +
    (h.tag.toNat + h.core.toNat * 2 ^ 8 + h.gen.toNat * 2 ^ 20 + h.epoch.toNat * 2 ^ 28) * 2 ^ 128 + status * 2 ^ 176 + h.value.toNat * 2 ^ 192

/-- The units of a message (Tables 15-2 and 15-3): its header, the byte mask of a partial write, its lines; of a compare-and-swap one unit with
the compare value. -/
def optUnits (op : BitVec 8) (h : RemHdr) (mask : Option (BitVec 128)) (d : List Line) (status : Nat) : List (BitVec 128) :=
  let x := optHeader op h status
  [BitVec.ofNat 128 x, BitVec.ofNat 128 (x / 2 ^ 128)] ++ mask.toList ++
    (if op = 0x04 then d.map (fun l => (l.setWidth 64).setWidth 128)
     else d.flatMap (fun l => (List.range 8).map (fun k => l.extractLsb' (128 * k) 128)))

/-- A BODY flit with fifteen units of channel `vc`; unused units are zero, so that a PAD header ends the body. -/
def optBody (vc seq ack cvc credits : Nat) (us : List (BitVec 128)) : BitVec 2048 :=
  BitVec.ofNat 2048 (withCrc 256 (2 ^ 92 + vc * 2 ^ 89 + seq * 2 ^ 72 + ack * 2 ^ 56 + cvc * 2 ^ 53 + credits * 2 ^ 40 +
    us.zipIdx.foldl (fun acc u => acc + u.1.toNat * 2 ^ (96 + 128 * u.2)) 0))

/-- A flit of the replay buffer as it is sent again: the replay bit set, the present ack, no credits (R405). -/
def optAgain (f : BitVec 2048) (ack : Nat) : BitVec 2048 :=
  BitVec.ofNat 2048 (withCrc 256 (bits f.toNat 95 89 * 2 ^ 89 + 2 ^ 88 + optSeq f * 2 ^ 72 + ack * 2 ^ 56 + f.toNat / 2 ^ 96 * 2 ^ 96))

/-- The credits that the next flit returns: all that the lowest channel is owed, up to what the field holds. -/
def OptEnd.returns (e : OptEnd) : (Nat × Nat) × OptEnd :=
  match e.owed with
  | (vc, n) :: _ => let k := min n 8191; ((vc, k), { e with owed := mapSet (fun _ => 0) e.owed vc (n - k) })
  | [] => ((0, 0), e)

/-- One flit of channel `vc` leaves where the channel has units and credits for it and the replay buffer has room (R403, R405). -/
def optSend (s : State) (o vc : Nat) : State :=
  let e := s.optEnd o
  let us := mapGet (fun _ => []) e.queue vc
  let c := mapGet (fun _ => 0) e.credits vc
  if us.isEmpty || c < 15 || 4096 ≤ e.buf.length then s
  else
    let r := e.returns
    let f := optBody vc e.txNext e.rxExp r.1.1 r.1.2 (us.take 15)
    (s.setOptEnd o { r.2 with
      txNext := (e.txNext + 1) % 65536, buf := e.buf ++ [(f, 1)], sinceAck := 0
      queue := mapSet (fun _ => []) e.queue vc (us.drop 15), credits := mapSet (fun _ => 0) e.credits vc (c - 15) }).out (.optFlit o f)

/-- What waits at the port leaves as far as it may, the lowest channel first. -/
def optFlow (s : State) (o : Nat) : State :=
  forEach ((s.optEnd o).queue.flatMap (fun q => List.replicate ((q.2.length + 14) / 15) q.1)) s (fun s vc => optSend s o vc)

/-- An acknowledgement, or a NAK, leaves with the credits of one channel. -/
def optAckOut (s : State) (o : Nat) (nak : Bool) : State :=
  let e := s.optEnd o
  (s.setOptEnd o { e.returns.2 with sinceAck := 0 }).out (.optCtrl o nak e.rxExp e.returns.1.1 e.returns.1.2)

/-- The credits that a flit returns. -/
def OptEnd.credit (e : OptEnd) (f : BitVec 2048) : OptEnd :=
  { e with credits := mapSet (fun _ => 0) e.credits (optCreditVc f) (mapGet (fun _ => 0) e.credits (optCreditVc f) + optCredits f) }

/-- The receiver takes or rejects a flit (R405); the units of an accepted one are owed to their channel as credits (R403). -/
def optFlit (s : State) (o : Nat) (got : BitVec 2048) (fecOk : Bool) (fixed : Nat) : State :=
  if !s.optUp o then s else
  let r := Reg.OPT_PORT_ERR o
  let e := s.optEnd o
  let s1 := s.addSat r Fld.OPT_PORT_ERR_fec_fixed fixed
  if !fecOk || !crcGood 256 got.toNat || (optNumbered got && optSeq got != e.rxExp) then
    let s2 := if fecOk then s1 else s1.incSat r Fld.OPT_PORT_ERR_fec_bad
    optAckOut (s2.incSat r Fld.OPT_PORT_ERR_naks) o true
  else
    let e1 := ({ e with buf := ackTrim optSeq 65536 (optAck got) e.buf } : OptEnd).credit got
    let s2 := if optNumbered got then
        let s3 := s1.setOptEnd o { e1 with
          rxExp := (e.rxExp + 1) % 65536, sinceAck := e.sinceAck + 1
          owed := mapSet (fun _ => 0) e1.owed (optVc got) (mapGet (fun _ => 0) e1.owed (optVc got) + 15) }
        if e.sinceAck + 1 < 64 then s3 else optAckOut s3 o false
      else s1.setOptEnd o e1
    optFlow s2 o

/-- The acknowledgement interval expires (R405). -/
def optAckDue (s : State) (o : Nat) : State := if s.optUp o then optAckOut s o false else s

/-- A NAK for `seq` (R405): the flits to send again, or none where replay is exhausted. -/
def optNakFlits (s : State) (o seq : Nat) : Option (List (BitVec 2048 × Nat)) :=
  let buf := ackTrim optSeq 65536 seq (s.optEnd o).buf
  match buf with
  | (f, n) :: _ => if s.get Reg.OPT_CTL Fld.OPT_CTL_replay_max < n && optSeq f == seq then none else some buf
  | [] => some []

/-- Send the flits of the replay buffer again. -/
def optReplayFlits (s : State) (o : Nat) (buf : List (BitVec 2048 × Nat)) : State :=
  let e := s.optEnd o
  optFlow (forEach buf (s.setOptEnd o { e with buf := buf.map (fun x => (x.1, x.2 + 1)) })
    (fun s x => s.out (.optFlit o (optAgain x.1 e.rxExp)))) o

/-- A message is given to port `o`: its units join their virtual channel. -/
def optQueue (s : State) (o : Nat) (op : BitVec 8) (h : RemHdr) (mask : Option (BitVec 128)) (d : List Line) (status : Nat) : State :=
  let e := s.optEnd o
  let vc := optChannel op h.hops.toNat
  optFlow ((s.setOptEnd o { e with
    queue := mapSet (fun _ => []) e.queue vc (mapGet (fun _ => []) e.queue vc ++ optUnits op h mask d status) }).out (.optMsg o op h mask d status)) o

/-! ### Training (R401) -/

/-- The receive buffers of a port are free: each channel's credits go to the partner (R403). -/
def optRoom (s : State) (o : Nat) : State :=
  forEach (List.range 8) s (fun s vc => s.out (.optCtrl o false 0 vc (Config.optRoom vc % 8192)))

/-- A port trains, and ends UP, or HELD with its cause. `lanes` are the lanes that train. -/
def optTrain (s : State) (o : Nat) (lanes : BitVec 8) (peer : Version) (id : BitVec 12) (port : BitVec 4) : State :=
  if !s.flag Reg.OPT_ID Fld.OPT_ID_valid || s.optUp o then s else
  let full := lanes == 0xFF
  let low := lanes &&& 0x0F == 0x0F
  let high := lanes &&& 0xF0 == 0xF0
  let s0 := setOptState s o 1 0
  if !full && !low && !high then setOptState s0 o 3 3
  else
    let s1 := ((s0.setFlag (Reg.OPT_PORT o) Fld.OPT_PORT_half (!full)).setOptEnd o
      { OptEnd.reset with lanes := if full then 0xFF else if low then 0x0F else 0xF0 }).out (.version o ⟨1, 1, 0⟩)
    if !versionFits peer then setOptState s1 o 3 1
    else
      let s2 := ((s1.put (Reg.OPT_PORT o) Fld.OPT_PORT_ver 0x10).put (Reg.OPT_PORT o) Fld.OPT_PORT_peer_id id.toNat).put
        (Reg.OPT_PORT o) Fld.OPT_PORT_peer_port port.toNat
      let s3 := s2.out (.heartbeat o (BitVec.ofNat 12 s.moduleId))
      if id.toNat = s.moduleId then setOptState s3 o 3 2 else optRoom (setOptState s3 o 2 0) o

/-- A HEARTBEAT record is sent on an UP port (R406). -/
def heartbeatOut (s : State) (o : Nat) : State :=
  if s.optUp o then s.out (.heartbeat o (BitVec.ofNat 12 s.moduleId)) else s

/-- A HEARTBEAT record is accepted (R406): it names the partner. -/
def heartbeatIn (s : State) (o : Nat) (id : BitVec 12) (port : BitVec 4) : State :=
  if s.optUp o then
    (s.put (Reg.OPT_PORT o) Fld.OPT_PORT_peer_id id.toNat).put (Reg.OPT_PORT o) Fld.OPT_PORT_peer_port port.toNat
  else s

/-! ### Routing (R407, R408) -/

/-- Port `q` of a routing entry. -/
def routePort (w q : Nat) : Nat := bits w (4 * q + 3) (4 * q)

/-- The live ports of an entry, ascending by port number. -/
def State.livePorts (s : State) (e : Nat) : List Nat :=
  let w := (s.reg (Reg.OPT_ROUTE e)).toNat
  let ps := ((List.range 4).filter (fun q => bit w (56 + q))).map (routePort w)
  (List.range 16).filter (fun o => ps.contains o)

/-- The entry that names module `m`. -/
def State.routeEntry (s : State) (m : Nat) : Option Nat :=
  (List.range 32).find? (fun e => s.flag (Reg.OPT_ROUTE e) Fld.OPT_ROUTE_valid && s.get (Reg.OPT_ROUTE e) Fld.OPT_ROUTE_dest == m)

/-- The live ports toward module `m`. -/
def State.portsTo (s : State) (m : Nat) : List Nat :=
  match s.routeEntry m with
  | some e => s.livePorts e
  | none => []

/-- h of R408. -/
def routeHash (mpa core src : Nat) : Nat :=
  bits mpa 12 7 ^^^ bits mpa 18 13 ^^^ bits core 5 0 ^^^ bits core 11 6 ^^^ bits src 5 0 ^^^ bits src 11 6

/-- The port by which a message to module `m` leaves (R408). -/
def State.choosePort (s : State) (m mpa core src : Nat) : Option Nat :=
  let ps := s.portsTo m
  if ps.isEmpty then none else ps[routeHash mpa core src % ps.length]?

/-- A message leaves toward `m`; where no port serves, nothing leaves and the Bool says so. -/
def optLeave (s : State) (m : Nat) (op : BitVec 8) (h : RemHdr) (mask : Option (BitVec 128)) (d : List Line) (status : Nat) :
    State × Bool :=
  match s.choosePort m h.mpa.toNat h.core.toNat h.src.toNat with
  | some o => (optQueue s o op h mask d status, true)
  | none => (s, false)

/-- The module that holds a request it cannot pass on answers DONE, NO_ROUTE (R407); a response is dropped. -/
def noRoute (s : State) (op : BitVec 8) (h : RemHdr) : State :=
  if op.toNat < 0x10 then
    let back := { h with dst := h.src, src := BitVec.ofNat 12 s.moduleId, hops := 0, arg := 0, lines := 0, value := 0, poison := false }
    (optLeave s h.src.toNat 0x12 back none [] 2).1.addWrap Reg.OPT_CNT_NOROUTE Fld.OPT_CNT_NOROUTE_count 1
  else s

/-- A message for another module is forwarded with hops increased by one, unless it would need a fifth link (R407). -/
def forward (s : State) (op : BitVec 8) (h : RemHdr) (mask : Option (BitVec 128)) (d : List Line) (status : Nat) : State :=
  if h.hops.toNat < 3 then
    let r := optLeave s h.dst.toNat op { h with hops := h.hops + 1 } mask d status
    if r.2 then r.1 else noRoute s op h
  else noRoute s op h

/-! ### Partner loss (R415-R417) -/

/-- Remove port `o` from the live set of every entry (R416). -/
def routeLose (s : State) (o : Nat) : State :=
  forEach (List.range 32) s (fun s e =>
    let w := (s.reg (Reg.OPT_ROUTE e)).toNat
    let live := s.get (Reg.OPT_ROUTE e) Fld.OPT_ROUTE_live
    s.put (Reg.OPT_ROUTE e) Fld.OPT_ROUTE_live (ofBits 4 (fun q => bit live q && routePort w q != o)))

/-- A LOSS record is sent on every UP port but `skip` (R417). -/
def sendLoss (s : State) (n : LossNotice) (skip : Option Nat) : State :=
  forEach ((List.range 16).filter (fun o => s.optUp o && some o != skip)) s (fun s o => s.out (.loss o n))

/-- Processing a notice: the epoch advances and the notice counts; what it ends follows (R417). -/
def noticeEpoch (s : State) (n : LossNotice) : State :=
  let s1 := (s.addWrap Reg.OPT_DOMAIN Fld.OPT_DOMAIN_epoch 1).addWrap Reg.OPT_DOMAIN Fld.OPT_DOMAIN_notices 1
  { s1 with opt := { s1.opt with seen := s1.opt.seen ++ [(n.module.toNat, n.count.toNat)] } }

/-- The notice has been processed before. -/
def State.noticeSeen (s : State) (n : LossNotice) : Bool := s.opt.seen.contains (n.module.toNat, n.count.toNat)

/-- The port enters LOST with its cause, its replay buffer is discarded, its loss is recorded and its routes are withdrawn; the
result is the notice it sends (R415-R417). -/
def portLost (s : State) (o cause : Nat) : State × LossNotice :=
  let s1 := setOptState ((s.setOptEnd o OptEnd.reset)) o 4 cause
  let s2 := routeLose (errRecord s1 (8 + o / 8) (ErrRec.plain 2 0x014 7 o 0)) o
  let s3 := s2.addWrap Reg.OPT_DOMAIN Fld.OPT_DOMAIN_loss_count 1
  (s3, { module := BitVec.ofNat 12 s.moduleId, port := BitVec.ofNat 4 o,
         partner := BitVec.ofNat 12 (s.get (Reg.OPT_PORT o) Fld.OPT_PORT_peer_id),
         count := BitVec.ofNat 16 (s3.get Reg.OPT_DOMAIN Fld.OPT_DOMAIN_loss_count) })

/-! ### OPT_EXPORT (R411) -/

/-- The region-map entry of GiB `g` is valid with kind `k` allowed for the access: 0 normal, 1 shared read-only for reads. -/
def State.gibServes (s : State) (g : Nat) (write : Bool) : Bool :=
  g < s.topGib && s.gmap g Fld.PRT_GMAP_valid == 1 &&
    (s.gmap g Fld.PRT_GMAP_kind == 0 || (s.gmap g Fld.PRT_GMAP_kind == 1 && !write)) &&
    !(s.gmap g Fld.PRT_GMAP_mirrored == 1 && g % 2 == 1)

/-- Entry `n` decides a request from module `src` over bytes `a` to `a + len - 1` (R411). -/
def State.exportCovers (s : State) (n src a len : Nat) : Bool :=
  let r := Reg.OPT_EXPORT n
  let m := s.get r Fld.OPT_EXPORT_src_mask
  let base := s.get r Fld.OPT_EXPORT_base
  s.flag r Fld.OPT_EXPORT_valid && src &&& m == s.get r Fld.OPT_EXPORT_src_id &&& m &&
    (if s.flag r Fld.OPT_EXPORT_kind then 0x100000000000 ≤ a && a + len ≤ 0x100100000000
     else base * 2 ^ 30 ≤ a && a + len ≤ (base + s.get r Fld.OPT_EXPORT_count) * 2 ^ 30)

/-- The request passes OPT_EXPORT: `mover` for mover requests, `write` for everything but RD (R411). -/
def State.exportPasses (s : State) (src a len : Nat) (mover write : Bool) : Bool :=
  match (List.range 16).find? (fun n => s.exportCovers n src a len) with
  | none => false
  | some n =>
    let r := Reg.OPT_EXPORT n
    if s.flag r Fld.OPT_EXPORT_kind then
      mover && (!write || s.flag r Fld.OPT_EXPORT_wr) &&
        s.coreOfPart (s.get r Fld.OPT_EXPORT_base % 32) ((a - 0x100000000000) / 0x100000) &&
        (a - 0x100000000000) / 0x100000 == (a + len - 1 - 0x100000000000) / 0x100000
    else (!write || s.flag r Fld.OPT_EXPORT_wr) && s.gibServes (a / 2 ^ 30) write && s.gibServes ((a + len - 1) / 2 ^ 30) write

end Sys2Proof.Machine
end

