-- ==== Sys2Proof/Machine/PowerLoop.lean ====
section
/-!
DEFINITION. Clock rates and fast protection (chapter 17): the power loop, current samples, ageing, droop, junction readings, tolls.
-/
namespace Sys2Proof.Machine

/-! ### Rates (R448) -/

def State.fmax (s : State) (c : Nat) : Nat := s.get (Reg.CORE_FMAX c) Fld.CORE_FMAX_revised

/-- The rate the controller sets for a core. -/
def State.setRateOf (s : State) (c : Nat) : Nat := min (mapGet (fun _ => 1800) s.pwr.rates c) (s.fmax c)

def putRate (s : State) (c r : Nat) : State := { s with pwr := { s.pwr with rates := mapSet (fun _ => 1800) s.pwr.rates c r } }

/-- The core runs a leg of class LC, of class BE. -/
def State.runsLc (s : State) (c : Nat) : Bool := match (s.core c).leg with | some g => g.lc | none => false
def State.runsBe (s : State) (c : Nat) : Bool := match (s.core c).leg with | some g => !g.lc | none => false

/-- The half of a core: 2 * die + half. -/
def halfOf (c : Nat) : Nat := c / 256

/-- The half's clock now. -/
def State.halfClock (s : State) (h : Nat) : Nat := s.get (Reg.PWR_HALF (h / 2) (h % 2)) Fld.PWR_HALF_set_mhz

/-- The thermal limit of a core (R452). -/
def State.thermOf (s : State) (c : Nat) : Nat :=
  if s.runsLc c then mapGet (fun _ => 2100) s.pwr.thermLc (halfOf c)
  else s.get (Reg.PWR_HALF (halfOf c / 2) (halfOf c % 2)) Fld.PWR_HALF_therm_mhz

/-- The rate a core runs at: the lowest of its four rates (R35, R448). -/
def State.coreRate (s : State) (c : Nat) : Nat :=
  min (min (s.halfClock (halfOf c)) (s.fmax c)) (min (s.setRateOf c) (s.thermOf c))

/-- fg of the partition whose leg a core runs. -/
def State.fgOf (s : State) (c : Nat) : Nat :=
  match (s.core c).leg with
  | some g => s.get (Reg.PRT_DESC g.part.val) Fld.PRT_DESC_fg_mhz
  | none => 450

/-- Cores in service. -/
def State.coresIn (s : State) : List Nat := allCores.filter s.inService

/-- Lower the set rates of cores by 50 MHz, down to a floor. -/
def lowerRates (s : State) (cs : List Nat) (floor : State → Nat → Nat) : State :=
  forEach cs s (fun s c => putRate s c (max (floor s c) (s.setRateOf c - 50)))

/-- Raise the set rates of cores by 50 MHz, up to their revised maxima. -/
def raiseRates (s : State) (cs : List Nat) : State :=
  forEach cs s (fun s c => putRate s c (min (s.fmax c) (s.setRateOf c + 50)))

/-- CAP_LIMIT follows whether LC cores stand lowered under steps 2 and 3 (R448). -/
def capSource (s : State) : State :=
  let low := s.pwr.capLow.filter (fun c => s.runsLc c && s.setRateOf c < s.fmax c)
  setLevel { s with pwr := { s.pwr with capLow := low } } primaryDie 0x160 (!low.isEmpty)

/-- Metered input power above the cap lowers rates in the order of R448. -/
def capLower (s : State) : State :=
  let be := s.coresIn.filter (fun c => s.runsBe c && 450 < s.setRateOf c)
  let boosted := s.coresIn.filter (fun c => s.runsLc c && s.fgOf c < s.setRateOf c)
  let lc := s.coresIn.filter (fun c => s.runsLc c && 450 < s.setRateOf c)
  let mark (s : State) (cs : List Nat) : State :=
    { s with pwr := { s.pwr with capLow := cs.foldl setIns s.pwr.capLow } }
  if !be.isEmpty then lowerRates s be (fun _ _ => 450)
  else if !boosted.isEmpty then mark (lowerRates s boosted (fun s c => s.fgOf c)) boosted
  else mark (lowerRates s lc (fun _ _ => 450)) lc

/-- The BE limit in whole watts: the BE allowance spread over the frame (R447). -/
def State.beLimit (s : State) : Nat := s.pwr.ebe * 1000 / max 1 s.sched.len

/-- The BE part of the loop (R447). `raised` says that R448 has raised the rates in this turn, which raises each by 50 MHz at most. -/
def beLoop (s : State) (beWatts : Nat) (raised : Bool) : State :=
  let be := s.coresIn.filter s.runsBe
  if s.beLimit < beWatts then lowerRates { s with pwr := { s.pwr with beLow := 0 } } be (fun _ _ => 450)
  else if beWatts * 10 * max 1 s.sched.len < s.pwr.ebe * 9000 then
    (if s.pwr.beLow < 9 then { s with pwr := { s.pwr with beLow := s.pwr.beLow + 1 } }
     else raiseRates { s with pwr := { s.pwr with beLow := 0 } } (if raised then [] else be))
  else { s with pwr := { s.pwr with beLow := 0 } }

/-- Energy metered on rows, in µJ, for the rows and for the caravans that run on them (R444). -/
def meterRow (s : State) (x : Fin 256 × Nat) : State :=
  let j := x.1.val
  let s1 := s.addWrap (Reg.PWR_ROW (j / 32) (j / 16 % 2) (j % 16)) Fld.PWR_ROW_energy_uj x.2
  let cars := s1.sched.cars.map (fun v =>
    if v.phase = .running && v.legs.any (fun g => bit g.rows.toNat j) then { v with spent := v.spent + x.2 } else v)
  let parts := s1.sched.parts.map (fun y =>
    if s1.sched.cars.any (fun v => v.phase = .running && v.part.val == y.1 && v.legs.any (fun g => bit g.rows.toNat j)) then
      (y.1, { y.2 with spentT := y.2.spentT + x.2 }) else y)
  { s1 with sched := { s1.sched with cars := cars, parts := parts } }

/-- One turn of the 10 µs loop (R447, R448). -/
def powerLoop (s : State) (watts beWatts : Nat) (rows : List (Fin 256 × Nat)) : State :=
  let cap := s.get Reg.PWR_CAP Fld.PWR_CAP_cap_w
  let s1 := (forEach rows s meterRow).put Reg.PWR_INPUT Fld.PWR_INPUT_watts watts
  let room := decide (watts * 100 < cap * 95)
  let s2 := if cap < watts then capLower s1
    else if room then raiseRates s1 (s1.coresIn.filter (fun c => !s1.runsBe c || beWatts ≤ s1.beLimit)) else s1
  capSource (beLoop s2 beWatts room)

/-! ### Fast protection -/

/-- An input sample of 1 µs (R449, R540): volts in 10 mV, amperes in 0.1 A. -/
def currentSample (s : State) (volts amps : Nat) : State :=
  let lim := s.get Reg.PWR_CAP Fld.PWR_CAP_amp_lim
  let s1 := (s.put Reg.PWR_INPUT Fld.PWR_INPUT_volts volts).put Reg.PWR_INPUT Fld.PWR_INPUT_amps amps
  let s2 := setLevel s1 primaryDie 0x166 (volts < 4400 || 5800 < volts)
  if lim < amps then
    (if s2.pwr.stretch then s2 else raiseEdge { s2 with pwr := { s2.pwr with stretch := true } } primaryDie 0x169)
  else if amps < lim then { s2 with pwr := { s2.pwr with stretch := false } }
  else s2

/-- An ageing reading of core `c` (R450): it may lower the revised maximum, from the next tick. -/
def ageing (s : State) (c mhz : Nat) : State :=
  if !s.inService c then s else
  let s1 := s.setFlag (Reg.CORE_FMAX c) Fld.CORE_FMAX_read_valid true
  let m := mhz / 10 * 10
  let cur := mapGet (fun c => s.fmax c) s.pwr.newMax c
  if m < cur then { s1 with pwr := { s1.pwr with newMax := mapIns (mapDrop s1.pwr.newMax c) c m } } else s1

/-- Lowered maxima take effect at a tick and raise FMAX_REVISED (R450). -/
def fmaxTick (s : State) : State :=
  forEach s.pwr.newMax { s with pwr := { s.pwr with newMax := [] } } (fun s x =>
    raiseEdge (s.put (Reg.CORE_FMAX x.1) Fld.CORE_FMAX_revised x.2) (coreDie x.1) 0x163)

/-- X0 writes the revised maxima to flash (R450). -/
def fmaxStore (s : State) : State :=
  { s with flash := { s.flash with fmax := allCores.foldl (fun m c => mapSet Config.fmaxRevised m c (s.fmax c)) s.flash.fmax } }

def rowReg (die half row : Nat) : Nat := Reg.PWR_ROW die half row

/-- A droop onset (R451); DROOP_BURST when the die passes its limit in the frame (Table 17-6). The detectors of a gated half are gated (R369). -/
def droop (s : State) (die half row : Nat) : State :=
  if s.flag (Reg.PWR_HALF die half) Fld.PWR_HALF_gated then s else
  let s1 := s.incSat (rowReg die half row) Fld.PWR_ROW_droops
  let n := mapGet (fun _ => 0) s1.pwr.droopsFrame die + 1
  let s2 := { s1 with pwr := { s1.pwr with droop := setIns s1.pwr.droop (die * 32 + half * 16 + row),
                                           droopsFrame := mapSet (fun _ => 0) s1.pwr.droopsFrame die n } }
  if n = s.get (Reg.PWR_DROOP die) Fld.PWR_DROOP_burst + 1 then raiseEdge s2 die 0x164 else s2

def droopEnd (s : State) (die half row : Nat) : State :=
  { s with pwr := { s.pwr with droop := setDel s.pwr.droop (die * 32 + half * 16 + row) } }

/-- PWR(1) follows whether a half of the die is under its thermal limit. -/
def thermSource (s : State) (die : Nat) : State :=
  setLevel s die 0x161 ((List.range 2).any (fun h => s.get (Reg.PWR_HALF die h) Fld.PWR_HALF_therm_mhz < 2100 ||
    mapGet (fun _ => 2100) s.pwr.thermLc (2 * die + h) < 2100))

/-- The thermal limit of a half falls by 50 MHz: cores without LC work first, down to 450 MHz (R452). -/
def thermFall (s : State) (die h : Nat) : State :=
  let r := Reg.PWR_HALF die h
  let t := s.get r Fld.PWR_HALF_therm_mhz
  if 450 < t then s.put r Fld.PWR_HALF_therm_mhz (max 450 (t - 50))
  else
    let k := 2 * die + h
    { s with pwr := { s.pwr with thermLc := mapSet (fun _ => 2100) s.pwr.thermLc k
                                   (max 450 (mapGet (fun _ => 2100) s.pwr.thermLc k - 50)) } }

/-- The thermal limit of a half rises by 50 MHz: LC work first. -/
def thermRise (s : State) (die h : Nat) : State :=
  let r := Reg.PWR_HALF die h
  let k := 2 * die + h
  let lc := mapGet (fun _ => 2100) s.pwr.thermLc k
  if lc < 2100 then { s with pwr := { s.pwr with thermLc := mapSet (fun _ => 2100) s.pwr.thermLc k (min 2100 (lc + 50)) } }
  else s.put r Fld.PWR_HALF_therm_mhz (min 2100 (s.get r Fld.PWR_HALF_therm_mhz + 50))

/-- The clock of half `h` with ceiling `ceil`: 450 MHz under R452's alarm and in GATED (Table 17-1), else the ceiling (R448). -/
def State.halfNow (s : State) (h ceil : Nat) : Nat :=
  if setHas s.pwr.alarm h || s.get Reg.PWR_STATE Fld.PWR_STATE_state == 2 then 450 else ceil

/-- The half's clock under R452's alarm. -/
def thermAlarm (s : State) (die h t : Nat) : State :=
  let r := Reg.PWR_HALF die h
  let k := 2 * die + h
  if 110 ≤ t then
    (if setHas s.pwr.alarm k then s
     else raiseEdge ({ s with pwr := { s.pwr with alarm := setIns s.pwr.alarm k } }.put r Fld.PWR_HALF_set_mhz 450) die 0x162)
  else if t ≤ 105 && setHas s.pwr.alarm k then
    let s1 : State := { s with pwr := { s.pwr with alarm := setDel s.pwr.alarm k } }
    s1.put r Fld.PWR_HALF_set_mhz (s1.halfNow k (s.get r Fld.PWR_HALF_ceil_mhz))
  else s

/-- The seam registers show the halves' clocks (Table 13-8). -/
def seamClocks (s : State) (die : Nat) : State :=
  (s.put (Reg.CRL_SEAM die) Fld.CRL_SEAM_w_mhz (s.halfClock (2 * die))).put (Reg.CRL_SEAM die) Fld.CRL_SEAM_e_mhz
    (s.halfClock (2 * die + 1))

/-- The clocks of every half follow the power state (Table 17-1). -/
def halfClocks (s : State) : State :=
  forEach (List.range 8) s (fun s d =>
    seamClocks (forEach [0, 1] s (fun s h =>
      s.put (Reg.PWR_HALF d h) Fld.PWR_HALF_set_mhz (s.halfNow (2 * d + h) (s.get (Reg.PWR_HALF d h) Fld.PWR_HALF_ceil_mhz)))) d)

/-- The hottest of the latest readings of a die. -/
def State.dieTemp (s : State) (die : Nat) : Nat := max (mapGet (fun _ => 0) s.pwr.temps (2 * die)) (mapGet (fun _ => 0) s.pwr.temps (2 * die + 1))

/-- The hottest readings reported: of the die, and of the module with the lowest die that has it (Tables 17-7, 17-9). -/
def hotReport (s : State) (die h t : Nat) : State :=
  let s0 : State := { s with pwr := { s.pwr with temps := mapSet (fun _ => 0) s.pwr.temps (2 * die + h) t } }
  let s1 := if die < 8 then
      (s0.put (Reg.PWR_DIE die) Fld.PWR_DIE_temp_c (s0.dieTemp die)).put (Reg.PWR_DIE die) Fld.PWR_DIE_temp_max
        (max t (s.get (Reg.PWR_DIE die) Fld.PWR_DIE_temp_max))
    else s0
  let hot := (List.range 10).foldl (fun b d => if s0.dieTemp b < s0.dieTemp d then d else b) 0
  (s1.put Reg.PWR_THERM Fld.PWR_THERM_hot_c (s0.dieTemp hot)).put Reg.PWR_THERM Fld.PWR_THERM_hot_die hot

/-- A junction reading below the trip (R452). -/
def junction (s : State) (die h t : Nat) : State :=
  let s1 := hotReport s die h t
  if 8 ≤ die then s1 else
  let k := 2 * die + h
  let thr := s.get Reg.PWR_THERM Fld.PWR_THERM_throttle_c
  let n := mapGet (fun _ => 0) s1.pwr.cool k + 1
  let setCool (s : State) (n : Nat) : State := { s with pwr := { s.pwr with cool := mapSet (fun _ => 0) s.pwr.cool k n } }
  let s2 := if thr ≤ t then thermFall (setCool s1 0) die h
    else if t + 3 ≤ thr then (if n < 10 then setCool s1 n else thermRise (setCool s1 0) die h)
    else setCool s1 0
  seamClocks (thermSource (thermAlarm s2 die h t) die) die

/-! ### Tolls (R444-R446) -/

/-- Spent tolls of a metered energy (R444). -/
def spentTolls (uplift energy : Nat) : Nat := ceilDiv (uplift * energy) 256000

/-- The update of r(i) by a receipt (R446). -/
def ratioNext (r spent declared : Nat) : Nat :=
  let q := min (spent * 256 / declared) 512
  (Int.ofNat r + (Int.ofNat q - Int.ofNat r).tdiv 8).toNat

/-- The prediction of a caravan of instance `i` that declares `d`, with `ann` announced for the frame (R446): history is in use from the 17th
frame after binding on (Table 17-4). -/
def State.predict (s : State) (i d ann : Nat) : Nat :=
  max (if setHas s.pwr.hist i then ceilDiv (d * s.get (Reg.PWR_RATIO i) Fld.PWR_RATIO_r) 256 else d) ann

/-! ### The commands -/

/-- CURRENT_SAMPLE (R449). -/
def execCurrentSample (volts amps : BitVec 16) (s : State) : Result := .next (currentSample s volts.toNat amps.toNat)

/-- AGEING_READING (R450). -/
def execAgeingReading (c : CoreId) (mhz : BitVec 12) (s : State) : Result := .next (ageing s c.toNat mhz.toNat)

/-- FMAX_FLASH_WRITE (R450). -/
def execFmaxFlashWrite (s : State) : Result := .next (fmaxStore s)

/-- DROOP_ONSET (R451). -/
def execDroopOnset (die : Fin 8) (half : Bool) (row : Fin 16) (s : State) : Result :=
  .next (droop s die.val (b2n half) row.val)

/-- DROOP_RECOVER (R451). -/
def execDroopRecover (die : Fin 8) (half : Bool) (row : Fin 16) (s : State) : Result :=
  .next (droopEnd s die.val (b2n half) row.val)

end Sys2Proof.Machine
end

