-- ==== Sys2Proof/Machine/CoreOps.lean ====
section
/-!
DEFINITION. What the instructions of a core share: registers and their pending marks (R77, R78, R86), where a global address leads
(R41-R45, R97, R413), what a partition reaches (R299), the storage position of a line (R325-R332), address errors (R111, R112), failed
writes and poison reaching the sequencer (R466, R475), and bytes of a scratchpad with their poison (R462, R464).
-/
namespace Sys2Proof.Machine

/-! ### Registers (R78) -/

def Core.sr (k : Core) (n : Nat) : W64 := if n = 0 then 0 else mapGet (fun _ => 0) k.s n

def Core.setSr (k : Core) (n : Nat) (v : W64) : Core := if n = 0 then k else { k with s := mapSet (fun _ => 0) k.s n v }

def Core.pr (k : Core) (n : Nat) : Bool := n == 0 || bit k.p.toNat n

def Core.setPr (k : Core) (n : Nat) (b : Bool) : Core :=
  if n = 0 then k else { k with p := if b then k.p ||| BitVec.ofNat 8 (2 ^ n) else k.p &&& ~~~ BitVec.ofNat 8 (2 ^ n) }

def Core.mr (k : Core) (n : Nat) : W64 := mapGet (fun _ => 0) k.m n

def Core.setMr (k : Core) (n : Nat) (v : W64) : Core := { k with m := mapSet (fun _ => 0) k.m n v }

def Core.tok (k : Core) (n : Nat) : Tok := mapGet (fun _ => Tok.zero) k.toks n

def Core.setTok (k : Core) (n : Nat) (t : Tok) : Core := { k with toks := mapSet (fun _ => Tok.zero) k.toks n t }

/-- A register's earlier writer has not yet written it (R86). -/
def Core.isPending (k : Core) (r : PendReg) : Bool := k.pend.any (fun x => x.reg == r)

/-- s0 and p0 have no writer. -/
def Core.sPend (k : Core) (n : Nat) : Bool := n != 0 && k.isPending (.s n)
def Core.pPend (k : Core) (n : Nat) : Bool := n != 0 && k.isPending (.p n)
def Core.mPend (k : Core) (n : Nat) : Bool := k.isPending (.m n)

/-- A register is written now: an earlier writer that is still pending no longer decides it. -/
def Core.dropPend (k : Core) (r : PendReg) : Core := { k with pend := k.pend.filter (fun x => x.reg != r) }

/-- Mark a register pending for writer `id`. -/
def Core.markPend (k : Core) (r : PendReg) (id : Nat) : Core :=
  if r = .s 0 || r = .p 0 then k else { k with pend := (k.dropPend r).pend ++ [⟨r, id⟩] }

/-- Writer `id` has written its registers. -/
def Core.unPend (k : Core) (id : Nat) : Core := { k with pend := k.pend.filter (fun x => x.id != id) }

/-- Writer `id` writes s register `n`, unless a later writer owns the register's value: writes land in program order (DESIGN CHOICE, log 92:
R86 lists no interlock for a register written while an earlier engine writer of it is pending). -/
def Core.lateSr (k : Core) (n id : Nat) (v : W64) : Core :=
  if k.pend.any (fun x => x.reg == .s n && x.id == id) then (k.unPend id).setSr n v else k.unPend id

/-! ### Where an address leads -/

/-- A target of an access by a core. -/
inductive Place where
  | own (off : Nat)
  | scratch (c off : Nat)
  | mem (mpa : Nat)
  | reg (off : Nat)
  | window (port bus : Nat)
  | other (module mpa : Nat)
  | bad
deriving DecidableEq, Repr

/-- Window `n` maps offset `x` (R413). -/
def State.windowAt (s : State) (n x : Nat) : Place :=
  let r := Reg.OPT_WIN n
  if s.flag r Fld.OPT_WIN_valid && x < 2 ^ s.get r Fld.OPT_WIN_size_log2 then
    .window (s.get r Fld.OPT_WIN_port) (s.get (Reg.OPT_WIN_BUS n) Fld.OPT_WIN_BUS_base + x)
  else .bad

/-- The lowest valid window that names module `m` and whose target range covers `mpa` (R413). -/
def State.windowFor (s : State) (m mpa : Nat) : Place :=
  match (List.range 64).find? (fun n =>
    let r := Reg.OPT_WIN n
    let base := s.get r Fld.OPT_WIN_target_gib * 2 ^ 30
    s.flag r Fld.OPT_WIN_valid && s.get r Fld.OPT_WIN_module == m && base ≤ mpa && mpa < base + 2 ^ s.get r Fld.OPT_WIN_size_log2) with
  | some n => s.windowAt n (mpa - s.get (Reg.OPT_WIN n) Fld.OPT_WIN_target_gib * 2 ^ 30)
  | none => .bad

/-- Where MPA `a` of this module leads for core `c` (Table 1-9, R97). -/
def State.placeMpa (s : State) (c a : Nat) : Place :=
  if a < s.topGib * 2 ^ 30 then .mem a
  else if 0x100000000000 ≤ a && a < 0x100100000000 then
    let k := (a - 0x100000000000) / 0x100000
    if k % 16 < 10 then (if k = c then .own (a % 0x100000) else .scratch k (a % 0x100000)) else .bad
  else if 0x200000000000 ≤ a && a < 0x200010000000 then .reg (a - 0x200000000000)
  else if 0xF000000000000 ≤ a then s.windowAt (bits a 47 42) (bits a 41 0)
  else .bad

/-- Where a global address leads for core `c` (R44, R45, R413). -/
def State.place (s : State) (c addr : Nat) : Place :=
  let m := addr / 2 ^ 52 % 4096
  let a := addr % 2 ^ 52
  if m = 0xFFF || m = s.moduleId then s.placeMpa c a
  else if 0xF000000000000 ≤ a then .bad
  else if !(s.portsTo m).isEmpty then .other m a
  else s.windowFor m a

/-- The GiB's entry lets partition `p` reach it (R299, R343): every access to its own normal GiBs, reads of shared read-only ones. -/
def State.gibReach (s : State) (p g : Nat) (write : Bool) : Bool :=
  s.gibServes g write && (s.gmap g Fld.PRT_GMAP_kind == 1 || s.gmap g Fld.PRT_GMAP_partition == p)

/-- The partition that owns GiB `g`, if any. -/
def State.gibOwner (s : State) (g : Nat) : Option PartId :=
  if g < s.topGib && s.gmap g Fld.PRT_GMAP_valid == 1 then some (Fin.ofNat 32 (s.gmap g Fld.PRT_GMAP_partition)) else none

/-- The partition, instance, caravan and class of the leg core `c` runs. -/
def State.partOf (s : State) (c : Nat) : Option PartId := (s.core c).leg.map (·.part)

/-- Core `c` may access byte `mpa` of stacked memory. -/
def State.coreReach (s : State) (c mpa : Nat) (write : Bool) : Bool :=
  match s.partOf c with
  | some p => s.gibReach p.val (mpa / 2 ^ 30) write
  | none => false

/-- The key of a core's or mover's request (R195). -/
def State.keyOf (s : State) (c : Nat) (stream : Bool) : Key :=
  ⟨s.partOf c, match (s.core c).leg with | some g => g.lc | none => false, stream⟩

/-- A row's slots are power-gated or its half is gated: its scratchpads answer as address errors (R43). -/
def State.scratchServed (s : State) (c : Nat) : Bool :=
  s.inService c && !s.flag (Reg.PWR_HALF (coreDie c) (coreHalf c)) Fld.PWR_HALF_gated

/-- The line that holds address `a`, and the first byte of a line. -/
def lineOf (a : Nat) : LineNo := BitVec.ofNat 45 (a / 128)
def lineBase (l : LineNo) : Nat := l.toNat * 128

/-! ### Storage positions (R325-R333) -/

def rev10 (x : Nat) : Nat := ofBits 10 (fun i => bit x (9 - i))

/-- The primary position of an MPA (R328, R329). -/
def State.primaryPos (s : State) (a : Nat) : Nat × Nat × Nat :=
  let g := a / 2 ^ 30
  if s.gmap g Fld.PRT_GMAP_die_local == 1 then
    let v := bits a 29 9
    (128 * s.gmap g Fld.PRT_GMAP_die + (bits v 6 0 ^^^ bits v 13 7 ^^^ bits v 20 14), 8 * (g / 8) + bits v 20 18, bits v 17 7)
  else
    let u := bits a 41 9
    (bits u 9 0 ^^^ bits u 19 10 ^^^ rev10 (bits u 30 21) ^^^ (bits u 32 31 * 16) ^^^ (bits u 20 20 * 8), bits u 32 21, bits u 20 10)

/-- The remaining channels, ascending (R332). -/
def State.liveChans (s : State) : List Nat := (List.range 1024).filter (fun c => !s.stk.mapped.contains c)

/-- Relocation of a position on a mapped-out channel (R332). -/
def State.relocate (s : State) (pos : Nat × Nat × Nat) : Nat × Nat × Nat :=
  match s.stk.mapped.idxOf? pos.1 with
  | none => pos
  | some j =>
    let n := s.stk.mapped.length
    let k := 1024 - n
    let top := 3072 - 3 * n
    let x := (j * top + pos.2.1) * 2048 + pos.2.2
    let w := top * 2048 + x / k
    (s.liveChans.getD (x % k) 0, w / 2048, w % 2048)

/-- The channel, slot and unit that hold address `a`. -/
def State.pos (s : State) (a : Nat) : Nat × Nat × Nat := s.relocate (s.primaryPos a)

def State.chanOf (s : State) (a : Nat) : Nat := (s.pos a).1

/-- GiB `g` is the primary of a mirrored pair (R343). -/
def State.mirrored (s : State) (a : Nat) : Bool := s.gmap (a / 2 ^ 30) Fld.PRT_GMAP_mirrored == 1 && a / 2 ^ 30 % 2 == 0

/-- The channels that hold the copies of the line at `a`. -/
def State.chansOf (s : State) (a : Nat) : List Nat :=
  if s.mirrored a then [s.chanOf a, s.chanOf (a + 2 ^ 30)] else [s.chanOf a]

/-! ### Errors at the sequencer -/

/-- An instruction of core `c` suffered an address error, first at `a` (R111, R112). -/
def addrErr (s : State) (c a : Nat) : State :=
  let r := Reg.CORE_ADDR_ERR c
  let s1 := (s.incSat r Fld.CORE_ADDR_ERR_count).setFlag r Fld.CORE_ADDR_ERR_seen true
  if s1.flag r Fld.CORE_ADDR_ERR_first_valid then s1
  else (s1.setFlag r Fld.CORE_ADDR_ERR_first_valid true).setReg (Reg.CORE_ADDR_ERR_FIRST c) (BitVec.ofNat 64 a)

/-- The global address that R112 holds for an MPA of this module or an address of another one. -/
def errAddr (s : State) (addr : Nat) : Nat :=
  if addr / 2 ^ 52 % 4096 = s.moduleId then 0xFFF * 2 ^ 52 + addr % 2 ^ 52 else addr % 2 ^ 64

/-- The caravan of core `c` ends POISONED unless a higher status applies (R467). -/
def markPoisoned (s : State) (c : Nat) : State :=
  match (s.core c).leg with
  | some g => { s with sched := { s.sched with cars := s.sched.cars.map (fun v => if v.id = g.car then { v with poisoned := true } else v) } }
  | none => s

/-- Poisoned data reached the sequencer (R466). -/
def seqPoison (s : State) (c : Nat) : State := markPoisoned (s.setFlag (Reg.CORE_ERR c) Fld.CORE_ERR_seq_poison true) c

/-- CORE_ERR takes the first failed write of the leg (R475). -/
def errCause (s : State) (c cause : Nat) : State :=
  let r := Reg.CORE_ERR c
  if s.flag r Fld.CORE_ERR_write_failed then s else (s.setFlag r Fld.CORE_ERR_write_failed true).put r Fld.CORE_ERR_cause cause

/-- A write of the sequencer or of an engine of core `c` failed (R475), or a failed BAR phase completed (R476); causes of Table 18-9. -/
def writeFailed (s : State) (c cause : Nat) : State :=
  (errCause s c cause).modCore c (fun k => { k with fails := setIns k.fails cause })

/-- A mover write of core `c` failed (R475). -/
def moverFailed (s : State) (c cause : Nat) : State :=
  (errCause s c cause).modCore c (fun k => { k with fails := setIns k.fails (10 + cause) })

/-! ### Scratchpads -/

/-- The word at `w` holds an error. -/
def State.setBad (s : State) (w : Nat) (e : WordErr) : State :=
  { s with stk := { s.stk with bad := (s.stk.bad.filter (fun x => x.1 != w)) ++ [(w, e)] } }

/-- Die, unit and word address of an armed injection: the first word that a write covers is altered (R483). -/
def injectWord (s : State) (die unit core a : Nat) : State :=
  match s.armed die unit core with
  | none => s
  | some i =>
    let s1 := s.disarm die
    let w := a / 16 * 16
    if i.kind = 3 then s1.setPoison w true
    else s1.setBad w (if i.kind = 1 then .one else .two)

/-- The granules that bytes `a .. a + n - 1` cover whole, and those they cover in part. -/
def granulesIn (a n : Nat) : List Nat :=
  if n = 0 then [] else
  let g := if a < 0x100000000000 then 128 else 64
  (List.range ((a + n - 1) / g - a / g + 1)).map (fun i => (a / g + i) * g)

/-- A granule of size 64 or 128 lies wholly in `a .. a + n - 1`. -/
def coversGranule (a n g : Nat) : Bool :=
  let w := if a < 0x100000000000 then 128 else 64
  decide (a ≤ g) && decide (g + w ≤ a + n)

/-- A word error at a byte address, and its removal. -/
def State.badWord (s : State) (w : Nat) : Option WordErr := (s.stk.bad.find? (fun e => e.1 == w)).map (·.2)

def State.clearBad (s : State) (w : Nat) : State := { s with stk := { s.stk with bad := s.stk.bad.filter (fun e => e.1 != w) } }

/-- The 16 B words that bytes `a .. a + n - 1` touch. -/
def wordsIn (a n : Nat) : List Nat :=
  if n = 0 then [] else (List.range ((a + n - 1) / 16 - a / 16 + 1)).map (fun i => (a / 16 + i) * 16)

/-- Reading word `w` of core `k`'s scratchpad: a one-symbol error is corrected in place, a two-symbol error poisons the granule
(R460, R461, R463). -/
def scratchWord (s : State) (w : Nat) : State :=
  let k := (w - 0x100000000000) / 0x100000
  match s.badWord w with
  | none => s
  | some .one => errRecord (s.clearBad w) (coreDie k) (ErrRec.plain 0 0x001 1 k w)
  | some .two => errRecord ((s.clearBad w).setPoison w true) (coreDie k) (ErrRec.plain 1 0x040 1 k w)

/-- The words that a read or a partial write of a scratchpad touches are decoded (R557). -/
def scratchDecode (s : State) (a n : Nat) : State := forEach (wordsIn a n) s scratchWord

/-- Write bytes to a scratchpad at MPA `a`: partial words are decoded first (R557), whole granules take the data's mark, others keep
poison or take it (R462, R464). -/
def scratchWrite (s : State) (a : Nat) (bs : List Byte) (poison : Bool) : State :=
  let n := bs.length
  let part := (wordsIn a n).filter (fun w => !(decide (a ≤ w) && decide (w + 16 ≤ a + n)))
  let s1 := forEach part s scratchWord
  let s2 := forEach (wordsIn a n) s1 State.clearBad
  let s3 := s2.setBytes a bs
  let s4 := forEach (granulesIn a n) s3 (fun s g => if coversGranule a n g then s.setPoison g poison else if poison then s.setPoison g true else s)
  let k := (a - 0x100000000000) / 0x100000
  if n = 0 then s4 else injectWord s4 (coreDie k) 3 k a

/-- Read bytes of a scratchpad at MPA `a`, with their poison. -/
def scratchRead (s : State) (a n : Nat) : State × List Byte × Bool :=
  let s1 := scratchDecode s a n
  (s1, s1.bytes a n, s1.anyPoison a n)

/-! ### The atomic operation of R99 -/

/-- Result of AMO op `op` at width `w` (false 32 bits) on old value `x`, operand `y`, comparand `z`. -/
def amoResult (op : Nat) (w : Bool) (x y z : Nat) : Nat :=
  let n := if w then 64 else 32
  let x := x % 2 ^ n
  let y := y % 2 ^ n
  let lt := decide (toSigned n x < toSigned n y)
  if op = 0 then (x + y) % 2 ^ n
  else if op = 1 then (if lt then x else y)
  else if op = 2 then (if lt then y else x)
  else if op = 3 then min x y
  else if op = 4 then max x y
  else if op = 5 then x &&& y
  else if op = 6 then x ||| y
  else if op = 7 then x ^^^ y
  else if op = 8 then y
  else if op = 9 then (if x = z % 2 ^ n then y else x)
  else x

/-! ### Bytes of a line -/

/-- Byte `i` of a line, `n` bytes from `off` as a number, and a line with bytes replaced. -/
def lineNum (d : Line) (off n : Nat) : Nat := d.toNat / 2 ^ (8 * off) % 2 ^ (8 * n)

def linePut (d : Line) (off n v : Nat) : Line :=
  let m : Nat := (2 ^ (8 * n) - 1) * 2 ^ (8 * off)
  (d &&& ~~~ BitVec.ofNat 1024 m) ||| BitVec.ofNat 1024 (v % 2 ^ (8 * n) * 2 ^ (8 * off))

/-- A byte mask spread over the bits of a line. -/
def maskBits (be : BitVec 128) : Line :=
  BitVec.ofNat 1024 ((List.range 128).foldl (fun acc i => if be.getLsbD i then acc + 255 * 2 ^ (8 * i) else acc) 0)

/-- Bytes of `new` where `be` is set, of `old` elsewhere. -/
def lineMerge (old new : Line) (be : BitVec 128) : Line := (old &&& ~~~ maskBits be) ||| (new &&& maskBits be)

/-- The 128 bytes of a line as they lie in memory. -/
def lineBytes (d : Line) : List Byte := bytesOf 128 d.toNat

def lineOfBytes (bs : List Byte) : Line := BitVec.ofNat 1024 (ofBytes bs)

/-- Every byte of the line is written. -/
def wholeLine (be : BitVec 128) : Bool := be == BitVec.allOnes 128

end Sys2Proof.Machine
end

