-- ==== Sys2Proof/Machine/L1.lean ====
section
/-!
DEFINITION. The L1 data cache of a core (R217, R222, R236, R237): homes and replica slices of a line (R190, R192, R214), misses,
fills, victims, and the accesses of loads, stores and atomics to lines; the write streaming detector (R208-R210).
-/
namespace Sys2Proof.Machine

/-! ### Homes -/

/-- Logical home slice and set of a line (R190). -/
def homeLogical (l : LineNo) : Nat :=
  bits l.toNat 8 0 ^^^ bits l.toNat 17 9 ^^^ bits l.toNat 26 18 ^^^ bits l.toNat 35 27 ^^^ bits l.toNat 44 36

def setOf (l : LineNo) : Nat := bits l.toNat 21 9

/-- The physical slice that serves logical slice `h`: every copy of the retirement table is identical (R192, R193). -/
def State.physSlice (s : State) (h : Nat) : Nat := s.get (Reg.LLC_RETIRE 0 h) Fld.LLC_RETIRE_target

/-- The physical home slice of a line. -/
def State.home (s : State) (l : LineNo) : Nat := s.physSlice (homeLogical l)

def sliceDie (g : Nat) : Nat := g / 64

/-- The line's home lies on an isolated die (R364). -/
def State.homeIsolated (s : State) (l : LineNo) : Bool := s.ceral.isolated.contains (sliceDie (s.home l))

/-- The home refuses writes of the line: every copy lies on a FAILED_DEAD channel, or the line lies on an isolated die (R335, R344, R475). -/
def State.lineRefuses (s : State) (a : Nat) : Bool := s.homeIsolated (lineOf a) || (s.chansOf a).all s.chanGone

/-- A register of slice `g`'s page. -/
def sliceReg (f : Nat → Nat → Nat) (g : Nat) : Nat := f (g / 64) (g % 64)

/-- The replica slice of a line on compute die `d`, where one may exist (R214). -/
def State.repSlice (s : State) (l : LineNo) (d : Nat) : Option Nat :=
  let p := s.physSlice (d * 64 + homeLogical l % 64)
  if sliceDie p = d && sliceDie (s.home l) != d then some p else none

/-- A wrapping counter that fills its register steps. -/
def State.count (s : State) (off : Nat) : State := s.setReg off (s.reg off + 1)

/-- A counter of cycles that the model does not time grows by an amount the model leaves free (log 3). -/
def State.countFree (s : State) (off : Nat) : State := (s.setReg off (s.reg off + s.fresh)).drawn

/-! ### Ways of the L1 -/

def l1Set (l : LineNo) : Nat := l.toNat % 128

def Core.l1At (k : Core) (i : Nat) : Option L1Line := mapGet (fun _ => none) k.l1 i

def Core.setL1 (k : Core) (i : Nat) (x : Option L1Line) : Core := { k with l1 := mapSet (fun _ => none) k.l1 i x }

/-- The way (as set * 4 + way) that holds line `l`. -/
def Core.l1Way (k : Core) (l : LineNo) : Option Nat :=
  (List.range 4).findSome? (fun w =>
    match k.l1At (l1Set l * 4 + w) with
    | some x => if x.line = l then some (l1Set l * 4 + w) else none
    | none => none)

def Core.l1Line (k : Core) (l : LineNo) : Option L1Line :=
  match k.l1Way l with
  | some i => k.l1At i
  | none => none

/-- Apply `f` to the line where it is held. -/
def Core.modL1 (k : Core) (l : LineNo) (f : L1Line → Option L1Line) : Core :=
  match k.l1Way l with
  | some i => match k.l1At i with
    | some x => k.setL1 i (f x)
    | none => k
  | none => k

/-- The pseudo-LRU tree points away from way `w` (R217; bit 0 the root, 1 and 2 the pairs). -/
def plruTouch (t : BitVec 3) (w : Nat) : BitVec 3 :=
  if w = 0 then t ||| 3#3 else if w = 1 then (t ||| 1#3) &&& 5#3 else if w = 2 then (t &&& 6#3) ||| 4#3 else t &&& 2#3

/-- The way that the tree names. -/
def plruVictim (t : BitVec 3) : Nat :=
  if t.getLsbD 0 then (if t.getLsbD 2 then 3 else 2) else (if t.getLsbD 1 then 1 else 0)

def Core.touch (k : Core) (i : Nat) : Core :=
  { k with plru := mapSet (fun _ => 0) k.plru (i / 4) (plruTouch (mapGet (fun _ => 0) k.plru (i / 4)) (i % 4)) }

/-- The miss outstanding for a line. -/
def Core.missOf (k : Core) (l : LineNo) : Option Miss := k.miss.find? (fun m => m.line == l)

def Core.dropMiss (k : Core) (l : LineNo) : Core := { k with miss := k.miss.filter (fun m => m.line != l) }

/-- A victim offer of the line has not been settled (R231). -/
def Core.isOffered (k : Core) (l : LineNo) : Bool := k.offered.any (fun e => e.1 == l.toNat)

def Core.isHeld (k : Core) (l : LineNo) : Bool := setHas k.hold l.toNat

/-! ### Requests of an L1 -/

/-- A message from core `c`'s L1 to a line's home. -/
def State.toHome (s : State) (c : Nat) (l : LineNo) (b : MsgBody) : State := s.send (epCore c) (epSlice (s.home l)) l b

def reqNum (c : Nat) : ReqNum := BitVec.ofNat 13 c

/-- A GETS goes first to the requester's replica slice for a line homed on another die (R233). -/
def sendGets (s : State) (c : Nat) (l : LineNo) (ifetch : Bool) : State :=
  let b := MsgBody.gets (reqNum c) (s.keyOf c false) ifetch
  match s.repSlice l (coreDie c) with
  | some r => s.send (epCore c) (epSlice r) l b
  | none => s.toHome c l b

/-- The request of a miss. -/
def sendMiss (s : State) (c : Nat) (l : LineNo) (own upg : Bool) : State :=
  if upg then s.toHome c l (.upg (reqNum c) (s.keyOf c false))
  else if own then s.toHome c l (.getx (reqNum c) (s.keyOf c false))
  else sendGets s c l false

/-- A new miss: requested at once, or once the WB_ACK of an offer of the line has come (R231). -/
def newMiss (s : State) (c : Nat) (l : LineNo) (own upg : Bool) (accs : List MemAcc) : State :=
  let wait := (s.core c).isOffered l
  let s1 := s.modCore c (fun k => { k with miss := k.miss ++ [⟨l, own, upg, !wait, false, accs⟩] })
  if wait then s1 else sendMiss s1 c l own upg

/-! ### Loads gathering their bytes -/

/-- Element `e` of `z` bytes, of an entry, takes `v`; a poisoned byte marks its lane (R137, R161). -/
def entryPut (x : Entry) (off n v : Nat) : Entry :=
  let m : Nat := (2 ^ (8 * n) - 1) * 2 ^ (8 * off)
  (x &&& ~~~ BitVec.ofNat 2048 m) ||| BitVec.ofNat 2048 (v % 2 ^ (8 * n) * 2 ^ (8 * off))

def elemSize (i : Instr) : Nat :=
  match i with
  | .vld _ f => 2 ^ f.esz.toNat
  | .vst _ f => 2 ^ f.esz.toNat
  | _ => 1

/-- An element of a started VLD has come. -/
def vldElem (x : Started) (vid e v : Nat) (poison : Bool) : Started :=
  if x.q.id = vid then
    match x.res with
    | .vld vd ent mark left =>
      let z := elemSize x.q.ins
      let m := if poison then mark ||| BitVec.ofNat 64 (2 ^ (e * z / 4)) else mark
      { x with res := .vld vd (entryPut ent (e * z) z v) m (left - 1) }
    | _ => x
  else x

/-- Every byte of a load has come: its register or element takes the value; poisoned data gives zero in a register (R98, R466). -/
def loadEnd (s : State) (c : Nat) (r : LoadRec) : State :=
  match r.dest with
  | .sreg n bytes sx wid =>
    let v := if r.poison then 0 else if sx then sext64 (8 * bytes) r.got else BitVec.ofNat 64 (r.got % 2 ^ (8 * bytes))
    let s1 := s.modCore c (fun k => k.lateSr n wid v)
    if r.poison then seqPoison s1 c else s1
  | .acqLoad n bytes wid =>
    let v := if r.poison then 0 else BitVec.ofNat 64 (r.got % 2 ^ (8 * bytes))
    let s1 := s.modCore c (fun k => k.lateSr n wid v)
    if r.poison then seqPoison s1 c else s1
  | .elem vid e => s.modCore c (fun k => { k with veRun := k.veRun.map (fun x => vldElem x vid e r.got r.poison) })

/-- `len` bytes of a load, from byte `pos` of the access on, have come. -/
def loadPart (s : State) (c id pos len v : Nat) (poison : Bool) : State :=
  let k := s.core c
  match k.loads.find? (fun r => r.id == id) with
  | none => s
  | some r =>
    let r1 := { r with
      got := if r.dead then 0 else r.got + v % 2 ^ (8 * len) * 2 ^ (8 * pos)
      left := r.left - len
      poison := !r.dead && (r.poison || poison) }
    if r1.left = 0 then
      let s1 := s.setCore c { k with loads := k.loads.filter (fun x => x.id != id) }
      loadEnd (match r1.bad with | some a => if r1.counted then s1 else addrErr s1 c a.toNat | none => s1) c r1
    else s.setCore c { k with loads := k.loads.map (fun x => if x.id = id then r1 else x) }

/-- `len` bytes of a load are lost or refused: the whole load reads zero. -/
def loadDead (s : State) (c id len : Nat) : State :=
  loadPart (s.modCore c (fun k => { k with
    loads := k.loads.map (fun x => if x.id = id then { x with dead := true, got := 0, poison := false } else x) })) c id 0 len 0 false

/-- The lower of two faulting bytes. -/
def lowerBad (b : Option W64) (a : W64) : Option W64 := match b with | some x => some (if a < x then a else x) | none => some a

/-- Another module refuses `len` bytes of load `id`, the first at `a`: the load counts one address error once it ends (R111, R112). -/
def loadRefused (s : State) (c id len : Nat) (a : W64) : State :=
  loadDead (s.modCore c (fun k => { k with loads := k.loads.map (fun x => if x.id = id then { x with bad := lowerBad x.bad a } else x) })) c id len

/-- The instruction of load `id` has counted its address error at issue. -/
def loadCounted (s : State) (c id : Nat) : State :=
  s.modCore c (fun k => { k with loads := k.loads.map (fun x => if x.id = id then { x with counted := true } else x) })

/-! ### Performing accesses on a held line -/

/-- The access may be performed on a line in state `st` (Table 8-7). -/
def MemAcc.fits (a : MemAcc) (st : Moesi) : Bool :=
  match a.kind with
  | .load _ => true
  | _ => st == .m || st == .e

/-- Perform one access on the held line: a store or AMO leaves it in M; poison stays (R464), and an AMO that reads poison writes
nothing and returns zero (R243). -/
def l1Do (s : State) (c : Nat) (x : L1Line) (i : Nat) (a : MemAcc) : State :=
  match a.kind with
  | .load id => loadPart (s.modCore c (fun k => k.touch i)) c id a.pos a.len (lineNum x.ld.d a.off a.len) x.ld.poison
  | .store v poison =>
    s.modCore c (fun k => (k.setL1 i (some (L1Line.mk x.line .m ⟨linePut x.ld.d a.off a.len v, x.ld.poison || poison⟩))).touch i)
  | .amo id op w y z =>
    let old := lineNum x.ld.d a.off a.len
    let s1 := s.modCore c (fun k => k.touch i)
    let new := if x.ld.poison then x.ld.d else linePut x.ld.d a.off a.len (amoResult op.toNat w old y.toNat z.toNat)
    loadPart (s1.modCore c (fun k => k.setL1 i (some ⟨x.line, .m, ⟨new, x.ld.poison⟩⟩))) c id 0 a.len
      (if x.ld.poison then 0 else old) x.ld.poison

/-- Perform the waiting accesses of a line in order; the first that needs what the L1 lacks makes a new miss with the rest. -/
def l1Run (s : State) (c : Nat) (l : LineNo) : List MemAcc → State
  | [] => s
  | a :: rest =>
    let k := s.core c
    match k.l1Way l with
    | none => newMiss s c l (!a.fits .s) false (a :: rest)
    | some i => match k.l1At i with
      | none => s
      | some x =>
        if a.fits x.st then l1Run (l1Do s c x i a) c l rest
        else newMiss s c l true true (a :: rest)

/-- Line data serves the first access, where it is a load, without being installed; the rest miss again (R239). -/
def l1Once (s : State) (c : Nat) (l : LineNo) (ld : LineData) : List MemAcc → State
  | [] => s
  | a :: rest =>
    match a.kind with
    | .load id =>
      let s1 := loadPart s c id a.pos a.len (lineNum ld.d a.off a.len) ld.poison
      if rest.isEmpty then s1 else l1Run s1 c l rest
    | _ => l1Run s c l (a :: rest)

/-- Two parts of accesses touch a common byte. -/
def MemAcc.meets (a b : MemAcc) : Bool := decide (a.off < b.off + b.len) && decide (b.off < a.off + a.len)

/-- A load of a held line whose ownership is being asked for hits, unless an access that waits touches a byte of it (Table 8-7, R254). -/
def Core.hitsUnder (k : Core) (m : Miss) (a : MemAcc) : Bool :=
  a.fits .s && (k.l1Line m.line).isSome && !m.accs.any a.meets

/-- A part of an access meets the L1: it is performed, joins an outstanding miss of its line, or makes one. DESIGN CHOICE (log 95): each
part of an access counts once in CORE_L1_HIT or CORE_L1_MISS, AMOs too, and one that joins an outstanding miss counts as a miss. -/
def l1Access (s : State) (c : Nat) (l : LineNo) (a : MemAcc) : State :=
  let k := s.core c
  match k.missOf l with
  | some m =>
    if k.hitsUnder m a then l1Run (s.count (Reg.CORE_L1_HIT c)) c l [a]
    else (s.modCore c (fun k => { k with miss := k.miss.map (fun m => if m.line = l then { m with accs := m.accs ++ [a] } else m) })).count
      (Reg.CORE_L1_MISS c)
  | none =>
    let hit := match k.l1Line l with | some x => a.fits x.st | none => false
    l1Run (s.count (if hit then Reg.CORE_L1_HIT c else Reg.CORE_L1_MISS c)) c l [a]

/-! ### Victims and fills -/

/-- Forwards and recalls kept for the line are answered by FWD_MISS (R231). -/
def keptMiss (s : State) (c : Nat) (l : LineNo) : State :=
  let mine := (s.core c).kept.filter (fun m => m.l == l)
  let s1 := s.modCore c (fun k => { k with kept := k.kept.filter (fun m => m.l != l), hold := setDel k.hold l.toNat })
  forEach mine s1 (fun s _ => s.toHome c l .fwdMiss)

/-- A held line is offered to its home and leaves the L1 (R211, R236). -/
def l1Offer (s : State) (c i : Nat) : State :=
  match (s.core c).l1At i with
  | none => s
  | some x =>
    let dirty := x.st == .m || x.st == .o
    let s1 := s.modCore c (fun k => { (k.setL1 i none) with offered := k.offered ++ [(x.line.toNat, x.ld)] })
    let s2 := s1.toHome c x.line (if dirty then .victD x.ld else .victC (s.keyOf c false))
    keptMiss s2 c x.line

/-- The way that a fill takes: the lowest invalid one, else the tree's (R217). -/
def Core.fillWay (k : Core) (l : LineNo) : Nat :=
  match (List.range 4).find? (fun w => (k.l1At (l1Set l * 4 + w)).isNone) with
  | some w => w
  | none => plruVictim (mapGet (fun _ => 0) k.plru (l1Set l))

/-- Install a line in state `st`; a line won in E or M begins its hold (R237). -/
def l1Install (s : State) (c : Nat) (l : LineNo) (ld : LineData) (st : Moesi) : State :=
  let i := match (s.core c).l1Way l with | some i => i | none => l1Set l * 4 + (s.core c).fillWay l
  let s1 := match (s.core c).l1At i with
    | some x => if x.line = l then s else l1Offer s c i
    | none => s
  s1.modCore c (fun k =>
    let k1 := (k.setL1 i (some ⟨l, st, ld⟩)).touch i
    if st == .m || st == .e then { k1 with hold := setIns k1.hold l.toNat } else k1)

/-- A fill arrives for an outstanding miss (R236, R239). Data that no miss waits for is dropped. -/
def l1Fill (s : State) (c : Nat) (l : LineNo) (ld : LineData) (st : Moesi) : State :=
  match (s.core c).missOf l with
  | none => s
  | some m =>
    let s1 := s.modCore c (fun k => k.dropMiss l)
    if m.once && st == .s then l1Once s1 c l ld m.accs
    else l1Run (l1Install s1 c l ld st) c l m.accs

/-- GRANT: ownership of the copy held (R236); the line starts its hold. Where the copy has been evicted meanwhile, the miss asks for the line
with its data, once the offer is settled (R231). -/
def l1Grant (s : State) (c : Nat) (l : LineNo) : State :=
  match (s.core c).missOf l with
  | none => s
  | some m =>
    let s1 := s.modCore c (fun k => k.dropMiss l)
    match (s.core c).l1Line l with
    | none => newMiss s1 c l true false m.accs
    | some x => l1Run (l1Install s1 c l x.ld .m) c l m.accs

/-- The copy of a line is invalidated. -/
def l1Drop (s : State) (c : Nat) (l : LineNo) : State := s.modCore c (fun k => k.modL1 l (fun _ => none))

/-- A read copy of line `l` is on its way to core `c`. -/
def State.dataComes (s : State) (c : Nat) (l : LineNo) : Bool :=
  s.net.any (fun m => m.dst == epCore c && m.l == l && (match m.body with | .dataS _ => true | _ => false))

/-- INV: an S copy goes (Table 8-7). A read copy that is still on its way from another endpoint belongs to a transaction before the one that
invalidates: it serves the access that asked and is not installed, as no agent may read the old value later (R255; DEDUCED, log 95). -/
def l1Inv (s : State) (c : Nat) (l : LineNo) : State :=
  match (s.core c).l1Line l with
  | some x => if x.st == .s then l1Drop s c l else s
  | none =>
    if s.dataComes c l then s.modCore c (fun k => { k with miss := k.miss.map (fun m => if m.line = l then { m with once := true } else m) })
    else s

/-! ### Forwards and recalls at an owner (Table 8-7) -/

/-- The requester core that a forward names. -/
def fwdCore (num : ReqNum) : Nat := num.toNat % 4096

/-- Send the data of a forward to a requester on this die, or home it in FWD_DONE for another die (R234). -/
def fwdAnswer (s : State) (c : Nat) (l : LineNo) (num : ReqNum) (x : L1Line) (getx ifetch : Bool) : State :=
  let dirty := x.st == .m || x.st == .o
  let st : Option Moesi := if getx then none else if dirty then some .o else some .s
  let s1 := s.modCore c (fun k => k.modL1 l (fun y => st.map (fun t => { y with st := t })))
  let near := num.toNat < 0x1000 && coreDie (fwdCore num) == coreDie c
  let s2 := if near then s1.send (epCore c) (epCore (fwdCore num)) l (if getx then .dataM x.ld else if ifetch then .dataI x.ld else .dataS x.ld) else s1
  s2.toHome c l (.fwdDone dirty st (if near then none else some x.ld))

/-- Answer one forward or recall message from the state of the line. -/
def l1Answer (s : State) (c : Nat) (m : Msg) : State :=
  match (s.core c).l1Line m.l with
  | none => s.toHome c m.l .fwdMiss
  | some x =>
    let dirty := x.st == .m || x.st == .o
    match m.body with
    | .fwdGets num ifetch => fwdAnswer s c m.l num x false ifetch
    | .fwdGetx num => fwdAnswer s c m.l num x true false
    | .fwdRd => s.toHome c m.l (.fwdDone dirty (some x.st) (some x.ld))
    | .recall keepS =>
      (s.modCore c (fun k => k.modL1 m.l (fun y => if keepS then some { y with st := .s } else none))).toHome c m.l (.recallData x.ld dirty)
    | _ => s

/-- The L1's own win of line `l` is still to come: it has asked for the line and holds no copy that a forward could be meant for, as the home
forwards to an owner alone. -/
def Core.winning (k : Core) (l : LineNo) : Bool :=
  (k.missOf l).isSome && !k.isOffered l && (match k.l1Line l with | some x => x.st == .s | none => true)

/-- A forward or recall reaches an L1: kept during a hold or before the data of the L1's own win, else answered (R237). An L1 that has
offered the line answers FWD_MISS (R231). -/
def l1Forward (s : State) (c : Nat) (m : Msg) : State :=
  let k := s.core c
  if k.isHeld m.l || k.winning m.l || k.kept.any (fun x => x.l == m.l) then s.modCore c (fun k => { k with kept := k.kept ++ [m] })
  else l1Answer s c m

/-- The hold of a line ends and what was kept is answered in arrival order (R237). -/
def holdEnd (s : State) (c : Nat) (l : LineNo) : State :=
  if !(s.core c).isHeld l then s else
  let mine := (s.core c).kept.filter (fun m => m.l == l)
  let s1 := s.modCore c (fun k => { k with kept := k.kept.filter (fun m => m.l != l), hold := setDel k.hold l.toNat })
  forEach mine s1 (fun s m => l1Answer s c m)

/-! ### The write streaming detector (R208-R210) -/

/-- Bytes `off .. off + n - 1` of a line. -/
def byteMask (off n : Nat) : BitVec 128 := BitVec.ofNat 128 ((2 ^ n - 1) * 2 ^ off)

def Core.wsdBuf (k : Core) (l : Nat) : Option (Line × BitVec 128 × Bool) := (k.wsd.bufs.find? (fun e => e.1 == l)).map (fun e => e.2)

/-- A line buffer leaves as one SWR (R209). -/
def wsdWrite (s : State) (c l : Nat) : State :=
  match (s.core c).wsdBuf l with
  | none => s
  | some (d, be, poison) =>
    let s1 := s.modCore c (fun k => { k with wsd := { k.wsd with bufs := k.wsd.bufs.filter (fun e => e.1 != l) }, swrOut := k.swrOut ++ [l] })
    let s2 := s1.addWrap (Reg.CORE_WSD c) Fld.CORE_WSD_lines 1
    s2.toHome c (BitVec.ofNat 45 l) (.swr d be poison)

/-- Both line buffers are written. -/
def wsdFlush (s : State) (c : Nat) : State := forEach ((s.core c).wsd.bufs.map (·.1)) s (fun s l => wsdWrite s c l)

def State.streaming (s : State) (c : Nat) : Bool := s.flag (Reg.CORE_WSD c) Fld.CORE_WSD_active

/-- Leave streaming: the buffers are written, run := 0 (R210). -/
def wsdStop (s : State) (c : Nat) : State :=
  let s1 := wsdFlush s c
  (s1.setFlag (Reg.CORE_WSD c) Fld.CORE_WSD_active false).put (Reg.CORE_WSD c) Fld.CORE_WSD_run 0

/-- The detector as a leg or a restore finds it: allocate mode, run 0, no line tracked (R208, R210). -/
def wsdReset (s : State) (c : Nat) : State :=
  (wsdStop s c).modCore c (fun k => { k with wsd := { k.wsd with cur := none, nxt := none, last := none } })

/-- Line `l` is completed: the tracking moves up and run steps (R208); at 32 the detector enters streaming (R209). -/
def wsdComplete (s : State) (c l : Nat) : State :=
  let w := (s.core c).wsd
  let up (n : Nat) : Nat × BitVec 128 :=
    match w.cur, w.nxt with
    | some a, some b => if a.1 = n then a else if b.1 = n then b else (n, 0)
    | some a, none => if a.1 = n then a else (n, 0)
    | _, _ => (n, 0)
  let run := if w.last = some (l - 1) && l != 0 then min 32 (s.get (Reg.CORE_WSD c) Fld.CORE_WSD_run + 1) else 1
  let s1 := s.modCore c (fun k => { k with wsd := { k.wsd with cur := some (up (l + 1)), nxt := some (up (l + 2)), last := some l } })
  let s2 := s1.put (Reg.CORE_WSD c) Fld.CORE_WSD_run run
  if run = 32 && s.flag (Reg.LLC_DIE_CTL (coreDie c)) Fld.LLC_DIE_CTL_stream_en then s2.setFlag (Reg.CORE_WSD c) Fld.CORE_WSD_active true else s2

/-- The detector sees a store to bytes of line `l` (R208, R210). -/
def wsdSee (s : State) (c l off n : Nat) : State :=
  let w := (s.core c).wsd
  let m := byteMask off n
  let isCur := match w.cur with | some a => a.1 == l | none => false
  let isNxt := match w.nxt with | some a => a.1 == l | none => false
  if isCur then
    let m1 := (match w.cur with | some a => a.2 | none => 0) ||| m
    let s1 := s.modCore c (fun k => { k with wsd := { k.wsd with cur := some (l, m1) } })
    if wholeLine m1 then wsdComplete s1 c l else s1
  else if isNxt then
    let m1 := (match w.nxt with | some a => a.2 | none => 0) ||| m
    let s1 := s.modCore c (fun k => { k with wsd := { k.wsd with nxt := some (l, m1) } })
    if wholeLine m1 then wsdComplete s1 c l else s1
  else
    let s1 := if s.streaming c then wsdStop s c else s
    let up : BitVec 128 := match w.cur with | some a => if a.1 = l + 1 then a.2 else 0 | none => 0
    let s2 := s1.modCore c (fun k => { k with wsd := { k.wsd with cur := some (l, m), nxt := some (l + 1, up) } })
    if wholeLine m then wsdComplete s2 c l else s2

/-- A streaming store to an absent line is combined in a line buffer; a full line leaves, and a third line drives out the oldest. -/
def wsdPut (s : State) (c l off n v : Nat) (poison : Bool) : State :=
  let put (d : Line) (be : BitVec 128) (p : Bool) : Nat × Line × BitVec 128 × Bool := (l, linePut d off n v, be ||| byteMask off n, p || poison)
  match (s.core c).wsdBuf l with
  | some (d, be, p) =>
    let s1 := s.modCore c (fun k => { k with wsd := { k.wsd with bufs := k.wsd.bufs.map (fun e => if e.1 = l then put d be p else e) } })
    if wholeLine (be ||| byteMask off n) then wsdWrite s1 c l else s1
  | none =>
    let s1 := match (s.core c).wsd.bufs with
      | e :: _ :: _ => wsdWrite s c e.1
      | _ => s
    let s2 := s1.modCore c (fun k => { k with wsd := { k.wsd with bufs := k.wsd.bufs ++ [put 0 0 false] } })
    if wholeLine (byteMask off n) then wsdWrite s2 c l else s2

/-! ### Accesses that may cross lines -/

/-- The parts of bytes `a .. a + n - 1` by line: line, offset, length, position. -/
def lineParts (a n : Nat) : List (Nat × Nat × Nat × Nat) :=
  if n = 0 then [] else
  (List.range ((a + n - 1) / 128 - a / 128 + 1)).map (fun i =>
    let l := a / 128 + i
    let lo := max a (l * 128)
    let hi := min (a + n) (l * 128 + 128)
    (l, lo - l * 128, hi - lo, lo - a))

/-- A store to line `l` is combined in a line buffer: the detector streams, tracks the line, and the L1 neither holds nor awaits it (R209). -/
def State.streams (s : State) (c l : Nat) : Bool :=
  let k := s.core c
  s.streaming c && (k.l1Line (BitVec.ofNat 45 l)).isNone && (k.missOf (BitVec.ofNat 45 l)).isNone &&
    (match k.wsd.cur, k.wsd.nxt with
      | some p, some q => p.1 == l || q.1 == l
      | _, _ => false)

/-- A line of the store whose older bytes a buffer holds while the store itself would go to the L1: it is written first (R254). -/
def State.staleBuf (s : State) (c a n : Nat) : Option Nat :=
  ((lineParts a n).find? (fun x => ((s.core c).wsdBuf x.1).isSome && !s.streams c x.1)).map (·.1)

/-- Store bytes (a number, lowest address first) to stacked memory through the L1 and the detector (R208, R209, R217). A store of a line
that its home refuses fails (R475). DESIGN CHOICE (log 91): the detector watches these stores only, not those to a scratchpad, to another
module or through a window. -/
def memStore (s : State) (c a n v : Nat) (poison eng : Bool) : State :=
  forEach (lineParts a n) s (fun s x =>
    let l := x.1
    let val := v / 2 ^ (8 * x.2.2.2) % 2 ^ (8 * x.2.2.1)
    if s.lineRefuses (l * 128) then writeFailed s c 1
    else
      let s1 := wsdSee s c l x.2.1 x.2.2.1
      if s.streams c l then wsdPut s1 c l x.2.1 x.2.2.1 val poison
      else l1Access s1 c (BitVec.ofNat 45 l) ⟨x.2.1, x.2.2.1, x.2.2.2, .store val poison, eng⟩)

/-- One byte-run of a load: from a line buffer where it holds the bytes, else through the L1. -/
def memLoadPart (s : State) (c id : Nat) (l off n pos : Nat) (eng : Bool) : State :=
  match (s.core c).wsdBuf l with
  | none => l1Access s c (BitVec.ofNat 45 l) ⟨off, n, pos, .load id, eng⟩
  | some (d, be, p) =>
    if (List.range n).all (fun i => be.getLsbD (off + i)) then loadPart s c id pos n (lineNum d off n) p
    else forEach (List.range n) s (fun s i =>
      if be.getLsbD (off + i) then loadPart s c id (pos + i) 1 (lineNum d (off + i) 1) p
      else l1Access s c (BitVec.ofNat 45 l) ⟨off + i, 1, pos + i, .load id, eng⟩)

/-- Load `n` bytes of stacked memory into load record `id`, which has been made, from byte `pos` of the record on. -/
def memLoadAt (s : State) (c id a n pos : Nat) (eng : Bool) : State :=
  forEach (lineParts a n) s (fun s x => memLoadPart s c id x.1 x.2.1 x.2.2.1 (pos + x.2.2.2) eng)

/-- Load `n` bytes of stacked memory into load record `id`, which has been made. -/
def memLoad (s : State) (c id a n : Nat) (eng : Bool) : State := memLoadAt s c id a n 0 eng

/-- A load record for `n` bytes at `addr`; `far` where it leaves the module. -/
def newLoad (s : State) (c id n : Nat) (dest : LoadDest) (addr : W64) (far : Bool) : State :=
  s.modCore c (fun k => { k with loads := k.loads ++ [⟨id, dest, addr, far, 0, n, false, false, none, false⟩] })

/-- A line still has an access of the core that is not in line order: a streaming write or an RADD (R254). -/
def Core.unordered (k : Core) (a n : Nat) : Bool :=
  (lineParts a n).any (fun x => k.swrOut.contains x.1 || k.raddOut.contains x.1)

end Sys2Proof.Machine
end

