-- ==== Sys2Proof/Machine/Cache.lean ====
section
/-!
DEFINITION. The slices of the unified cache (chapter 7): data ways and shadow entries with their directory entries (R187, R223),
replacement (R199, R200), eviction with its back-invalidation (R188), victim and reduction buffers (R212, R245), writes on their way to
the memory controllers (R327, R344), pins (R201-R203), bypass (R194), victim offers (R211, R231).
-/
namespace Sys2Proof.Machine

/-! ### Ways and shadow entries -/

def wayKey (g set w : Nat) : Nat := (g * 8192 + set) * 16 + w

def State.wayAt (s : State) (k : Nat) : Option Way := mapGet (fun _ => none) s.llc.ways k

def State.setWayAt (s : State) (k : Nat) (x : Option Way) : State :=
  { s with llc := { s.llc with ways := mapSet (fun _ => none) s.llc.ways k x } }

def Way.isHome (x : Way) : Bool := match x.use with | .home .. => true | .replica .. => false

/-- The directory entry of a home way. -/
def Way.dir (x : Way) : Dir := match x.use with | .home d _ _ => d | .replica .. => Dir.empty

/-- A pinned line, for its partition or for a reduction, is never a victim (R201, R247). -/
def Way.isPinned (x : Way) : Bool := match x.use with | .home _ p r => p.isSome || r | .replica .. => false

/-- The line is pinned for a partition (R201). -/
def Way.partPinned (x : Way) : Bool := match x.use with | .home _ p _ => p.isSome | .replica .. => false

def Way.withDir (x : Way) (d : Dir) : Way :=
  match x.use with
  | .home _ p r => { x with use := .home d p r }
  | .replica .. => x

/-- The way of slice `g` that holds line `l` as a home line (`rep` false) or as a replica. -/
def State.findWay (s : State) (g : Nat) (l : LineNo) (rep : Bool) : Option Nat :=
  ((List.range 16).map (wayKey g (setOf l))).find? (fun k =>
    match s.wayAt k with
    | some x => x.line == l && x.isHome != rep
    | none => false)

/-- The home way of a line. -/
def State.homeWay (s : State) (l : LineNo) : Option Nat := s.findWay (s.home l) l false

def shadowKey (g set e : Nat) : Nat := (g * 8192 + set) * 2 + e

def State.shadowAt (s : State) (k : Nat) : Option Shadow := mapGet (fun _ => none) s.llc.shadows k

def State.setShadowAt (s : State) (k : Nat) (x : Option Shadow) : State :=
  { s with llc := { s.llc with shadows := mapSet (fun _ => none) s.llc.shadows k x } }

def State.findShadow (s : State) (l : LineNo) : Option Nat :=
  ((List.range 2).map (shadowKey (s.home l) (setOf l))).find? (fun k =>
    match s.shadowAt k with
    | some x => x.line == l
    | none => false)

/-! ### Directory entries (R223, R225) -/

/-- Pointer `i`: kind in bits 13:12, core index below; kinds 0 empty, 1 S, 2 O, 3 X. -/
def Dir.ptr (d : Dir) (i : Nat) : Nat := bits d.ptrs.toNat (14 * i + 13) (14 * i)

def Dir.setPtr (d : Dir) (i v : Nat) : Dir :=
  { d with ptrs := (d.ptrs &&& ~~~ BitVec.ofNat 56 ((2 ^ 14 - 1) * 2 ^ (14 * i))) ||| BitVec.ofNat 56 (v % 2 ^ 14 * 2 ^ (14 * i)) }

/-- The pointers of an entry that is not coarse: index, kind, core. -/
def Dir.list (d : Dir) : List (Nat × Nat × Nat) :=
  if d.coarse then [] else
  ((List.range 4).map (fun i => (i, d.ptr i / 4096, d.ptr i % 4096))).filter (fun x => x.2.1 != 0)

/-- The L1s recorded with kind S. -/
def Dir.sharers (d : Dir) : List Nat := (d.list.filter (fun x => x.2.1 == 1)).map (fun x => x.2.2)

/-- The owner L1: kind O or X. -/
def Dir.owner (d : Dir) : Option Nat := (d.list.find? (fun x => x.2.1 == 2 || x.2.1 == 3)).map (fun x => x.2.2)

/-- The dies that l1_dies of a coarse entry marks, ascending. -/
def Dir.l1Dies (d : Dir) : List Nat := if d.coarse then (List.range 8).filter (fun i => d.ptrs.getLsbD (48 + i)) else []

/-- The dies whose replica slices hold a replica, ascending. -/
def Dir.repDies (d : Dir) : List Nat := (List.range 8).filter (fun i => d.reps.getLsbD i)

/-- The entry records no copy of any kind. -/
def Dir.isEmpty (d : Dir) : Bool := d.reps == 0 && (if d.coarse then d.l1Dies.isEmpty else d.list.isEmpty)

/-- The state that what an entry records gives it (Table 8-3). -/
def Dir.settle (d : Dir) : Dir :=
  if d.owner.isSome then { d with state := .owned }
  else if d.reps != 0 then { d with state := .replicated }
  else if d.isEmpty then Dir.empty
  else { d with state := .shared }

/-- The pointers of core `c` are removed. -/
def Dir.without (d : Dir) (c : Nat) : Dir :=
  if d.coarse then d
  else (List.range 4).foldl (fun d i => if d.ptr i / 4096 != 0 && d.ptr i % 4096 == c then d.setPtr i 0 else d) d

/-- The entry has no free pointer for another L1 (R225). -/
def Dir.isFull (d : Dir) (c : Nat) : Bool := !d.coarse && d.list.length == 4 && !(d.list.any (fun x => x.2.2 == c))

/-- Record L1 `c` with kind S; the Bool says that the entry turned coarse (R225). -/
def Dir.addSharer (d : Dir) (c : Nat) : Dir × Bool :=
  if d.coarse then ({ d with ptrs := d.ptrs ||| BitVec.ofNat 56 (2 ^ (48 + coreDie c)) }, false)
  else if d.list.any (fun x => x.2.2 == c) then (d, false)
  else match (List.range 4).find? (fun i => d.ptr i / 4096 == 0) with
    | some i => (d.setPtr i (4096 + c), false)
    | none =>
      let m := (d.list.map (fun x => x.2.2) ++ [c]).foldl (fun a x => a ||| BitVec.ofNat 56 (2 ^ (48 + coreDie x))) (0 : BitVec 56)
      ({ d with coarse := true, ptrs := m }, true)

/-- OWNED with one X pointer (Table 8-6). -/
def Dir.ownedBy (c : Nat) : Dir := (Dir.setPtr ⟨.owned, false, 0, 0⟩ 0 (3 * 4096 + c))

/-- The owner's pointer takes kind `k`. -/
def Dir.ownerKind (d : Dir) (k : Nat) : Dir :=
  match d.list.find? (fun x => x.2.1 == 2 || x.2.1 == 3) with
  | some x => d.setPtr x.1 (k * 4096 + x.2.2)
  | none => d

/-- The directory entry of a line: in its data way, in a shadow entry, or none. -/
def State.dirOf (s : State) (l : LineNo) : Dir :=
  match s.homeWay l with
  | some k => match s.wayAt k with | some x => x.dir | none => Dir.empty
  | none => match s.findShadow l with
    | some k => match s.shadowAt k with | some x => x.dir | none => Dir.empty
    | none => Dir.empty

/-! ### Line orders -/

def State.lineq (s : State) (l : LineNo) : LineQ := mapGet (fun _ => ⟨none, [], none⟩) s.llc.lineq l.toNat

def State.setLineq (s : State) (l : LineNo) (q : LineQ) : State :=
  { s with llc := { s.llc with lineq := mapSet (fun _ => ⟨none, [], none⟩) s.llc.lineq l.toNat q } }

/-- A transaction of the line is in progress. -/
def State.lineBusy (s : State) (l : LineNo) : Bool := (s.lineq l).act.isSome

/-! ### Buffers and memory writes -/

def State.vbuf (s : State) (g : Nat) : List VbEnt := mapGet (fun _ => []) s.llc.vbuf g
def State.setVbuf (s : State) (g : Nat) (v : List VbEnt) : State :=
  { s with llc := { s.llc with vbuf := mapSet (fun _ => []) s.llc.vbuf g v } }
def State.rbuf (s : State) (g : Nat) : List VbEnt := mapGet (fun _ => []) s.llc.rbuf g
def State.setRbuf (s : State) (g : Nat) (v : List VbEnt) : State :=
  { s with llc := { s.llc with rbuf := mapSet (fun _ => []) s.llc.rbuf g v } }

/-- The line of a mirrored line's copy: 1 GiB above (R343). -/
def copyLine (l : LineNo) : LineNo := l + 0x800000#45

/-- A line write passes to the controllers of its copies (R327, R344). DESIGN CHOICE (log 95): every line write that leaves a slice counts in
LLC_CNT_WB, those that allocate nothing too. -/
def memWrite (s : State) (l : LineNo) (ld : LineData) : State :=
  let w := if s.mirrored (lineBase l) then [(l.toNat, ld), ((copyLine l).toNat, ld)] else [(l.toNat, ld)]
  let s1 := { s with stk := { s.stk with wr := s.stk.wr ++ w } }
  let s2 := if s.mirrored (lineBase l) then { s1 with llc := { s1.llc with done := s1.llc.done ++ [(l.toNat, false, false)] } } else s1
  s2.count (sliceReg Reg.LLC_CNT_WB (s.home l))

/-- A line's data in a buffer that has not issued its memory write. -/
def State.bufOf (s : State) (l : LineNo) : Option LineData :=
  let g := s.home l
  ((s.vbuf g ++ s.rbuf g).find? (fun e => e.line == l && !e.issued)).map (·.ld)

/-- The line sits in the victim buffer or a reduction buffer with its write issued. -/
def State.bufIssued (s : State) (l : LineNo) : Bool :=
  let g := s.home l
  (s.vbuf g ++ s.rbuf g).any (fun e => e.line == l && e.issued)

/-- Replace the data of a line's unissued buffer entry. -/
def setBuf (s : State) (l : LineNo) (ld : LineData) : State :=
  let f (v : List VbEnt) : List VbEnt := v.map (fun e => if e.line = l && !e.issued then { e with ld := ld } else e)
  let g := s.home l
  (s.setVbuf g (f (s.vbuf g))).setRbuf g (f (s.rbuf g))

/-- The newest data on its way to memory. -/
def State.wrOf (s : State) (l : LineNo) : Option LineData :=
  ((s.stk.wr.filter (fun e => e.1 == l.toNat)).getLast?).map (·.2)

def State.vbFull (s : State) (g : Nat) : Bool := 64 ≤ (s.vbuf g).length

/-- A dirty line leaves for the victim buffer (R212); an unissued entry of the line takes the newer data. -/
def vbPush (s : State) (l : LineNo) (ld : LineData) : State :=
  if (s.bufOf l).isSome then setBuf s l ld
  else s.setVbuf (s.home l) (s.vbuf (s.home l) ++ [⟨l, ld, false⟩])

/-- Data on its way to memory: through the victim buffer, or straight to the controller while no entry is free. -/
def toBuffer (s : State) (l : LineNo) (ld : LineData) : State :=
  if s.vbFull (s.home l) && (s.bufOf l).isNone then memWrite s l ld else vbPush s l ld

/-! ### Reading and writing data ways -/

/-- A slice enters bypass (R194, R473): its dirty lines are written back and its pins dropped. -/
def sliceBypass (s : State) (g : Nat) : State :=
  let r := sliceReg Reg.LLC_SLICE_STATUS g
  let mine := s.llc.ways.filter (fun e => e.1 / 131072 == g)
  let s1 := forEach mine s (fun s e =>
    match e.2 with
    | some x =>
      match x.use with
      | .home d p _ =>
        let s1 := if x.dirty then memWrite s x.line x.ld else s
        let s2 := if p.isSome then s1.count (sliceReg Reg.LLC_CNT_PIN_LOST g) else s1
        s2.setWayAt e.1 (some { x with dirty := false, use := .home d none false })
      | .replica .. => s
    | none => s)
  let s2 := (s1.setFlag r Fld.LLC_SLICE_STATUS_bypass true).put r Fld.LLC_SLICE_STATUS_pinned_max 0
  errRecord s2 (sliceDie g) (ErrRec.plain 0 0x030 2 g 0)

def State.bypassed (s : State) (g : Nat) : Bool := s.flag (sliceReg Reg.LLC_SLICE_STATUS g) Fld.LLC_SLICE_STATUS_bypass

/-- One more line of the slice's data ways is found uncorrectable; at slice_ue distinct lines the array is declared failed (R473). -/
def sliceUe (s : State) (g : Nat) (l : LineNo) : State :=
  let seen := mapGet (fun _ => []) s.llc.ueLines g
  let seen1 := if seen.contains l.toNat then seen else seen ++ [l.toNat]
  let s1 := { s with llc := { s.llc with ueLines := mapSet (fun _ => []) s.llc.ueLines g seen1 } }
  if s.get (Reg.ERR_CTL (sliceDie g)) Fld.ERR_CTL_slice_ue ≤ seen1.length && !s.bypassed g then sliceBypass s1 g else s1

/-- The data of way `k` is decoded (R460, R461, R463). -/
def wayDecode (s : State) (k : Nat) : State :=
  match s.wayAt k with
  | some x =>
    let g := k / 131072
    match x.bad with
    | none => s
    | some .one => errRecord (s.setWayAt k (some { x with bad := none })) (sliceDie g) (ErrRec.plain 0 0x001 2 g (lineBase x.line))
    | some .two =>
      if x.isHome then
        sliceUe (errRecord (s.setWayAt k (some { x with bad := none, ld := ⟨x.ld.d, true⟩ })) (sliceDie g)
          (ErrRec.plain 1 0x040 2 g (lineBase x.line))) g x.line
      else errRecord (s.setWayAt k none) (sliceDie g) (ErrRec.plain 0 0x004 2 g (lineBase x.line))
  | none => s

/-- Data is placed in way `k`: an armed injection of unit 2 alters it (R483). -/
def wayPlace (s : State) (k : Nat) (x : Way) : State :=
  let die := sliceDie (k / 131072)
  match s.armed die 2 0 with
  | none => s.setWayAt k (some x)
  | some i =>
    let y := if i.kind = 3 then { x with ld := ⟨x.ld.d, true⟩ } else { x with bad := some (if i.kind = 1 then .one else .two) }
    (s.disarm die).setWayAt k (some y)

/-- The current data of a line that no L1 owns, where the LLC holds it: data way, then buffers, then a write on its way (R224). -/
def State.lineData (s : State) (l : LineNo) : Option LineData :=
  let inWay := match s.homeWay l with
    | some k => if s.bypassed (s.home l) then none else (s.wayAt k).map (·.ld)
    | none => none
  match inWay with
  | some x => some x
  | none => match s.bufOf l with
    | some x => some x
    | none => if s.bufIssued l then s.wrOf l else none

/-- The line's data as stored in memory. -/
def State.memLine (s : State) (l : LineNo) : LineData := ⟨lineOfBytes (s.bytes (lineBase l) 128), s.poisoned (lineBase l)⟩

/-! ### Replacement (R199, R200) -/

def lfsr16 (x : Nat) : Nat := (x * 2 % 65536) + (if (bit x 15 != bit x 13) != (bit x 12 != bit x 10) then 1 else 0)

def lfsr16n : Nat → Nat → Nat
  | 0, x => x
  | n + 1, x => lfsr16n n (lfsr16 x)

def State.lfsr (s : State) (g : Nat) : Nat := s.get (sliceReg Reg.LLC_SLICE_LFSR g) Fld.LLC_SLICE_LFSR_state

def State.setLfsr (s : State) (g v : Nat) : State := s.put (sliceReg Reg.LLC_SLICE_LFSR g) Fld.LLC_SLICE_LFSR_state v

/-- The promise that an allocation for line `l` at slice `g` holds. -/
def State.promised (s : State) (g : Nat) (l : LineNo) (shadow : Bool) : Option Nat :=
  (s.llc.promises.find? (fun p => p.line == l && p.slice == g && p.shadow == shadow)).map (·.k)

/-- Way or shadow entry `k` is promised to an allocation. -/
def State.isPromised (s : State) (shadow : Bool) (k : Nat) : Bool := s.llc.promises.any (fun p => p.shadow == shadow && p.k == k)

/-- The ways of `mask` in a set that hold no pinned line. -/
def State.cands (s : State) (g set mask : Nat) : List Nat :=
  (List.range 16).filter (fun w => bit mask w && !(match s.wayAt (wayKey g set w) with | some x => x.isPinned | none => false))

/-- The candidates that no other allocation is already emptying. -/
def State.openCands (s : State) (g set mask : Nat) : List Nat :=
  (s.cands g set mask).filter (fun w => !s.isPromised false (wayKey g set w))

/-- The lowest candidate with no valid line. -/
def State.freeWay (s : State) (g set mask : Nat) : Option Nat :=
  (s.openCands g set mask).find? (fun w => (s.wayAt (wayKey g set w)).isNone)

/-- The way that the rules of R200 choose, and the LFSR after the draw where one is taken. -/
def State.pick (s : State) (g set mask : Nat) : Option (Nat × Option Nat) :=
  let c := s.openCands g set mask
  match s.freeWay g set mask with
  | some w => some (w, none)
  | none =>
    let x := lfsr16n 4 (s.lfsr g)
    let at_ := ((List.range 16).map (fun i => (x % 16 + i) % 16)).find? (fun w => c.contains w)
    at_.map (fun w => (w, some x))

/-! ### Which ways a request may use (R196, R198) -/

def State.repWays (s : State) (g : Nat) : Nat := s.get (sliceReg Reg.LLC_REPLICA_WAYS g) Fld.LLC_REPLICA_WAYS_ways

def notMask (x : Nat) : Nat := 0xFFFF ^^^ x

/-- The mask of a key for home lines at slice `g`. -/
def State.homeMask (s : State) (g : Nat) (k : Key) : Nat :=
  match k.part with
  | none => 0
  | some p =>
    let a := Reg.LLC_WMASK_A (sliceDie g) p.val
    (if k.stream then (if k.lc then s.get a Fld.LLC_WMASK_A_stream_lc else s.get a Fld.LLC_WMASK_A_stream_be)
     else (if k.lc then s.get a Fld.LLC_WMASK_A_core_lc else s.get a Fld.LLC_WMASK_A_core_be)) &&& notMask (s.repWays g)

/-- The replica mask of a key at slice `g`, restricted to the replica ways. -/
def State.repMask (s : State) (g : Nat) (k : Key) : Nat :=
  match k.part with
  | none => 0
  | some p =>
    let b := Reg.LLC_WMASK_B (sliceDie g) p.val
    (if k.lc then s.get b Fld.LLC_WMASK_B_repl_lc else s.get b Fld.LLC_WMASK_B_repl_be) &&& s.repWays g

/-- The pin mask of a partition at slice `g`. -/
def State.pinMask (s : State) (g p : Nat) : Nat :=
  s.get (Reg.LLC_WMASK_B (sliceDie g) p) Fld.LLC_WMASK_B_pin &&& notMask (s.repWays g)

/-- The request takes no-allocate service (R198). -/
def State.noAlloc (s : State) (g set mask : Nat) (k : Key) : Bool :=
  s.bypassed g || (!k.lc && s.flag (sliceReg Reg.LLC_SLICE_STATUS g) Fld.LLC_SLICE_STATUS_nalloc_be) || (s.cands g set mask).isEmpty

/-! ### Removing every copy of a line in one step (R193, R203, R472) -/

/-- Remove replicas of a line from every replica slice. -/
def dropReplicas (s : State) (l : LineNo) : State :=
  forEach (List.range 8) s (fun s d =>
    match s.repSlice l d with
    | some r => match s.findWay r l true with
      | some k => s.setWayAt k none
      | none => s
    | none => s)

/-- A message that is delivered ahead of a back-invalidation: data or a grant for an L1. -/
def deliverFill (s : State) (m : Msg) : State :=
  let c := m.dst.toNat
  match m.body with
  | .dataS ld => if c < 4096 then l1Fill (s.recv m) c m.l ld .s else s
  | .dataE ld => if c < 4096 then l1Fill (s.recv m) c m.l ld .e else s
  | .dataM ld => if c < 4096 then l1Fill (s.recv m) c m.l ld .m else s
  | .grant => if c < 4096 then l1Grant (s.recv m) c m.l else s
  | _ => s

/-- The L1 copies of a line go; the last dirty data seen is collected. -/
def purgeL1s (s : State) (l : LineNo) : State × Option LineData :=
  s.cores.foldl (fun a e =>
    match e.2.l1Line l with
    | none => a
    | some x =>
      let s1 := keptMiss (a.1.modCore e.1 (fun k => k.modL1 l (fun _ => none))) e.1 l
      (s1, if x.st == .m || x.st == .o then some x.ld else a.2)) (s, none)

/-- A dirty victim or cleaned line that is still on its way to the home. -/
def State.victimData (s : State) (l : LineNo) : Option LineData :=
  s.net.findSome? (fun m => if m.l = l then (match m.body with | .victD ld => some ld | .cleanD ld => some ld | _ => none) else none)

/-- Every L1 copy and replica of a line is invalidated, and dirty data is collected (R188): what the messages of chapter 8 do, in one
step, for a drain, a PIN and a lost entry. Offers and data of the line on their way are settled first. DESIGN CHOICE (log 70): the spec
has each of these act as one step or while requests wait, and gives no message of theirs. -/
def purge (s : State) (l : LineNo) : State × Option LineData :=
  let g := s.home l
  let d := s.dirOf l
  let s0 := forEach (s.net.filter (fun m => m.l == l)) s deliverFill
  let off := s0.victimData l
  let offers := s0.net.filter (fun m => m.l == l && (match m.body with | .victD _ => true | .victC _ => true | .cleanD _ => true | _ => false))
  let s1 := forEach offers s0 (fun s m =>
    let s1 := s.recv m
    match m.body with
    | .cleanD _ => s1
    | _ => s1.send (epSlice g) m.src l (.wbAck true))
  let r := purgeL1s s1 l
  let s2 := dropReplicas r.1 l
  let dead := s2.llc.fills.map (fun f => if f.line = l then { f with dead := true } else f)
  let s3 := { s2 with llc := { s2.llc with fills := dead, stale := setDel s2.llc.stale l.toNat } }
  let s4 := forEach d.l1Dies s3 (fun s _ => s.count (sliceReg Reg.DIR_CNT_BINV g))
  let s5 := forEach d.repDies s4 (fun s _ => s.count (sliceReg Reg.DIR_CNT_REP_INV g))
  let s6 := if d.owner.isSome then s5.count (sliceReg Reg.DIR_CNT_RECALL g) else s5
  (s6, match r.2 with | some x => some x | none => off)

/-- A line may leave in one step: no transaction of it is in progress and no message of it in flight, and dirty data finds a victim-buffer
entry (R212). -/
def State.canLeave (s : State) (l : LineNo) (dirty : Bool) : Bool :=
  !s.lineBusy l && !s.net.any (fun m => m.l == l) && !(s.vbFull (s.home l) && (dirty || (s.dirOf l).owner.isSome))

/-- A home line leaves its data way in one step, decoded first (R188, R460). -/
def evictNow (s : State) (k : Nat) (x : Way) : State :=
  let r := purge (wayDecode s k) x.line
  let s1 := (r.1.setWayAt k none).count (sliceReg Reg.LLC_CNT_EVICT (s.home x.line))
  match r.2, r.1.wayAt k with
  | some ld, _ => vbPush s1 x.line ld
  | none, some y => if y.dirty then vbPush s1 x.line y.ld else s1
  | none, none => s1

/-- A way of `mask` for a PIN, chosen and emptied in one step (R200, R203); none where the line in it cannot leave yet. -/
def pinWay (s : State) (g set mask : Nat) : Option (State × Nat) :=
  match s.pick g set mask with
  | none => none
  | some (w, draw) =>
    let k := wayKey g set w
    let s1 := match draw with | some x => s.setLfsr g x | none => s
    match s.wayAt k with
    | none => some (s1, k)
    | some x => if s.canLeave x.line x.dirty then some (evictNow s1 k x, k) else none

end Sys2Proof.Machine
end

