-- ==== Sys2Proof/Machine/Place.lean ====
section
/-!
DEFINITION. Transactions at a home as such, and the placing of lines and directory entries (chapters 7 and 8): a line that must make
room leaves as the messages of R226, R235 and R238 take its copies away, and the allocation that chose its place waits (R188, R200,
R212); victim offers (R211, R231); pins (R201-R203).
-/
namespace Sys2Proof.Machine

/-! ### Transactions (R230) -/

def State.homeEp (s : State) (l : LineNo) : Ep := epSlice (s.home l)

def homeReg (s : State) (l : LineNo) (f : Nat → Nat → Nat) : Nat := sliceReg f (s.home l)

/-- A transaction as it begins. -/
def Txn.of (r : Req) : Txn :=
  { req := r, invs := [], binv := none, binvNext := [], reps := [], owner := none, fwdNext := none, fifth := false, mem := false, wrWait := false, got := none,
    upgHit := false, fromMem := false, sent := false }

/-- Every invalidation has been acknowledged. -/
def Txn.roundOver (t : Txn) : Bool := t.invs.isEmpty && t.binv.isNone && t.binvNext.isEmpty && t.reps.isEmpty

/-- Nothing is awaited. -/
def Txn.ready (t : Txn) : Bool :=
  t.roundOver && t.owner.isNone && t.fwdNext.isNone && !t.mem && !t.wrWait

def State.putTxn (s : State) (l : LineNo) (t : Txn) : State := s.setLineq l { s.lineq l with act := some t }

/-- The requester's core, for a request of a core. -/
def Req.core (r : Req) : Nat := r.num.toNat % 4096

/-! ### Invalidation rounds (R226, R235, R240) -/

/-- Send the next BINV, each only when the one before has completed. -/
def nextBinv (s : State) (l : LineNo) (t : Txn) : State × Txn :=
  match t.binv, t.binvNext with
  | none, d :: rest =>
    ((s.send (s.homeEp l) (epBroadcast d) l .binv).count (homeReg s l Reg.DIR_CNT_BINV), { t with binv := some d, binvNext := rest })
  | _, _ => (s, t)

/-- INV or BINV to every L1 copy but the requester's, REP_INV to every replica. -/
def startInv (s : State) (l : LineNo) (t : Txn) (skip : Option Nat) : State × Txn :=
  let d := s.dirOf l
  let cs := d.sharers.filter (fun c => some c != skip)
  let s1 := forEach cs s (fun s c => s.send (s.homeEp l) (epCore c) l .inv)
  let rs := d.repDies
  let s2 := forEach rs s1 (fun s r =>
    match s.repSlice l r with
    | some q => (s.send (s.homeEp l) (epSlice q) l .repInv).count (homeReg s l Reg.DIR_CNT_REP_INV)
    | none => s)
  nextBinv s2 l { t with invs := cs, reps := rs.filter (fun r => (s.repSlice l r).isSome), binvNext := d.l1Dies }

/-- RECALL or another message to the owner, whose answer is then awaited. -/
def askOwner (s : State) (l : LineNo) (t : Txn) (o : Nat) (b : MsgBody) : State × Txn :=
  let s1 := s.send (s.homeEp l) (epCore o) l b
  let s2 := match b with | .recall _ => s1.count (homeReg s l Reg.DIR_CNT_RECALL) | _ => s1
  (s2, { t with owner := some o })

/-- The code of a directory state (Table 8-2). -/
def DirState.code : DirState → Nat
  | .uncached => 0
  | .shared => 1
  | .owned => 2
  | .replicated => 3

/-- The probe of die `die` reads line `l`'s entry (R250). -/
def probeRead (s : State) (die : Nat) (l : LineNo) : State :=
  let r := Reg.DIR_PROBE_STATUS die
  let e := Reg.DIR_PROBE_ENTRY die
  let s0 := ((s.setReg e 0).setReg r 0).setFlag r Fld.DIR_PROBE_STATUS_done true
  if sliceDie (s.home l) ≠ die then s0.setFlag r Fld.DIR_PROBE_STATUS_not_home true
  else
    let d := s.dirOf l
    let at_ := if (s.homeWay l).isSome then 1 else if (s.findShadow l).isSome then 2
      else if (s.vbuf (s.home l)).any (fun x => x.line == l) then 3 else 0
    let held : Bool × Bool := match s.homeWay l with
      | some k => match s.wayAt k with
        | some x => (match x.use with | .home _ p red => (p.isSome, red) | .replica .. => (false, false))
        | none => (false, false)
      | none => (false, false)
    let s1 := (s0.put e Fld.DIR_PROBE_ENTRY_rep_dies d.reps.toNat).put e Fld.DIR_PROBE_ENTRY_ptrs d.ptrs.toNat
    let s2 := ((s1.put r Fld.DIR_PROBE_STATUS_where at_).put r Fld.DIR_PROBE_STATUS_state d.state.code).setFlag r
      Fld.DIR_PROBE_STATUS_coarse d.coarse
    (s2.setFlag r Fld.DIR_PROBE_STATUS_red_pin held.2).setFlag r Fld.DIR_PROBE_STATUS_pinned held.1

/-- A write of DIR_PROBE_ADDR on die `die`: the entry is read at once, or when the line's transaction in progress ends. -/
def probeStart (s : State) (die : Nat) (l : LineNo) : State :=
  let r := Reg.DIR_PROBE_STATUS die
  let s1 := s.setFlag r Fld.DIR_PROBE_STATUS_done false
  let rest := s1.llc.probes.filter (fun x => x.1 != die)
  if s.lineBusy l && sliceDie (s.home l) == die then { s1 with llc := { s1.llc with probes := rest ++ [(die, l.toNat)] } }
  else probeRead { s1 with llc := { s1.llc with probes := rest } } die l

/-- Probes that waited for the end of a transaction of the line are read. -/
def probesDue (s : State) (l : LineNo) : State :=
  let now := s.llc.probes.filter (fun x => x.2 == l.toNat)
  forEach now { s with llc := { s.llc with probes := s.llc.probes.filter (fun x => x.2 != l.toNat) } } (fun s x => probeRead s x.1 l)

/-- The promises that line `l` holds at slice `g` end. -/
def unpromise (s : State) (g : Nat) (l : LineNo) : State :=
  { s with llc := { s.llc with promises := s.llc.promises.filter (fun p => !(p.line == l && p.slice == g)) } }

/-- A transaction completes; a reduction pin ends when no RADD waits (R247). -/
def endTxn (s : State) (l : LineNo) : State :=
  let q := s.lineq l
  let s1 := unpromise (probesDue (s.setLineq l { q with act := none }) l) (s.home l) l
  let waits := q.wait.any (fun r => match r.op with | .radd .. => true | _ => false)
  if waits then s1 else
  match s1.homeWay l with
  | some k => match s1.wayAt k with
    | some x => match x.use with
      | .home d p true => s1.setWayAt k (some { x with use := .home d p false })
      | _ => s1
    | none => s1
  | none => s1

/-! ### Leaving a data way or a shadow entry (R188) -/

/-- An allocation for line `l` at slice `g` chooses `k`, which it empties. -/
def promise (s : State) (g : Nat) (l : LineNo) (shadow : Bool) (k : Nat) : State :=
  { s with llc := { s.llc with promises := s.llc.promises ++ [⟨l, g, shadow, k⟩] } }

/-- The cycles in which something waits for a victim-buffer entry are counted (R212). -/
def vbStall (s : State) (g : Nat) : State := s.countFree (sliceReg Reg.LLC_CNT_VB_STALL g)

/-- The line goes to the victim buffer, or waits there for an entry (R212). -/
def vbEnter (s : State) (l : LineNo) (ld : LineData) (f : State → State) : State :=
  if s.vbFull (s.home l) && (s.bufOf l).isNone then vbStall s (s.home l) else f (vbPush s l ld)

/-- Every copy of the line has gone: it leaves its data way, decoded first (R460), or its shadow entry. -/
def finishLeave (s : State) (l : LineNo) (t : Txn) (shadow : Bool) : State :=
  let g := s.home l
  if shadow then
    let out (s : State) : State := endTxn (match s.findShadow l with
      | some k => (s.setShadowAt k none).count (sliceReg Reg.LLC_CNT_SHADOW g)
      | none => s) l
    match t.got with
    | some (ld, true) => vbEnter s l ld out
    | _ => out s
  else match s.homeWay l with
    | none => endTxn s l
    | some k =>
      let s1 := wayDecode s k
      let out (s : State) : State := endTxn ((s.setWayAt k none).count (sliceReg Reg.LLC_CNT_EVICT g)) l
      match t.got, s1.wayAt k with
      | some (ld, true), _ => vbEnter s1 l ld out
      | _, some x => if x.dirty then vbEnter s1 l x.ld out else out s1
      | _, none => out s1

/-- The line begins to leave: RECALL keep I to its owner, INV or BINV to every other L1 copy and REP_INV to every replica (R188). -/
def beginLeave (s : State) (l : LineNo) (shadow : Bool) (k : Nat) : State :=
  let t := Txn.of ⟨s.homeEp l, 0, ⟨none, false, false⟩, .leave shadow k, none⟩
  let r := startInv s l t none
  let r1 := match (s.dirOf l).owner with | some o => askOwner r.1 l r.2 o (.recall false) | none => r
  let s1 := r1.1.putTxn l r1.2
  if r1.2.ready then finishLeave s1 l r1.2 shadow else s1

/-- The line leaves once no transaction of it is in progress. -/
def leave (s : State) (l : LineNo) (shadow : Bool) (k : Nat) : State := if s.lineBusy l then s else beginLeave s l shadow k

/-! ### Removing a replica (R238) -/

/-- A replica of the line is being removed from slice `g`. -/
def State.removing (s : State) (g : Nat) (l : LineNo) : Bool := s.llc.repInv.any (fun e => e.1 == g && e.2.1 == l.toNat)

/-- The ten slots of the rows that a vector marks on a die. -/
def markedSlots (die : Nat) (rows : BitVec 32) : List Nat :=
  ((List.range 32).filter (fun r => rows.getLsbD r)).flatMap (fun r => (List.range 10).map (fun n => (die * 32 + r) * 16 + n))

/-- The replica of the line is discarded: REP_ACK answers a REP_INV, else REP_DROP tells the home, unless a fill of the line is in flight,
which makes the replica anew. -/
def replicaGone (s : State) (g : Nat) (l : LineNo) (ack : Bool) : State :=
  let s1 := match s.findWay g l true with | some k => s.setWayAt k none | none => s
  if ack then s1.send (epSlice g) (s.homeEp l) l .repAck
  else if s.llc.fills.any (fun f => f.slice == g && f.line == l && !f.dead) then s1
  else s1.send (epSlice g) (s.homeEp l) l .repDrop

/-- A replica is removed: INV to the ten slots of every marked row, whose acknowledgements are awaited (R238). -/
def removeReplica (s : State) (g : Nat) (l : LineNo) (rows : BitVec 32) (ack : Bool) : State :=
  let cs := markedSlots (sliceDie g) rows
  if cs.isEmpty then replicaGone s g l ack
  else
    let s1 := forEach cs s (fun s c => s.send (epSlice g) (epCore c) l .inv)
    { s1 with llc := { s1.llc with repInv := s1.llc.repInv ++ [(g, l.toNat, cs, ack)] } }

/-! ### Taking a way or a shadow entry (R200) -/

/-- What lies in way `k` makes room for line `l` at slice `g`; the way once it is empty. A line that was pinned meanwhile is no victim. -/
def vacate (s : State) (g : Nat) (l : LineNo) (k : Nat) : State × Option Nat :=
  match s.wayAt k with
  | none => (unpromise s g l, some k)
  | some x =>
    if x.isPinned then (unpromise s g l, none)
    else
      let s1 := match x.use with
        | .home .. => leave s x.line false k
        | .replica rows _ => if s.removing g x.line then s else removeReplica s g x.line rows false
      if (s1.wayAt k).isNone then (unpromise s1 g l, some k) else (s1, none)

/-- Take a way of `mask` in the line's set under R200; none while what lay there is still leaving (R188, R212). -/
def takeWay (s : State) (g : Nat) (l : LineNo) (mask : Nat) : State × Option Nat :=
  match s.promised g l false with
  | some k => vacate s g l k
  | none =>
    match s.pick g (setOf l) mask with
    | none => (s, none)
    | some (w, none) => (s, some (wayKey g (setOf l) w))
    | some (w, some x) =>
      let k := wayKey g (setOf l) w
      vacate (promise (s.setLfsr g x) g l false k) g l k

/-- The shadow entry `k` makes room for line `l`. -/
def vacateShadow (s : State) (l : LineNo) (k : Nat) : State × Option Nat :=
  let g := s.home l
  match s.shadowAt k with
  | none => (unpromise s g l, some k)
  | some v =>
    let s1 := leave s v.line true k
    if (s1.shadowAt k).isNone then (unpromise s1 g l, some k) else (s1, none)

/-- A shadow entry for a new line: a free one, else the one that an LFSR step names (R200); none while its line is still leaving, or another
allocation empties an entry of the set. -/
def takeShadow (s : State) (l : LineNo) : State × Option Nat :=
  let g := s.home l
  let key (e : Nat) : Nat := shadowKey g (setOf l) e
  match s.promised g l true with
  | some k => vacateShadow s l k
  | none =>
    if (List.range 2).any (fun e => s.isPromised true (key e)) then (s, none)
    else match (List.range 2).find? (fun e => (s.shadowAt (key e)).isNone) with
      | some e => (s, some (key e))
      | none =>
        let x := lfsr16 (s.lfsr g)
        vacateShadow (promise (s.setLfsr g x) g l true (key (x % 2))) l (key (x % 2))

/-! ### Placing a directory entry and a line -/

/-- The line's entry becomes `d`: in its data way, else in a shadow entry while it records anything. The Bool is false where it must wait. -/
def putDir (s : State) (l : LineNo) (d : Dir) : State × Bool :=
  match s.homeWay l with
  | some k => (match s.wayAt k with | some x => s.setWayAt k (some (x.withDir d)) | none => s, true)
  | none =>
    match s.findShadow l with
    | some k => (s.setShadowAt k (if d.isEmpty then none else some ⟨l, d⟩), true)
    | none =>
      if d.isEmpty then (s, true)
      else match takeShadow s l with
        | (s1, some k) => (s1.setShadowAt k (some ⟨l, d⟩), true)
        | (s1, none) => (s1, false)

/-- The entry of a line that already has one, or that ends without one, becomes `d`. -/
def setDir (s : State) (l : LineNo) (d : Dir) : State := (putDir s l d).1

/-- The line is placed in way `k`, its entry moving there from a shadow entry. -/
def placeLine (s : State) (l : LineNo) (k : Nat) (ld : LineData) (dirty redPin : Bool) : State :=
  let d := s.dirOf l
  wayPlace (match s.findShadow l with | some e => s.setShadowAt e none | none => s) k ⟨l, ld, dirty, none, .home d none redPin⟩

/-- A line is placed in a data way of `mask`. The Bool is false where it must wait. -/
def allocLine (s : State) (l : LineNo) (mask : Nat) (ld : LineData) (dirty redPin : Bool) : State × Bool :=
  match takeWay s (s.home l) l mask with
  | (s1, some k) => (placeLine s1 l k ld dirty redPin, true)
  | (s1, none) => (s1, false)

/-! ### Placing returned data (R211, R224, R240) -/

/-- Data of the line comes to its home: written to the data way where it has one, else by way of the victim buffer to memory. -/
def placeData (s : State) (l : LineNo) (ld : LineData) : State :=
  match s.homeWay l with
  | some k =>
    match s.wayAt k with
    | some x =>
      if s.bypassed (s.home l) then toBuffer (s.setWayAt k (some { x with ld := ld, dirty := false })) l ld
      else wayPlace s k { x with ld := ld, dirty := true, bad := none }
    | none => s
  | none => toBuffer s l ld

/-! ### Victim offers (R211, R231) -/

/-- The home settles a victim offer of core `c`: `ld` is its data, `dirty` whether it is a VICT_D. -/
def victim (s : State) (c : Nat) (l : LineNo) (ld : LineData) (dirty : Bool) (key : Key) : State :=
  let g := s.home l
  let ack (s : State) (ok : Bool) : State := s.send (epSlice g) (epCore c) l (.wbAck ok)
  let d := ((s.dirOf l).without c).settle
  if dirty then ack (setDir (placeData s l ld) l d) true
  else if (s.homeWay l).isSome then ack (setDir s l d) true
  else
    let mask := s.homeMask g key
    let free := if s.noAlloc g (setOf l) mask key || (s.findShadow l).isNone then none else s.freeWay g (setOf l) mask
    match free with
    | some w => ack (setDir (placeLine s l (wayKey g (setOf l) w) ld false false) l d) true
    | none => ack ((setDir s l d).count (sliceReg Reg.LLC_CNT_DECLINE g)) false

/-- A VICT_D that needs a victim-buffer entry waits while none is free (R212). -/
def State.victimWaits (s : State) (l : LineNo) : Bool :=
  s.vbFull (s.home l) && (s.bufOf l).isNone && ((s.homeWay l).isNone || s.bypassed (s.home l))

/-- CLEAN_D: the data is placed; X stays X, O becomes S (Table 8-6). -/
def cleanData (s : State) (c : Nat) (l : LineNo) (ld : LineData) : State :=
  let d := s.dirOf l
  if d.owner = some c then
    let isO := d.list.any (fun x => x.2.1 == 2)
    let d1 := if isO then (d.ownerKind 1).settle else d
    setDir (placeData s l ld) l d1
  else placeData s l ld

/-! ### Pins (R201-R204) -/

/-- Home lines of a set that are pinned for a partition. -/
def State.pinsIn (s : State) (g set : Nat) : Nat :=
  ((List.range 16).filter (fun w => match s.wayAt (wayKey g set w) with
    | some x => x.partPinned
    | none => false)).length

/-- pinned_max: the most pinned lines in any one set of the slice. -/
def pinCount (s : State) (g : Nat) : State :=
  let sets := (s.llc.ways.filter (fun e => e.1 / 131072 == g)).map (fun e => e.1 / 16 % 8192)
  s.put (sliceReg Reg.LLC_SLICE_STATUS g) Fld.LLC_SLICE_STATUS_pinned_max (sets.foldl (fun m x => max m (s.pinsIn g x)) 0)

/-- Lines of a range that lie in set `set` of slice `g` and are not yet pinned. -/
def State.newPins (s : State) (ls : List LineNo) (g set : Nat) : Nat :=
  (ls.filter (fun l => s.home l == g && setOf l == set && !(match s.homeWay l with
    | some k => (match s.wayAt k with | some x => x.partPinned | none => false)
    | none => false))).length

/-- The set of a line would hold more pinned lines than the floor allows (R202). -/
def State.pinFloor (s : State) (ls : List LineNo) (l : LineNo) : Bool :=
  let g := s.home l
  let home := popCount 16 (notMask (s.repWays g))
  let lim := home - s.get (sliceReg Reg.LLC_PIN_FLOOR g) Fld.LLC_PIN_FLOOR_floor
  let new := s.newPins ls g (setOf l)
  0 < new && lim < s.pinsIn g (setOf l) + new

/-- The set of a line has no way in the pin mask free of a pinned line, or its slice is in bypass (R203). -/
def State.pinNoWays (s : State) (ls : List LineNo) (p : Nat) (l : LineNo) : Bool :=
  let g := s.home l
  let new := s.newPins ls g (setOf l)
  s.bypassed g || (0 < new && (s.cands g (setOf l) (s.pinMask g p)).length < new)

/-- Each slice whose set caused the failure counts it once. -/
def pinFailed (s : State) (ls : List LineNo) (f : LineNo → Bool) : State :=
  let gs := (ls.filter f).map s.home
  forEach ((List.range 512).filter (fun g => gs.contains g)) s (fun s g => s.count (sliceReg Reg.LLC_CNT_PIN_FAIL g))

/-- The line in way `k` is pinned for partition `p`, unless it is pinned already (R203). -/
def pinAt (s : State) (p k : Nat) : State :=
  match s.wayAt k with
  | some x => match x.use with
    | .home d none r => s.setWayAt k (some { x with use := .home d (some (Fin.ofNat 32 p)) r })
    | _ => s
  | none => s

/-- The data of a line that no data way holds, as a placing takes it: the victim buffer's, else memory's, where a write that is still at its
controller comes first (R203). -/
def State.storedLine (s : State) (l : LineNo) : LineData :=
  match s.lineData l with
  | some x => x
  | none => (s.wrOf l).getD (s.memLine l)

/-- One line is pinned for partition `p`: in place, or in a pin-mask way with its data from its present way, a buffer or memory. -/
def pinLine (s : State) (p : Nat) (l : LineNo) : Option State :=
  let g := s.home l
  match s.homeWay l with
  | some k =>
    match s.wayAt k with
    | some x =>
      if x.partPinned then some s
      else if s.lineBusy l then none
      else if bit (s.pinMask g p) (k % 16) then some (pinAt s p k)
      else (pinWay s g (setOf l) (s.pinMask g p)).map (fun r => pinAt ((r.1.setWayAt k none).setWayAt r.2 (some x)) p r.2)
    | none => some s
  | none =>
    if s.lineBusy l then none
    else (pinWay s g (setOf l) (s.pinMask g p)).map (fun r => pinAt (placeLine r.1 l r.2 (r.1.storedLine l) false false) p r.2)

/-- Pin every line in turn, none where one must wait. DESIGN CHOICE (log 95): the lines are placed one by one in ascending order, so that one
may displace a later line of the range that lay in a pin-mask way. -/
def pinLines (s : State) (p : Nat) : List LineNo → Option State
  | [] => some s
  | l :: ls => match pinLine s p l with
    | some s1 => pinLines s1 p ls
    | none => none

/-- PIN of the lines, whole or not at all (R203): status 1 PIN_FLOOR, 2 PIN_NO_WAYS, 0 OK; none where it must wait. -/
def pinAll (s : State) (p : Nat) (ls : List LineNo) : Option (State × Nat) :=
  if ls.any (s.pinFloor ls) then some (pinFailed s ls (s.pinFloor ls), 1)
  else if ls.any (s.pinNoWays ls p) then some (pinFailed s ls (s.pinNoWays ls p), 2)
  else match pinLines s p ls with
    | some s1 => some (forEach ((List.range 512).filter (fun g => (ls.map s.home).contains g)) s1 pinCount, 0)
    | none => none

/-- UNPIN: pins that partition `p` holds on the lines end (R201). -/
def unpinAll (s : State) (p : Nat) (ls : List LineNo) : State :=
  let s1 := forEach ls s (fun s l =>
    match s.homeWay l with
    | some k => match s.wayAt k with
      | some x => match x.use with
        | .home d (some q) r => if q.val = p then s.setWayAt k (some { x with use := .home d none r }) else s
        | _ => s
      | none => s
    | none => s)
  forEach ((List.range 512).filter (fun g => (ls.map s.home).contains g)) s1 pinCount

end Sys2Proof.Machine
end

