-- ==== Sys2Proof/Machine/Home.lean ====
section
/-!
DEFINITION. Transactions at the home of a line (chapter 8): the line order (R228), what a request does when it begins (R230, R235,
R240, R243, R244), what the answers of L1s and replica slices do, the data source (R234), and completion.
-/
namespace Sys2Proof.Machine

/-! ### Data sources (R234) -/

def dieHops (a b : Nat) : Nat := (max (a % 4) (b % 4) - min (a % 4) (b % 4)) + (max (a / 4) (b / 4) - min (a / 4) (b / 4))

/-- The die whose replica slice serves a reader on die `d`; none where the home does. `skip` is the die that asks for a fill. -/
def State.sourceDie (s : State) (l : LineNo) (d : Nat) (skip : Option Nat) : Option Nat :=
  if setHas s.llc.stale l.toNat then none else
  let reps := (s.dirOf l).repDies.filter (fun r => some r != skip && (s.repSlice l r).isSome)
  let best := reps.foldl (fun (m : Option Nat) r => match m with
    | none => some r
    | some b => if dieHops d r < dieHops d b then some r else some b) none
  match best with
  | none => none
  | some b => if (s.lineData l).isSome && dieHops d (sliceDie (s.home l)) ≤ dieHops d b then none else some b

/-- A replica may be created for a request through replica slice `r` (R215, R239). -/
def State.mayReplicate (s : State) (l : LineNo) (r : Nat) (k : Key) : Bool :=
  sliceDie (s.home l) != sliceDie r && s.flag (Reg.LLC_DIE_CTL (sliceDie r)) Fld.LLC_DIE_CTL_replica_en && s.repMask r k != 0 &&
    (s.dirOf l).state != .owned

/-- Data for the transaction: what was gathered, else what the LLC holds; an isolated die's slice gives it poisoned (R364). -/
def State.txnData (s : State) (l : LineNo) (t : Txn) : Option LineData :=
  let mark (x : LineData) : LineData := { x with poison := x.poison || s.homeIsolated l }
  match t.got with
  | some x => some (mark x.1)
  | none => (s.lineData l).map mark

/-- The home issues a read of the line to its controller. -/
def askMem (s : State) (l : LineNo) (t : Txn) : State :=
  { (s.putTxn l { t with mem := true }) with stk := { s.stk with fills := s.stk.fills ++ [l.toNat] } }

/-! ### Completion -/

/-- The line is placed for a request of key `k` where it has no data way and may allocate, else its entry is kept in a shadow entry. The Bool is
false where it must wait. -/
def settleLine (s : State) (l : LineNo) (k : Key) (d : Dir) (fill : Option LineData) : State × Bool :=
  let g := s.home l
  let mask := s.homeMask g k
  match fill with
  | some ld =>
    if (s.homeWay l).isNone && !s.noAlloc g (setOf l) mask k then
      let r := allocLine s l mask ld false false
      if r.2 then (setDir r.1 l d, true) else r
    else putDir s l d
  | none => putDir s l d

/-- `f` follows where a placing has not to wait. -/
def placed (r : State × Bool) (f : State → State) : State := if r.2 then f r.1 else r.1

/-- The fill that replica slice `via` waits for on behalf of core `c` will not come. -/
def dropFill (s : State) (via : Option SliceId) (l : LineNo) (num : ReqNum) (ifetch : Bool) : State :=
  match via with
  | none => s
  | some r =>
    match s.llc.fills.find? (fun f => f.slice == r.val && f.line == l && f.num == num && f.ifetch == ifetch) with
    | some f => { s with llc := { s.llc with fills := s.llc.fills.erase f } }
    | none => s

/-- A GETS is served: data to a replica slice, or to the L1 or instruction cache (Table 8-6). -/
def finishGets (s : State) (l : LineNo) (t : Txn) (ifetch : Bool) (via : Option SliceId) : State :=
  let d := s.dirOf l
  let c := t.req.core
  let fill := if t.fromMem then t.got.map (·.1) else none
  -- A GETS that found the line owned makes no replica (R225, R239).
  let rep := !t.fifth && (match via with | some r => s.mayReplicate l r.val t.req.key | none => false)
  let dst : Option SliceId := if rep then via else none
  let die := coreDie c
  let d1 : Dir := if rep then { d with reps := d.reps ||| BitVec.ofNat 8 (2 ^ die), state := .replicated }
    else if ifetch then d
    else if d.state == .uncached then Dir.ownedBy c
    else (d.addSharer c).1
  let coarse := !rep && !ifetch && d.state != .uncached && (d.addSharer c).2
  let close (s1 : State) : State :=
    let s2 := if coarse then s1.count (homeReg s l Reg.DIR_CNT_COARSE) else s1
    endTxn (if rep then s2 else dropFill s2 via l t.req.num ifetch) l
  match (if d.state == .replicated && !t.fromMem then s.sourceDie l die (if rep then some die else none) else none) with
  | some q =>
    match s.repSlice l q with
    | some r => placed (putDir s l d1) (fun s1 => close (s1.send (s.homeEp l) (epSlice r) l (.repFwd t.req.num t.req.key ifetch dst)))
    | none => s
  | none =>
    match s.txnData l t with
    | none => askMem s l t
    | some ld =>
      placed (settleLine s l t.req.key d1 fill) (fun s1 =>
        let b : MsgBody := if rep then .repData ld t.req.num t.req.key ifetch
          else if ifetch then .dataI ld
          else if d.state == .uncached then .dataE ld else .dataS ld
        let rcv := match dst with | some r => epSlice r.val | none => epCore c
        close (s1.send (s.homeEp l) rcv l b))

/-- Stale marks of a line end with an invalidation round that leaves it without L1 copies (R262). -/
def unstale (s : State) (l : LineNo) : State := { s with llc := { s.llc with stale := setDel s.llc.stale l.toNat } }

/-- A GETX or UPG is served once every other copy has gone. A line in the victim buffer is allocated again with the buffer's data (R212). An
UPG whose L1 has given up its copy meanwhile is served with data (R232). -/
def finishGetx (s : State) (l : LineNo) (t : Txn) : State :=
  let c := t.req.core
  let d := Dir.ownedBy c
  let hit := t.upgHit && (s.dirOf l).list.any (fun x => x.2.2 == c)
  let buffered := if t.got.isNone && ((s.bufOf l).isSome || s.bufIssued l) then s.lineData l else none
  if t.sent then placed (putDir s l d) (fun s1 => endTxn (unstale s1 l) l)
  else if hit then placed (settleLine s l t.req.key d buffered) (fun s1 => endTxn ((unstale s1 l).send (s.homeEp l) (epCore c) l .grant) l)
  else match s.txnData l t with
    | none => askMem s l t
    | some ld =>
      placed (settleLine s l t.req.key d (if t.fromMem then some ld else buffered)) (fun s1 =>
        endTxn ((unstale s1 l).send (s.homeEp l) (epCore c) l (.dataM ld)) l)

/-- MRD: the current value, allocated under R176. -/
def finishMrd (s : State) (l : LineNo) (t : Txn) : State :=
  match s.txnData l t with
  | none => askMem s l t
  | some ld =>
    placed (settleLine s l t.req.key (s.dirOf l) (if t.fromMem && !t.req.key.stream then some ld else none)) (fun s1 =>
      endTxn (s1.send (s.homeEp l) t.req.src l (.dataP ld)) l)

/-- The line's data, wherever it lies, is poisoned. -/
def State.linePoison (s : State) (l : LineNo) (t : Txn) : Bool :=
  match s.txnData l t with
  | some x => x.poison
  | none => s.poisoned (lineBase l)

/-- A new value goes to memory without allocation: a held copy is updated in place and left clean (R198, R209). -/
def writeThrough (s : State) (l : LineNo) (ld : LineData) : State :=
  let s1 := match s.homeWay l with
    | some k => match s.wayAt k with
      | some x => s.setWayAt k (some { x with ld := ld, dirty := false, bad := none })
      | none => s
    | none => s
  if (s1.bufOf l).isSome then setBuf s1 l ld else memWrite s1 l ld

/-- MWR, MWRS and SWR once their rounds are over (R209, R240, R465). -/
def finishWrite (s : State) (l : LineNo) (t : Txn) (data : Line) (be : BitVec 128) (poison keep answer alloc : Bool) : State :=
  let d := s.dirOf l
  let reply (s : State) (st : BitVec 4) : State := if answer then s.send (s.homeEp l) t.req.src l (.done st 0 false) else s
  if s.lineRefuses (lineBase l) then endTxn (reply s 1) l
  else if keep && s.linePoison l t && !d.isEmpty then
    let r := startInv s l { t with req := { t.req with op := .mwr data be poison } } none
    r.1.putTxn l r.2
  else
    let base := if wholeLine be then some ⟨data, false⟩ else s.txnData l t
    match base with
    | none => askMem s l t
    | some b =>
      let new : LineData := if wholeLine be then ⟨data, poison⟩ else ⟨lineMerge b.d data be, b.poison || poison⟩
      let d1 := if keep then d.settle else Dir.empty
      let g := s.home l
      let mask := s.homeMask g t.req.key
      let mark (s : State) : State :=
        if keep then (if d1.isEmpty then s else { s with llc := { s.llc with stale := setIns s.llc.stale l.toNat } }) else unstale s l
      if alloc && !s.noAlloc g (setOf l) mask t.req.key then
        match s.homeWay l with
        | some k => match s.wayAt k with
          | some x => endTxn (reply (mark (wayPlace s k { (x.withDir d1) with ld := new, dirty := true, bad := none })) 0) l
          | none => s
        | none => placed (allocLine s l mask new true false) (fun s1 => endTxn (reply (mark (setDir s1 l d1)) 0) l)
      else
        placed (putDir s l d1) (fun s1 =>
          let s2 := mark (writeThrough s1 l new)
          if s.mirrored (lineBase l) && (s.bufOf l).isNone && answer then s2.putTxn l { t with wrWait := true, got := none }
          else endTxn (reply s2 0) l)

/-- What an operation on a line gives: the new line, the value returned, and whether it read poison (R243). -/
structure Updated where
  ld : LineData
  old : W64
  poison : Bool
deriving DecidableEq, Repr

/-- The operation is over: counted, and an AMO_H answered with its old value, marked where it read poison (R243, R466). -/
def updateDone (s : State) (l : LineNo) (t : Txn) (radd : Bool) (u : Updated) : State :=
  let s1 := unstale (s.count (homeReg s l (if radd then Reg.DIR_CNT_RADD else Reg.DIR_CNT_AMO_HOME))) l
  endTxn (if radd then s1 else s1.send (s.homeEp l) t.req.src l (.done 0 u.old u.poison)) l

/-- The operation on a line in one of the slice's 16 reduction buffers, which it waits for (R245). -/
def updateBuffered (s : State) (l : LineNo) (t : Txn) (radd : Bool) (u : Updated) : State :=
  let g := s.home l
  if 16 ≤ (s.rbuf g).length then s.countFree (homeReg s l Reg.DIR_CNT_RBUF_STALL)
  else
    let s1 := setDir s l Dir.empty
    let s2 := s1.setVbuf g ((s1.vbuf g).filter (fun e => e.line != l || e.issued))
    updateDone (s2.setRbuf g (s2.rbuf g ++ [⟨l, u.ld, false⟩])) l t radd u

/-- An operation performed on the line at its home (R243-R247): in its data way, in a buffer that still holds it, or in a way or a reduction
buffer that takes it. -/
def finishUpdate (s : State) (l : LineNo) (t : Txn) (radd : Bool) (f : LineData → Updated) : State :=
  let g := s.home l
  let mask := s.homeMask g t.req.key
  let may := !s.noAlloc g (setOf l) mask t.req.key
  let vb := (s.vbuf g).any (fun e => e.line == l && !e.issued)
  let alloc (u : Updated) : State :=
    placed (allocLine s l mask u.ld true false) (fun s1 => updateDone (setDir s1 l Dir.empty) l t radd u)
  if s.lineRefuses (lineBase l) then endTxn (if radd then s else s.send (s.homeEp l) t.req.src l (.done 1 0 false)) l
  else match s.homeWay l with
  | some k =>
    match s.wayAt k, s.txnData l t with
    | some x, some ld =>
      let u := f ld
      if s.bypassed g then updateDone (writeThrough (s.setWayAt k (some (x.withDir Dir.empty))) l u.ld) l t radd u
      else updateDone (s.setWayAt k (some { (x.withDir Dir.empty) with ld := u.ld, dirty := true })) l t radd u
    | some _, none => askMem s l t
    | none, _ => s
  | none =>
    match s.bufOf l with
    | some ld =>
      let u := f (match t.got with | some x => x.1 | none => ld)
      if radd || !vb then
        -- In the buffer (R245, R246).
        let s1 := setBuf (setDir s l Dir.empty) l u.ld
        updateDone (if radd && vb then s1.count (homeReg s l Reg.DIR_CNT_RADD_VB) else s1) l t radd u
      else if may then alloc u
      else updateBuffered s l t radd u
    | none =>
      if radd && s.bufIssued l && may then
        -- The line is allocated again under a reduction pin before memory is read (R247).
        placed (allocLine s l mask ((s.wrOf l).getD (s.memLine l)) true true) (fun s1 =>
          let s2 := s1.count (homeReg s l Reg.DIR_CNT_RADD_REALLOC)
          match t.got with
          | some x => let u := f x.1; (match s2.homeWay l with
            | some k => updateDone (match s2.wayAt k with
              | some y => s2.setWayAt k (some { (y.withDir Dir.empty) with ld := u.ld, dirty := true })
              | none => s2) l t radd u
            | none => s2)
          | none => askMem s2 l t)
      else match (if s.bufIssued l then t.got.map (·.1) else s.txnData l t) with
        | none => askMem s l t
        | some ld => if may then alloc (f ld) else updateBuffered s l t radd (f ld)

/-- One element of an in-cache reduction (R68): FP32, BF16, FP16 rounded to nearest-even; INT32 wraps. -/
def raddElem (typ a b : Nat) : Nat :=
  if typ = 3 then (a + b) % 2 ^ 32
  else
    let f := if typ = 0 then FP32 else if typ = 1 then BF16 else FP16
    f.round ((f.decode a).add (f.decode b))

/-- The vector of an RADD added into a line (R244). -/
def raddLine (typ : Nat) (x y : Line) : Line :=
  let w := if typ = 0 || typ = 3 then 32 else 16
  BitVec.ofNat 1024 ((List.range (1024 / w)).foldl (fun acc i =>
    acc + raddElem typ (x.toNat / 2 ^ (w * i) % 2 ^ w) (y.toNat / 2 ^ (w * i) % 2 ^ w) * 2 ^ (w * i)) 0)

/-- An atomic on the line: poisoned data is not written and gives zero (R243). -/
def amoLine (off : Nat) (op : Nat) (w : Bool) (x y : W64) (ld : LineData) : Updated :=
  let n := if w then 8 else 4
  if ld.poison then ⟨ld, 0, true⟩
  else
    let old := lineNum ld.d off n
    ⟨⟨linePut ld.d off n (amoResult op w old x.toNat y.toNat), false⟩, BitVec.ofNat 64 old, false⟩

/-- A transaction with nothing awaited is served. -/
def finish (s : State) (l : LineNo) (t : Txn) : State :=
  match t.req.op with
  | .gets ifetch via => finishGets s l t ifetch via
  | .getx => finishGetx s l t
  | .upg => finishGetx s l t
  | .swr d be p => finishWrite s l t d be p false false false
  | .mrd => finishMrd s l t
  | .mwr d be p => finishWrite s l t d be p false true true
  | .mwrs d be p => finishWrite s l t d be p true true true
  | .amoH off op w x y => finishUpdate s l t false (amoLine off.toNat op.toNat w x y)
  | .radd typ d p => finishUpdate s l t true (fun ld => ⟨⟨raddLine typ.toNat ld.d d, ld.poison || p⟩, 0, false⟩)
  | .leave shadow _ => finishLeave s l t shadow

/-- FWD_GETX to the owner, once every other copy has gone, so that no agent reads the old value when the requester has the new one (R255).
An owner whose CLEAN_D has come meanwhile keeps a copy in S, which goes by INV. -/
def askForward (s : State) (l : LineNo) (t : Txn) : State × Txn :=
  match t.fwdNext with
  | some o =>
    if !t.roundOver then (s, t)
    else
      let t1 := { t with fwdNext := none }
      if (s.dirOf l).owner = some o then
        let r := askOwner s l t1 o (.fwdGetx t.req.num)
        (if coreDie o = coreDie t.req.core then r.1.count (homeReg s l Reg.DIR_CNT_FWD) else r.1, r.2)
      else if (s.dirOf l).sharers.contains o then (s.send (s.homeEp l) (epCore o) l .inv, { t1 with invs := [o] })
      else (s, t1)
  | none => (s, t)

/-- Serve the line's transaction where nothing is awaited. -/
def tryFinish (s : State) (l : LineNo) : State :=
  match (s.lineq l).act with
  | some t =>
    let r := askForward s l t
    if r.2.ready then finish r.1 l r.2 else r.1.putTxn l r.2
  | none => s

/-! ### Beginning a transaction (R230) -/

/-- The thrash monitor and the counters see a home lookup (R205, R220). -/
def lookup (s : State) (l : LineNo) (r : Req) : State :=
  let g := s.home l
  let held := s.homeWay l
  let miss := held.isNone || s.bypassed g
  let pinned := match held with | some k => (match s.wayAt k with | some x => x.partPinned | none => false) | none => false
  let s1 := s.count (sliceReg Reg.LLC_CNT_LOOKUP g)
  let s2 := if miss then s1.count (sliceReg Reg.LLC_CNT_MISS g) else s1
  if r.num.toNat < 0x1000 && !pinned then
    let s3 := s2.incSat (sliceReg Reg.LLC_THRASH_STATE g) Fld.LLC_THRASH_STATE_looks
    if miss then s3.incSat (sliceReg Reg.LLC_THRASH_STATE g) Fld.LLC_THRASH_STATE_misses else s3
  else s2

/-- A GETX, or an UPG served as one: every other copy goes, an owner's last. -/
def beginGetx (s : State) (l : LineNo) (t : Txn) : State × Txn :=
  let c := t.req.core
  let r := startInv s l t (some c)
  (r.1, { r.2 with fwdNext := (s.dirOf l).owner.filter (· != c) })

/-- An UPG of an L1 that the entry records: every other copy goes, an owner's by RECALL keep I, as Table 8-6 answers with GRANT and names no
message that could send data (DEDUCED, log 95). -/
def beginUpg (s : State) (l : LineNo) (t : Txn) : State × Txn :=
  let c := t.req.core
  let r := startInv s l { t with upgHit := true } (some c)
  match (s.dirOf l).owner with
  | some o => if o = c then r else askOwner r.1 l r.2 o (.recall false)
  | none => r

/-- What a request sends as it begins (Tables 8-6 and 8-8). -/
def beginOp (s : State) (l : LineNo) (t : Txn) : State × Txn :=
  let d := s.dirOf l
  let c := t.req.core
  match t.req.op with
  | .gets ifetch _ =>
    match d.owner with
    | some o =>
      if !ifetch && d.isFull c then askOwner s l { t with fifth := true } o (.recall true)
      else
        let r := askOwner s l t o (.fwdGets t.req.num ifetch)
        (if coreDie o = coreDie c then r.1.count (homeReg s l Reg.DIR_CNT_FWD) else r.1, r.2)
    | none => (s, t)
  | .getx => beginGetx s l t
  | .upg =>
    if !d.coarse && d.list.any (fun x => x.2.2 == c) && !setHas s.llc.stale l.toNat then beginUpg s l t else beginGetx s l t
  | .mrd => match d.owner with | some o => askOwner s l t o .fwdRd | none => (s, t)
  | .mwrs .. => match d.owner with
    | some o =>
      let s1 := if t.req.num.toNat < 0x1000 then s.count (Reg.CORE_MV_RECALL c) else s
      askOwner s1 l t o (.recall false)
    | none => (s, t)
  | .swr .. => match d.owner with
    | some o => let r := startInv s l t none; askOwner r.1 l r.2 o (.recall false)
    | none => startInv s l t none
  | .mwr .. => match d.owner with
    | some o => let r := startInv s l t none; askOwner r.1 l r.2 o (.recall false)
    | none => startInv s l t none
  | .amoH .. => match d.owner with
    | some o => let r := startInv s l t none; askOwner r.1 l r.2 o (.recall false)
    | none => startInv s l t none
  | .radd .. => match d.owner with
    | some o => let r := startInv s l t none; askOwner r.1 l r.2 o (.recall false)
    | none => startInv s l t none
  | .leave .. => (s, t)

/-- What a request has read from a data way whose decoding put the slice into bypass: the poisoned line (R463, R473). -/
def lastRead (before after : State) (l : LineNo) : Option (LineData × Bool) :=
  if !before.bypassed (before.home l) && after.bypassed (after.home l) && (after.dirOf l).owner.isNone then
    match after.homeWay l with
    | some k => (after.wayAt k).map (fun x => (x.ld, false))
    | none => none
  else none

/-- The request takes the line: counted, looked up, its messages sent; served at once where nothing is awaited. -/
def beginReq (s : State) (l : LineNo) (r : Req) : State :=
  let s1 := s.count (homeReg s l Reg.DIR_CNT_TXN)
  let s2 := lookup s1 l r
  let s3 := match s2.homeWay l with | some k => wayDecode s2 k | none => s2
  let b := beginOp s3 l { Txn.of r with got := lastRead s2 s3 l }
  tryFinish (b.1.putTxn l b.2) l

/-! ### The line order (R228) -/

/-- Distance of a requester number above the rotation pointer, wrapping from 0x1FFF to 0. -/
def tieRank (next : Nat) (r : Req) : Nat := (r.num.toNat + 8192 - next) % 8192

/-- Insert by rank. -/
def tieIns (next : Nat) (r : Req) : List Req → List Req
  | [] => [r]
  | x :: xs => if tieRank next r < tieRank next x then r :: x :: xs else x :: tieIns next r xs

/-- Request `r` reaches the home in the same cycle as the last requests of the wait queue: the tie is ordered from the rotation pointer, which
becomes one above the first (R228). A third request joins the tie under the pointer that the tie began with. -/
def enterTie (s : State) (l : LineNo) (r : Req) : State :=
  let q := s.lineq l
  let tie := homeReg s l Reg.DIR_SLICE_TIE
  let next := q.tie.getD (s.get tie Fld.DIR_SLICE_TIE_next)
  let same (x : Req) : Bool := x.cyc == r.cyc
  let ord := (q.wait.reverse.takeWhile same ++ [r]).foldl (fun acc x => tieIns next x acc) []
  let first := match ord with | x :: _ => x.num.toNat | [] => 0
  let s1 := (s.setLineq l { q with wait := (q.wait.reverse.dropWhile same).reverse ++ ord, tie := some next }).put tie
    Fld.DIR_SLICE_TIE_next (first + 1)
  if q.tie.isNone then s1.count (homeReg s l Reg.DIR_CNT_TIE) else s1

/-- A request enters the line's order (R228). -/
def enter (s : State) (l : LineNo) (r : Req) : State :=
  let q := s.lineq l
  let meets := match q.wait.getLast? with | some x => r.cyc.isSome && x.cyc == r.cyc | none => false
  if meets then enterTie s l r else s.setLineq l { q with wait := q.wait ++ [r], tie := none }

/-- The home takes the next request of the line. -/
def takeNext (s : State) (l : LineNo) : State :=
  if (s.lineq l).act.isSome then s
  else match (s.lineq l).wait with
    | [] => s
    | r :: rest => beginReq (s.setLineq l { s.lineq l with wait := rest }) l r

/-! ### Answers -/

/-- Apply `f` to the transaction in progress and serve it where nothing is awaited any more. -/
def State.modTxn (s : State) (l : LineNo) (f : Txn → Txn) : State :=
  match (s.lineq l).act with
  | some t => tryFinish (s.putTxn l (f t)) l
  | none => s

/-- INV_ACK at the home. -/
def homeInvAck (s : State) (c : Nat) (l : LineNo) : State :=
  s.modTxn l (fun t => { t with invs := t.invs.erase c })

/-- BINV_ACK at the home: the next die's BINV follows. -/
def homeBinvAck (s : State) (die : Nat) (l : LineNo) : State :=
  match (s.lineq l).act with
  | some t =>
    if t.binv = some die then
      let r := nextBinv s l { t with binv := none }
      tryFinish (r.1.putTxn l r.2) l
    else s
  | none => s

/-- REP_ACK at the home: the replica of that die has gone. -/
def homeRepAck (s : State) (die : Nat) (l : LineNo) : State :=
  let d := s.dirOf l
  let s1 := setDir s l ({ d with reps := d.reps &&& ~~~ BitVec.ofNat 8 (2 ^ die) }).settle
  s1.modTxn l (fun t => { t with reps := t.reps.erase die })

/-- REP_DROP at the home. -/
def homeRepDrop (s : State) (die : Nat) (l : LineNo) : State :=
  let d := s.dirOf l
  if d.reps.getLsbD die then setDir s l ({ d with reps := d.reps &&& ~~~ BitVec.ofNat 8 (2 ^ die) }).settle else s

/-- A read that the owner has answered: the directory names the new holders, and data sent through the home goes on to the requester (R234). -/
def fwdServed (s : State) (l : LineNo) (t : Txn) (ifetch : Bool) (via : Option SliceId) (dirty : Bool) (ld : Option LineData) : State :=
  let d := s.dirOf l
  let d1 := if dirty then d.ownerKind 2 else d.ownerKind 1
  let d2 := (if ifetch then d1 else (d1.addSharer t.req.core).1).settle
  let s1 := setDir s l d2
  let s2 := match ld with
    | some x => s1.send (s.homeEp l) (epCore t.req.core) l (if ifetch then .dataI x else .dataS x)
    | none => s1
  endTxn (dropFill s2 via l t.req.num ifetch) l

/-- FWD_DONE at the home (Table 8-6). -/
def homeFwdDone (s : State) (c : Nat) (l : LineNo) (dirty : Bool) (ld : Option LineData) : State :=
  match (s.lineq l).act with
  | none => s
  | some t =>
    if t.owner != some c then s else
    match t.req.op with
    | .gets ifetch via => fwdServed s l t ifetch via dirty ld
    | .mrd => s.modTxn l (fun t => { t with owner := none, got := ld.map (fun x => (x, dirty)) })
    | _ => s.modTxn l (fun t => { t with owner := none, sent := ld.isNone, got := ld.map (fun x => (x, dirty)) })

/-- RECALL_DATA at the home: the owner's data is placed, or gathered for the operation that waits (R225, R240). -/
def homeRecall (s : State) (c : Nat) (l : LineNo) (ld : LineData) (dirty : Bool) : State :=
  match (s.lineq l).act with
  | none => s
  | some t =>
    if t.owner != some c then s else
    match t.req.op with
    | .gets .. =>
      let s1 := setDir s l ((s.dirOf l).ownerKind 1).settle
      (if dirty then placeData s1 l ld else s1).modTxn l (fun t => { t with owner := none })
    | .upg =>
      let s1 := setDir s l ((s.dirOf l).without c).settle
      (if dirty then placeData s1 l ld else s1).modTxn l (fun t => { t with owner := none })
    | _ =>
      let s1 := setDir s l ((s.dirOf l).without c).settle
      if (s1.homeWay l).isSome && !s1.bypassed (s1.home l) then
        (if dirty then placeData s1 l ld else s1).modTxn l (fun t => { t with owner := none })
      else s1.modTxn l (fun t => { t with owner := none, got := some (ld, dirty) })

/-- FWD_MISS at the home: the transaction begins again and is served from the home, where the victim's data lies (R232). -/
def homeFwdMiss (s : State) (c : Nat) (l : LineNo) : State :=
  match (s.lineq l).act with
  | none => s
  | some t =>
    if t.owner != some c then s else
    if (s.dirOf l).owner = some c then
      -- The victim is still to be placed: the entry still names the L1 that has offered it.
      s
    else (s.count (homeReg s l Reg.DIR_CNT_RETRY)).modTxn l (fun t => { t with owner := none })

/-! ### Replica slices (R233, R238, R239, R258) -/

def rowBit (c : Nat) : BitVec 32 := BitVec.ofNat 32 (2 ^ (c / 16 % 32))

/-- The acquire epoch of a die and the epoch a core has recorded (R258). -/
def State.dieEpoch (s : State) (d : Nat) : W64 := s.reg (Reg.DIR_ACQ_EPOCH d)
def State.coreEpoch (s : State) (c : Nat) : W64 := s.reg (Reg.CORE_SYNC_EPOCH c)

/-- A replica slice serves a reader from its replica in way `k`. -/
def serveReplica (s : State) (g k : Nat) (x : Way) (l : LineNo) (num : ReqNum) (ifetch : Bool) (dst : Option SliceId) (key : Key) : State :=
  let c := num.toNat % 4096
  let s1 := s.count (sliceReg Reg.LLC_CNT_REPL_HIT g)
  match dst with
  | some r => s1.send (epSlice g) (epSlice r.val) l (.repData x.ld num key ifetch)
  | none =>
    let s2 := match x.use with
      | .replica rows e => if ifetch || coreDie c != sliceDie g then s1 else s1.setWayAt k (some { x with use := .replica (rows ||| rowBit c) e })
      | .home .. => s1
    s2.send (epSlice g) (epCore c) l (if ifetch then .dataI x.ld else .dataS x.ld)

/-- The way that holds a replica of the line which may still serve readers. -/
def State.liveReplica (s : State) (g : Nat) (l : LineNo) : Option Nat := if s.removing g l then none else s.findWay g l true

/-- A GETS at a replica slice: a hit is served; a miss, or a replica recorded below the reader's epoch, goes on to the home. -/
def repGets (s : State) (g : Nat) (l : LineNo) (num : ReqNum) (key : Key) (ifetch : Bool) : State :=
  let c := num.toNat % 4096
  let s0 := match s.liveReplica g l with | some k => wayDecode s k | none => s
  let s1 := s0.count (sliceReg Reg.LLC_CNT_LOOKUP g)
  let onward (s : State) : State :=
    let s2 := { s with llc := { s.llc with fills := s.llc.fills ++ [RepFill.mk g l num ifetch false (s.dieEpoch (sliceDie g)) none] } }
    s2.send (epSlice g) (s.homeEp l) l (.gets num key ifetch)
  match s1.liveReplica g l with
  | none => onward s1
  | some k =>
    match s1.wayAt k with
    | none => onward s1
    | some x =>
      match x.use with
      | .home .. => onward s1
      | .replica _ e =>
        if e.toNat < (s.coreEpoch c).toNat then onward (s1.count (sliceReg Reg.DIR_CNT_REP_STALE g))
        else serveReplica s1 g k x l num ifetch none key

/-- The reader uses the data once and does not install it (R239). -/
def serveOnce (s : State) (g : Nat) (l : LineNo) (ld : LineData) (num : ReqNum) (ifetch : Bool) : State :=
  let c := num.toNat % 4096
  let s1 := if ifetch then s.modCore c (fun k => { k with fetchOnce := setIns k.fetchOnce l.toNat })
    else s.modCore c (fun k => { k with miss := k.miss.map (fun m => if m.line = l then { m with once := true } else m) })
  s1.send (epSlice g) (epCore c) l (if ifetch then .dataI ld else .dataS ld)

/-- The data of fill `f` is there: the replica is installed and the reader served, once a way is free; a dead fill, or one that finds no way,
serves the reader alone (R215, R239). -/
def fillReplica (s : State) (f : RepFill) (ld : LineData) (key : Key) : State :=
  let g := f.slice
  let l := f.line
  let c := f.num.toNat % 4096
  let settled (s : State) : State := unpromise { s with llc := { s.llc with fills := s.llc.fills.erase f } } g l
  let rows : BitVec 32 := if f.ifetch then 0 else rowBit c
  let give (s : State) : State := s.send (epSlice g) (epCore c) l (if f.ifetch then .dataI ld else .dataS ld)
  if f.dead then serveOnce (settled s) g l ld f.num f.ifetch
  else if s.removing g l then s
  else match s.findWay g l true with
    | some k =>
      let old : BitVec 32 := match s.wayAt k with | some x => (match x.use with | .replica r _ => r | .home .. => 0) | none => 0
      give (wayPlace (settled s) k ⟨l, ld, false, none, .replica (old ||| rows) f.epoch⟩)
    | none =>
      let mask := s.repMask g key
      if s.noAlloc g (setOf l) mask key then serveOnce ((settled s).send (epSlice g) (s.homeEp l) l .repDrop) g l ld f.num f.ifetch
      else match takeWay s g l mask with
        | (s1, some k) =>
          give ((wayPlace (settled s1) k ⟨l, ld, false, none, .replica rows f.epoch⟩).count (sliceReg Reg.LLC_CNT_REPL_FILL g))
        | (s1, none) => s1

/-- Fills whose data waits for a way are tried again. -/
def fillsDue (s : State) : State :=
  forEach s.llc.fills s (fun s f => match f.got with
    | some x => if s.llc.fills.contains f then fillReplica s f x.1 x.2 else s
    | none => s)

/-- Data reaches a replica slice for the fill of requester `num` (R215, R239). -/
def repFill (s : State) (g : Nat) (l : LineNo) (ld : LineData) (num : ReqNum) (key : Key) (ifetch : Bool) : State :=
  match s.llc.fills.find? (fun f => f.slice == g && f.line == l && f.num == num && f.ifetch == ifetch && f.got.isNone) with
  | none => serveOnce s g l ld num ifetch
  | some f =>
    let f1 := { f with got := some (ld, key) }
    fillReplica { s with llc := { s.llc with fills := s.llc.fills.map (fun x => if x = f then f1 else x) } } f1 ld key

/-- A replica slice is asked to serve a reader; where its replica has gone meanwhile, the request goes to the home again. -/
def repServe (s : State) (g : Nat) (l : LineNo) (num : ReqNum) (key : Key) (ifetch : Bool) (dst : Option SliceId) : State :=
  let s1 := s.count (sliceReg Reg.LLC_CNT_LOOKUP g)
  match s1.liveReplica g l with
  | some k => match s1.wayAt k with
    | some x => serveReplica s1 g k x l num ifetch dst key
    | none => s1
  | none =>
    let src := match dst with | some r => epSlice r.val | none => epCore (num.toNat % 4096)
    s1.send src (s.homeEp l) l (.gets num key ifetch)

/-- REP_INV at a replica slice: the marked rows are invalidated first; a fill in flight is marked dead (R238, R239). -/
def repInvalidate (s : State) (g : Nat) (l : LineNo) : State :=
  let dead := s.llc.fills.map (fun f => if f.slice = g && f.line = l then { f with dead := true } else f)
  let s1 := { s with llc := { s.llc with fills := dead } }
  if s1.removing g l then
    -- The replica is being dropped already: REP_ACK follows instead of REP_DROP.
    { s1 with llc := { s1.llc with repInv := s1.llc.repInv.map (fun e => if e.1 = g && e.2.1 = l.toNat then (e.1, e.2.1, e.2.2.1, true) else e) } }
  else match s1.findWay g l true with
    | none => s1.send (epSlice g) (s.homeEp l) l .repAck
    | some k =>
      let rows : BitVec 32 := match s1.wayAt k with | some x => (match x.use with | .replica rows _ => rows | .home .. => 0) | none => 0
      removeReplica s1 g l rows true

/-- INV_ACK at a replica slice: with the last one the replica is discarded (R238). -/
def repInvAck (s : State) (g c : Nat) (l : LineNo) : State :=
  match s.llc.repInv.find? (fun e => e.1 == g && e.2.1 == l.toNat) with
  | none => s
  | some e =>
    let left := e.2.2.1.erase c
    let others := s.llc.repInv.erase e
    if left.isEmpty then replicaGone { s with llc := { s.llc with repInv := others } } g l e.2.2.2
    else { s with llc := { s.llc with repInv := others ++ [(g, l.toNat, left, e.2.2.2)] } }

/-- The in-service L1s of the rows that a vector marks on a die. -/
def State.rowCores (s : State) (die : Nat) (rows : BitVec 32) : List Nat := (markedSlots die rows).filter s.inService

/-! ### Broadcast paths (R226) -/

/-- The in-service L1s of a die. -/
def State.dieCores (s : State) (die : Nat) : List Nat := s.rowCores die (BitVec.allOnes 32)

/-- BINV at a die's broadcast path: INV to every in-service L1. -/
def pathBinv (s : State) (die : Nat) (l : LineNo) : State :=
  let cs := s.dieCores die
  if cs.isEmpty then s.send (epBroadcast die) (s.homeEp l) l .binvAck
  else
    let s1 := forEach cs s (fun s c => s.send (epBroadcast die) (epCore c) l .inv)
    { s1 with llc := { s1.llc with binv := s1.llc.binv ++ [(die, l.toNat, cs)] } }

/-- INV_ACK at a broadcast path: with the last one BINV_ACK is sent. -/
def pathInvAck (s : State) (die c : Nat) (l : LineNo) : State :=
  match s.llc.binv.find? (fun e => e.1 == die && e.2.1 == l.toNat) with
  | none => s
  | some e =>
    let left := e.2.2.erase c
    let others := s.llc.binv.erase e
    if left.isEmpty then ({ s with llc := { s.llc with binv := others } }).send (epBroadcast die) (s.homeEp l) l .binvAck
    else { s with llc := { s.llc with binv := others ++ [(die, l.toNat, left)] } }

/-! ### What waited (R188, R212, R245) -/

/-- Transactions that waited for a buffer, a way or an entry are tried again. -/
def linesDue (s : State) : State := forEach (s.llc.lineq.map (·.1)) s (fun s n => tryFinish s (BitVec.ofNat 45 n))

/-- Everything that waited for room is tried again: what a leaving line freed may serve another, hence twice. -/
def settleAll (s : State) : State := fillsDue (linesDue (linesDue s))

end Sys2Proof.Machine
end

