-- ==== Sys2Proof/Machine/MemCtl.lean ====
section
/-!
DEFINITION. The memory controllers (chapter 12): reads with retry, watch and failure (R341, R342), map-out claims (R337), mirrors (R344),
writes (R327), the patrol scrubber (R340), stack temperature (R338, R339), and the current value of a line wherever it lies.
-/
namespace Sys2Proof.Machine

/-- `n` changes of a saturating field by one. -/
def State.put8 (s : State) (f : Nat → Nat) (fld : Fld) (v : Nat) : State := forEach (List.range 8) s (fun s d => s.put (f d) fld v)

/-! ### Failed channels and the map-out record (R335, R337, R342) -/

/-- A channel claims a place in the map-out record as it enters FAILED or FAILED_DEAD; the record may be full (R337). -/
def claimChannel (s : State) (c : Nat) : State :=
  if s.flash.mapout.contains c || s.stk.claims.contains c then s
  else if s.flash.mapout.length + s.stk.claims.length < 64 then { s with stk := { s.stk with claims := s.stk.claims ++ [c] } }
  else raiseEdge (s.put8 Reg.MEM_MAP_INFO Fld.MEM_MAP_INFO_full 1) (c / 128) 0x144

/-- A channel enters FAILED (R342). -/
def chanFailed (s : State) (c : Nat) : State :=
  if s.chanState c == 1 || s.chanState c == 2 then
    claimChannel (errRecord (setChan s c 3) (c / 128) (ErrRec.plain 1 0x021 4 c 0)) c
  else s

/-- A channel enters FAILED_DEAD (R335): its contents read poisoned from then on. -/
def chanDead (s : State) (c : Nat) (claim : Bool) : State :=
  let s1 := errRecord (setChan s c 4) (c / 128) (ErrRec.plain 1 0x022 4 c 0)
  if claim then claimChannel s1 c else s1

/-- One more distinct line of the channel was uncorrectable after retry (R342). -/
def chanUe (s : State) (c line : Nat) : State :=
  let s1 := s.incSat (chanReg Reg.MEM_CH_ERR c) Fld.MEM_CH_ERR_uncorrected
  let seen := mapGet (fun _ => []) s1.stk.ue c
  if seen.contains line then s1
  else
    let seen1 := seen ++ [line]
    let s2 := { s1 with stk := { s1.stk with ue := mapSet (fun _ => []) s1.stk.ue c seen1 } }
    let s3 := s2.put (chanReg Reg.MEM_CH_STATUS c) Fld.MEM_CH_STATUS_fail_lines (satTo 8 seen1.length)
    if s3.get (Reg.MEM_CE (c / 128)) Fld.MEM_CE_fail_lines ≤ seen1.length then chanFailed s3 c else s3

/-- A corrected read of the channel is counted; at the threshold it enters WATCH (R341). -/
def chanCe (s : State) (c : Nat) : State :=
  let s1 := s.count (chanReg Reg.MEM_CH_CE c)
  let n := mapGet (fun _ => 0) s1.stk.win c + 1
  let s2 := { s1 with stk := { s1.stk with win := mapSet (fun _ => 0) s1.stk.win c n } }
  if s2.get (Reg.MEM_CE (c / 128)) Fld.MEM_CE_thresh ≤ n && s2.chanState c == 1 then
    let s3 := errRecord (setChan s2 c 2) (c / 128) (ErrRec.plain 0 0x020 4 c 0)
    raiseEdge { s3 with stk := { s3.stk with skipWin := setIns s3.stk.skipWin c, good := mapSet (fun _ => 0) s3.stk.good c 0 } } (c / 128) 0x143
  else s2

/-! ### One read of a stored line -/

/-- The words of a line that hold an injected error (R483): the worst of them. -/
def State.lineBad (s : State) (a : Nat) : ReadRes :=
  (wordsIn a 128).foldl (fun r w => match s.badWord w, r with
    | some .two, _ => .uncorrectable
    | some .one, .clean => .corrected
    | _, r => r) .clean

/-- The worse of two decodes. -/
def worse (x y : ReadRes) : ReadRes :=
  match x, y with
  | .uncorrectable, _ => .uncorrectable
  | _, .uncorrectable => .uncorrectable
  | .corrected, _ => .corrected
  | _, .corrected => .corrected
  | .clean, .clean => .clean

/-- The result of the k-th read of the line at `a`. -/
def State.readRes (s : State) (a : Nat) (res : List ReadRes) (k : Nat) : ReadRes := worse (res.getD k .clean) (s.lineBad a)

/-- Retries after an uncorrectable first read: how many until one is not uncorrectable, within the limit. -/
def State.retries (s : State) (a : Nat) (res : List ReadRes) (lim : Nat) : Nat × Bool :=
  match (List.range lim).find? (fun i => s.readRes a res (i + 1) != .uncorrectable) with
  | some i => (i + 1, true)
  | none => (lim, false)

/-- In WATCH a read that needed correction, whose result came with read `k`, is read once more: where the two results differ, the error was
transient (R341). -/
def watchAgain (s : State) (c a : Nat) (res : List ReadRes) (k : Nat) (watch : Bool) : State :=
  if watch && s.readRes a res (k + 1) != s.readRes a res k then s.incSat (chanReg Reg.MEM_CH_ERR c) Fld.MEM_CH_ERR_transient else s

/-- Read the line at `a` from channel `c` with retries (R341); the Bool says whether it stayed uncorrectable. -/
def chanRead (s : State) (c a : Nat) (res : List ReadRes) : State × Bool :=
  if s.chanGone c then (s, true)
  else
    let addr := if a < 2 ^ 52 then a / 128 * 128 else 0
    let watch := s.chanState c == 2
    match s.readRes a res 0 with
    | .clean => (s, false)
    | .corrected => (watchAgain (chanCe (errRecord s (c / 128) (ErrRec.plain 0 0x001 4 c addr)) c) c a res 0 watch, false)
    | .uncorrectable =>
      let lim := s.get (Reg.MEM_DIE_CTL (c / 128)) Fld.MEM_DIE_CTL_retry_max
      let r := s.retries a res lim
      let s1 := s.addWrap (chanReg Reg.MEM_CH_RETRY c) Fld.MEM_CH_RETRY_count r.1
      if r.2 then (watchAgain (chanCe (errRecord s1 (c / 128) (ErrRec.plain 0 0x002 4 c addr)) c) c a res r.1 watch, false)
      else (chanUe s1 c (a / 128), true)

/-! ### Writing a line -/

/-- Injected errors of a line are overwritten. -/
def State.clearLine (s : State) (a : Nat) : State := forEach (wordsIn a 128) s State.clearBad

/-- A controller stores a line; a channel that serves nothing drops it (R335, R364). -/
def storeLine (s : State) (l : LineNo) (ld : LineData) : State :=
  let a := lineBase l
  let c := s.chanOf a
  if s.chanGone c then s
  else injectWord (((s.clearLine a).setBytes a (lineBytes ld.d)).setPoison a ld.poison) (c / 128) 1 0 a

/-- The writes of a line that a controller has received are applied, in order (R327). -/
def applyWrites (s : State) (l : LineNo) : State :=
  let mine := s.stk.wr.filter (fun e => e.1 == l.toNat)
  forEach mine { s with stk := { s.stk with wr := s.stk.wr.filter (fun e => e.1 != l.toNat) } } (fun s e => storeLine s l e.2)

/-- The line is rewritten from other data, as one request. -/
def rewrite (s : State) (l : LineNo) (ld : LineData) : State := storeLine s l ld

/-! ### Reading a line with its mirror (R344) -/

/-- The line's primary is uncorrectable: the copy serves and rewrites it, or the line is poisoned (R344, R463). -/
def readCopy (s : State) (l : LineNo) (copy : List ReadRes) : State × LineData :=
  let a := lineBase l
  let pc := s.chanOf a
  let s0 := applyWrites s (copyLine l)
  let cc := s0.chanOf (a + 2 ^ 30)
  let r := chanRead s0 cc (a + 2 ^ 30) copy
  if r.2 then
    let s1 := (r.1.setPoison a true).setPoison (a + 2 ^ 30) true
    let s2 := if s1.chanGone pc && s1.chanGone cc then s1 else errRecord s1 (pc / 128) (ErrRec.plain 1 0x040 4 pc a)
    ((s2.clearLine a).clearLine (a + 2 ^ 30), ⟨lineOfBytes (s2.bytes a 128), true⟩)
  else
    let ld : LineData := ⟨lineOfBytes (r.1.bytes (a + 2 ^ 30) 128), r.1.poisoned (a + 2 ^ 30)⟩
    let s1 := (rewrite r.1 l ld).count (chanReg Reg.MEM_CH_MIRROR pc)
    (if s.chanGone pc then s1 else errRecord s1 (pc / 128) (ErrRec.plain 0 0x003 4 pc a), ld)

/-- The controller reads a line for its home (R327, R341, R344, R463). -/
def readLine (s : State) (l : LineNo) (pri copy : List ReadRes) : State × LineData :=
  let a := lineBase l
  let c := s.chanOf a
  let s0 := applyWrites s l
  let r := chanRead s0 c a pri
  if r.2 then
    if s.mirrored a then readCopy r.1 l copy
    else if s.chanGone c then (r.1, ⟨lineOfBytes (r.1.bytes a 128), true⟩)
    else
      let s1 := errRecord ((r.1.clearLine a).setPoison a true) (c / 128) (ErrRec.plain 1 0x040 4 c a)
      (s1, ⟨lineOfBytes (s1.bytes a 128), true⟩)
  else (r.1, r.1.memLine l)

/-- A channel of the line at `a` trains: its requests wait (Table 12-4). -/
def State.chanWaits (s : State) (a : Nat) : Bool := (s.chansOf a).any (fun c => s.chanState c == 0)

/-- Line data returns to its home, where a read of the line is outstanding (R327). -/
def memReturn (s : State) (l : LineNo) (pri copy : List ReadRes) : State :=
  if s.chanWaits (lineBase l) then s
  else if s.stk.fills.contains l.toNat then
    let r := readLine { s with stk := { s.stk with fills := s.stk.fills.erase l.toNat } } l pri copy
    r.1.modTxn l (fun t => { t with mem := false, got := some (r.2, false), fromMem := true })
  else s

/-! ### Buffers to memory (R212, R246, R344) -/

/-- A victim-buffer or reduction-buffer entry of the line issues its memory write. -/
def bufIssue (s : State) (g : Nat) (l : LineNo) : State :=
  let mark : List VbEnt → List VbEnt := fun v => v.map (fun e => if e.line = l && !e.issued then { e with issued := true } else e)
  match ((s.vbuf g ++ s.rbuf g).find? (fun e => e.line == l && !e.issued)) with
  | none => s
  | some e => memWrite ((s.setVbuf g (mark (s.vbuf g))).setRbuf g (mark (s.rbuf g))) l e.ld

/-- The first issued entry of a line is freed. -/
def bufFree (s : State) (l : LineNo) : State :=
  let g := s.home l
  match (s.vbuf g).find? (fun e => e.line == l && e.issued) with
  | some e => s.setVbuf g ((s.vbuf g).erase e)
  | none => match (s.rbuf g).find? (fun e => e.line == l && e.issued) with
    | some e => s.setRbuf g ((s.rbuf g).erase e)
    | none => s

/-- The write of a line is complete for its home: the entry or the DONE is released (R344). -/
def writeDone (s : State) (l : LineNo) : State :=
  let s1 := bufFree s l
  match (s1.lineq l).act with
  | some t => if t.wrWait then
      let b := match t.req.op with | .mwr .. => true | .mwrs .. => true | _ => false
      let s2 := if b then s1.send (s1.homeEp l) t.req.src l (.done 0 0 false) else s1
      endTxn s2 l
    else s1
  | none => s1

/-- A controller finishes a write of a line, or of a mirrored line's copy. -/
def memWriteDone (s : State) (l : LineNo) : State :=
  if s.chanState (s.chanOf (lineBase l)) = 0 then s else
  let s1 := match s.stk.wr.find? (fun e => e.1 == l.toNat) with
    | some e => storeLine { s with stk := { s.stk with wr := s.stk.wr.erase e } } l e.2
    | none => s
  let isCopy := s.gmap (lineBase l / 2 ^ 30) Fld.PRT_GMAP_mirrored == 1 && lineBase l / 2 ^ 30 % 2 == 1
  let p : LineNo := if isCopy then l - 0x800000#45 else l
  if isCopy || s.mirrored (lineBase l) then
    match s1.llc.done.find? (fun e => e.1 == p.toNat) with
    | none => s1
    | some e =>
      let e1 := if isCopy then (e.1, e.2.1, true) else (e.1, true, e.2.2)
      let rest := s1.llc.done.erase e
      if e1.2.1 && e1.2.2 then writeDone { s1 with llc := { s1.llc with done := rest } } p
      else { s1 with llc := { s1.llc with done := e1 :: rest } }
  else writeDone s1 l

/-! ### The current value of a line -/

/-- The owner L1's copy, or a victim on its way to the home. -/
def State.ownedData (s : State) (l : LineNo) : Option LineData :=
  match s.cores.findSome? (fun e => match e.2.l1Line l with
    | some x => if x.st == .s then none else some x.ld
    | none => none) with
  | some x => some x
  | none => s.victimData l

/-- The line as its controllers hold it: its copy's where the primary's channel serves nothing (R344), poisoned where no channel serves
(R335). -/
def State.heldLine (s : State) (l : LineNo) : LineData :=
  let a := lineBase l
  if !s.chanGone (s.chanOf a) then s.memLine l
  else if s.mirrored a && !s.chanGone (s.chanOf (a + 2 ^ 30)) then s.memLine (copyLine l)
  else ⟨(s.memLine l).d, true⟩

/-- What a read ordered now at the home would return (R224). -/
def State.current (s : State) (l : LineNo) : LineData :=
  match s.ownedData l with
  | some x => x
  | none => match s.lineData l with
    | some x => x
    | none => match s.wrOf l with
      | some x => x
      | none => s.heldLine l

/-- Bytes of stacked memory as a read at their homes returns them, with their poison. -/
def State.currentBytes (s : State) (a n : Nat) : List Byte × Bool :=
  ((lineParts a n).flatMap (fun x => bytesOf x.2.2.1 (lineNum (s.current (BitVec.ofNat 45 x.1)).d x.2.1 x.2.2.1)),
   (lineParts a n).any (fun x => (s.current (BitVec.ofNat 45 x.1)).poison || s.lineRefuses (x.1 * 128)))

/-! ### Storage positions back to addresses -/

/-- The address that a primary position holds, if a valid GiB uses it (R328, R329 turned round). -/
def State.addrOfPrimary (s : State) (c slot o : Nat) : Option Nat :=
  let grp := (List.range 8).map (fun i => 8 * (slot / 8) + i)
  if grp.any (fun g => s.gmap g Fld.PRT_GMAP_valid == 1 && s.gmap g Fld.PRT_GMAP_die_local == 1) then
    match grp.find? (fun g => s.gmap g Fld.PRT_GMAP_valid == 1 && s.gmap g Fld.PRT_GMAP_die_local == 1 && s.gmap g Fld.PRT_GMAP_die == c / 128) with
    | none => none
    | some g =>
      let hi := bits slot 2 0 * 2048 + o
      let v := hi * 128 + ((c % 128) ^^^ bits hi 6 0 ^^^ bits hi 13 7)
      some (g * 2 ^ 30 + v * 512)
  else
    let hi := slot * 2048 + o
    let low := c ^^^ bits hi 9 0 ^^^ rev10 (bits hi 20 11) ^^^ (bits hi 22 21 * 16) ^^^ (bits hi 10 10 * 8)
    some ((hi * 1024 + low) * 512)

/-- The address that a storage position holds (R332 turned round). -/
def State.addrOf (s : State) (c slot o : Nat) : Option Nat :=
  let n := s.stk.mapped.length
  let top := 3072 - 3 * n
  if slot < top then s.addrOfPrimary c slot o
  else
    let k := 1024 - n
    match s.liveChans.idxOf? c with
    | none => none
    | some i =>
      let x := (slot * 2048 + o - top * 2048) * k + i
      match s.stk.mapped[x / 2048 / top]? with
      | some f => s.addrOfPrimary f (x / 2048 % top) (x % 2048)
      | none => none

/-! ### The patrol scrubber (R340) -/

/-- Lines of a stack: 32 channels of 3,072 slots of 2,048 units of 4 lines. -/
def stackLines : Nat := 32 * 3072 * 2048 * 4

/-- The scrubber reads line `l` of channel `c`; corrections and poison are written back (R340, R344). -/
def scrubLine (s : State) (c : Nat) (l : LineNo) (pri copy : List ReadRes) : State :=
  let a := lineBase l
  let fix (s : State) : State := s.count (chanReg Reg.MEM_CH_SCRUB_FIX c)
  let s0 := applyWrites s l
  let isCopy := s.gmap (a / 2 ^ 30) Fld.PRT_GMAP_mirrored == 1 && a / 2 ^ 30 % 2 == 1
  let had := s0.readRes a pri 0
  let r := chanRead s0 c a pri
  if r.2 then
    if s.chanGone c then r.1
    else if s.mirrored a || isCopy then
      let other : LineNo := if isCopy then l - 0x800000#45 else copyLine l
      let s1 := applyWrites r.1 other
      let oc := s1.chanOf (lineBase other)
      let r2 := chanRead s1 oc (lineBase other) copy
      if r2.2 then fix (errRecord (((r2.1.clearLine a).setPoison a true).setPoison (lineBase other) true) (c / 128) (ErrRec.plain 1 0x040 4 c a))
      else
        -- A primary repaired from its copy counts in MEM_CH_MIRROR (R344).
        let s2 := errRecord (rewrite r2.1 l (r2.1.memLine other)) (c / 128) (ErrRec.plain 0 0x003 4 c a)
        fix (if isCopy then s2 else s2.count (chanReg Reg.MEM_CH_MIRROR c))
    else fix (errRecord ((r.1.clearLine a).setPoison a true) (c / 128) (ErrRec.plain 1 0x040 4 c a))
  else if had != .clean then fix (rewrite r.1 l (r.1.memLine l))
  else r.1

/-- The scrubber reads a position of channel `c` that no MPA names (R340): line `n` of the channel, which holds nothing that a request reaches;
what needed correction is written back. DESIGN CHOICE (log 97): its error records carry address 0. -/
def scrubHole (s : State) (c n : Nat) (pri : List ReadRes) : State :=
  let a := 2 ^ 52 + n * 128
  let had := s.readRes a pri 0
  let r := chanRead s c a pri
  if s.chanGone c || had == .clean then r.1
  else
    let s1 := if r.2 then errRecord r.1 (c / 128) (ErrRec.plain 1 0x040 4 c 0) else r.1
    s1.count (chanReg Reg.MEM_CH_SCRUB_FIX c)

/-- The scrubber of a stack reads its next line and moves on. -/
def scrubNext (s : State) (n : Nat) (pri copy : List ReadRes) : State :=
  let reg := Reg.MEM_STK_SCRUB (n / 4) (n % 4)
  if !s.flag (Reg.MEM_DIE_CTL (n / 4)) Fld.MEM_DIE_CTL_scrub_en then s
  else
    let p := s.get reg Fld.MEM_STK_SCRUB_position
    let c := 32 * n + p / 25165824
    let s1 := if s.chanState c == 1 || s.chanState c == 2 || s.chanState c == 3 then
        match s.addrOf c (p / 8192 % 3072) (p / 4 % 2048) with
        | some a => scrubLine s c (BitVec.ofNat 45 (a / 128 + p % 4)) pri copy
        | none => scrubHole s c (p % 25165824) pri
      else s
    if p + 1 < stackLines then s1.put reg Fld.MEM_STK_SCRUB_position (p + 1)
    else (s1.put reg Fld.MEM_STK_SCRUB_position 0).addWrap reg Fld.MEM_STK_SCRUB_passes 1

/-! ### Stack temperature (R338, R339) -/

/-- Band of a temperature: 0 base, 1 twice, 2 four times, 3 four times with the throttle (Table 12-5). -/
def tempBand (t : Nat) : Nat := if t < 85 then 0 else if t < 95 then 1 else if t ≤ 105 then 2 else 3

/-- The band in force after a reading: up at once, down only 3 °C below the lower band's upper threshold. -/
def nextBand (b t : Nat) : Nat :=
  if b ≤ tempBand t then tempBand t
  else
    let low := if t + 3 ≤ 85 then 0 else if t + 3 ≤ 95 then 1 else if t + 3 ≤ 105 then 2 else 3
    if low < b then low else b

def bandOf (s : State) (n : Nat) : Nat :=
  let r := Reg.MEM_STK_STATUS (n / 4) (n % 4)
  if s.flag r Fld.MEM_STK_STATUS_throttled then 3 else s.get r Fld.MEM_STK_STATUS_refresh

/-- A stack's 1 ms temperature reading. -/
def stackTemp (s : State) (n t : Nat) : State :=
  let die := n / 4
  let r := Reg.MEM_STK_STATUS die (n % 4)
  let b := nextBand (bandOf s n) t
  let s1 := (s.put r Fld.MEM_STK_STATUS_temp_c t).put r Fld.MEM_STK_STATUS_temp_max (max t (s.get r Fld.MEM_STK_STATUS_temp_max))
  let s2 := (s1.put r Fld.MEM_STK_STATUS_refresh (min b 2)).setFlag r Fld.MEM_STK_STATUS_throttled (b == 3)
  let s3 := if b = 3 then s2.count (Reg.MEM_STK_HOT die (n % 4)) else s2
  let hot := (List.range 4).any (fun m => s3.flag (Reg.MEM_STK_STATUS die m) Fld.MEM_STK_STATUS_throttled)
  let s4 := setLevel s3 die 0x142 hot
  if 105 < t then lowerRates s4 ((s4.coresIn.filter (fun c => coreDie c == die)).filter s4.runsBe) (fun _ _ => 450) else s4

/-! ### Windows and the record -/

/-- A channel's counting window ends (R341). -/
def windowOver (s : State) (c : Nat) : State :=
  let n := mapGet (fun _ => 0) s.stk.win c
  let below := n < s.get (Reg.MEM_CE (c / 128)) Fld.MEM_CE_thresh
  let s1 := { s with stk := { s.stk with win := mapSet (fun _ => 0) s.stk.win c 0, skipWin := setDel s.stk.skipWin c } }
  if s.chanState c != 2 || setHas s.stk.skipWin c then s1
  else
    let g := if below then mapGet (fun _ => 0) s.stk.good c + 1 else 0
    if 16 ≤ g then setChan { s1 with stk := { s1.stk with good := mapSet (fun _ => 0) s1.stk.good c 0 } } c 1
    else { s1 with stk := { s1.stk with good := mapSet (fun _ => 0) s1.stk.good c g } }

/-- A claimed entry is stored in flash (R337). -/
def recordStore (s : State) (c : Nat) : State :=
  if s.stk.claims.contains c then
    { s with stk := { s.stk with claims := s.stk.claims.erase c },
             flash := { s.flash with mapout := setIns s.flash.mapout c } }
  else s

/-! ### Commands of chapter 12 -/

/-- PATROL_SCRUB_READ (R340). -/
def execPatrolScrubRead (stack : StackId) (pri copy : List ReadRes) (now : Nat) (s : State) : Result :=
  .next (scrubNext (s.at now) stack.val pri copy)

/-- STACK_TEMPERATURE_READ (R338, R339). -/
def execStackTemperatureRead (stack : StackId) (temp : BitVec 8) (s : State) : Result := .next (stackTemp s stack.val temp.toNat)

/-- CE_WINDOW_END (R341). -/
def execCeWindowEnd (ch : ChanId) (s : State) : Result := .next (windowOver s ch.val)

/-- MAPOUT_RECORD_WRITE (R337). -/
def execMapoutRecordWrite (ch : ChanId) (s : State) : Result := .next (recordStore s ch.val)

end Sys2Proof.Machine
end

