-- ==== Sys2Proof/Machine/HostOps.lean ====
section
/-!
DEFINITION. Writes that the device makes to host memory (R380, R383), and the dirty bits they gather (R394, R395).
-/
namespace Sys2Proof.Machine

/-- A dirty-bitmap bit of range `r` of instance `i` is gathered (R394, R395). -/
def dlogBit (s : State) (i r n : Nat) : State :=
  let mine (x : DlogWord) : Bool := x.inst == i && x.range == r && x.word == n / 64
  let b : W64 := BitVec.ofNat 64 (2 ^ (n % 64))
  let l := if s.host.dlog.any mine then s.host.dlog.map (fun x => if mine x then { x with bits := x.bits ||| b } else x)
    else s.host.dlog ++ [⟨i, r, n / 64, 0, b, none⟩]
  ({ s with host := { s.host with dlog := l } }).setFlag (Reg.HIF_DLOG_CTL i) Fld.HIF_DLOG_CTL_busy true

/-- The page's index in range `r` of instance `i`, where the range is enabled and covers it. -/
def State.dlogPage (s : State) (i r page : Nat) : Option Nat :=
  let base := s.get (Reg.HIF_DLOG_BASE i r) Fld.HIF_DLOG_BASE_base
  if bit (s.get (Reg.HIF_DLOG_CTL i) Fld.HIF_DLOG_CTL_range_en) r && base ≤ page &&
      page < base + s.get (Reg.HIF_DLOG_LEN i r) Fld.HIF_DLOG_LEN_pages then some (page - base) else none

/-- A device write of `n` bytes at host address `a` under the PASID of instance `i` is logged (R394). -/
def dlogWrite (s : State) (i a n : Nat) : State :=
  if n = 0 || !s.flag (Reg.HIF_DLOG_CTL i) Fld.HIF_DLOG_CTL_en then s
  else
    forEach (List.range ((a + n - 1) / 4096 - a / 4096 + 1)) s (fun s k =>
      let page := a / 4096 + k
      let hits := (List.range 16).filterMap (fun r => (s.dlogPage i r page).map (fun x => (r, x)))
      if hits.isEmpty then s.setFlag (Reg.HIF_DLOG_CTL i) Fld.HIF_DLOG_CTL_unranged true
      else forEach hits s (fun s x => dlogBit s i x.1 x.2))

/-- The link of host port `p` is up. -/
def State.portUp (s : State) (p : Nat) : Bool := s.flag (Reg.HIF_PORT p) Fld.HIF_PORT_up

/-- Port `p` logs an error under AER. -/
def aerLog (s : State) (p : Nat) (e : AerErr) : State :=
  let h := s.port p
  if h.aer.contains e then s else s.setPort p { h with aer := h.aer ++ [e] }

/-- Attributes of a request for instance `i` (R380, R392), or for none. -/
def State.tlp (s : State) (i : Option (Nat × BitVec 20)) (relaxed : Bool) : Tlp :=
  { pasid := i.map (·.2), relaxed := relaxed, ido := false,
    tee := match i with
      | some x => if s.get (Reg.MBX_ID x.1) Fld.MBX_ID_tdi_state = 2 then (s.host.tdiStream.find? (fun e => e.1 == x.1)).map (·.2) else none
      | none => none }

/-- The translation of address `a` at port `p` under a PASID (R381), and whether there is one. With ATS enabled it is cached, a page of 4 KiB to
1 GiB, the oldest of 4,096 entries giving way, or a Translation Request leaves whose answer, from outside the module, is a free value: failed,
or a page of some size (DESIGN CHOICE, log 3). With ATS disabled the request goes untranslated. -/
def translated (s : State) (p : Nat) (pasid : BitVec 20) (a : Nat) : State × Bool :=
  let h := s.port p
  if !s.flag (Reg.HIF_PORT p) Fld.HIF_PORT_ats_en || h.ats.any (fun e => e.pasid == pasid && e.va ≤ a && a < e.va + e.len) then (s, true)
  else
    let s1 := s.drawn.out (.translate p pasid a)
    let w := s.fresh.toNat
    let size := 2 ^ (12 + w / 2 % 19)
    if w % 2 = 0 then (aerLog s1 p .translation, false)
    else (s1.setPort p { h with ats := (if 4096 ≤ h.ats.length then h.ats.drop 1 else h.ats) ++ [⟨pasid, a / size * size, size⟩] }, true)

/-- A port may have `n` more device-issued non-posted requests outstanding (Table 14-1): reads, and the CAS of dirty logging. -/
def State.portRoom (s : State) (p n : Nat) : Bool :=
  n + (s.port p).reqs.length + (s.host.dlog.filter (fun x => x.out.isSome && s.get (Reg.PRT_INST x.inst) Fld.PRT_INST_port == p)).length ≤ 1024

/-- A posted write leaves host port `p`, for instance `i` under its PASID where one is named, with Relaxed Ordering set unless it is a flag
write (R260); a port that is down discards it (R383). The Bool is false where its translation fails (R382). -/
def hostWrite (s : State) (p : Nat) (i : Option (Nat × BitVec 20)) (a : Nat) (d : List Byte) (poison isFlag : Bool) : State × Bool :=
  let sent (s : State) : State := if s.portUp p then s.out (.hostWrite p (s.tlp i (!isFlag)) a d poison) else s
  match i with
  | some x =>
    let r := if s.portUp p then translated s p x.2 a else (s, true)
    if r.2 then (dlogWrite (sent r.1) x.1 a d.length, true) else (r.1, false)
  | none => (sent s, true)

/-- Bits gathered for instance `i` that have not reached its bitmaps (R396). -/
def State.dlogPending (s : State) (i : Nat) : Bool := s.host.dlog.any (fun x => x.inst == i && (x.bits != 0 || x.out.isSome))

end Sys2Proof.Machine
end

