-- ==== Sys2Proof/Machine/Flags.lean ====
section
/-!
DEFINITION. The conditions of a core: the scalar operations of Table 3-3 with the defined results of Table 2-9, comparisons (R92),
predicate and mask functions (R92), and the mask bits that govern an element (R143, R144).
-/
namespace Sys2Proof.Machine

/-- A value of `n` bits saturated to the signed range. -/
def satSigned (n : Nat) (x : Int) : Nat := ofSigned n (max (-(2 ^ (n - 1) : Nat) : Int) (min x ((2 ^ (n - 1) : Nat) - 1 : Int)))

/-- Signed division of `n`-bit values, toward zero (Table 2-9). -/
def divSigned (n a b : Nat) : Nat :=
  if b % 2 ^ n = 0 then 2 ^ (n - 1) - 1 else ofSigned n (Int.tdiv (toSigned n a) (toSigned n b))

/-- Signed remainder (Table 2-9). -/
def remSigned (n a b : Nat) : Nat :=
  if b % 2 ^ n = 0 then a % 2 ^ n else ofSigned n (Int.tmod (toSigned n a) (toSigned n b))

/-- Number of leading zeros of 64 bits. -/
def clz64 (x : Nat) : Nat := if x % 2 ^ 64 = 0 then 64 else 63 - Nat.log2 (x % 2 ^ 64)

/-- Number of trailing zeros of 64 bits. -/
def ctz64 (x : Nat) : Nat := (lowestSet 64 0 x).getD 64

/-- The operation of Table 3-3 on 64-bit values. -/
def aluOp (fn : Nat) (a b : W64) : W64 :=
  let x := a.toNat
  let y := b.toNat
  match fn with
  | 0x00 => a + b
  | 0x01 => a - b
  | 0x02 => a &&& b
  | 0x03 => a ||| b
  | 0x04 => a ^^^ b
  | 0x05 => a <<< (y % 64)
  | 0x06 => a >>> (y % 64)
  | 0x07 => a.sshiftRight (y % 64)
  | 0x08 => a * b
  | 0x09 => BitVec.ofNat 64 (ofSigned 128 (a.toInt * b.toInt) / 2 ^ 64)
  | 0x0A => BitVec.ofNat 64 (x * y / 2 ^ 64)
  | 0x0B => BitVec.ofNat 64 (divSigned 64 x y)
  | 0x0C => if y = 0 then BitVec.allOnes 64 else BitVec.ofNat 64 (x / y)
  | 0x0D => BitVec.ofNat 64 (remSigned 64 x y)
  | 0x0E => if y = 0 then a else BitVec.ofNat 64 (x % y)
  | 0x0F => if a.slt b then a else b
  | 0x10 => if a.slt b then b else a
  | 0x11 => if x < y then a else b
  | 0x12 => if x < y then b else a
  | 0x13 => BitVec.ofNat 64 (satSigned 64 (a.toInt + b.toInt))
  | 0x14 => BitVec.ofNat 64 (satSigned 64 (a.toInt - b.toInt))
  | 0x15 => BitVec.ofNat 64 (popCount 64 x)
  | 0x16 => BitVec.ofNat 64 (clz64 x)
  | _ => BitVec.ofNat 64 (ctz64 x)

/-- The comparison of cc (R92). -/
def ccHolds (cc : Nat) (a b : W64) : Bool :=
  match cc with
  | 0 => a == b
  | 1 => a != b
  | 2 => a.slt b
  | 3 => !a.slt b
  | 4 => a.ult b
  | _ => !a.ult b

/-- The function of PRED (R92). -/
def predFn (fn : Nat) (a b : Bool) : Bool :=
  match fn with
  | 0 => a && b
  | 1 => a || b
  | 2 => a != b
  | 3 => a && !b
  | _ => a

/-- The mask that MASK writes to md under fn 0 and 2 to 5 (R92). -/
def maskFn (fn : Nat) (a b x : W64) : W64 :=
  match fn with
  | 0 => x
  | 2 => a &&& b
  | 3 => a ||| b
  | 4 => a ^^^ b
  | _ => ~~~a

/-- The bit of the mask pair that governs element `e` of width `w` bits (R143). -/
def maskBit (w : Nat) (m m2 : W64) (e : Nat) : Bool :=
  if w = 16 then (if e % 2 = 0 then m.getLsbD (e / 2) else m2.getLsbD (e / 2)) else m.getLsbD e

/-- Element `e` is active under me (R143). -/
def active (me : Bool) (w : Nat) (m m2 : W64) (e : Nat) : Bool := !me || maskBit w m m2 e

/-- The masks that a compare writes: one for a 32-bit type, the pair for a 16-bit type (R144). -/
def maskOf (w : Nat) (f : Nat → Bool) : W64 × W64 :=
  if w = 16 then (BitVec.ofNat 64 (ofBits 64 (fun i => f (2 * i))), BitVec.ofNat 64 (ofBits 64 (fun i => f (2 * i + 1))))
  else (BitVec.ofNat 64 (ofBits 64 f), 0)

end Sys2Proof.Machine
end

