-- ==== Sys2Proof/Machine/Operands.lean ====
section
/-!
DEFINITION. Operand forms of the engine instructions: entries of the operand cache and their lane marks (R137, R161, R162), elements
of a type (R141), writes of part of an entry, accumulator rows and marks (R125, R134), addresses of scalar and vector accesses
(R97, R145, R146), scratchpad offsets of the matrix engine (R108, R119, R131).
-/
namespace Sys2Proof.Machine

/-! ### Entries -/

def Core.ent (k : Core) (n : Nat) : Entry := mapGet (fun _ => 0) k.oc n

def Core.setEnt (k : Core) (n : Nat) (v : Entry) : Core := { k with oc := mapSet (fun _ => 0) k.oc n v }

/-- The lane marks of an entry (R161). -/
def Core.mark (k : Core) (n : Nat) : W64 := mapGet (fun _ => 0) k.ocMark n

def Core.setMark (k : Core) (n : Nat) (m : W64) : Core := { k with ocMark := mapSet (fun _ => 0) k.ocMark n m }

/-- The element width of a typ code (R141). -/
def typWidth (typ : Nat) : Nat := if typ = 12 || typ = 13 then 32 else 16

/-- The elements of an entry as codes of `w` bits (R137). -/
def entElems (w : Nat) (x : Entry) : List Nat := unpackCodes w (2048 / w) x.toNat

/-- Element `e` of `w` bits. -/
def entElem (w : Nat) (x : Entry) (e : Nat) : Nat := x.toNat / 2 ^ (w * e) % 2 ^ w

/-- The lane that holds element `e`. -/
def elemLane (w e : Nat) : Nat := e * w / 32

/-- A write of part of an entry: bit offset, width, value, poison. -/
abbrev PartWrite := Nat × Nat × Nat × Bool

def writeMask (ws : List PartWrite) : Nat := ws.foldl (fun m x => m ||| ((2 ^ x.2.1 - 1) * 2 ^ x.1)) 0

/-- Lane `i` is touched by one of the writes that `p` keeps. -/
def touches (ws : List PartWrite) (p : PartWrite → Bool) (i : Nat) : Bool :=
  ws.any (fun x => p x && decide (x.1 < 32 * i + 32) && decide (32 * i < x.1 + x.2.1))

/-- An entry and its marks after part writes: a lane written whole takes the written parts' poison, one written in part keeps its old
mark beside them (R162). -/
def putWrites (e : Entry) (m : W64) (ws : List PartWrite) : Entry × W64 :=
  let e1 := ws.foldl (fun (x : Entry) w =>
    let b : Nat := (2 ^ w.2.1 - 1) * 2 ^ w.1
    (x &&& ~~~ BitVec.ofNat 2048 b) ||| BitVec.ofNat 2048 (w.2.2.1 % 2 ^ w.2.1 * 2 ^ w.1)) e
  let all := writeMask ws
  (e1, BitVec.ofNat 64 (ofBits 64 (fun i =>
    if all / 2 ^ (32 * i) % 2 ^ 32 = 2 ^ 32 - 1 then touches ws (fun x => x.2.2.2) i
    else m.getLsbD i || touches ws (fun x => x.2.2.2) i)))

/-! ### Accumulator banks (R125) -/

def Core.accRow (k : Core) (bank : Bool) (i : Nat) : Entry := mapGet (fun _ => 0) (if bank then k.acc1 else k.acc0) i

def Core.setAccRow (k : Core) (bank : Bool) (i : Nat) (v : Entry) : Core :=
  if bank then { k with acc1 := mapSet (fun _ => 0) k.acc1 i v } else { k with acc0 := mapSet (fun _ => 0) k.acc0 i v }

/-- The live bank of core `c` (R125, Table 4-6). -/
def State.liveBank (s : State) (c : Nat) : Bool := s.flag (Reg.CORE_ME_STATE c) Fld.CORE_ME_STATE_live_bank

/-- The register of a bank's poison marks (Table 4-7). -/
def accMarkReg (c : Nat) (bank : Bool) : Nat := if bank then Reg.CORE_ME_POISON1 c else Reg.CORE_ME_POISON0 c

/-! ### Addresses -/

/-- The effective address s[sa] + imm (R97). -/
def Core.ea (k : Core) (sa : BitVec 5) (imm : BitVec 32) : W64 := k.sr sa.toNat + imm.signExtend 64

/-- Address of element `e` of a VLD or VST whose base is `base` and whose stride register holds `v` (R145). -/
def elemAddr (base v : W64) (z e : Nat) : Nat :=
  let n := if bits v.toNat 47 32 = 0 then 1 else bits v.toNat 47 32
  ofSigned 64 ((base.toNat : Int) + ((e / n : Nat) : Int) * toSigned 32 v.toNat + ((e % n * z : Nat) : Int))

/-- What a vector element's address reaches (R146): own scratchpad, stacked memory of this module, or nothing. -/
inductive ElemPlace where
  | own (off : Nat)
  | mem (mpa : Nat)
  | bad (addr : Nat)
deriving DecidableEq, Repr

def State.elemPlace (s : State) (c addr n : Nat) (write : Bool) : ElemPlace :=
  let ok (a : Nat) : Bool := match s.place c a with
    | .own _ => s.scratchServed c
    | .mem m => s.coreReach c m write
    | _ => false
  match (List.range n).find? (fun i => !ok ((addr + i) % 2 ^ 64)) with
  | some i => .bad ((addr + i) % 2 ^ 64)
  | none => match s.place c addr with
    | .own o => .own o
    | .mem m => .mem m
    | _ => .bad addr

/-- Scratchpad bytes at offset `off` of core `c`, as the matrix engine reads them: bytes at 2^20 and beyond read as zero (R119, R131). -/
def offRead (s : State) (c off n : Nat) : State × Nat × Bool :=
  let m := if off < 0x100000 then min n (0x100000 - off) else 0
  let r := scratchRead s (scrBase c + off) m
  (r.1, ofBytes r.2.1, r.2.2)

/-- The first of `n` bytes at offset `off` that lies at 2^20 or beyond (R112). -/
def offFault (off n : Nat) : Option Nat := if off + n ≤ 0x100000 || n = 0 then none else some (max off 0x100000)

/-- Scratchpad bytes written at offset `off`; those at 2^20 and beyond are dropped (R131). -/
def offWrite (s : State) (c off : Nat) (bs : List Byte) (poison : Bool) : State :=
  if off < 0x100000 then scratchWrite s (scrBase c + off) (bs.take (0x100000 - off)) poison else s

end Sys2Proof.Machine
end

