-- ==== Sys2Proof/Machine/Seq.lean ====
section
/-!
DEFINITION. The sequencer of a core (chapter 3): issue with its guard and interlocks (R82-R86), the scalar, predicate and mask
instructions, branches, bad operations, the instruction cache, WAIT, the hints, and the issue of engine instructions.
-/
namespace Sys2Proof.Machine

/-! ### Issue -/

/-- The sequencer issues instruction `i` next: it runs, or it stopped issue at this very instruction. -/
def Core.issuing (k : Core) (i : Instr) : Bool := !k.held && (k.phase == .run || k.phase == .wait i)

/-- The instruction has issued; the next one follows it. -/
def advance (s : State) (c : Nat) : State := s.modCore c (fun k => { k with phase := .run, pc := k.pc + 8 })

/-- Issue stops at instruction `i` until its condition holds. -/
def hold (s : State) (c : Nat) (i : Instr) : State := s.modCore c (fun k => { k with phase := .wait i })

/-- One issue attempt that stalls, counted under the field of CORE_STALL that names its cause. -/
def stall (s : State) (c : Nat) (f : Fld) : State := s.incSat (Reg.CORE_STALL c) f

/-- CORE_FAULT of a die is asserted while a core of it is FAULTED (Table 16-1). -/
def faultLevel (s : State) (die : Nat) : State :=
  setLevel s die 0x147 (allCores.any (fun c => coreDie c == die && (s.core c).phase == .faulted))

/-- A bad operation stops the core and records its pc (R93). -/
def badOp (s : State) (c : Nat) : State :=
  let r := Reg.CORE_FAULT c
  faultLevel (((s.put r Fld.CORE_FAULT_cause 1).put r Fld.CORE_FAULT_pc (s.core c).pc.toNat).modCore c (fun k => { k with phase := .faulted }))
    (coreDie c)

/-- Write s register `n` now. -/
def setS (s : State) (c n : Nat) (v : W64) : State := s.modCore c (fun k => (k.dropPend (.s n)).setSr n v)

def setP (s : State) (c n : Nat) (b : Bool) : State := s.modCore c (fun k => (k.dropPend (.p n)).setPr n b)

def setM (s : State) (c n : Nat) (v : W64) : State := s.modCore c (fun k => (k.dropPend (.m n)).setMr n v)

/-- One of the registers has a writer that has not yet written it (R86); s0 and p0 have none. -/
def Core.anyPend (k : Core) (rs : List PendReg) : Bool :=
  rs.any (fun r => match r with
    | .s n => k.sPend n
    | .p n => k.pPend n
    | .m n => k.mPend n)

/-- One issue attempt of `i` (R82): a reserved encoding is a bad operation whatever the guard holds, a false guard only takes the issue
cycle, a pending register stalls, and otherwise `go` executes or issues it. -/
def issue (s : State) (c : CoreId) (i : Instr) (pg : BitVec 3) (reads : List PendReg) (go : State → State) : State :=
  let k := s.core c.toNat
  if !k.issuing i then s
  else if reservedOp i then badOp s c.toNat
  else if k.pPend pg.toNat then stall s c.toNat Fld.CORE_STALL_reg_wait
  else if !k.pr pg.toNat then advance s c.toNat
  else if k.anyPend reads then stall s c.toNat Fld.CORE_STALL_reg_wait
  else go s

def sr5 (r : BitVec 5) : PendReg := .s r.toNat

/-! ### The instruction cache (R80, R81) -/

def icSet (l : LineNo) : Nat := l.toNat % 64

def Core.icLine (k : Core) (l : LineNo) : Option LineData :=
  (List.range 4).findSome? (fun w =>
    match mapGet (fun _ => none) k.icache (icSet l * 4 + w) with
    | some (x, ld) => if x = l then some ld else none
    | none => none)

/-- The way that a fill of line `l` takes: the line's own, else an empty one, else one that the spec leaves open (log 3). -/
def icWay (s : State) (c : Nat) (l : LineNo) : Nat :=
  let at' (w : Nat) : Option (LineNo × LineData) := mapGet (fun _ => none) (s.core c).icache (icSet l * 4 + w)
  match (List.range 4).find? (fun w => match at' w with | some (x, _) => x == l | none => false) with
  | some w => w
  | none => match (List.range 4).find? (fun w => (at' w).isNone) with
    | some w => w
    | none => s.fresh.toNat % 4

def icInstall (s : State) (c : Nat) (l : LineNo) (ld : LineData) : State :=
  let w := icWay s c l
  s.drawn.modCore c (fun k => { k with icache := mapSet (fun _ => none) k.icache (icSet l * 4 + w) (some (l, ld)), fetch := setDel k.fetch l.toNat })

def icFlush (s : State) (c : Nat) : State := s.modCore c (fun k => { k with icache := [], fetch := [], fetchOnce := [] })

/-- Message `m` is the next in flight from its sender to its receiver (R227), and the links on its way carry it (R361, R363). -/
def State.isNext (s : State) (m : Msg) : Bool := s.net.find? (fun x => x.src == m.src && x.dst == m.dst) == some m && s.mayCross m

/-- Message `m` leaves the fabric and reaches its receiver; `none` while an earlier one between the two endpoints is in flight (R227) or a link
does not carry it. A message that is not in flight comes from outside what the model holds. -/
def State.arrive (s : State) (m : Msg) : Option State :=
  if !s.net.contains m then some s else if s.isNext m then some (s.recv m) else none

/-- The same for a message to `dst` about line `l` with body `b`, whoever sent it. -/
def State.arriveTo (s : State) (dst : Ep) (l : LineNo) (b : MsgBody) : Option State :=
  let ms := s.net.filter (fun m => m.dst == dst && m.l == l && m.body == b)
  if ms.isEmpty then some s else (ms.find? s.isNext).map s.recv

/-- Address `a` may be fetched from: stacked memory that the core's partition reaches (R80, R299). -/
def State.fetchable (s : State) (c a : Nat) : Bool :=
  match s.placeMpa c a with
  | .mem a => s.coreReach c a false
  | _ => false

/-- The instruction word at pc as the instruction cache holds it, with its poison; an all-zero word where no fetch reaches. -/
def State.wordAtPc (s : State) (c : Nat) : Option (W64 × Bool) :=
  let pc := (s.core c).pc.toNat
  if !s.fetchable c pc then some (0, false)
  else ((s.core c).icLine (lineOf pc)).map (fun ld => (BitVec.ofNat 64 (lineNum ld.d (pc % 128) 8), ld.poison))

/-- Line `l` is asked for by a GETS with ifetch set (R80, R233), unless the cache holds it, it is asked for already, or no fetch reaches it. -/
def fetchLine (s : State) (c : Nat) (l : LineNo) : State :=
  if ((s.core c).icLine l).isSome || setHas (s.core c).fetch l.toNat || !s.fetchable c (l.toNat * 128) then s
  else sendGets (s.modCore c (fun k => { k with fetch := setIns k.fetch l.toNat })) c l true

/-- A word that is fetched is decoded: a reserved or poisoned word, or one that no fetch reaches, is a bad operation (R90, R93, R466). -/
def decodeFetched (s : State) (c : CoreId) (w : Option (W64 × Bool)) : State :=
  match w with
  | some (w, poison) => if poison || (decodeWord c w).isNone then badOp s c.toNat else s
  | none => s

/-- The word at pc is decoded where the instruction cache holds it. -/
def decodeAtPc (s : State) (c : CoreId) : State := decodeFetched s c (s.wordAtPc c.toNat)

/-- The core fetches at line `l`. -/
def Core.fetchesAt (k : Core) (l : LineNo) : Bool := lineOf k.pc.toNat == l && !k.held && k.phase == .run

/-- A fill that was asked for returns: it is installed, or used once (R239), and the word at pc is decoded. -/
def fetchFill (s : State) (c : CoreId) (l : LineNo) (ld : LineData) (cyc : Nat) : State :=
  let k := s.core c.toNat
  let s1 := s.addSat (Reg.CORE_STALL c.toNat) Fld.CORE_STALL_fetch_miss cyc
  if setHas k.fetch l.toNat && setHas k.fetchOnce l.toNat then
    let s2 := s1.modCore c.toNat (fun k => { k with fetch := setDel k.fetch l.toNat, fetchOnce := setDel k.fetchOnce l.toNat })
    if k.fetchesAt l then decodeFetched s2 c (some (BitVec.ofNat 64 (lineNum ld.d (k.pc.toNat % 128) 8), ld.poison)) else s2
  else
    let s2 := if setHas k.fetch l.toNat then icInstall s1 c.toNat l ld else s1
    if k.fetchesAt l then decodeAtPc s2 c else s2

/-- The core fetches at line `l`: a miss asks its home for the line and prefetches the next sequential one (R80). -/
def fetchAsk (s : State) (c : CoreId) (l : LineNo) : State :=
  if !(s.core c.toNat).fetchesAt l then s
  else if (s.wordAtPc c.toNat).isSome then decodeAtPc s c
  else if setHas (s.core c.toNat).fetch l.toNat then s
  else fetchLine (fetchLine s c.toNat l) c.toNat (l + 1)

/-! ### SYS (R92) -/

/-- The value that SYS reads. -/
def State.sysValue (s : State) (c sel : Nat) : W64 :=
  let leg (f : Leg → Nat) : W64 := match (s.core c).leg with | some g => BitVec.ofNat 64 (f g) | none => 0
  match sel with
  | 0 => BitVec.ofNat 64 c
  | 1 => s.reg (Reg.CORE_CYCLES c)
  | 2 => BitVec.ofNat 64 s.frame
  | 3 => leg (fun g => g.part.val)
  | 4 => leg (fun g => g.inst.val)
  | 5 => leg (fun g => g.rank)
  | 6 => leg (fun g => g.size)
  | 7 => BitVec.ofNat 64 (s.coreRate c)
  | _ => BitVec.ofNat 64 (s.get (Reg.CORE_ADDR_ERR c) Fld.CORE_ADDR_ERR_count)

/-! ### Branches (R94) -/

/-- Branch to `target`; `link` receives the next address. -/
def branch (s : State) (c : Nat) (link : Nat) (target : BitVec 52) : State :=
  let next := (s.core c).pc + 8
  let s1 := setS s c link (next.setWidth 64)
  s1.modCore c (fun k => { k with phase := .run, pc := target })

def relTarget (pc : BitVec 52) (off : BitVec 32) : BitVec 52 := pc + 8 * off.signExtend 52

/-! ### Tokens (R84, R85) -/

/-- Every setter of token `n` that has issued has completed. -/
def Core.tokDone (k : Core) (n : Nat) : Bool := (k.tok n).issued ≤ (k.tok n).done

/-- Token `n` has pending setters on another engine than `e`. -/
def Core.tokClash (k : Core) (n : Nat) (e : Engine) : Bool := n != 0 && !k.tokDone n && (k.tok n).eng != some e

/-- A setter of token `n` issues on engine `e`. -/
def Core.tokSet (k : Core) (n : Nat) (e : Engine) : Core :=
  if n = 0 then k else k.setTok n ⟨(k.tok n).issued + 1, (k.tok n).done, some e⟩

/-- A setter of token `n` completes. -/
def Core.tokClear (k : Core) (n : Nat) : Core :=
  if n = 0 then k else k.setTok n ⟨(k.tok n).issued, (k.tok n).done + 1, (k.tok n).eng⟩

/-- The setters that an instruction with twait = n waits for. -/
def Core.tokNeed (k : Core) (n : Nat) : Nat := if n = 0 then 0 else (k.tok n).issued

/-- Those setters have completed. -/
def Core.tokMet (k : Core) (n need : Nat) : Bool := n == 0 || need ≤ (k.tok n).done

/-! ### WAIT (R104) -/

/-- Every token of sel[15:1] is satisfied. -/
def Core.tokensMet (k : Core) (sel : BitVec 16) : Bool := (List.range 16).all (fun n => n == 0 || !sel.getLsbD n || k.tokDone n)

/-- The key of barrier `id` at `scope` in a core's barrier state. -/
def barKey (scope id : Nat) : Nat := 4 * (if scope = 1 then 0 else if scope = 3 then 1 else 2) + id

def Core.barArrived (k : Core) (key : Nat) : Bool := (mapGet (fun _ => (false, false)) k.bars key).1

/-- WAIT completes and writes sd. -/
def waitDone (s : State) (c sd : Nat) (v : W64) : State := advance (setS s c sd v) c

/-- The timeout that a WAIT word holds is reached: sd reports it. A timeout register that reads zero never expires when it is s0. -/
def waitExpire (s : State) (c : Nat) : State :=
  match (s.core c).phase with
  | .wait (.waitTokens _ _ sd sb _) => if sb.toNat = 0 then s else waitDone s c sd.toNat 1
  | .wait (.waitWake _ _ sd sb _) => if sb.toNat = 0 then s else waitDone s c sd.toNat 0
  | .wait (.waitBarrier _ _ sd sb _) => if sb.toNat = 0 then s else waitDone s c sd.toNat 1
  | _ => s

/-! ### Hints (R106, R445) -/

/-- An announcement for frame n + ahead + 1 replaces an earlier one of the core for that frame. -/
def announce (s : State) (c ahead v : Nat) (heavy : Bool) : State :=
  let f := s.frame + ahead + 1
  s.modCore c (fun k => { k with ann := k.ann.filter (fun x => !(x.1 == f && x.2.2 == heavy)) ++ [(f, v, heavy)] })

/-! ### Issue to an engine (R83) -/

/-- The core's caravan is held in place, being saved or being restored: nothing queued starts (R285, R311). -/
def Core.frozen (k : Core) : Bool := k.held || k.phase == .save || k.phase == .restore

/-- The mover issues no piece: more than 64 outstanding tags let it go on until 64 remain (R313). -/
def Core.moverStopped (k : Core) : Bool :=
  (k.phase == .save || k.phase == .restore) && (k.tags.filter (fun e => e.2.out)).length ≤ 64


def Core.queue (k : Core) (e : Engine) : List QEnt :=
  match e with
  | .me => k.meq
  | .ve => k.veq
  | .mv => k.mvq

def Core.setQueue (k : Core) (e : Engine) (q : List QEnt) : Core :=
  match e with
  | .me => { k with meq := q }
  | .ve => { k with veq := q }
  | .mv => { k with mvq := q }

/-- An engine instruction issues with what it captures: scalars `a` to `d` and masks; its destination registers become pending, its
token counts one more setter (R83-R86). A full queue stalls, and so does a token pending on another engine. -/
def enqueue (s : State) (c : Nat) (e : Engine) (i : Instr) (twait tset : Nat) (a b x d m m2 : W64) (dest : List PendReg) : State :=
  let k := s.core c
  if k.tokClash tset e then stall s c Fld.CORE_STALL_token_wait
  else if 8 ≤ (k.queue e).length then stall s c Fld.CORE_STALL_queue_full
  else
    let id := k.nextId
    let q : QEnt := ⟨i, k.pc, a, b, x, d, m, m2, k.tokNeed twait, id⟩
    let k1 := { (k.setQueue e (k.queue e ++ [q])) with nextId := id + 1 }
    advance (s.setCore c (dest.foldl (fun k r => k.markPend r id) (k1.tokSet tset e))) c

/-! ### The commands -/

/-- INSTRUCTION_FETCH (R80): the fill of `l` with these data returns where it is in flight; else the core looks `l` up, which asks for a line that
its cache lacks (DESIGN CHOICE, log 21: one command is both ends of a fetch). -/
def execInstructionFetch (c : CoreId) (l : LineNo) (d : Line) (poison : Bool) (cyc : Nat) (s : State) : Result :=
  .next (
    if s.net.any (fun m => m.dst == epCore c.toNat && m.l == l && m.body == .dataI ⟨d, poison⟩) then
      match s.arriveTo (epCore c.toNat) l (.dataI ⟨d, poison⟩) with
      | some s1 => fetchFill s1 c l ⟨d, poison⟩ cyc
      | none => s
    else fetchAsk s c l)

/-- ALU (R91). -/
def execAlu (c : CoreId) (pg : BitVec 3) (sd sa sb : BitVec 5) (fn : BitVec 6) (s : State) : Result :=
  .next (issue s c (.alu c pg sd sa sb fn) pg [sr5 sa, sr5 sb] (fun s =>
    let k := s.core c.toNat
    advance (setS s c.toNat sd.toNat (aluOp fn.toNat (k.sr sa.toNat) (k.sr sb.toNat))) c.toNat))

/-- ALUI (R91). -/
def execAlui (c : CoreId) (pg : BitVec 3) (sd sa : BitVec 5) (fn : BitVec 6) (imm : BitVec 32) (s : State) : Result :=
  .next (issue s c (.alui c pg sd sa fn imm) pg [sr5 sa] (fun s =>
    advance (setS s c.toNat sd.toNat (aluOp fn.toNat ((s.core c.toNat).sr sa.toNat) (imm.signExtend 64))) c.toNat))

/-- MOVI (R92). -/
def execMovi (c : CoreId) (pg : BitVec 3) (sd : BitVec 5) (h : Bool) (imm : BitVec 32) (s : State) : Result :=
  .next (issue s c (.movi c pg sd h imm) pg (if h then [sr5 sd] else []) (fun s =>
    let v : W64 := if h then imm ++ ((s.core c.toNat).sr sd.toNat).setWidth 32 else imm.signExtend 64
    advance (setS s c.toNat sd.toNat v) c.toNat))

/-- The result of a comparison goes to pd and its complement to pn (R92). -/
def compare (s : State) (c : Nat) (pd pn : BitVec 3) (r : Bool) : State :=
  advance (setP (setP s c pd.toNat r) c pn.toNat (!r)) c

/-- CMP (R92). -/
def execCmp (c : CoreId) (pg pd pn : BitVec 3) (sa sb : BitVec 5) (cc : BitVec 4) (s : State) : Result :=
  .next (issue s c (.cmp c pg pd pn sa sb cc) pg [sr5 sa, sr5 sb] (fun s =>
    let k := s.core c.toNat
    compare s c.toNat pd pn (ccHolds cc.toNat (k.sr sa.toNat) (k.sr sb.toNat))))

/-- CMPI (R92). -/
def execCmpi (c : CoreId) (pg pd pn : BitVec 3) (sa : BitVec 5) (cc : BitVec 4) (imm : BitVec 32) (s : State) : Result :=
  .next (issue s c (.cmpi c pg pd pn sa cc imm) pg [sr5 sa] (fun s =>
    compare s c.toNat pd pn (ccHolds cc.toNat ((s.core c.toNat).sr sa.toNat) (imm.signExtend 64))))

/-- PRED (R92). -/
def execPred (c : CoreId) (pg pd pa pb : BitVec 3) (fn : BitVec 3) (s : State) : Result :=
  .next (issue s c (.pred c pg pd pa pb fn) pg [.p pa.toNat, .p pb.toNat] (fun s =>
    let k := s.core c.toNat
    advance (setP s c.toNat pd.toNat (predFn fn.toNat (k.pr pa.toNat) (k.pr pb.toNat))) c.toNat))

/-- The registers that MASK reads under fn (R92). -/
def maskReads (fn : Nat) (ma mb : BitVec 3) (sx : BitVec 5) : List PendReg :=
  if fn = 0 then [sr5 sx] else if 2 ≤ fn && fn ≤ 4 then [.m ma.toNat, .m mb.toNat] else [.m ma.toNat]

/-- MASK (R92). -/
def execMask (c : CoreId) (pg md ma mb : BitVec 3) (sx : BitVec 5) (fn : BitVec 3) (s : State) : Result :=
  .next (issue s c (.mask c pg md ma mb sx fn) pg (maskReads fn.toNat ma mb sx) (fun s =>
    let k := s.core c.toNat
    let a := k.mr ma.toNat
    if fn = 1#3 then advance (setS s c.toNat sx.toNat a) c.toNat
    else if fn = 6#3 then advance (setS s c.toNat sx.toNat (BitVec.ofNat 64 (popCount 64 a.toNat))) c.toNat
    else advance (setM s c.toNat md.toNat (maskFn fn.toNat a (k.mr mb.toNat) (k.sr sx.toNat))) c.toNat))

/-- SYS (R92): a read of CORE_CYCLES first brings the count up to date. -/
def execSys (c : CoreId) (pg : BitVec 3) (sd : BitVec 5) (sel : BitVec 6) (s : State) : Result :=
  .next (issue s c (.sys c pg sd sel) pg [] (fun s =>
    let s1 := if sel = 1#6 then countCycles s c.toNat else s
    advance (setS s1 c.toNat sd.toNat (s1.sysValue c.toNat sel.toNat)) c.toNat))

/-- B (R94). -/
def execB (c : CoreId) (pg : BitVec 3) (off : BitVec 32) (s : State) : Result :=
  .next (issue s c (.b c pg off) pg [] (fun s => branch s c.toNat 0 (relTarget (s.core c.toNat).pc off)))

/-- BL (R94). -/
def execBl (c : CoreId) (pg : BitVec 3) (sd : BitVec 5) (off : BitVec 32) (s : State) : Result :=
  .next (issue s c (.bl c pg sd off) pg [] (fun s => branch s c.toNat sd.toNat (relTarget (s.core c.toNat).pc off)))

/-- BR (R94): bits 2:0 of the register are taken as zero. -/
def execBr (c : CoreId) (pg : BitVec 3) (sd sa : BitVec 5) (s : State) : Result :=
  .next (issue s c (.br c pg sd sa) pg [sr5 sa] (fun s =>
    branch s c.toNat sd.toNat (((s.core c.toNat).sr sa.toNat).setWidth 52 &&& ~~~7#52)))

/-- END stops issue (R95). -/
def execEndLeg (c : CoreId) (pg : BitVec 3) (s : State) : Result :=
  .next (issue s c (.endLeg c pg) pg [] (fun s => s.modCore c.toNat (fun k => { k with phase := .stopped, pc := k.pc + 8 })))

/-- WAIT kind 0 (R104). -/
def execWaitTokens (c : CoreId) (pg : BitVec 3) (sd sb : BitVec 5) (sel : BitVec 16) (s : State) : Result :=
  .next (issue s c (.waitTokens c pg sd sb sel) pg [sr5 sb] (fun s =>
    if (s.core c.toNat).tokensMet sel then waitDone s c.toNat sd.toNat 0
    else hold (stall s c.toNat Fld.CORE_STALL_token_wait) c.toNat (.waitTokens c pg sd sb sel)))

/-- WAIT kind 1 (R104). -/
def execWaitWake (c : CoreId) (pg : BitVec 3) (sd sb : BitVec 5) (sel : BitVec 16) (s : State) : Result :=
  .next (issue s c (.waitWake c pg sd sb sel) pg [sr5 sb] (fun s =>
    let found := (s.core c.toNat).wf &&& sel
    if found = 0 then hold s c.toNat (.waitWake c pg sd sb sel)
    else waitDone (s.modCore c.toNat (fun k => { k with wf := k.wf &&& ~~~sel })) c.toNat sd.toNat (found.setWidth 64)))

/-- WAIT kind 2 (R104): a barrier at which the core has not arrived, or whose phase has completed, ends it at once. -/
def execWaitBarrier (c : CoreId) (pg : BitVec 3) (sd sb : BitVec 5) (sel : BitVec 16) (s : State) : Result :=
  .next (issue s c (.waitBarrier c pg sd sb sel) pg [sr5 sb] (fun s =>
    if (s.core c.toNat).barArrived (barKey (bits sel.toNat 4 2) (bits sel.toNat 1 0)) then hold s c.toNat (.waitBarrier c pg sd sb sel)
    else waitDone s c.toNat sd.toNat 0))

/-- A WAIT's timeout expires (R104). -/
def execWaitTimeout (c : CoreId) (s : State) : Result := .next (if (s.core c.toNat).held then s else waitExpire s c.toNat)

/-- TOLL (R106). -/
def execToll (c : CoreId) (pg : BitVec 3) (ahead : BitVec 2) (tolls : BitVec 16) (s : State) : Result :=
  .next (issue s c (.toll c pg ahead tolls) pg [] (fun s => advance (announce s c.toNat ahead.toNat tolls.toNat false) c.toNat))

/-- HEAVY (R106). -/
def execHeavy (c : CoreId) (pg : BitVec 3) (level : BitVec 3) (ahead : BitVec 2) (s : State) : Result :=
  .next (issue s c (.heavy c pg level ahead) pg [] (fun s => advance (announce s c.toNat ahead.toNat level.toNat true) c.toNat))

/-- NOP. -/
def execNop (c : CoreId) (pg : BitVec 3) (s : State) : Result :=
  .next (issue s c (.nop c pg) pg [] (fun s => advance s c.toNat))

/-- CACHE IINV (R81, R101). -/
def execCacheIinv (c : CoreId) (pg : BitVec 3) (sd sa sb : BitVec 5) (lvl : Bool) (s : State) : Result :=
  .next (issue s c (.cacheIinv c pg sd sa sb lvl) pg [] (fun s => advance (setS (icFlush s c.toNat) c.toNat sd.toNat 0) c.toNat))

/-! #### Engine instructions at issue -/

/-- MLD issues: s[sa] and s[sb] are read (R108). -/
def execMld (c : CoreId) (f : MldF) (s : State) : Result :=
  .next (issue s c (.mld c f) f.pg [sr5 f.sa, sr5 f.sb] (fun s =>
    let k := s.core c.toNat
    enqueue s c.toNat .me (.mld c f) f.twait.toNat f.tset.toNat (k.sr f.sa.toNat) (k.sr f.sb.toNat) 0 0 0 0 []))

/-- MMA issues. -/
def execMma (c : CoreId) (f : MmaF) (s : State) : Result :=
  .next (issue s c (.mma c f) f.pg [] (fun s => enqueue s c.toNat .me (.mma c f) f.twait.toNat f.tset.toNat 0 0 0 0 0 0 []))

/-- MSWAP issues. -/
def execMswap (c : CoreId) (f : MswapF) (s : State) : Result :=
  .next (issue s c (.mswap c f) f.pg [] (fun s => enqueue s c.toNat .me (.mswap c f) f.twait.toNat f.tset.toNat 0 0 0 0 0 0 []))

/-- MDRAIN issues: the four offsets are read (R108). -/
def execMdrain (c : CoreId) (f : MdrainF) (s : State) : Result :=
  .next (issue s c (.mdrain c f) f.pg [sr5 f.sa, sr5 f.sb, sr5 f.sc, sr5 f.se] (fun s =>
    let k := s.core c.toNat
    enqueue s c.toNat .me (.mdrain c f) f.twait.toNat f.tset.toNat (k.sr f.sa.toNat) (k.sr f.sb.toNat) (k.sr f.sc.toNat) (k.sr f.se.toNat) 0 0 []))

/-- The masks a VOP reads: msk under me or VSEL, and its partner for a 16-bit type (R143). -/
def vopMasks (op : Nat) (f : VopF) : List PendReg :=
  if f.me || op = 0x14 then
    (if op ≠ 0x20 && typWidth f.typ.toNat = 16 then [.m f.msk.toNat, .m (f.msk.toNat ^^^ 1)] else [.m f.msk.toNat])
  else []

/-- The masks a compare writes (R144). -/
def vopDest (op : Nat) (f : VopF) : List PendReg :=
  if 0x10 ≤ op && op ≤ 0x13 then
    (if typWidth f.typ.toNat = 16 then [.m (f.vd.toNat % 8), .m (f.vd.toNat % 8 ^^^ 1)] else [.m (f.vd.toNat % 8)])
  else []

/-- A VOP word issues: the broadcast scalar and the masks are captured (R83, R142, R143). -/
def issueVop (s : State) (c : CoreId) (i : Instr) (op : Nat) (f : VopF) : State :=
  let sb := f.vb.toNat % 32
  issue s c i f.pg ((if f.bs then [PendReg.s sb] else []) ++ vopMasks op f) (fun s =>
    let k := s.core c.toNat
    enqueue s c.toNat .ve i f.twait.toNat f.tset.toNat (k.sr sb) 0 0 0 (k.mr f.msk.toNat) (k.mr (f.msk.toNat ^^^ 1)) (vopDest op f))

/-- VOP issues (R109). -/
def execVop (c : CoreId) (op : BitVec 8) (f : VopF) (s : State) : Result := .next (issueVop s c (.vop c op f) op.toNat f)

/-- VCVT issues (R152). -/
def execVcvt (c : CoreId) (f : VopF) (s : State) : Result := .next (issueVop s c (.vcvt c f) 0x20 f)

/-- VACC issues (R160). -/
def execVacc (c : CoreId) (f : VopF) (s : State) : Result := .next (issueVop s c (.vacc c f) 0x3C f)

/-- VARGMAX issues (R158). -/
def execVargmax (c : CoreId) (f : VopF) (s : State) : Result := .next (issueVop s c (.vargmax c f) 0x38 f)

/-- VTOPK issues (R159). -/
def execVtopk (c : CoreId) (f : VopF) (s : State) : Result := .next (issueVop s c (.vtopk c f) 0x39 f)

/-- A VLD or VST issues: base, stride register and mask are captured (R145, R147). -/
def issueVmem (s : State) (c : CoreId) (i : Instr) (f : VmemF) : State :=
  issue s c i f.pg ([sr5 f.sa, sr5 f.sb] ++ (if f.me then [PendReg.m f.msk.toNat] else [])) (fun s =>
    let k := s.core c.toNat
    enqueue s c.toNat .ve i f.twait.toNat f.tset.toNat (k.sr f.sa.toNat + f.imm.signExtend 64) (k.sr f.sb.toNat) 0 0 (k.mr f.msk.toNat) 0 [])

/-- VLD issues. -/
def execVld (c : CoreId) (f : VmemF) (s : State) : Result := .next (issueVmem s c (.vld c f) f)

/-- VST issues. -/
def execVst (c : CoreId) (f : VmemF) (s : State) : Result := .next (issueVmem s c (.vst c f) f)

/-- VCOMP issues: with cont = 1 it reads sd, which it marks pending (R155). -/
def execVcomp (c : CoreId) (f : VcompF) (s : State) : Result :=
  .next (issue s c (.vcomp c f) f.pg (PendReg.m f.msk.toNat :: (if f.cont then [sr5 f.sd] else [])) (fun s =>
    let k := s.core c.toNat
    enqueue s c.toNat .ve (.vcomp c f) f.twait.toNat f.tset.toNat (k.sr f.sd.toNat) 0 0 0 (k.mr f.msk.toNat) 0 [sr5 f.sd]))

/-- VEXP issues (R156). -/
def execVexp (c : CoreId) (f : VexpF) (s : State) : Result :=
  .next (issue s c (.vexp c f) f.pg [.m f.msk.toNat] (fun s =>
    enqueue s c.toNat .ve (.vexp c f) f.twait.toNat f.tset.toNat 0 0 0 0 ((s.core c.toNat).mr f.msk.toNat) 0 []))

/-- The masks VRED reads (R143, R157). -/
def vredMasks (f : VredF) : List PendReg :=
  if f.me then (if typWidth f.typ.toNat = 16 then [.m f.msk.toNat, .m (f.msk.toNat ^^^ 1)] else [.m f.msk.toNat]) else []

/-- VRED issues (R157). -/
def execVred (c : CoreId) (f : VredF) (s : State) : Result :=
  .next (issue s c (.vred c f) f.pg (vredMasks f) (fun s =>
    let k := s.core c.toNat
    enqueue s c.toNat .ve (.vred c f) f.twait.toNat f.tset.toNat 0 0 0 0 (k.mr f.msk.toNat) (k.mr (f.msk.toNat ^^^ 1)) [sr5 f.sd]))

/-- MOVE issues: the descriptor address s[sa] + imm is captured (R110, R165). -/
def execMove (c : CoreId) (f : MoveF) (s : State) : Result :=
  .next (issue s c (.move c f) f.pg [sr5 f.sa] (fun s =>
    enqueue s c.toNat .mv (.move c f) f.twait.toNat 0 ((s.core c.toNat).ea f.sa f.imm) 0 0 0 0 0 []))

end Sys2Proof.Machine
end

