-- ==== Sys2Proof/Machine/Vector.lean ====
section
/-!
DEFINITION. What the vector instructions compute (chapter 5): elements of VOP (Tables 5-2 to 5-4), conversions (R152-R154), VCOMP and
VEXP, reductions and selections, the accumulator view, poison (R161-R163).
-/
namespace Sys2Proof.Machine

/-! ### Approximations (R150, R151) -/

def VRCP : Nat := 0x28
def VRSQRT : Nat := 0x29
def VEXPN : Nat := 0x30
def VLOG : Nat := 0x31
def VTANH : Nat := 0x32
def VSIGM : Nat := 0x33

/-- `x > d / 10000`, for a decimal threshold. -/
def numGt (x : Num) (neg : Bool) (d : Nat) : Bool := (Num.fin neg d 1 0).lt (x.mul (.fin false 10000 1 0))

def numGe (x : Num) (d : Nat) : Bool := !(x.mul (.fin false 10000 1 0)).lt (.fin false d 1 0)

/-- Code of FP32 infinity. -/
def infCode : Nat := 0x7F800000

/-- Code of FP32 1. -/
def oneCode : Nat := 0x3F800000

/-- The magnitude codes within `k` ULP of the exact magnitude `(n / d) * 2 ^ e`, an ULP measured in the binade of its exactly rounded result
(R150): the least and the greatest. -/
def ulpBand (k : Nat) (v : Mag) : Nat × Nat :=
  let c := min (FP32.rneCode v.1 v.2.1 v.2.2) FP32.maxCode
  let q : Int := FP32.emin + (c / 2 ^ 23 - 1 : Nat)
  let a := v.1 * pow2 (v.2.2 - q)
  let d := v.2.1 * pow2 (q - v.2.2)
  let x := a - k * d
  let lo := FP32.floorCode x d q
  let exact := (inUnits x d q (FP32.step x d q)).2.1 == 0
  (if x = 0 then 0 else min (if exact then lo.1 else lo.1 + 1) infCode, min (FP32.floorCode (a + k * d) d q).1 infCode)

/-- The code that the fixed function of input code `x` takes in a band (R150: the same on every module). -/
def bandPick (op x : Nat) (b : Nat × Nat) : Nat := b.1 + Config.approx op x % (b.2 - b.1 + 1)

/-! Exact values to 256 binary places: a number `v` stands for `v / 2 ^ 256`. -/

def fixOne : Nat := 2 ^ 256

/-- ln 2 and 2 / √π, rounded down. -/
def fixLn2 : Nat := 0xb17217f7d1cf79abc9e3b39803f2f6af40f343267298b62d8a0d175b8baafa2b
def fixErf : Nat := 0x120dd750429b6d11ae3a914fed7fd8688281341d7587cea2e7342b06199cc4161

/-- `Σ z ^ i / i!` for `0 ≤ z < ln 2`: `n` more terms after `acc`, `t` being term `i`. -/
def expTerms : Nat → Nat → Nat → Nat → Nat → Nat
  | 0, _, _, _, acc => acc
  | n + 1, z, i, t, acc => expTerms n z (i + 1) (t * z / fixOne / (i + 1)) (acc + t)

/-- `e ^ x` for `x = ± v / 2 ^ 256`, as a magnitude. -/
def expMag (neg : Bool) (v : Nat) : Mag :=
  let k : Int := if neg then -(ceilDiv v fixLn2 : Nat) else (v / fixLn2 : Nat)
  let r := if neg then ceilDiv v fixLn2 * fixLn2 - v else v % fixLn2
  (expTerms 64 r 0 fixOne 0, 1, k - 256)

/-- `Σ z ^ (2 i + 1) / (2 i + 1)`: `n` more terms after `acc`, `t` being `z ^ (2 i + 1)` and `z2` its step. -/
def atanhTerms : Nat → Nat → Nat → Nat → Nat → Nat
  | 0, _, _, _, acc => acc
  | n + 1, z2, i, t, acc => atanhTerms n z2 (i + 1) (t * z2 / fixOne) (acc + t / (2 * i + 1))

/-- `|ln x|` of a positive value `n * 2 ^ e`, in 256 places. -/
def lnFix (n : Nat) (e : Int) : Nat :=
  let k : Int := Nat.log2 n + e
  let p := 2 ^ Nat.log2 n
  let z := (n - p) * fixOne / (n + p)
  let m := 2 * atanhTerms 90 (z * z / fixOne) 0 z 0
  (k * fixLn2 + m).natAbs

/-- `Σ (-1) ^ i x ^ (2 i + 1) / (i! (2 i + 1))`: `n` more terms, `t` being `(-1) ^ i x ^ (2 i + 1) / i!`. -/
def erfTerms : Nat → Nat → Nat → Int → Int → Int
  | 0, _, _, _, acc => acc
  | n + 1, x2, i, t, acc => erfTerms n x2 (i + 1) (-(t * x2 / fixOne / ((i + 1 : Nat) : Int))) (acc + t / ((2 * i + 1 : Nat) : Int))

/-- The exact magnitude of the function `op` of Table 5-3 at `± v / 2 ^ 256`, with error below 2 ^ -90 of it (DEDUCED, log 7: the bound is
taken of this value). -/
def exactMag (op : Nat) (neg : Bool) (v : Nat) : Mag :=
  if op = VEXPN then expMag neg v
  else if op = VSIGM then
    let m := expMag true v
    -- e / (1 + e) for a negative input, 1 / (1 + e) for a positive one, e = e ^ -|x|
    let d := pow2 (-m.2.2)
    if neg then (m.1, m.1 + d, 0) else (d, m.1 + d, 0)
  else if op = VTANH then
    let m := expMag true (2 * v)
    let d := pow2 (-m.2.2)
    (d - m.1, d + m.1, 0)
  else ((erfTerms 200 (v * v / fixOne) 0 v 0).toNat * fixErf / fixOne, 1, -256)

/-- The input code `x` in 256 places, at most 2 ^ 8, where every function of Table 5-3 but VLOG has reached its end. -/
def fixOf (x : Nat) : Nat :=
  match FP32.decode (x % 2 ^ 31) with
  | .fin _ n _ e => min (n * pow2 (e + 256) / pow2 (-(e + 256))) (2 ^ 264)
  | _ => 2 ^ 264

/-- The band of VEXPN, VSIGM, VTANH or VERF at input code `x`: 2 ULP, inside the range of Table 5-3 and on the right side of the exact result
at zero. -/
def elemBand (op x : Nat) : Nat × Nat :=
  let neg := bit x 31
  let b := ulpBand 2 (exactMag op neg (fixOf x))
  let mid := if op = VEXPN then oneCode else 0x3F000000
  if op = VEXPN || op = VSIGM then
    (if neg then (min b.1 mid, min b.2 mid) else (max b.1 mid, min (max b.2 mid) (if op = VSIGM then oneCode else infCode)))
  else (min b.1 oneCode, min b.2 oneCode)

/-- The band of VLOG at magnitude code `x` other than 1: 2 ULP or 2 ^ -24, whichever is larger. -/
def logBand (x : Nat) : Nat × Nat :=
  match FP32.decode x with
  | .fin _ n _ e =>
    let v := lnFix n e
    let b := ulpBand 2 (v, 1, -256)
    let t := 2 ^ 232
    let lo := FP32.floorCode (v - t) 1 (-256)
    let up := if (inUnits (v - t) 1 (-256) (FP32.step (v - t) 1 (-256))).2.1 = 0 then lo.1 else lo.1 + 1
    (min b.1 (if v ≤ t then 0 else up), max b.2 (FP32.floorCode (v + t) 1 (-256)).1)
  | _ => (infCode, infCode)

/-- The greatest of `f lo, f (lo + 1), .., f (lo + n - 1)`. -/
def maxOver (f : Nat → Nat) (lo n : Nat) : Nat := (List.range n).foldl (fun m i => max m (f (lo + i))) 0

/-- The fixed function at a finite input code `x`: inside its band, and monotonic, since each magnitude is the greatest picked on the way to
it from where the magnitudes are least (R150). Every function that R150 allows is one of these (log 7). -/
def approxFixed (op x : Nat) : Nat :=
  let m := x % 2 ^ 31
  if op = VLOG then
    let pick (y : Nat) : Nat := bandPick op y (logBand y)
    if oneCode < m then maxOver pick (oneCode + 1) (m - oneCode) else maxOver pick m (oneCode - m)
  else
    let pick (y : Nat) : Nat := bandPick op y (elemBand op y)
    if bit x 31 then maxOver (fun y => pick (y + 2 ^ 31)) m (infCode - m) else maxOver pick 1 m

/-- An approximation at FP32 width: the exact results of Table 5-4 and Table 2-9, else the fixed function, odd where R150 says so. -/
def approxFp32 (op x : Nat) : Nat :=
  let v := FP32.decode x
  let neg := v.isNeg
  match v with
  | .nan => FP32.nanCode
  | .inf s =>
    if op = VRCP then FP32.withSign s 0
    else if op = VRSQRT || op = VLOG then (if s then FP32.nanCode else if op = VLOG then infCode else 0)
    else if op = VEXPN then (if s then 0 else infCode)
    else if op = VSIGM then (if s then 0 else oneCode)
    else FP32.withSign s oneCode
  | .fin s n d e =>
    if n = 0 then
      if op = VRCP || op = VRSQRT then FP32.withSign s infCode
      else if op = VEXPN then oneCode
      else if op = VLOG then FP32.withSign true infCode
      else if op = VSIGM then 0x3F000000
      else FP32.withSign s 0
    else if op = VRCP then
      FP32.withSign s (bandPick op x (ulpBand 1 (d, n, -e)))
    else if op = VRSQRT then
      if s then FP32.nanCode
      else match (Num.div (.fin false 1 1 0) v) with
        | .fin _ n' d' e' =>
          -- 1 / x with 128 extra bits, then its square root
          let m := inUnits n' d' e' (floorLog2 n' d' + e' - 130)
          match Num.sqrt (.fin false m.1 1 (floorLog2 n' d' + e' - 130)) with
          | .fin _ a b q => bandPick op x (ulpBand 2 (a, b, q))
          | _ => FP32.nanCode
        | _ => FP32.nanCode
    else if op = VEXPN then
      if numGt v false 887228 then infCode
      else if s && numGt v.abs false 1039721 then 0
      else approxFixed op x
    else if op = VLOG then
      if s then FP32.nanCode else if x = oneCode then 0
      else FP32.withSign (decide (x < oneCode)) (approxFixed op x)
    else if op = VSIGM then (if !neg && numGe v 166355 then oneCode else approxFixed op x)
    else
      let lim := if op = VTANH then 90109 else 39192
      FP32.withSign neg (if numGe v.abs lim then oneCode else approxFixed op (x % 2 ^ 31))

/-- An approximation in type `ff`: evaluated at FP32 width and rounded once (R149), so within 1 ULP of a 16-bit type (R150). -/
def approxElem (op : Nat) (ff : FloatFmt) (a : Nat) : Nat :=
  if ff.bits = 32 then approxFp32 op a else ff.round (FP32.decode (approxFp32 op (FP32.round (ff.decode a))))

/-! ### Elements (R149) -/

/-- The floating format of a typ code, if it is one. -/
def typFloat (typ : Nat) : Option FloatFmt :=
  if typ = 12 then some FP32 else if typ = 10 then some BF16 else if typ = 11 then some FP16 else none

/-- A VOP result on floats. -/
def vopFloat (op : Nat) (ff : FloatFmt) (a b c : Nat) : Nat :=
  let x := ff.decode a
  let y := ff.decode b
  match op with
  | 0x00 => ff.round (x.add y)
  | 0x01 => ff.round (x.add y.neg)
  | 0x02 => ff.round (x.mul y)
  | 0x03 => ff.round ((x.mul y).add (ff.decode c))
  | 0x04 => ff.round (x.minNum y)
  | 0x05 => ff.round (x.maxNum y)
  | 0x06 => ff.round x.abs
  | 0x07 => ff.round x.neg
  | 0x08 => a &&& b
  | 0x09 => a ||| b
  | 0x0A => a ^^^ b
  | 0x14 => ff.round x
  | 0x15 => ff.round y
  | 0x2A => ff.round x.sqrt
  | 0x2B => ff.round (x.div y)
  | _ => approxElem op ff a

/-- A VOP result on integers of `w` bits (Table 5-2, Table 2-9). -/
def vopInt (op w a b c : Nat) : Nat :=
  let x := toSigned w a
  let y := toSigned w b
  match op with
  | 0x00 => ofSigned w (x + y)
  | 0x01 => ofSigned w (x - y)
  | 0x02 => ofSigned w (x * y)
  | 0x03 => ofSigned w (x * y + toSigned w c)
  | 0x04 => if x < y then a else b
  | 0x05 => if x < y then b else a
  | 0x06 => ofSigned w (if x < 0 then -x else x)
  | 0x07 => ofSigned w (-x)
  | 0x08 => a &&& b
  | 0x09 => a ||| b
  | 0x0A => a ^^^ b
  | 0x0B => a * 2 ^ (b % w) % 2 ^ w
  | 0x0C => a / 2 ^ (b % w)
  | 0x0D => ofSigned w (x / (2 ^ (b % w) : Nat))
  | 0x0E => satSigned w (x + y)
  | 0x0F => satSigned w (x - y)
  | 0x14 => a
  | 0x15 => b
  | _ => divSigned w a b

def vopElem (op typ a b c : Nat) : Nat :=
  match typFloat typ with
  | some ff => vopFloat op ff a b c
  | none => vopInt op (typWidth typ) a b c

/-- `a < b` and `a = b` in a type; false with a NaN. -/
def typLt (typ a b : Nat) : Bool :=
  match typFloat typ with
  | some ff => (ff.decode a).lt (ff.decode b)
  | none => decide (toSigned (typWidth typ) a < toSigned (typWidth typ) b)

def typEq (typ a b : Nat) : Bool :=
  match typFloat typ with
  | some ff => (ff.decode a).eq (ff.decode b)
  | none => a == b

def typNan (typ a : Nat) : Bool :=
  match typFloat typ with
  | some ff => (ff.decode a).isNan
  | none => false

/-- The mask bit of a compare (Table 5-2). -/
def vopCmp (op typ a b : Nat) : Bool :=
  match op with
  | 0x10 => typEq typ a b
  | 0x11 => !typEq typ a b
  | 0x12 => typLt typ a b
  | _ => typLt typ a b || typEq typ a b

/-- The op reads operand a, b, c (Table 5-2). -/
def readsA (op : Nat) : Bool := op != 0x15
def readsB (op : Nat) : Bool := op ≤ 5 || (8 ≤ op && op ≤ 0x15) || op == 0x2B
def readsC (op : Nat) : Bool := op == 3

/-! ### Operands of a VOP word -/

/-- Element `e` of operand b, with the mark of its lane (R142, R162). -/
def opB (k : Core) (q : QEnt) (f : VopF) (w e : Nat) : Nat × Bool :=
  if f.bs then (q.a.toNat % 2 ^ w, false) else (entElem w (k.ent f.vb.toNat) e, (k.mark f.vb.toNat).getLsbD (elemLane w e))

def opOf (k : Core) (v w e : Nat) : Nat × Bool := (entElem w (k.ent v) e, (k.mark v).getLsbD (elemLane w e))

/-- One element's part write of an element-wise VOP. -/
def vopWrite (k : Core) (q : QEnt) (op : Nat) (f : VopF) (w e : Nat) : PartWrite :=
  let a := opOf k f.va.toNat w e
  let b := opB k q f w e
  let c := opOf k f.vc.toNat w e
  if op = 0x14 then
    let sel := maskBit w q.m q.m2 e
    (w * e, w, vopElem (if sel then 0x14 else 0x15) f.typ.toNat a.1 b.1 0, if sel then a.2 else b.2)
  else
    (w * e, w, vopElem op f.typ.toNat a.1 b.1 c.1, (readsA op && a.2) || (readsB op && b.2) || (readsC op && c.2))

/-- The elements that are active. -/
def activeElems (me : Bool) (w : Nat) (q : QEnt) : List Nat := (List.range (2048 / w)).filter (active me w q.m q.m2)

/-- A destination entry with part writes applied. -/
def entWrites (k : Core) (v : Nat) (ws : List PartWrite) : Nat × Entry × W64 :=
  let r := putWrites (k.ent v) (k.mark v) ws
  (v, r.1, r.2)

/-- An element-wise VOP. -/
def vopRes (k : Core) (q : QEnt) (op : Nat) (f : VopF) : EngRes :=
  let w := typWidth f.typ.toNat
  .vec [entWrites k f.vd.toNat ((activeElems (f.me && op != 0x14) w q).map (vopWrite k q op f w))] none [] false

/-- A compare: the mask or mask pair, inactive bits zero; a poisoned active lane lets poison escape (R144, R163). -/
def cmpRes (k : Core) (q : QEnt) (op : Nat) (f : VopF) : EngRes :=
  let w := typWidth f.typ.toNat
  let on (e : Nat) : Bool := active f.me w q.m q.m2 e
  let ms := maskOf w (fun e => on e && vopCmp op f.typ.toNat (opOf k f.va.toNat w e).1 (opB k q f w e).1)
  let n := f.vd.toNat % 8
  .vec [] none (if w = 16 then [(n, ms.1), (n ^^^ 1, ms.2)] else [(n, ms.1)])
    ((activeElems f.me w q).any (fun e => (opOf k f.va.toNat w e).2 || (opB k q f w e).2))

/-! ### VCVT (R152-R154) -/

/-- The 64 source codes of an operand with width `w` in part `p`. -/
def cvtCodes (x : Entry) (w p : Nat) : List Nat := unpackCodes w 64 (x.toNat / 2 ^ (if w = 32 then 0 else 64 * p * w))

/-- The mark that source element `j` carries: its lanes and, in a block, those of the second plane. -/
def cvtMark (m : W64) (f : Format) (p j : Nat) : Bool :=
  let w := f.width
  let o := (if w = 32 then 0 else 64 * p * w) + j * w
  let lanes (lo n : Nat) : Bool := (List.range 64).any (fun i => m.getLsbD i && decide (lo < 32 * i + 32) && decide (32 * i < lo + n))
  lanes o w || (f.isBlock && lanes (64 * w) (8 * f.planeBytes))

/-- Draws that one conversion to `f` takes under SR of `n` elements; `hdr` is the S4 header made (R154, R555). -/
def cvtDraws (f : Format) (n hdr : Nat) : Nat :=
  if f == .s4 then
    (if bits hdr 31 24 = 0xFF || bits hdr 31 24 = 0 then 64
     else 66 - (b2n (decide (bits hdr 5 0 ≠ 0)) + b2n (decide (bits hdr 17 12 ≠ 0))))
  else if f.isMx then 64 else n

/-- VCVT: result, rounding source after it, draws taken. -/
def cvtRes (k : Core) (q : QEnt) (f : VopF) (g : W64) : EngRes × W64 × Nat :=
  let src := Format.ofCode (f.vc.toNat % 16)
  let dst := Format.ofCode f.typ.toNat
  let p := f.vc.toNat / 16 % 4
  let x := k.ent f.va.toNat
  let m := k.mark f.va.toNat
  let vals := src.decode64 (cvtCodes x src.width p) (x.toNat / 2 ^ (64 * src.width))
  let mark (j : Nat) : Bool := cvtMark m src p j
  let w := dst.width
  if dst.isBlock then
    let r := dst.encode64 f.rm vals g
    let blk (j : Nat) : Bool :=
      if dst == .s4 then (List.range 64).any mark else (List.range 32).any (fun i => mark (j / 32 * 32 + i))
    let els := r.1.mapIdx (fun j c => ((j * w, w, c, blk j) : PartWrite))
    let plane : List PartWrite :=
      if dst == .s4 then [(64 * w, 32, r.2.1, blk 0)]
      else [(64 * w, 8, r.2.1 % 256, blk 0), (64 * w + 8, 8, r.2.1 / 256, blk 32)]
    (.vec [entWrites k f.vd.toNat (els ++ plane)] none [] false, r.2.2, if f.rm then cvtDraws dst 64 r.2.1 else 0)
  else
    let on := (List.range 64).filter (fun j => !f.me || q.m.getLsbD j)
    let r := dst.convertList f.rm (on.map (fun j => vals.getD j .nan)) g
    let base := if w = 32 then 0 else 64 * p * w
    let ws := (on.zip r.1).map (fun x => ((base + x.1 * w, w, x.2, mark x.1) : PartWrite))
    (.vec [entWrites k f.vd.toNat ws] none [] false, r.2, if f.rm then on.length else 0)

/-! ### VCOMP and VEXP (R155, R156) -/

def nextEnt (v : Nat) : Nat := (v + 1) % 128

/-- VCOMP: packed lanes from lane `o` of vd on, continuing in the next entry; the count. -/
def compRes (k : Core) (q : QEnt) (f : VcompF) : EngRes :=
  let sel := (List.range 64).filter (fun i => q.m.getLsbD i)
  let o := if f.cont && f.sd != 0#5 then q.a.toNat % 64 else 0
  let put (first : Bool) : List PartWrite :=
    (sel.mapIdx (fun j i => (o + j, i))).filterMap (fun x =>
      if first == decide (x.1 < 64) then
        let v := opOf k f.va.toNat 32 x.2
        some (32 * (x.1 % 64), 32, v.1, v.2)
      else none)
  let n := (if f.cont then o else 0) + sel.length
  let ents := [entWrites k f.vd.toNat (put true)] ++
    (if f.cont && 64 < o + sel.length then [entWrites k (nextEnt f.vd.toNat) (put false)] else [])
  .vec ents (some (f.sd.toNat, BitVec.ofNat 64 n)) [] false

/-- VEXP: lane j of va goes to the j-th active lane. -/
def expRes (k : Core) (q : QEnt) (f : VexpF) : EngRes :=
  let sel := (List.range 64).filter (fun i => q.m.getLsbD i)
  let ws := sel.mapIdx (fun j i =>
    let v := opOf k f.va.toNat 32 j
    ((32 * i, 32, v.1, v.2) : PartWrite))
  let zeros := if f.fill then [] else ((List.range 64).filter (fun i => !q.m.getLsbD i)).map (fun i => ((32 * i, 32, 0, false) : PartWrite))
  .vec [entWrites k f.vd.toNat (ws ++ zeros)] none [] false

/-! ### Reductions (R157) -/

/-- One level of the pairwise tree. -/
def pairUp {α : Type} (f : α → α → α) : List α → List α
  | a :: b :: l => f a b :: pairUp f l
  | l => l

/-- The pairwise tree of 2 ^ n elements. -/
def treeFold {α : Type} (f : α → α → α) : Nat → List α → List α
  | 0, l => l
  | n + 1, l => treeFold f n (pairUp f l)

/-- FP32 addition with one rounding. -/
def addFp32 (a b : Num) : Num := FP32.decode (FP32.round (a.add b))

/-- Sum of the elements of a type; inactive ones have been replaced by +0. -/
def redSum (typ : Nat) (l : List Nat) : Nat :=
  match typFloat typ with
  | some ff => ff.round ((treeFold addFp32 7 (l.map ff.decode)).getD 0 .nan)
  | none => (l.foldl (· + ·) 0) % 2 ^ typWidth typ

/-- `b` replaces the winner `a` of a maximum (or minimum): it is beyond it, or `a` is a NaN and `b` is none (R157). -/
def redBeats (typ : Nat) (mx : Bool) (a b : Nat) : Bool :=
  match typFloat typ with
  | some ff =>
    let x := ff.decode a
    let y := ff.decode b
    if y.isNan then false else if x.isNan then true
    else if mx then x.lt y || (x.eq y && x.isNeg && !y.isNeg) else y.lt x || (x.eq y && !x.isNeg && y.isNeg)
  | none => if mx then typLt typ a b else typLt typ b a

/-- The winning element and its index. -/
def redWin (typ : Nat) (mx : Bool) (l : List (Nat × Nat)) : Option (Nat × Nat) :=
  l.foldl (fun best x => match best with
    | none => some x
    | some b => if redBeats typ mx b.2 x.2 then some x else some b) none

/-- Negative infinity or the most negative value; positive infinity or the most positive one. -/
def typLow (typ : Nat) : Nat :=
  match typFloat typ with
  | some ff => ff.withSign true (ff.maxCode + 1)
  | none => 2 ^ (typWidth typ - 1)

def typHigh (typ : Nat) : Nat :=
  match typFloat typ with
  | some ff => ff.maxCode + 1
  | none => 2 ^ (typWidth typ - 1) - 1

/-- A value as VMAX and VMIN leave it: a NaN is canonical. -/
def typCanon (typ a : Nat) : Nat :=
  match typFloat typ with
  | some ff => ff.round (ff.decode a)
  | none => a

/-- Value written to every element, value written to s[sd] (R157). -/
def redValue (typ fn : Nat) (els : List (Nat × Nat × Bool)) : Nat × Nat :=
  let on := (els.filter (fun x => x.2.2)).map (fun x => (x.1, x.2.1))
  if fn = 0 then
    let v := redSum typ (els.map (fun x => if x.2.2 then x.2.1 else 0))
    (v, v)
  else
    let mx := fn == 1 || fn == 3
    match redWin typ mx on with
    | some (i, v) => (typCanon typ v, if 3 ≤ fn then i else typCanon typ v)
    | none =>
      if 3 ≤ fn then (match typFloat typ with | some ff => ff.nanCode | none => 0, 0xFFFFFFFF)
      else (if mx then typLow typ else typHigh typ, if mx then typLow typ else typHigh typ)

/-- VRED (R157, R162, R163). -/
def redRes (k : Core) (q : QEnt) (f : VredF) : EngRes :=
  let typ := f.typ.toNat
  let w := typWidth typ
  let n := 2048 / w
  let els := (List.range n).map (fun e => (e, entElem w (k.ent f.va.toNat) e, active f.me w q.m q.m2 e))
  let bad := (activeElems f.me w q).any (fun e => (k.mark f.va.toNat).getLsbD (elemLane w e))
  let r := redValue typ f.fn.toNat els
  let ws := (List.range n).map (fun e => ((w * e, w, r.1, bad) : PartWrite))
  .vec [entWrites k f.vd.toNat ws] (some (f.sd.toNat, BitVec.ofNat 64 r.2)) [] (bad && f.sd != 0#5)

/-! ### Selections (R158, R159) -/

/-- The candidate index of lane `i` and its mark. -/
def candOf (k : Core) (q : QEnt) (f : VopF) (i : Nat) : Nat × Bool :=
  if f.bs then ((q.a.toNat + i) % 2 ^ 32, false) else opOf k f.vc.toNat 32 i

/-- VARGMAX, lane by lane. -/
def argmaxRes (k : Core) (q : QEnt) (f : VopF) : EngRes :=
  let typ := f.typ.toNat
  let vd := f.vd.toNat
  let vi := nextEnt vd
  let lane (i : Nat) : Nat × Nat × Nat × Bool :=
    let a := opOf k f.va.toNat 32 i
    let v := opOf k vd 32 i
    let x := opOf k vi 32 i
    let c := candOf k q f i
    let beats := !typNan typ a.1 && (typNan typ v.1 || typLt typ v.1 a.1)
    (i, typCanon typ (if beats then a.1 else v.1), if beats then c.1 else x.1, a.2 || v.2 || x.2 || c.2)
  let ls := (activeElems f.me 32 q).map lane
  .vec [entWrites k vd (ls.map (fun x => (32 * x.1, 32, x.2.1, x.2.2.2))),
        entWrites k vi (ls.map (fun x => (32 * x.1, 32, x.2.2.1, x.2.2.2)))] none [] false

/-- `b` ranks before `a` in the descending list: greater, or `a` is a NaN and `b` is none (R159). -/
def ranksBefore (typ : Nat) (b a : Nat) : Bool := !typNan typ b && (typNan typ a || typLt typ a b)

/-- Insert after every entry of equal or higher rank. -/
def topIns (typ : Nat) (x : Nat × Nat) : List (Nat × Nat) → List (Nat × Nat)
  | [] => [x]
  | y :: l => if ranksBefore typ x.1 y.1 then x :: y :: l else y :: topIns typ x l

/-- VTOPK: the list is ordered, then the active lanes that hold no NaN merge in lane order, and 64 stay. -/
def topkRes (k : Core) (q : QEnt) (f : VopF) : EngRes :=
  let typ := f.typ.toNat
  let vd := f.vd.toNat
  let vi := nextEnt vd
  let on := activeElems f.me 32 q
  let take := on.filter (fun i => !typNan typ (opOf k f.va.toNat 32 i).1)
  let old := (List.range 64).map (fun i => ((opOf k vd 32 i).1, (opOf k vi 32 i).1))
  let new := take.map (fun i => ((opOf k f.va.toNat 32 i).1, (candOf k q f i).1))
  let top := ((old ++ new).foldl (fun l x => topIns typ x l) []).take 64
  let bad := on.any (fun i => (opOf k f.va.toNat 32 i).2) || take.any (fun i => (candOf k q f i).2)
    || (List.range 64).any (fun i => (opOf k vd 32 i).2 || (opOf k vi 32 i).2)
  let get (i : Nat) : Nat × Nat := top.getD i (typLow typ, 0xFFFFFFFF)
  .vec [entWrites k vd ((List.range 64).map (fun i => (32 * i, 32, typCanon typ (get i).1, bad))),
        entWrites k vi ((List.range 64).map (fun i => (32 * i, 32, (get i).2, bad)))] none [] false

/-! ### The accumulator view (R160) -/

/-- VACC: a row of the view bank with its mark. DESIGN CHOICE (log 92): with me = 1 the mark of a poisoned row goes to the active lanes only;
R161 says all 64 lanes, and R160 lets inactive lanes keep their values. -/
def vaccRes (s : State) (c : Nat) (q : QEnt) (f : VopF) : EngRes :=
  let k := s.core c
  let r := if f.bs then q.a.toNat % 64 else f.va.toNat % 64
  let view := !s.liveBank c
  let row := k.accRow view r
  let bad := (s.reg (accMarkReg c view)).getLsbD r
  .vec [entWrites k f.vd.toNat ((activeElems f.me 32 q).map (fun e => (32 * e, 32, entElem 32 row e, bad)))] none [] false

/-! ### VLD and VST (R145-R148) -/

/-- An access's first faulting byte counts one address error for the instruction. -/
def firstBad (l : List ElemPlace) : Option Nat :=
  l.findSome? (fun p => match p with | .bad a => some a | _ => none)

/-- The elements a VLD or VST accesses, with where each lies. -/
def vmemElems (s : State) (c : Nat) (q : QEnt) (f : VmemF) (write : Bool) : List (Nat × ElemPlace) :=
  let z := 2 ^ f.esz.toNat
  ((List.range (256 / z)).filter (fun e => !f.me || q.m.getLsbD (e * z / 4))).map (fun e =>
    (e, s.elemPlace c (elemAddr q.a q.b z e) z write))

/-- Lanes of active elements lose their marks where the load writes them whole; the elements that come set theirs again (R162). -/
def vldStart (k : Core) (f : VmemF) (els : List (Nat × ElemPlace)) : Entry × W64 :=
  let z := 2 ^ f.esz.toNat
  putWrites (k.ent f.v.toNat) (k.mark f.v.toNat) (els.map (fun x => (x.1 * z * 8, z * 8, 0, false)))

/-- A VLD starts: own-scratchpad elements are read, memory elements are requested through the L1, a faulting element reads as zero. -/
def startVld (s : State) (c : Nat) (q : QEnt) (f : VmemF) : State :=
  let z := 2 ^ f.esz.toNat
  let els := vmemElems s c q f false
  let s0 := match firstBad (els.map (·.2)) with
    | some a => addrErr s c (errAddr s a)
    | none => s
  let st := vldStart (s.core c) f els
  let s1 := s0.modCore c (fun k => { k with veRun := k.veRun ++ [⟨q, .vld f.v.toNat st.1 st.2 els.length⟩] })
  forEach els s1 (fun s x =>
    match x.2 with
    | .own o =>
      let r := scratchRead s (scrBase c + o) z
      r.1.modCore c (fun k => { k with veRun := k.veRun.map (fun y => vldElem y q.id x.1 (ofBytes r.2.1) r.2.2) })
    | .mem a =>
      let id := (s.core c).nextId
      memLoad (newLoad (s.modCore c (fun k => { k with nextId := id + 1 })) c id z (.elem q.id x.1) 0 false) c id a z true
    | .bad _ => s.modCore c (fun k => { k with veRun := k.veRun.map (fun y => vldElem y q.id x.1 0 false) }))

/-- Own-scratchpad granules that one instruction has covered whole with clean data lose their poison (R464). -/
def cleanCovered (s : State) (base : Nat) (ws : List (Nat × Nat × Bool)) : State :=
  let grans := (ws.map (fun w => w.1 / 64)).eraseDups
  forEach grans s (fun s g =>
    let mine := ws.filter (fun w => w.1 / 64 == g || (w.1 + w.2.1 - 1) / 64 == g)
    let all := (List.range 64).all (fun i => mine.any (fun w => decide (w.1 ≤ g * 64 + i) && decide (g * 64 + i < w.1 + w.2.1)))
    if all && mine.all (fun w => !w.2.2) then s.setPoison (base + g * 64) false else s)

/-- An engine store to line `l` waits for its line (R253). -/
def Core.engMiss (k : Core) (l : Nat) : Bool :=
  k.miss.any (fun m => m.line.toNat == l && m.accs.any (fun a => a.eng && (match a.kind with | .store .. => true | _ => false)))

/-- Of the lines that a VST has stored to, those with elements not yet performed: waiting for the line, in a line buffer, or in an SWR that
has not entered the line order (R253). -/
def Core.vstBusy (k : Core) (lines : List Nat) : List Nat :=
  lines.filter (fun l => k.engMiss l || (k.wsdBuf l).isSome || k.swrOut.contains l)

/-- Element `e` of a VST is stored; none while an earlier element of another line has not been performed, or its line has an older access to
be ordered (R148, R254). -/
def vstElem (s : State) (c z : Nat) (lines : List Nat) (e : VstElem) : Option State :=
  if !e.mem then
    (if (s.core c).vstBusy lines = [] then some (scratchWrite s (scrBase c + e.addr) (bytesOf z e.val) e.poison) else none)
  else
    let mine := (lineParts e.addr z).map (·.1)
    if ((s.core c).vstBusy lines).all mine.contains && !(s.core c).unordered e.addr z && (s.staleBuf c e.addr z).isNone then
      some (memStore (if e.poison then markPoisoned s c else s) c e.addr z e.val e.poison true)
    else none

/-- The started vector instruction `id` stands as `res`. -/
def setVeRes (s : State) (c id : Nat) (res : EngRes) : State :=
  s.modCore c (fun k => { k with veRun := k.veRun.map (fun x => if x.q.id = id then { x with res := res } else x) })

/-- The elements of VST `id` that remain are stored in ascending index as far as they can (R148). -/
def vstGo (s : State) (c id z : Nat) (own : List (Nat × Nat × Bool)) (lines : List Nat) : List VstElem → State
  | [] => setVeRes (cleanCovered s (scrBase c) own) c id (.vst own lines [])
  | e :: rest =>
    match vstElem s c z lines e with
    | none => setVeRes s c id (.vst own lines (e :: rest))
    | some s1 =>
      if e.mem then vstGo s1 c id z own ((lines ++ (lineParts e.addr z).map (·.1)).eraseDups) rest
      else vstGo s1 c id z (own ++ [(e.addr, z, e.poison)]) lines rest

/-- A VST starts: it takes its data and stores its elements in ascending index (R148); a faulting element is not written. -/
def startVst (s : State) (c : Nat) (q : QEnt) (f : VmemF) : State :=
  let z := 2 ^ f.esz.toNat
  let els := vmemElems s c q f true
  let k := s.core c
  let s0 := match firstBad (els.map (·.2)) with
    | some a => addrErr s c (errAddr s a)
    | none => s
  let todo := els.filterMap (fun x =>
    let v := opOf k f.v.toNat (8 * z) x.1
    match x.2 with
    | .own o => some ⟨false, o, v.1, v.2⟩
    | .mem a => some ⟨true, a, v.1, v.2⟩
    | .bad _ => none)
  vstGo (s0.modCore c (fun k => { k with veRun := k.veRun ++ [⟨q, .vst [] [] todo⟩] })) c q.id z [] [] todo

/-- The front vector instruction is a VST with elements left: it goes on. Where only its line buffers hold it up, they are written, as
partial writes where they are not full (DESIGN CHOICE, log 93: R148 completes a VST only when every element has been performed, and no rule
says when else a line that stays incomplete leaves its buffer). -/
def vstResume (s : State) (c : Nat) : State :=
  match (s.core c).veRun with
  | x :: _ =>
    (match x.res with
     | .vst own lines left =>
       let k := s.core c
       let held := k.vstBusy lines
       let s1 := if held.all (fun l => (k.wsdBuf l).isSome && !k.engMiss l && !k.swrOut.contains l)
         then forEach held s (fun s l => wsdWrite s c l) else s
       if left.isEmpty then s1 else vstGo s1 c x.q.id (elemSize x.q.ins) own lines left
     | _ => s)
  | [] => s

/-- Stacked-memory lines of a vector access that the core still has to order (R254). -/
def vmemUnordered (s : State) (c : Nat) (q : QEnt) (f : VmemF) (write : Bool) : Bool :=
  (vmemElems s c q f write).any (fun x => match x.2 with
    | .mem a => (s.core c).unordered a (2 ^ f.esz.toNat)
    | _ => false)

/-! ### Hazards within the engine (R83) -/

/-- Operand-cache entries that a vector instruction reads. -/
def vecReads (i : Instr) : List Nat :=
  match i with
  | .vop _ op f =>
    (if readsA op.toNat then [f.va.toNat] else []) ++ (if readsB op.toNat && !f.bs then [f.vb.toNat] else []) ++ (if readsC op.toNat then [f.vc.toNat] else [])
  | .vcvt _ f => [f.va.toNat]
  | .vargmax _ f => f.va.toNat :: (if f.bs then [] else [f.vc.toNat])
  | .vtopk _ f => f.va.toNat :: (if f.bs then [] else [f.vc.toNat])
  | .vst _ f => [f.v.toNat]
  | .vcomp _ f => [f.va.toNat]
  | .vexp _ f => [f.va.toNat]
  | .vred _ f => [f.va.toNat]
  | _ => []

/-- Entries that it writes. -/
def vecWrites (i : Instr) : List Nat :=
  match i with
  | .vop _ op f => if 0x10 ≤ op.toNat && op.toNat ≤ 0x13 then [] else [f.vd.toNat]
  | .vcvt _ f => [f.vd.toNat]
  | .vacc _ f => [f.vd.toNat]
  | .vargmax _ f => [f.vd.toNat, nextEnt f.vd.toNat]
  | .vtopk _ f => [f.vd.toNat, nextEnt f.vd.toNat]
  | .vld _ f => [f.v.toNat]
  | .vcomp _ f => [f.vd.toNat, nextEnt f.vd.toNat]
  | .vexp _ f => [f.vd.toNat]
  | .vred _ f => [f.vd.toNat]
  | _ => []

/-- A vector instruction waits for one that has started and writes an entry it reads or writes. -/
def vecHazard (k : Core) (i : Instr) : Bool :=
  let mine := vecReads i ++ vecWrites i
  k.veRun.any (fun x => (vecWrites x.q.ins).any (fun v => mine.contains v))

/-- Occupancy of the vector engine (Table 3-6). -/
def vecOccupancy (i : Instr) : Nat :=
  match i with
  | .vop _ op _ =>
    let o := op.toNat
    if o = 0x2A || o = 0x2B then 4 else if o = 0x28 || o = 0x29 || (0x30 ≤ o && o ≤ 0x34) then 2 else 1
  | _ => 1

/-- What a vector instruction other than VLD and VST computes at its start (R140). -/
def vecCompute (s : State) (c : Nat) (q : QEnt) : State × EngRes :=
  let k := s.core c
  match q.ins with
  | .vop _ op f => (s, if 0x10 ≤ op.toNat && op.toNat ≤ 0x13 then cmpRes k q op.toNat f else vopRes k q op.toNat f)
  | .vcvt _ f =>
    let r := cvtRes k q f (s.reg (Reg.CORE_LFSR c))
    ((s.setReg (Reg.CORE_LFSR c) r.2.1).setReg (Reg.CORE_VE_SR c) (s.reg (Reg.CORE_VE_SR c) + BitVec.ofNat 64 r.2.2), r.1)
  | .vacc _ f => (s, vaccRes s c q f)
  | .vargmax _ f => (s, argmaxRes k q f)
  | .vtopk _ f => (s, topkRes k q f)
  | .vcomp _ f => (s, compRes k q f)
  | .vexp _ f => (s, expRes k q f)
  | .vred _ f => (s, redRes k q f)
  | _ => (s, .none)

/-- The front of the vector queue starts, where its tokens and hazards let it. -/
def startVe (s : State) (c : Nat) (q : QEnt) : State :=
  let s1 := s.setReg (Reg.CORE_VE_BUSY c) (s.reg (Reg.CORE_VE_BUSY c) + BitVec.ofNat 64 (vecOccupancy q.ins))
  match q.ins with
  | .vld _ f => startVld s1 c q f
  | .vst _ f => startVst s1 c q f
  | _ =>
    let r := vecCompute s1 c q
    r.1.modCore c (fun k => { k with veRun := k.veRun ++ [⟨q, r.2⟩] })

/-- A started VST still has elements to store: a later VLD or VST waits (R83, R254). -/
def Core.vstGoing (k : Core) : Bool := k.veRun.any (fun x => match x.res with | .vst _ _ left => !left.isEmpty | _ => false)

/-- The vector instruction may start now. -/
def State.veReady (s : State) (c : Nat) (q : QEnt) : Bool :=
  !vecHazard (s.core c) q.ins && (match q.ins with
    | .vld _ f => !(s.core c).vstGoing && !vmemUnordered s c q f false
    | .vst _ f => !(s.core c).vstGoing && !vmemUnordered s c q f true
    | _ => true)

/-- A started vector instruction can complete. -/
def Core.veCan (k : Core) (x : Started) : Bool :=
  match x.res with
  | .vld _ _ _ left => left == 0
  | .vst _ lines left => left.isEmpty && (k.vstBusy lines).isEmpty
  | _ => true

/-- Writer `id` writes mask `n`, unless a later writer owns it (log 92, as for an s register). -/
def Core.lateMr (k : Core) (n id : Nat) (v : W64) : Core :=
  if k.pend.any (fun x => x.reg == .m n && x.id == id) then k.setMr n v else k

/-- Poison reaches a mask or an s register (R163); the first such instruction since leg start leaves its pc (R164). -/
def poisonEscape (s : State) (c : Nat) (pc : BitVec 52) : State :=
  let r := Reg.CORE_VE_STATUS c
  let s1 := if (s.core c).escaped then s
    else (s.put r Fld.CORE_VE_STATUS_escape_pc pc.toNat).modCore c (fun k => { k with escaped := true })
  markPoisoned (s1.setFlag r Fld.CORE_VE_STATUS_poison_escape true) c

/-- The effects of a vector instruction become visible (R140). -/
def vecApply (s : State) (c : Nat) (x : Started) : State :=
  match x.res with
  | .vec ents sreg masks esc =>
    let s1 := s.modCore c (fun k =>
      let k1 := ents.foldl (fun k e => (k.setEnt e.1 e.2.1).setMark e.1 e.2.2) k
      let k2 := masks.foldl (fun k e => k.lateMr e.1 x.q.id e.2) k1
      match sreg with
      | some (n, v) => k2.lateSr n x.q.id v
      | none => k2.unPend x.q.id)
    if esc then poisonEscape s1 c x.q.pc else s1
  | .vld vd e m _ => s.modCore c (fun k => (k.setEnt vd e).setMark vd m)
  | _ => s

end Sys2Proof.Machine
end

