-- ==== Sys2Proof/Machine/Matrix.lean ====
section
/-!
DEFINITION. The matrix engine (chapter 4): operand buffers and tile layout (R115-R119), MMA (R120-R124) with the accumulation of R65 and
R66, MSWAP, MDRAIN (R129-R131), poison (R134); the start and the completion of engine instructions (R84, R113).
-/
namespace Sys2Proof.Machine

/-! ### Recorded formats and K (Table 4-6) -/

def kCode (k : Nat) : Nat := if k = 64 then 1 else if k = 128 then 2 else if k = 256 then 3 else 0

def State.meFmt (s : State) (c : Nat) (opd : Bool) : Nat :=
  s.get (Reg.CORE_ME_STATE c) (if opd then Fld.CORE_ME_STATE_fmt_b else Fld.CORE_ME_STATE_fmt_a)

def setMeFmt (s : State) (c : Nat) (opd : Bool) (fmt k : Nat) : State :=
  let r := Reg.CORE_ME_STATE c
  (s.put r (if opd then Fld.CORE_ME_STATE_fmt_b else Fld.CORE_ME_STATE_fmt_a) fmt).put r
    (if opd then Fld.CORE_ME_STATE_k_b else Fld.CORE_ME_STATE_k_a) (kCode k)

def Core.buf (k : Core) (opd : Bool) : OpBuf := if opd then k.bufB else k.bufA

def Core.setBuf (k : Core) (opd : Bool) (b : OpBuf) : Core := if opd then { k with bufB := b } else { k with bufA := b }

/-- The format recorded for buffer `opd`, MLDs that have started included (R83). -/
def State.recorded (s : State) (c : Nat) (opd : Bool) : Nat :=
  match (s.core c).meRun.reverse.findSome? (fun x => match x.res with | .mld o b _ => if o = opd then some b.fmt else none | _ => none) with
  | some g => g
  | none => s.meFmt c opd

/-- Kload (R118). -/
def State.kload (s : State) (c : Nat) (opd : Bool) (f : Format) : Nat :=
  let g := s.recorded c (!opd)
  if g = 0xF then f.k else min f.k (Format.ofCode g).k

/-! ### MLD (R118, R119) -/

/-- A granule of the scratchpad holds poison in one of `n` bytes at offset `off`. -/
def offPoison (s : State) (c off n : Nat) : Bool :=
  if off < 0x100000 then s.anyPoison (scrBase c + off) (min n (0x100000 - off)) else false

/-- The tile of `panels` panels in format `f`: a state that has decoded what was read, and the buffer. -/
def loadTile (s : State) (c : Nat) (f : Format) (panels offA offB : Nat) : State × OpBuf :=
  let a := offA / 64 * 64
  let b := offB / 16 * 16
  let L := f.lineBytes
  let P := f.planeBytes
  let lines := panels * 64
  let r1 := offRead s c a (lines * L)
  let r2 := offRead r1.1 c b (lines * P)
  let bad (i : Nat) : Bool := offPoison r2.1 c (a + i * L) L || (P != 0 && offPoison r2.1 c (b + i * P) P)
  (r2.1, ⟨r1.2.1, r2.2.1, 0, BitVec.ofNat 256 (ofBits lines bad), BitVec.ofNat 64 offA, BitVec.ofNat 64 offB⟩)

/-- The first byte of an MLD that faults: element plane, then second plane. -/
def tileFault (f : Format) (panels offA offB : Nat) : Option Nat :=
  match offFault (offA / 64 * 64) (panels * 64 * f.lineBytes) with
  | some x => some x
  | none => offFault (offB / 16 * 16) (panels * 64 * f.planeBytes)

/-- MLD starts: it reads the tile. -/
def startMld (s : State) (c : Nat) (q : QEnt) (f : MldF) : State × EngRes :=
  let fm := Format.ofCode f.fmt.toNat
  let k := s.kload c f.opd fm
  let s0 := match tileFault fm (k / 64) q.a.toNat q.b.toNat with
    | some x => addrErr s c x
    | none => s
  let r := loadTile s0 c fm (k / 64) q.a.toNat q.b.toNat
  (r.1, .mld f.opd { r.2 with fmt := f.fmt.toNat } k)

/-! ### MMA (R120, R121, R65, R66) -/

/-- The 64 values of line `l` of panel `p` of a buffer read in format `f` (R116). -/
def bufLine (b : OpBuf) (f : Format) (p l : Nat) : List Num :=
  let i := p * 64 + l
  f.decode64 (unpackCodes f.width 64 (b.elems / 2 ^ (8 * f.lineBytes * i))) (b.plane / 2 ^ (8 * f.planeBytes * i) % 2 ^ (8 * f.planeBytes))

/-- An exact product as it enters its first addition (R65). -/
def firstAdd (p : Num) : Num :=
  match p with
  | .fin s n d e =>
    if n ≠ 0 && !magLt (n, d, e) (2 ^ 25 - 1, 1, 103) then .inf s else .fin s n d e
  | v => v

/-- Insert by key. -/
def keyIns {α : Type} (x : Nat × α) : List (Nat × α) → List (Nat × α)
  | [] => [x]
  | y :: l => if x.1 < y.1 then x :: y :: l else y :: keyIns x l

/-- The elements in an order that the spec leaves open: sorted by free values from number `base` on (R66, R68; log 3). -/
def freeOrder {α : Type} (base : Nat) (l : List α) : List α :=
  ((l.mapIdx (fun i x => ((Config.freeValue (base + i)).toNat, x))).foldl (fun acc x => keyIns x acc) []).map (·.2)

/-- The sum of a slice of 64 products: a six-level tree of FP32 additions in an open order (R66, Table 4-2). -/
def sliceSum (base : Nat) (ps : List Num) : Num :=
  (treeFold addFp32 6 ((freeOrder base ps).map firstAdd)).getD 0 .nan

/-- The new value of one accumulator element: slice sums added in ascending order. -/
def accElem (base : Nat) (acc : Num) : List (List Num × List Num) → Num
  | [] => acc
  | ab :: rest => accElem (base + 64) (addFp32 acc (sliceSum base (List.zipWith Num.mul ab.1 ab.2))) rest

/-- The slices of an MMA. -/
def mmaSlices (fa fb : Format) : Nat := min fa.k fb.k / 64

/-- Slices in which an S4 header of either tile has an outlier (R122). -/
def outlierSlices (a b : OpBuf) (fa fb : Format) : Nat :=
  let has (x : OpBuf) (f : Format) (p : Nat) : Bool :=
    f == .s4 && (List.range 64).any (fun l =>
      let h := x.plane / 2 ^ (32 * (p * 64 + l)) % 2 ^ 32
      bits h 5 0 != 0 || bits h 17 12 != 0)
  ((List.range (mmaSlices fa fb)).filter (fun p => has a fa p || has b fb p)).length

/-- One row of the live bank after an MMA. -/
def mmaRow (base : Nat) (row : Entry) (z : Bool) (as : List (List Num)) (bs : List (List (List Num))) : Entry :=
  BitVec.ofNat 2048 (packCodes 32 (bs.mapIdx (fun j b =>
    FP32.round (accElem (base + j * 256) (if z then .fin false 0 1 0 else FP32.decode (entElem 32 row j)) (as.zip b)))))

/-- Lines of a buffer marked poisoned in any of the first `n` panels. DESIGN CHOICE (log 92): where an MMA reads the buffer in another format
than its MLD loaded, a mark stays with the panel and line that the MLD marked. -/
def bufBad (b : OpBuf) (n l : Nat) : Bool := (List.range n).any (fun p => b.marks.getLsbD (p * 64 + l))

/-- MMA completes: every element of the live bank, the marks of its rows (R134), counts. -/
def applyMma (s : State) (c : Nat) (z : Bool) (fa fb : Format) (a b : OpBuf) : State :=
  let live := s.liveBank c
  let n := mmaSlices fa fb
  let bs := (List.range 64).map (fun j => (List.range n).map (fun p => bufLine b fb p j))
  let s1 := s.modCore c (fun k => (List.range 64).foldl (fun k i =>
    k.setAccRow live i (mmaRow (s.free + i * 16384) (k.accRow live i) z ((List.range n).map (fun p => bufLine a fa p i)) bs)) k)
  let anyB := (List.range 64).any (bufBad b n)
  let m := BitVec.ofNat 64 (ofBits 64 (fun i => bufBad a n i || anyB))
  let r := accMarkReg c live
  let s2 := s1.setReg r ((if z then 0 else s1.reg r) ||| m)
  ({ s2 with free := s2.free + 64 * 16384 } : State).count (Reg.CORE_ME_MMA c)

/-! ### MDRAIN (R129-R131) -/

/-- The FP32 row at scratchpad offset `off`, bytes at 2^20 and beyond zero. -/
def rowAt (s : State) (c off : Nat) : State × List Num × Bool :=
  let r := offRead s c (off / 64 * 64) 256
  (r.1, (unpackCodes 32 64 r.2.1).map FP32.decode, r.2.2)

/-- v of R129 for one element. -/
def drainElem (scl bias : Bool) (a sc bi : Num) : Num :=
  if scl && bias then FP32.decode (FP32.round ((a.mul sc).add bi))
  else if scl then FP32.decode (FP32.round (a.mul sc))
  else if bias then FP32.decode (FP32.round (a.add bi))
  else a

/-- The rows of an MDRAIN in ascending order: element codes and second plane of each, and the rounding source after them (R130). -/
def drainRows (f : Format) (sr : Bool) : List (List Num) → W64 → List (Nat × Nat) × W64
  | [], g => ([], g)
  | v :: vs, g =>
    let r := f.encode64 sr v g
    let t := drainRows f sr vs r.2.2
    ((packCodes f.width r.1, r.2.1) :: t.1, t.2)

/-- Output bytes in pieces of one 64 B granule each, at scratchpad offsets, with their poison; `L` bytes to a row. -/
def drainChunks (base L : Nat) (bs : List Byte) (bad : Nat → Bool) : List (Nat × List Byte × Bool) :=
  let n := bs.length
  if n = 0 || L = 0 then [] else
  (List.range ((base + n - 1) / 64 - base / 64 + 1)).map (fun i =>
    let lo := max base ((base / 64 + i) * 64)
    let hi := min (base + n) ((base / 64 + i + 1) * 64)
    (lo, (bs.drop (lo - base)).take (hi - lo), (List.range ((hi - 1 - base) / L - (lo - base) / L + 1)).any (fun j => bad ((lo - base) / L + j))))

/-- The first faulting byte of an MDRAIN: scale row, bias row, element plane, second plane. -/
def drainFault (f : MdrainF) (fm : Format) (q : QEnt) : Option Nat :=
  let sc := if f.scl then offFault (q.c.toNat / 64 * 64) 256 else none
  let bi := if f.bias then offFault (q.b.toNat / 64 * 64) 256 else none
  let el := offFault (q.a.toNat / 64 * 64) (64 * fm.lineBytes)
  let pl := offFault (q.d.toNat / 16 * 16) (64 * fm.planeBytes)
  [sc, bi, el, pl].findSome? id

/-- MDRAIN starts: it binds the live bank and converts it. -/
def startMdrain (s : State) (c : Nat) (q : QEnt) (f : MdrainF) : State × EngRes :=
  let fm := Format.ofCode f.fmt.toNat
  let s0 := match drainFault f fm q with
    | some x => addrErr s c x
    | none => s
  let sc := if f.scl then rowAt s0 c q.c.toNat else (s0, [], false)
  let bi := if f.bias then rowAt sc.1 c q.b.toNat else (sc.1, [], false)
  let live := s.liveBank c
  let k := s.core c
  let rows := (List.range 64).map (fun i => (List.range 64).map (fun j =>
    drainElem f.scl f.bias (FP32.decode (entElem 32 (k.accRow live i) j)) (sc.2.1.getD j .nan) (bi.2.1.getD j .nan)))
  let r := drainRows fm f.rm rows (bi.1.reg (Reg.CORE_LFSR c))
  let marks := s.reg (accMarkReg c live)
  let bad (i : Nat) : Bool := marks.getLsbD i || sc.2.2 || bi.2.2
  let els := r.1.flatMap (fun x => bytesOf fm.lineBytes x.1)
  let pls := r.1.flatMap (fun x => bytesOf fm.planeBytes x.2)
  (bi.1.setReg (Reg.CORE_LFSR c) r.2,
   .mdrain (drainChunks (q.a.toNat / 64 * 64) fm.lineBytes els bad ++ drainChunks (q.d.toNat / 16 * 16) fm.planeBytes pls bad))

/-! ### Starting and completing -/

/-- Occupancy of a matrix instruction that starts (Table 3-6, R117, R122, Table 4-4). -/
def State.meOccupancy (s : State) (c : Nat) (i : Instr) : Nat :=
  match i with
  | .mld _ f =>
    let fm := Format.ofCode f.fmt.toNat
    ceilDiv (s.kload c f.opd fm * (fm.lineBytes + fm.planeBytes)) 512
  | .mma _ f => 256 + outlierSlices (s.core c).bufA (s.core c).bufB (Format.ofCode f.fa.toNat) (Format.ofCode f.fb.toNat)
  | .mdrain _ f =>
    let fm := Format.ofCode f.fmt.toNat
    max 8 (ceilDiv (64 * (fm.lineBytes + fm.planeBytes)) 512)
  | _ => 1

/-- The interlocks within the matrix engine (R86, R124, R130): MSWAP waits for MMAs, MLD for MDRAINs, MMA
for its loads and a bank exchange, MDRAIN for MMAs and a bank exchange. -/
def Core.meReady (k : Core) (i : Instr) : Bool :=
  let run (p : EngRes → Bool) : Bool := k.meRun.any (fun x => p x.res)
  let mma := run (fun r => match r with | .mma _ _ _ _ _ => true | _ => false)
  let mld := run (fun r => match r with | .mld _ _ _ => true | _ => false)
  let drain := run (fun r => match r with | .mdrain _ => true | _ => false)
  let swap := run (fun r => r == .mswap)
  match i with
  | .mswap _ _ => !mma
  | .mld _ _ => !drain
  | .mma _ _ => !mld && !swap
  | .mdrain _ _ => !mma && !swap
  | _ => true

/-- A matrix instruction starts. -/
def startMe (s : State) (c : Nat) (q : QEnt) : State :=
  let s0 := s.setReg (Reg.CORE_ME_BUSY c) (s.reg (Reg.CORE_ME_BUSY c) + BitVec.ofNat 64 (s.meOccupancy c q.ins))
  let k := s.core c
  let r : State × EngRes := match q.ins with
    | .mld _ f => startMld s0 c q f
    | .mma _ f =>
      let fa := Format.ofCode f.fa.toNat
      let fb := Format.ofCode f.fb.toNat
      let o := Reg.CORE_ME_OUTLIER c
      (s0.setReg o (s0.reg o + BitVec.ofNat 64 (outlierSlices k.bufA k.bufB fa fb)), .mma f.z f.fa.toNat f.fb.toNat k.bufA k.bufB)
    | .mswap _ _ => (s0, .mswap)
    | .mdrain _ f => startMdrain s0 c q f
    | _ => (s0, .none)
  r.1.modCore c (fun k => { k with meRun := k.meRun ++ [⟨q, r.2⟩] })

/-- The effects of a matrix instruction become visible. -/
def meApply (s : State) (c : Nat) (x : Started) : State :=
  match x.res with
  | .mld opd b k => (setMeFmt s c opd b.fmt k).modCore c (fun y => y.setBuf opd b)
  | .mma z fa fb a b => applyMma s c z (Format.ofCode fa) (Format.ofCode fb) a b
  | .mswap => s.setFlag (Reg.CORE_ME_STATE c) Fld.CORE_ME_STATE_live_bank (!s.liveBank c)
  | .mdrain out => forEach out s (fun s y => offWrite s c y.1 y.2.1 y.2.2)
  | _ => s

/-- The twait and tset fields of a matrix or vector instruction. -/
def tokFields (i : Instr) : Nat × Nat :=
  match i with
  | .mld _ f => (f.twait.toNat, f.tset.toNat)
  | .mma _ f => (f.twait.toNat, f.tset.toNat)
  | .mswap _ f => (f.twait.toNat, f.tset.toNat)
  | .mdrain _ f => (f.twait.toNat, f.tset.toNat)
  | .vop _ _ f => (f.twait.toNat, f.tset.toNat)
  | .vcvt _ f => (f.twait.toNat, f.tset.toNat)
  | .vacc _ f => (f.twait.toNat, f.tset.toNat)
  | .vargmax _ f => (f.twait.toNat, f.tset.toNat)
  | .vtopk _ f => (f.twait.toNat, f.tset.toNat)
  | .vld _ f => (f.twait.toNat, f.tset.toNat)
  | .vst _ f => (f.twait.toNat, f.tset.toNat)
  | .vcomp _ f => (f.twait.toNat, f.tset.toNat)
  | .vexp _ f => (f.twait.toNat, f.tset.toNat)
  | .vred _ f => (f.twait.toNat, f.tset.toNat)
  | .move _ f => (f.twait.toNat, 0)
  | _ => (0, 0)

/-- The front of the queue of the matrix or vector engine starts where its token wait and its interlocks are satisfied (R84). -/
def engineStart (s : State) (c : Nat) (e : Engine) : State :=
  let k := s.core c
  match k.queue e with
  | [] => s
  | q :: rest =>
    if k.frozen || !k.tokMet (tokFields q.ins).1 q.need then s
    else
      let s1 := s.setCore c (k.setQueue e rest)
      match e with
      | .me => if k.meReady q.ins then startMe s1 c q else s
      | .ve => if s.veReady c q then startVe s1 c q else s
      | .mv => s

/-- The oldest started instruction of the engine completes: its effects become visible and its token is released (R113). -/
def engineComplete (s : State) (c : Nat) (e : Engine) : State :=
  let k := s.core c
  match e with
  | .me => match k.meRun with
    | x :: rest =>
      (meApply (s.setCore c { k with meRun := rest }) c x).modCore c (fun y => y.tokClear (tokFields x.q.ins).2)
    | [] => s
  | .ve =>
    let s := vstResume s c
    let k := s.core c
    match k.veRun with
    | x :: rest =>
      if k.veCan x then
        ((vecApply (s.setCore c { k with veRun := rest }) c x).modCore c (fun y => y.tokClear (tokFields x.q.ins).2)).count (Reg.CORE_VE_OPS c)
      else s
    | [] => s
  | .mv => s

/-- ENGINE_INSTRUCTION_COMPLETE (R113). -/
def execEngineInstructionComplete (c : CoreId) (e : Engine) (s : State) : Result := .next (engineComplete s c.toNat e)

end Sys2Proof.Machine
end

