-- ==== Sys2Proof/Machine/Mover.lean ====
section
/-!
DEFINITION. The tile mover (chapter 6): tags, descriptors and their refusal (R165-R168), geometry and transforms (R169-R172, R556),
lists (R173), pieces with their source reads and destination writes (R174-R178, R182), completion, abort and status (R179-R181); the
remote requests of a core (R410, R412) and its reads and flush reads through host ports.
-/
namespace Sys2Proof.Machine

/-! ### Remote requests (R404, R410, R412) -/

/-- A free remote tag among the `n` from `lo` on; `held` are tags that ledger entries still hold. -/
def Core.freeRemote (k : Core) (held : List Nat) (lo n : Nat) : Option Nat :=
  (List.range n).findSome? (fun i => if held.contains (lo + i) || k.remote.any (fun r => r.tag == lo + i) then none else some (lo + i))

/-- Tags of core `c` that a WAITING ledger entry holds (R318). -/
def State.ledgerTags (s : State) (c : Nat) : List Nat :=
  (s.sched.ledger.filter (fun e => e.core == c && e.st == .waiting)).map (·.tag)

/-- A tag for a request to module `m`: none while every tag is held or requests to `m` wait for a route change (R409, R412). -/
def State.remoteTag (s : State) (c m : Nat) (mover : Bool) : Option Nat :=
  if s.opt.routeHold.contains m then none
  else if mover then (s.core c).freeRemote (s.ledgerTags c) 64 192 else (s.core c).freeRemote (s.ledgerTags c) 0 64

/-- The header of a request of core `c` under tag `t` (R404). -/
def State.remoteHdr (s : State) (c m mpa t : Nat) (arg : BitVec 8) (poison : Bool) (value : W64) : RemHdr :=
  { arg := arg, lines := 0, poison := poison, hops := 0, dst := BitVec.ofNat 12 m, src := BitVec.ofNat 12 s.moduleId,
    mpa := BitVec.ofNat 52 mpa, tag := BitVec.ofNat 8 t, core := BitVec.ofNat 12 c,
    gen := BitVec.ofNat 8 (s.get (Reg.CORE_REMOTE c) Fld.CORE_REMOTE_gen),
    epoch := BitVec.ofNat 16 (s.get Reg.OPT_DOMAIN Fld.OPT_DOMAIN_epoch), value := value }

/-- The request leaves on the port of R408 and its tag is held. -/
def remoteSend (s : State) (c m t : Nat) (op : BitVec 8) (h : RemHdr) (mask : Option (BitVec 128)) (d : List Line) (kind : RemKind) : State :=
  let s1 := (optLeave s m op h mask d 0).1
  s1.modCore c (fun k => { k with remote := k.remote ++ [⟨t, h.gen, h.dst, kind⟩] })

/-! ### Reads issued at a host port -/

/-- A request outstanding at port `p`, for instance `i` under its PASID where one is named; its number, and whether it leaves. -/
def hostRecord (s : State) (p : Nat) (i : Option (Nat × BitVec 20)) (addr len : Nat) (what : HostFor) : State × Nat × Bool :=
  let r := match i with
    | some x => if s.portUp p then translated s p x.2 addr else (s, false)
    | none => (s, true)
  let go := r.2 && s.portUp p
  let h := r.1.port p
  (r.1.setPort p { h with reqs := h.reqs ++ [⟨h.nextReq, i.map (·.2), addr, len, what, !go⟩], nextReq := h.nextReq + 1 }, h.nextReq, go)

/-- A read of `len` bytes leaves on port `p`, in memory requests of at most Max Read Request Size bytes (Table 14-1); its number. -/
def hostAsk (s : State) (p : Nat) (i : Option (Nat × BitVec 20)) (addr len : Nat) (what : HostFor) : State × Nat :=
  let r := hostRecord s p i addr len what
  let m := 128 * 2 ^ (s.port p).mrrs
  (if r.2.2 then
    forEach (List.range (ceilDiv len m)) r.1 (fun s k => s.out (.hostRead p (s.tlp i false) (addr + k * m) (min m (len - k * m)) r.2.1))
  else r.1, r.2.1)

/-- Request `id` of port `p` is no longer outstanding. -/
def dropReq (s : State) (p id : Nat) : State :=
  let h := s.port p
  s.setPort p { h with reqs := h.reqs.filter (fun r => r.id != id), inval := h.inval.map (fun x => { x with wait := x.wait.filter (· != id) }) }

/-- A flush read on port `p`, to the last address written where it is kept (R256). -/
def hostFlush (s : State) (p : Nat) (addr : Option Nat) (what : HostFor) : State :=
  let r := hostRecord s p none (addr.getD 0) 0 what
  if r.2.2 then r.1.out (.winFlush p addr r.2.1) else r.1

/-! ### Tags (R179, R183) -/

def Core.tag (k : Core) (t : Nat) : TagSt := mapGet (fun _ => TagSt.idle) k.tags t

def Core.setTag (k : Core) (t : Nat) (x : TagSt) : Core := { k with tags := mapSet (fun _ => TagSt.idle) k.tags t x }

def State.modTag (s : State) (c t : Nat) (f : TagSt → TagSt) : State := s.modCore c (fun k => k.setTag t (f (k.tag t)))

/-- Fields of the status word (Table 6-4). -/
def stPieces : Fld := ⟨32, 32⟩
def stDesc : Fld := ⟨16, 16⟩
def stPoison : Fld := ⟨9, 1⟩
def stAddrErr : Fld := ⟨8, 1⟩
def stCode : Fld := ⟨0, 8⟩

/-- The MOVE under tag `t` counts one address error, however many bytes fault (R112, R171). -/
def tagCount (s : State) (c t a : Nat) : State :=
  if ((s.core c).tag t).counted then s else addrErr (s.modTag c t (fun x => { x with counted := true })) c a

/-- The tag met an address error of R171. -/
def tagAddrErr (s : State) (c t a : Nat) : State := tagCount (s.modTag c t (fun x => { x with word := stAddrErr.put x.word 1 })) c t a

/-! ### Descriptors (R166, R167) -/

abbrev Desc := BitVec 512

/-- Bits `hi` to `lo` of word `w`. -/
def Desc.f (d : Desc) (w hi lo : Nat) : Nat := bits (d.toNat / 2 ^ (64 * w) % 2 ^ 64) hi lo

def Desc.word (d : Desc) (w : Nat) : Nat := d.f w 63 0
def Desc.n3 (d : Desc) : Nat := d.f 0 63 48
def Desc.xform (d : Desc) : Nat := d.f 0 47 44
def Desc.fmt (d : Desc) : Nat := d.f 0 43 40
def Desc.esz (d : Desc) : Nat := d.f 0 39 38
def Desc.srcSpace (d : Desc) : Nat := d.f 0 37 36
def Desc.dstSpace (d : Desc) : Nat := d.f 0 35 34
def Desc.stream (d : Desc) : Bool := d.f 0 33 33 == 1
def Desc.ordered (d : Desc) : Bool := d.f 0 32 32 == 1
def Desc.last (d : Desc) : Bool := d.f 0 31 31 == 1
def Desc.wakeEn (d : Desc) : Bool := d.f 0 30 30 == 1
def Desc.wake (d : Desc) : Nat := d.f 0 29 26
def Desc.evtEn (d : Desc) : Bool := d.f 0 25 25 == 1
def Desc.free (d : Desc) : Bool := d.f 0 24 24 == 1
def Desc.n2 (d : Desc) : Nat := d.f 3 63 48
def Desc.n1 (d : Desc) : Nat := d.f 3 47 32
def Desc.len0 (d : Desc) : Nat := d.f 3 31 0
/-- Destination and source stride of dimension `i`, 1 to 3. -/
def Desc.ds (d : Desc) (i : Nat) : Int := toSigned 32 (d.f (3 + i) 63 32)
def Desc.ss (d : Desc) (i : Nat) : Int := toSigned 32 (d.f (3 + i) 31 0)
def Desc.aux (d : Desc) : Nat := d.word 7

/-- Element bytes and second-plane bytes of a block (Table 6-3). -/
def Desc.block (d : Desc) : Nat × Nat :=
  let f := Format.ofCode d.fmt
  if f == .s4 then (32, 4) else (4 * f.width, 1)

/-- Bytes of one destination row. -/
def Desc.rowLen (d : Desc) : Nat :=
  if d.xform = 2 then d.len0 * d.block.1 else if d.xform = 3 then d.len0 * (d.block.1 + d.block.2) else d.len0

/-- Element bytes of a transpose. -/
def Desc.e (d : Desc) : Nat := 2 ^ d.esz

/-- The destination pattern that ordered mode needs (R178). -/
def Desc.orderOk (d : Desc) : Bool :=
  let r : Int := d.rowLen
  let n1 : Int := d.n1
  let n2 : Int := d.n2
  d.xform != 1 && decide (0 ≤ d.ds 1) && decide (0 ≤ d.ds 2) && decide (0 ≤ d.ds 3) && decide (r ≤ d.ds 1)
    && decide ((n1 - 1) * d.ds 1 + r ≤ d.ds 2) && decide ((n2 - 1) * d.ds 2 + (n1 - 1) * d.ds 1 + r ≤ d.ds 3)

/-- The index list of a gather lies in own scratchpad or own stacked memory (Table 6-3). -/
def State.listOk (s : State) (c : Nat) (d : Desc) : Bool :=
  d.n1 == 0 || [d.aux, d.aux + 4 * d.n1 - 1].all (fun a => match s.place c (a % 2 ^ 64) with
    | .own _ => true
    | .mem _ => true
    | _ => false)

/-- The mover refuses the descriptor (R168). -/
def State.descRefused (s : State) (c : Nat) (d : Desc) : Bool :=
  decide (6 ≤ d.xform) || d.srcSpace == 3 || d.dstSpace == 3 ||
  (d.xform == 1 && (d.esz == 3 || d.len0 % d.e != 0)) ||
  ((d.xform == 2 || d.xform == 3) && !fmtBlock (BitVec.ofNat 4 d.fmt)) ||
  (d.xform == 4 && (bits d.aux 7 0 == 0 || bits d.aux 15 8 == 0 || bits d.aux 31 16 == 0
    || d.len0 != bits d.aux 7 0 * bits d.aux 15 8 * bits d.aux 31 16)) ||
  (d.xform == 5 && !s.listOk c d) ||
  (d.ordered && !d.orderOk)

/-- It moves nothing (R169). -/
def Desc.void (d : Desc) : Bool := d.n1 == 0 || d.n2 == 0 || d.n3 == 0 || d.len0 == 0

/-! ### Geometry (R169, R172) -/

/-- Sum of an address and an integer modulo 2^64. -/
def addA (a : Nat) (i : Int) : Nat := ofSigned 64 ((a : Int) + i)
def addN (a n : Nat) : Nat := (a + n) % 2 ^ 64

/-- Units of rows: a row, or under transpose a group of 64 consecutive i1 (R177). -/
def Desc.groups (d : Desc) : Nat := if d.xform = 1 then ceilDiv d.n1 64 else d.n1
def Desc.units (d : Desc) : Nat := if d.void then 0 else d.groups * d.n2 * d.n3

/-- Source and destination offsets of dimensions 2 and 3 at unit `u`. -/
def Desc.outer (d : Desc) (u : Nat) (st : Nat → Int) : Int :=
  ((u / d.groups % d.n2 : Nat) : Int) * st 2 + ((u / (d.groups * d.n2) : Nat) : Int) * st 3

def Desc.srcRow (d : Desc) (u : Nat) (i1 : Nat) : Nat := addA (d.word 1) ((i1 : Int) * d.ss 1 + d.outer u d.ss)

def Desc.dstRow (d : Desc) (u : Nat) (i1 : Nat) : Nat := addA (d.word 2) ((i1 : Int) * d.ds 1 + d.outer u d.ds)

/-- The bytes that unit `u` moves, as (destination, source) addresses; `x` is the gather index of the row. -/
def Desc.pairs (d : Desc) (u x : Nat) : List (Nat × Nat) :=
  let i1 := u % d.groups
  let src := d.srcRow u i1
  let dst := d.dstRow u i1
  let eb := d.block.1
  let h := d.block.2
  let k0 := u * d.len0
  match d.xform with
  | 1 =>
    (List.range (d.len0 / d.e)).flatMap (fun (b : Nat) =>
      (List.range (min 64 (d.n1 - i1 * 64))).flatMap (fun q =>
        let r := i1 * 64 + q
        (List.range d.e).map (fun j =>
          (addN (addA (d.word 2) ((b : Int) * d.ds 1 + d.outer u d.ds)) (r * d.e + j), addN (d.srcRow u r) (b * d.e + j)))))
  | 2 =>
    (List.range d.len0).flatMap (fun (b : Nat) => (List.range eb).map (fun j =>
      (addN dst (b * eb + j), addN src (b * (eb + h) + j)))) ++
    (List.range d.len0).flatMap (fun (b : Nat) => (List.range h).map (fun j =>
      (addN d.aux ((k0 + b) * h + j), addN src (b * (eb + h) + eb + j))))
  | 3 =>
    (List.range d.len0).flatMap (fun b =>
      (List.range eb).map (fun j => (addN dst (b * (eb + h) + j), addN src (b * eb + j))) ++
      (List.range h).map (fun j => (addN dst (b * (eb + h) + eb + j), addN d.aux ((k0 + b) * h + j))))
  | 4 =>
    let P := bits d.aux 7 0
    let H := bits d.aux 15 8
    let D := bits d.aux 31 16
    (List.range H).flatMap (fun hd => (List.range P).flatMap (fun p => (List.range D).map (fun b =>
      (addN dst ((hd * P + p) * D + b), addN src ((p * H + hd) * D + b)))))
  | 5 =>
    let row := addA (d.word 1) ((x : Int) * d.ss 1 + d.outer u d.ss)
    (List.range d.len0).map (fun j => (addN dst j, addN row j))
  | _ => (List.range d.len0).map (fun j => (addN dst j, addN src j))

/-- Bytes of a destination granule at an address of a space (R177). -/
def State.granSize (s : State) (c space a : Nat) : Nat :=
  if space ≠ 0 then 64 else
  match s.place c a with
  | .own _ => 64
  | .scratch _ _ => 64
  | .window _ _ => 64
  | .other _ m => if 0x100000000000 ≤ m then 64 else 128
  | _ => 128

def State.granOf (s : State) (c space a : Nat) : Nat := a / s.granSize c space a

/-- The pieces of a unit: its granules in the order first written. -/
def State.granules (s : State) (c : Nat) (d : Desc) (ps : List (Nat × Nat)) : List Nat :=
  (ps.map (fun p => s.granOf c d.dstSpace p.1)).eraseDups

/-! ### Source lines (R176) -/

/-- The line key of a global address: its global line number with this module as 0xFFF. -/
def State.lineKey (s : State) (a : Nat) : Nat := errAddr s a / 128

def Core.mvLine (k : Core) (t key : Nat) : Option MvLine := k.mvBuf.find? (fun x => x.tag == t && x.key == key)

/-- The key of a line read through a host port: `q` is the port, or 2 + port for a remote window. The mover reads host memory by aligned requests
of 128 bytes (DESIGN CHOICE, log 94). -/
def hostKey (q a : Nat) : Nat := 2 ^ 60 * (q + 1) + a / 128

/-- The port, or 2 + port, of a key that names a line behind a host port. -/
def keyPort (key : Nat) : Option Nat := if key < 2 ^ 60 then none else some (key / 2 ^ 60 - 1)

/-- What a source byte reads from. -/
inductive SrcPlace where
  | scratch (mpa : Nat)
  | line (key : Nat)
  | bad
deriving DecidableEq, Repr

/-- A space other than 0 is the host memory of the instance's own port, and no other (R380). -/
def State.hostSpace (s : State) (c space : Nat) : Bool :=
  match (s.core c).leg with
  | some g => space - 1 == s.get (Reg.PRT_INST g.inst.val) Fld.PRT_INST_port
  | none => false

/-- Where a mover source byte lies: scratchpads of the partition's rows and its memory (R170, R299), another module's memory or
scratchpad window, host memory. -/
def State.srcPlace (s : State) (c space a : Nat) : SrcPlace :=
  if space ≠ 0 then (if s.hostSpace c space then .line (hostKey (space - 1) a) else .bad) else
  let part := match s.partOf c with | some p => p.val | none => 32
  match s.place c a with
  | .own o => if s.scratchServed c then .scratch (scrBase c + o) else .bad
  | .scratch k o => if s.scratchServed k && s.coreOfPart part k then .scratch (scrBase k + o) else .bad
  | .mem m => if s.coreReach c m false then .line (s.lineKey a) else .bad
  | .other _ m => if m < 0x30000000000 || (0x100000000000 ≤ m && m < 0x100100000000) then .line (s.lineKey a) else .bad
  | .window p bus => .line (hostKey (2 + p) bus)
  | _ => .bad

/-- The instance and PASID under which a mover of core `c` reaches host memory (R170): those of its caravan. -/
def State.hostOf (s : State) (c : Nat) : Option (Nat × BitVec 20) :=
  (s.core c).leg.map (fun g => (g.inst.val, BitVec.ofNat 20 (s.get (Reg.PRT_INST g.inst.val) Fld.PRT_INST_pasid)))

/-- Ask for one source line: an MRD to its home, an RD to its module, or a read through a host port; none while no remote tag is free or the
port has no room. -/
def askLine (s : State) (c t key : Nat) (stream : Bool) : State :=
  let m := key / 2 ^ 45
  let buf (s : State) : State := s.modCore c (fun k => { k with mvBuf := k.mvBuf ++ [⟨t, key, none⟩] })
  match keyPort key with
  | some q =>
    if s.portRoom (q % 2) 1 then
      (hostAsk (buf s) (q % 2) (if q < 2 then s.hostOf c else none) (key % 2 ^ 60 * 128) 128 (.source c (BitVec.ofNat 8 t) key)).1
    else s
  | none =>
    if m = 0xFFF then buf (s.toHome c (BitVec.ofNat 45 key) (.mrd (reqNum c) (s.keyOf c stream)))
    else match s.remoteTag c m true with
      | some r => remoteSend (buf s) c m r 0x01 (s.remoteHdr c m (key % 2 ^ 45 * 128) r 0 false 0) none [] (.pieceRead (BitVec.ofNat 8 t) key)
      | none => s

/-- Every line of the list is at hand; those not asked for yet are asked for. -/
def wantLines (s : State) (c t : Nat) (keys : List Nat) (stream : Bool) : State × Bool :=
  let s1 := forEach keys s (fun s key => if ((s.core c).mvLine t key).isSome then s else askLine s c t key stream)
  (s1, keys.all (fun key => match (s1.core c).mvLine t key with | some x => x.d.isSome | none => false))

/-- The tag's lines have been used. -/
def dropLines (s : State) (c t : Nat) (keys : List Nat) : State :=
  s.modCore c (fun k => { k with mvBuf := k.mvBuf.filter (fun x => !(x.tag == t && keys.contains x.key)) })

/-- Data of a line arrives for the first of the core's entries that waits for it and that `p` admits. -/
def mvFill (p : MvLine → Bool) (key : Nat) (ld : LineData) : List MvLine → List MvLine
  | [] => []
  | x :: rest => if x.key = key && x.d.isNone && p x then { x with d := some ld } :: rest else x :: mvFill p key ld rest

def moverData (s : State) (c key : Nat) (ld : LineData) : State :=
  s.modCore c (fun k => { k with mvBuf := mvFill (fun _ => true) key ld k.mvBuf })

/-- One source byte with its poison, once its line is at hand. -/
def State.srcByte (s : State) (c t : Nat) (p : SrcPlace) (a : Nat) : Byte × Bool :=
  match p with
  | .scratch m => (s.byte m, s.poisoned m)
  | .line key => match (s.core c).mvLine t key with
    | some x => match x.d with
      | some ld => (BitVec.ofNat 8 (lineNum ld.d (a % 128) 1), ld.poison)
      | none => (0, false)
    | none => (0, false)
  | _ => (0, false)

def lineKeys (ps : List SrcPlace) : List Nat := (ps.filterMap (fun p => match p with | .line k => some k | _ => none)).eraseDups

/-- Scratchpad words that source bytes touch are decoded (R460). -/
def decodeSrc (s : State) (ps : List SrcPlace) : State :=
  forEach ((ps.filterMap (fun p => match p with | .scratch m => some (m / 16 * 16) | _ => none)).eraseDups) s scratchWord

/-! ### Reading a descriptor or an index (R165, R556) -/

/-- `n` bytes of space 0 that lie in one line or granule: not yet, or read (with poison), or an address error. -/
inductive Fetched where
  | later
  | got (v : Nat) (poison : Bool)
  | fault (a : Nat)
deriving DecidableEq, Repr

def fetchBytes (s : State) (c t a n : Nat) : State × Fetched :=
  let addrs := (List.range n).map (fun i => (a + i) % 2 ^ 64)
  let ps := addrs.map (s.srcPlace c 0)
  match (addrs.zip ps).find? (fun x => x.2 == .bad) with
  | some x => (s, .fault x.1)
  | none =>
    let keys := lineKeys ps
    let r := wantLines s c t keys false
    if !r.2 then (r.1, .later)
    else
      let s1 := decodeSrc r.1 ps
      let bs := (addrs.zip ps).map (fun x => s1.srcByte c t x.2 x.1)
      (dropLines s1 c t keys, .got (ofBytes (bs.map (·.1))) (bs.any (·.2)))

/-! ### Flush reads (Table 9-2) -/

/-- No later piece is issued: an abort in time, HOST_FAULT, or a source that is lost (R171, R181, R418). -/
def TagSt.stopped (x : TagSt) : Bool := x.abort == 2 || x.ended == some 6 || x.ended == some 5

/-- Every piece that the tag is to issue has been issued. -/
def TagSt.allOut (x : TagSt) : Bool := x.stopped || (x.runs.all (·.issued) && (x.lastRead || x.ended.isSome))

/-- A flush read goes to each port that has received pieces since its last one, once the last piece of the tag has been issued (Table 9-2), or,
where `wait`, since the pieces must be performed before the mover goes on (R173, R178). -/
def moverFlush (s : State) (c t : Nat) (wait : Bool) : State :=
  forEach [0, 1] s (fun s p =>
    let x := (s.core c).tag t
    let sent (f : Flight) : Bool := f.wait == .host p || f.wait == .host (2 + p)
    let cover (f : Flight) : Flight := match f.wait with | .host q => if q % 2 = p then { f with wait := .flushing q } else f | _ => f
    if (x.allOut || wait) && x.out && x.runs.any (fun r => r.flight.any sent) && !x.flush.contains p && s.portRoom p 1 then
      hostFlush (s.modTag c t (fun x => { x with
        flush := x.flush ++ [p], runs := x.runs.map (fun r => { r with flight := r.flight.map cover }) })) p none (.piece c (BitVec.ofNat 8 t))
    else s)

/-! ### Starting a descriptor (R165, R168, R173) -/

/-- The list ends with status `code`: BAD_DESC once the descriptors before have issued their pieces, the others with no further piece. -/
def endList (s : State) (c t : Nat) (code : BitVec 8) : State :=
  moverFlush (s.modTag c t (fun x => { x with ended := some code, lastRead := true })) c t false

/-- A source line of tag `t` is lost: the tag ends with status `code`. -/
def sourceLost (s : State) (c t key : Nat) (code : BitVec 8) : State :=
  let s1 := s.modCore c (fun k => { k with mvBuf := k.mvBuf.filter (fun x => !(x.tag == t && x.key == key)) })
  if ((s.core c).tag t).out then endList s1 c t code else s1

def DescRun.done (r : DescRun) : Bool := r.issued && r.flight.isEmpty

/-- Take a descriptor that has been read as number `idx` of the list. -/
def takeDesc (s : State) (c t idx : Nat) (d : Desc) (poison : Bool) : State :=
  let s1 := s.modTag c t (fun x => { x with word := stDesc.put x.word (min idx 0xFFFF) })
  if poison then endList (s1.modTag c t (fun x => { x with wakeEn := false, evt := false })) c t 4
  else
    let s2 := s1.modTag c t (fun x => { x with wakeEn := d.wakeEn, wake := BitVec.ofNat 4 d.wake, evt := d.evtEn })
    if s.descRefused c d then endList s2 c t 4
    else moverFlush (s2.modTag c t (fun x => { x with
      next := idx + 1, lastRead := d.last,
      runs := x.runs.filter (fun r => !r.done) ++ [⟨idx, d, 0, 0, none, d.units == 0, []⟩] })) c t false

/-- The next descriptor of the list is read and starts, unless it must wait for earlier ones (R173): it waits until their pieces are performed,
which takes a flush read where they went through a host port. A descriptor address that faults counts for the MOVE (R112, R165); the status
word's desc then stays at the descriptor last started (DESIGN CHOICE, log 92: R179 does not say whether such a descriptor counts as the
refused one). -/
def descStep (s : State) (c t : Nat) : State :=
  let x := (s.core c).tag t
  if !x.out || x.lastRead || x.ended.isSome || x.abort == 2 || (s.core c).moverStopped then s
  else if 65536 ≤ x.next then endList (s.modTag c t (fun x => { x with word := stDesc.put x.word 0xFFFF })) c t 4
  else
    let a := (x.base.toNat / 64 * 64 + 64 * x.next) % 2 ^ 64
    let here := match s.place c a with | .own _ => true | .mem _ => true | _ => false
    if !here then endList (tagCount s c t (errAddr s a)) c t 4
    else match fetchBytes s c t a 64 with
      | (s1, .later) => s1
      | (s1, .fault b) => endList (tagCount s1 c t (errAddr s1 b)) c t 4
      | (s1, .got v poison) =>
        let d : Desc := BitVec.ofNat 512 v
        if x.runs.all DescRun.done || (d.free && !poison) then takeDesc s1 c t x.next d poison
        else moverFlush s1 c t (x.runs.all (·.issued))

/-- MOVE_START: a MOVE leaves the queue once its token wait is met and its tag is not outstanding (R86, R165). -/
def moveStart (s : State) (c : Nat) : State :=
  let k := s.core c
  match k.mvq with
  | [] => s
  | q :: rest =>
    match q.ins with
    | .move _ f =>
      let t := f.tag.toNat
      if k.frozen || !k.tokMet f.twait.toNat q.need || (k.tag t).out then s
      else
        let x : TagSt := { TagSt.idle with used := true, out := true, base := q.a }
        descStep (s.setCore c (({ k with mvq := rest } : Core).setTag t x)) c t
    | _ => s.setCore c { k with mvq := rest }

/-! ### Destination writes -/

/-- The bytes of a granule image: value at each offset that the piece writes. -/
abbrev Image' := List (Option Byte)

/-- Maximal runs of written bytes: offset and bytes. -/
def runsOf : Nat → Image' → List (Nat × List Byte)
  | _, [] => []
  | i, none :: l => runsOf (i + 1) l
  | i, some b :: l =>
    match runsOf (i + 1) l with
    | (j, bs) :: r => if j = i + 1 then (i, b :: bs) :: r else (i, [b]) :: (j, bs) :: r
    | [] => [(i, [b])]

/-- The image of a granule of `n` bytes at `base` under bytes at addresses, the last write of an address deciding. -/
def imageOf (base n : Nat) (ws : List (Nat × Byte)) : Image' :=
  (List.range n).map (fun i => (ws.reverse.find? (fun w => w.1 == base + i)).map (·.2))

/-- Line data and byte mask of an image that starts `off` bytes into the line. -/
def imageLine (off : Nat) (im : Image') : Line × BitVec 128 :=
  (lineOfBytes (List.replicate off 0 ++ im.map (fun b => b.getD 0)),
   BitVec.ofNat 128 (ofBits im.length (fun i => (im.getD i none).isSome) * 2 ^ off))

/-- A poisoned piece that leaves the core makes its caravan POISONED (R467). -/
def poisonOut (s : State) (c t : Nat) (poison out : Bool) : State :=
  if poison then
    let s1 := s.modTag c t (fun x => { x with word := stPoison.put x.word 1, poisonOut := x.poisonOut || out })
    if out then markPoisoned s1 c else s1
  else s

/-- Posted writes of the runs of a granule image at host or bus address `a`; the Bool is false where a translation fails. -/
def hostRuns (s : State) (p : Nat) (i : Option (Nat × BitVec 20)) (a : Nat) (im : Image') (poison isFlag : Bool) : State × Bool :=
  (runsOf 0 im).foldl (fun x r => if x.2 then hostWrite x.1 p i (a + r.1) r.2 poison isFlag else x) (s, true)

/-- Write a piece whose bytes, the first at address `first`, lie in granule `g` of `n` bytes; the state, what its acknowledgement comes from (none
where every byte is an address error, or the host translation fails), or no issue while no remote tag is free. -/
def writePiece (s : State) (c t : Nat) (d : Desc) (g n first : Nat) (im : Image') (poison : Bool) : Option (State × Option PieceWait) :=
  let a := g * n
  let part := match s.partOf c with | some p => p.val | none => 32
  let scr (k o : Nat) : State := forEach (runsOf 0 im) s (fun s r => scratchWrite s (scrBase k + o + r.1) r.2 poison)
  let faults : Option (State × Option PieceWait) := some (tagAddrErr s c t (errAddr s first), none)
  if d.dstSpace ≠ 0 then
    let p := d.dstSpace - 1
    if !s.hostSpace c d.dstSpace then some (tagAddrErr s c t first, none)
    else
      let r := hostRuns s p (s.hostOf c) a im poison d.ordered
      if r.2 then some (poisonOut r.1 c t poison true, some (.host p)) else some (endList r.1 c t 6, none)
  else match s.place c a with
    | .own o => if s.scratchServed c then some (poisonOut (scr c o) c t poison false, some .ready) else faults
    | .scratch k o => if s.scratchServed k && s.coreOfPart part k then some (poisonOut (scr k o) c t poison true, some .ready) else faults
    | .mem m =>
      if s.coreReach c m true then
        let l := lineOf m
        let x := imageLine (m % 128) im
        let key := s.keyOf c d.stream
        let b : MsgBody := if d.stream then .mwrs (reqNum c) key x.1 x.2 poison else .mwr (reqNum c) key x.1 x.2 poison
        some (poisonOut (s.toHome c l b) c t poison true, some (.line l))
      else faults
    | .window p bus => some (poisonOut (hostRuns s p none bus im poison d.ordered).1 c t poison true, some (.host (2 + p)))
    | .other m b =>
      match s.remoteTag c m true with
      | some r =>
        let x := imageLine (b % 128) im
        let whole := wholeLine x.2
        let h := s.remoteHdr c m (b / 128 * 128) r (if whole then 0 else 1) poison 0
        some (poisonOut (remoteSend s c m r (if d.stream then 0x03 else 0x02) h
          (if whole then none else some x.2) [x.1] (.piece (BitVec.ofNat 8 t))) c t poison true, some (.remote r))
      | none => none
    | _ => faults

/-- Port, or 2 + port, that a piece at destination address `a` goes through. -/
def State.destPort (s : State) (c : Nat) (d : Desc) (a : Nat) : Option Nat :=
  if d.dstSpace ≠ 0 then some (d.dstSpace - 1)
  else match s.place c a with
    | .window p _ => some (2 + p)
    | _ => none

/-- In ordered mode a piece follows the pieces in flight (R178): they are performed, or are posted writes on the same port as it, which keep their
order as flag writes (R260). -/
def DescRun.inOrder (r : DescRun) (q : Option Nat) : Bool :=
  r.flight.all (fun f => match f.wait with
    | .host p => q == some p
    | .flushing p => q == some p
    | _ => false)

/-! ### Issuing a piece (R177, R184) -/

def modRun (s : State) (c t idx : Nat) (f : DescRun → DescRun) : State :=
  s.modTag c t (fun x => { x with runs := x.runs.map (fun r => if r.idx = idx then f r else r) })

/-- The unit's piece `col` of `n` is done: the next piece, the next unit, or the descriptor is issued. -/
def advanceRun (s : State) (c t : Nat) (r : DescRun) (n : Nat) : State :=
  let d : Desc := r.words
  moverFlush (modRun s c t r.idx (fun r =>
    if r.col + 1 < n then { r with col := r.col + 1 }
    else { r with row := r.row + 1, col := 0, index := none, issued := decide (d.units ≤ r.row + 1) })) c t false

/-- The gather index of the row that `r` has reached (R172, R556): read once, as the mover reaches the row; none while it is not at hand. -/
def gatherIndex (s : State) (c t : Nat) (r : DescRun) : State × Option GatherIx :=
  let d : Desc := r.words
  let keep (s : State) (x : GatherIx) : State × Option GatherIx := (modRun s c t r.idx (fun r => { r with index := some x }), some x)
  if d.xform ≠ 5 then (s, some (.row 0))
  else match r.index with
    | some x => (s, some x)
    | none =>
      match fetchBytes s c t ((d.aux + 4 * (r.row % d.groups)) % 2 ^ 64) 4 with
      | (s1, .later) => (s1, none)
      | (s1, .fault a) => keep (tagAddrErr s1 c t (errAddr s1 a)) .skip
      | (s1, .got v poison) => keep s1 (if poison then .poison else if v = 0xFFFFFFFF then .skip else .row v)

/-- One piece of the descriptor `r` issues, once its source is at hand; the Bool says that it did. A poisoned index names no source: the piece is
written poisoned, its data zero (R556). -/
def runPiece (s : State) (c t : Nat) (r : DescRun) : State × Bool :=
  let d : Desc := r.words
  match gatherIndex s c t r with
  | (s1, none) => (s1, false)
  | (s1, some .skip) => (advanceRun s1 c t r 0, false)
  | (s1, some x) =>
    let ps := d.pairs r.row (match x with | .row i => i | _ => 0)
    let gs := s.granules c d ps
    let g := gs.getD r.col 0
    let mine := ps.filter (fun p => s.granOf c d.dstSpace p.1 == g)
    let first := (mine.headD (0, 0)).1
    if d.ordered && !r.inOrder (s.destPort c d first) then (moverFlush s1 c t true, false) else
    let srcs := mine.map (fun p => (if x == .poison then SrcPlace.bad else s.srcPlace c d.srcSpace p.2, p.2))
    let keys := lineKeys (srcs.map (·.1))
    let w := wantLines s1 c t keys d.stream
    if !w.2 then (w.1, false) else
    let s2 := decodeSrc w.1 (srcs.map (·.1))
    let bs := if x == .poison then srcs.map (fun _ => ((0 : Byte), true)) else srcs.map (fun y => s2.srcByte c t y.1 y.2)
    let s3 := match (if x == .poison then none else srcs.find? (fun y => y.1 == .bad)) with
      | some y => tagAddrErr s2 c t (if d.srcSpace = 0 then errAddr s2 y.2 else y.2)
      | none => s2
    let n := s.granSize c d.dstSpace first
    match writePiece s3 c t d g n first (imageOf (g * n) n ((mine.map (·.1)).zip (bs.map (·.1)))) (bs.any (·.2)) with
    | none => (s3, false)
    | some (s4, wait) =>
      let s5 := match wait with
        | some w => modRun s4 c t r.idx (fun r => { r with flight := r.flight ++ [⟨mine.length, w⟩] })
        | none => s4
      (advanceRun (dropLines s5 c t keys) c t r gs.length, true)

/-- The next piece of tag `t`, of its first descriptor that has one left; the Bool says that it issued. -/
def tagPiece (s : State) (c t : Nat) : State × Bool :=
  let x := (s.core c).tag t
  if !x.out || x.stopped || (s.core c).moverStopped then (s, false)
  else match x.runs.find? (fun r => !r.issued) with
    | some r => runPiece s c t r
    | none => (s, false)

/-- The tags that come before `t` in the rotation, from the one after the tag that issued last. -/
def Core.before (k : Core) (t : Nat) : List Nat :=
  ((List.range 256).map (fun i => (k.mvLast + 1 + i) % 256)).takeWhile (· != t)

/-- PIECE_ISSUE: the next piece of the tag in rotation, one piece at a time (R184). Tags that cannot issue a piece now are passed over (DESIGN
CHOICE, log 94). -/
def pieceIssue (s : State) (c t : Nat) : State :=
  let r := tagPiece s c t
  if !r.2 then r.1
  else if ((s.core c).before t).any (fun u => ((s.core c).tag u).out && (tagPiece s c u).2) then s
  else r.1.modCore c (fun k => { k with mvLast := t })

/-! ### Acknowledgements -/

/-- The first flight whose wait `p` accepts becomes `g` of it, or goes. -/
def settleOne (p : PieceWait → Bool) (g : Flight → Option Flight) : List Flight → List Flight
  | [] => []
  | f :: l => if p f.wait then (g f).toList ++ l else f :: settleOne p g l

def settleRuns (p : PieceWait → Bool) (g : Flight → Option Flight) : List DescRun → List DescRun
  | [] => []
  | r :: l => if r.flight.any (fun f => p f.wait) then { r with flight := settleOne p g r.flight } :: l else r :: settleRuns p g l

/-- A piece that was applied. -/
def Flight.applied (f : Flight) : Option Flight := some { f with wait := .ready }

/-- A mover write to line `l` is acknowledged by its home; a refused one is a failed write that writes no byte and still counts as performed
(R475). -/
def moverDone (s : State) (c : Nat) (l : LineNo) (refused : Bool) : State :=
  let has (w : PieceWait) : Bool := w == .line l
  match (s.core c).tags.find? (fun e => e.2.runs.any (fun r => r.flight.any (fun f => has f.wait))) with
  | some e =>
    let g (f : Flight) : Option Flight := if refused then some ⟨0, .ready⟩ else f.applied
    let s1 := s.modTag c e.1 (fun x => { x with runs := settleRuns has g x.runs })
    if refused then moverFailed s1 c 1 else s1
  | none => s

/-- The remote tag of a piece of tag `t` is freed; `bad`: it was refused, which is an address error (R411); `lost`: partner loss. Neither was
performed. -/
def moverRemote (s : State) (c t n mpa : Nat) (refused lost : Bool) : State :=
  let g (f : Flight) : Option Flight := if refused || lost then none else f.applied
  let s1 := s.modTag c t (fun x => { x with runs := settleRuns (fun w => w == .remote n) g x.runs, lost := x.lost || lost })
  if refused then tagAddrErr s1 c t mpa else s1

/-- The flush read on port `p` completes: the pieces sent through it before, to host memory or (2 + p) through a window, are performed. A failed
one ends the tag HOST_FAULT (R171); a window request that fails counts as REMOTE_LOST (R414). -/
def moverFlushed (s : State) (c t p : Nat) (ok : Bool) : State :=
  let has (q : Nat) : Bool := ((s.core c).tag t).runs.any (fun r => r.flight.any (fun f => f.wait == .flushing q))
  let mine (f : Flight) : Bool := f.wait == .flushing p || f.wait == .flushing (2 + p)
  let settle (l : List Flight) : List Flight :=
    if ok then l.map (fun f => if mine f then { f with wait := .ready } else f) else l.filter (fun f => !mine f)
  let s1 := s.modTag c t (fun x =>
    { x with flush := x.flush.filter (fun q => q != p), runs := x.runs.map (fun r => { r with flight := settle r.flight }) })
  if ok then moverFlush s1 c t false
  else
    let s2 := if has (2 + p) then
      (moverFailed (s1.modTag c t (fun x => { x with lost := true })) c 3).setFlag (Reg.CORE_REMOTE c) Fld.CORE_REMOTE_lost true else s1
    if has p then endList s2 c t 6 else moverFlush s2 c t false

/-- A read of source line `key` of tag `t` through a host port returns (R171, R380): its data, or a failure, which ends the tag HOST_FAULT, or
REMOTE_LOST through a window (R414). -/
def moverSource (s : State) (c t key : Nat) (ld : Option LineData) : State :=
  match ld with
  | some x => s.modCore c (fun k => { k with mvBuf := mvFill (fun y => y.tag == t) key x k.mvBuf })
  | none =>
    if (keyPort key).getD 0 < 2 then sourceLost s c t key 6
    else sourceLost (s.setFlag (Reg.CORE_REMOTE c) Fld.CORE_REMOTE_lost true) c t key 5

/-- PIECE_PERFORMED: one acknowledged piece counts as performed. -/
def takeReady : List Flight → Option (Nat × List Flight)
  | [] => none
  | f :: l => if f.wait = .ready then some (f.bytes, l) else (takeReady l).map (fun x => (x.1, f :: x.2))

def takeReadyRun : List DescRun → Option (Nat × List DescRun)
  | [] => none
  | r :: l => match takeReady r.flight with
    | some (n, fl) => some (n, { r with flight := fl } :: l)
    | none => (takeReadyRun l).map (fun x => (x.1, r :: x.2))

def piecePerformed (s : State) (c t : Nat) : State :=
  match takeReadyRun ((s.core c).tag t).runs with
  | some (n, runs) =>
    let s1 := s.modTag c t (fun x => { x with runs := runs, word := stPieces.put x.word (min (stPieces.get x.word + 1) 0xFFFFFFFF) })
    s1.setReg (Reg.CORE_MV_BYTES c) (s1.reg (Reg.CORE_MV_BYTES c) + BitVec.ofNat 64 n)
  | none => s

/-! ### Final status (R180, R181) -/

/-- The commit point has been reached: the final piece of the last descriptor has been issued. -/
def TagSt.committed (x : TagSt) : Bool := x.lastRead && x.runs.all (·.issued)

/-- No piece is in flight. -/
def TagSt.quiet (x : TagSt) : Bool := x.runs.all (fun r => r.flight.isEmpty) && x.flush.isEmpty

/-- The status that the tag reaches now, if it does. An error that ends its list comes before ABORTED, and either before a partner loss that one
of its pieces met (DESIGN CHOICE, log 38: R180 gives no order among them). -/
def TagSt.final (x : TagSt) : Option (BitVec 8) :=
  if !x.out || !x.quiet then none
  else match x.ended with
    | some e => if x.stopped || x.runs.all (·.issued) then some e else none
    | none => if x.abort == 2 then some 2 else if x.committed then some (if x.lost then 5 else 1) else none

/-- Event source of a core's mover completion (Table 16-1). -/
def mvSource (c : Nat) : Nat := coreHalf c * 160 + c / 16 % 16 * 10 + coreSlot c

/-- The tag stops being outstanding with its final status; the wake flag and the event follow in the same cycle (R180). -/
def finishTag (s : State) (c t : Nat) (code : BitVec 8) : State :=
  let x := (s.core c).tag t
  let s1 := s.modTag c t (fun x => { x with word := stCode.put x.word code.toNat, out := false, runs := [], ended := none, lost := false })
  let s2 := s1.modCore c (fun k => { k with
    mvBuf := k.mvBuf.filter (fun y => y.tag != t)
    wf := if x.wakeEn then k.wf ||| BitVec.ofNat 16 (2 ^ x.wake.toNat) else k.wf })
  let r := Reg.CORE_MV_STATE c
  let s3 := (s2.put r Fld.CORE_MV_STATE_last_tag t).put r Fld.CORE_MV_STATE_last_status code.toNat
  let s4 := if x.poisonOut then markPoisoned s3 c else s3
  let s5 := if code = 5 then moverFailed s4 c 2 else if code = 6 then moverFailed s4 c 4 else s4
  if x.evt then raiseEdge s5 (coreDie c) (mvSource c) else s5

/-- A ledger entry recorded for the tag still waits (R317). -/
def State.tagWaits (s : State) (c t : Nat) : Bool :=
  match (s.core c).leg with
  | some g => s.sched.ledger.any (fun e => e.car == g.car && e.core == c && e.mvTag == some (BitVec.ofNat 8 t) && e.st == .waiting)
  | none => false

/-- No read of a source line for the tag is outstanding. -/
def Core.sourcesIn (k : Core) (t : Nat) : Bool := k.mvBuf.all (fun y => y.tag != t || y.d.isSome)

def moverFinal (s : State) (c t : Nat) : State :=
  match ((s.core c).tag t).final with
  | some code => if s.tagWaits c t || !(s.core c).sourcesIn t then s else finishTag s c t code
  | none => s

/-- The mover receives the abort of a tag: in time before the commit point, else too late (R181). -/
def abortReceive (s : State) (c t : Nat) : State :=
  let x := (s.core c).tag t
  if x.abort ≠ 1 || !x.out then s
  else moverFlush (s.modTag c t (fun x => { x with abort := if x.committed then 3 else 2 })) c t false

/-- A MOVE that names tag `t` (any tag where `all`) is still queued. -/
def Core.moveQueued (k : Core) (t : Nat) (all : Bool) : Bool :=
  k.mvq.any (fun q => match q.ins with | .move _ f => all || f.tag.toNat == t | _ => false)

/-- A tag is outstanding. -/
def Core.anyOut (k : Core) : Bool := k.tags.any (fun e => e.2.out)

/-! ### The commands -/

/-- ENGINE_INSTRUCTION_START (R84); the mover's instructions start as MOVE_START has it. -/
def execEngineInstructionStart (c : CoreId) (e : Engine) (s : State) : Result :=
  .next (match e with
    | .mv => moveStart s c.toNat
    | _ => engineStart s c.toNat e)

/-- MOVE_START (R165). -/
def execMoveStart (c : CoreId) (s : State) : Result := .next (moveStart s c.toNat)

/-- DESCRIPTOR_START (R173). -/
def execDescriptorStart (c : CoreId) (tag : BitVec 8) (s : State) : Result := .next (descStep s c.toNat tag.toNat)

/-- PIECE_PERFORMED (R180). -/
def execPiecePerformed (c : CoreId) (tag : BitVec 8) (s : State) : Result := .next (piecePerformed s c.toNat tag.toNat)

/-- MOVER_FINAL_STATUS (R180). -/
def execMoverFinalStatus (c : CoreId) (tag : BitVec 8) (s : State) : Result := .next (moverFinal s c.toNat tag.toNat)

/-- MWAIT (R110). -/
def execMwait (c : CoreId) (pg : BitVec 3) (sd : BitVec 5) (tag : BitVec 8) (all : Bool) (s : State) : Result :=
  .next (issue s c (.mwait c pg sd tag all) pg [] (fun s =>
    let k := s.core c.toNat
    if k.moveQueued tag.toNat all || (if all then k.anyOut else (k.tag tag.toNat).out) then hold s c.toNat (.mwait c pg sd tag all)
    else advance (setS s c.toNat sd.toNat (k.tag tag.toNat).word) c.toNat))

/-- MABORT (R181). -/
def execMabort (c : CoreId) (pg : BitVec 3) (sd : BitVec 5) (tag : BitVec 8) (s : State) : Result :=
  .next (issue s c (.mabort c pg sd tag) pg [] (fun s =>
    let k := s.core c.toNat
    let t := tag.toNat
    let x := k.tag t
    let wait (s : State) : State := hold s c.toNat (.mabort c pg sd tag)
    let late (s : State) : State := advance (setS (s.modTag c.toNat t (fun x => { x with abort := 0 })) c.toNat sd.toNat (stCode.put x.word 3)) c.toNat
    if k.moveQueued t true then wait s
    else if !x.used then advance (setS s c.toNat sd.toNat 0) c.toNat
    else if x.out then
      if x.abort = 3 then late s
      else if x.abort = 0 then wait (s.modTag c.toNat t (fun x => { x with abort := 1 }))
      else wait s
    else if x.abort = 2 then advance (setS (s.modTag c.toNat t (fun x => { x with abort := 0 })) c.toNat sd.toNat x.word) c.toNat
    else late s))

/-- MOVER_ABORT_RECEIVE (R181). -/
def execMoverAbortReceive (c : CoreId) (tag : BitVec 8) (s : State) : Result := .next (abortReceive s c.toNat tag.toNat)

end Sys2Proof.Machine
end

