-- ==== Sys2Proof/Machine/Leg.lean ====
section
/-!
DEFINITION. What a leg does to a core: its start (R79, R81, R132, R302), the waits of FENCE, REL and the end of a part (R95, R256),
the acquire (R257, R258), suppressed releases (R476), barrier phases (R105, R96), the end of a part, and an abort (R288).
-/
namespace Sys2Proof.Machine

/-! ### The cores of a caravan -/

/-- The in-service cores of a leg's rows, ascending (R79). -/
def State.legCores (s : State) (rows : BitVec 256) : List Nat :=
  allCores.filter (fun c => bit rows.toNat (coreRow c) && s.inService c)

/-- The cores of a caravan with the index of their leg. -/
def State.carCores (s : State) (v : Caravan) : List (Nat × Nat) :=
  v.legs.zipIdx.flatMap (fun x => (s.legCores x.1.rows).map (fun c => (x.2, c)))

/-- Core `c` runs a leg of caravan `k`. -/
def State.inCar (s : State) (k c : Nat) : Bool := match (s.core c).leg with | some g => g.car == k | none => false

/-- Every core of the caravan has ended its part: its commit point has passed (R288). -/
def State.committed (s : State) (v : Caravan) : Bool := (s.carCores v).all (fun x => v.last.contains x.2)

def State.modCar (s : State) (k : Nat) (f : Caravan → Caravan) : State :=
  { s with sched := { s.sched with cars := s.sched.cars.map (fun v => if v.id = k then f v else v) } }

def State.carOf (s : State) (k : Nat) : Option Caravan := s.sched.cars.find? (fun v => v.id == k)

/-! ### Clearing a core (R139, R301, R302) -/

/-- Steps 2 and 3 of R301: every array of the core becomes zero and every poison mark is cleared. -/
def clearArrays (s : State) (c : Nat) : State :=
  let inside (a : Nat) : Bool := scrBase c ≤ a && a < scrBase c + 0x100000
  let s1 : State := { s with
    mem := s.mem.filter (fun x => !inside x.1), poison := s.poison.filter (fun a => !inside a),
    stk := { s.stk with bad := s.stk.bad.filter (fun e => !inside e.1) } }
  let s2 := s1.modCore c (fun k => { k with oc := [], ocMark := [], acc0 := [], acc1 := [] })
  (s2.setReg (Reg.CORE_ME_POISON0 c) 0).setReg (Reg.CORE_ME_POISON1 c) 0

/-- Step 4 of R301: sequencer registers, token counters, wake flags, barrier state and CORE_ADDR_ERR become zero. -/
def clearSeq (s : State) (c : Nat) : State :=
  let s1 := s.modCore c (fun k => { k with s := [], p := 0, m := [], toks := [], wf := 0, bars := [], barWait := none })
  (s1.setReg (Reg.CORE_ADDR_ERR c) 0).setReg (Reg.CORE_ADDR_ERR_FIRST c) 0

/-- The L1 writes back its dirty lines and invalidates every line, each offered as a victim (R301, Tables 8-7 and 11-1). -/
def l1Flush (s : State) (c : Nat) : State := forEach ((s.core c).l1.map (·.1)) s (fun s i => l1Offer s c i)

/-- A slot is prepared for the partition that receives its row (R301, steps 1 to 4). -/
def prepareSlot (s : State) (c : Nat) : State :=
  (clearSeq (clearArrays (icFlush (l1Flush s c) c) c) c).modCore c (fun k => { k with lastInst := none, phase := .idle })

/-! ### Starting a leg (R79) -/

/-- The registers of the core's page that a leg start sets (R112, R114, R136, R164, R185, R420, R484). -/
def legRegs (s : State) (c : Nat) : State :=
  let s1 := ((s.setReg (Reg.CORE_FAULT c) 0).put (Reg.CORE_ADDR_ERR c) Fld.CORE_ADDR_ERR_count 0).setFlag (Reg.CORE_ADDR_ERR c)
    Fld.CORE_ADDR_ERR_first_valid false
  let s2 := ((s1.setReg (Reg.CORE_STALL c) 0).setReg (Reg.CORE_ME_STATE c) (Reg.resetVal (Reg.CORE_ME_STATE c))).setReg
    (Reg.CORE_VE_STATUS c) 0
  ((s2.put (Reg.CORE_MV_STATE c) Fld.CORE_MV_STATE_last_status 0).setFlag (Reg.CORE_REMOTE c) Fld.CORE_REMOTE_lost false).setReg
    (Reg.CORE_ERR c) 0

/-- The mask registers all ones. -/
def onesMasks : List (Nat × W64) := (List.range 8).map (fun n => (n, BitVec.allOnes 64))

/-- A core begins its part of a leg. -/
def beginLeg (s : State) (c : Nat) (g : Leg) (x : LegRec) : State :=
  let old := (s.core c).lastInst
  let scrub := s.flag (Reg.PRT_DESC g.part.val) Fld.PRT_DESC_scrub && old.isSome && old != some g.inst
  let s1 := if scrub then clearSeq (clearArrays s c) c else s
  let s2 := legRegs (wsdReset (icFlush s1 c) c) c
  let s3 := s2.modCore c (fun k => { k with
    phase := .run, ended := false, held := false, pc := x.entry.setWidth 52 &&& ~~~7#52,
    s := [], p := 0, m := onesMasks, toks := [], wf := 0, bars := [], barWait := none, pend := [], leg := some g,
    fails := [], bufA := OpBuf.empty, bufB := OpBuf.empty, tags := [], mvBuf := [], ledReg := [], remRead := [], winPorts := [], winLines := [],
    barFail := [], ann := [], escaped := false })
  faultLevel (s3.modCore c (fun k => ((k.setSr 1 x.binding).setSr 2 (BitVec.ofNat 64 g.rank)).setSr 3 (BitVec.ofNat 64 g.size))) (coreDie c)

/-! ### Performed accesses (R253, Table 9-3) -/

/-- No started engine instruction of the core has an access outstanding, and no sequencer access is. -/
def Core.accessesDone (k : Core) : Bool :=
  k.meRun.isEmpty && k.veRun.isEmpty && k.loads.all (·.far) && k.miss.all (fun m => m.accs.isEmpty) && k.wsd.bufs.isEmpty &&
    k.swrOut.isEmpty && k.raddOut.isEmpty

/-- Earlier-issued matrix and vector instructions have left their queues. -/
def Core.queuesDone (k : Core) : Bool := k.meq.isEmpty && k.veq.isEmpty

/-- A release at T5 waits for the request: a write, AMO or RADD of the sequencer. -/
def RemReq.waited (r : RemReq) : Bool :=
  match r.kind with
  | .read .. => false
  | .write .. => true
  | .amo .. => true
  | .radd => true
  | .piece _ => false
  | .pieceRead .. => false

/-- Requests outstanding at a port for `what`. -/
def State.asked (s : State) (what : HostFor → Bool) : Bool :=
  (s.host.p0.reqs ++ s.host.p1.reqs).any (fun r => what r.what)

/-- Every earlier remote load of the core's sequencer has returned, every write, AMO and RADD is acknowledged, and no ledger entry of its
caravan waits (R103, R256, R318). -/
def State.remoteDone (s : State) (c : Nat) : Bool :=
  let k := s.core c
  k.loads.isEmpty && k.remote.all (fun r => !r.waited) &&
    s.sched.ledger.all (fun e => !(e.core == c && e.st == .waiting && s.inCar e.car c))

/-- Dirty data that the core's L1 wrote back is on its way to its home: CACHE INV and CLEAN are covered by a later release (R101). -/
def State.writingBack (s : State) (c : Nat) : Bool :=
  s.net.any (fun m => m.src == epCore c && (match m.body with | .victD _ => true | .cleanD _ => true | _ => false))

/-- The wait of Table 9-3 at T0 to T4, or at T5 and wider. -/
def State.performed (s : State) (c tier : Nat) : Bool :=
  (s.core c).accessesDone && (s.core c).queuesDone && !s.writingBack c && (tier < 5 || s.remoteDone c)

/-- Flush reads leave for the ports that window writes used since the last one (R256). -/
def flushWindows (s : State) (c : Nat) : State :=
  (forEach (s.core c).winPorts s (fun s x => hostFlush s x.1 (some x.2) (.flush c))).modCore c (fun k => { k with
    winPorts := [], winLines := [] })

def State.flushing (s : State) (c : Nat) : Bool := s.asked (fun w => match w with | .flush x => x == c | _ => false)

/-- The whole wait of a release at `tier`: the state with what the wait sends (line buffers, flush reads), and whether it is over. -/
def releaseWait (s : State) (c tier : Nat) : State × Bool :=
  let s1 := wsdFlush s c
  if !s1.performed c tier then (s1, false)
  else if tier < 6 then (s1, true)
  else if (s1.core c).winPorts.isEmpty then (s1, !s1.flushing c)
  else if (s1.core c).winPorts.all (fun x => s1.portRoom x.1 1) then (flushWindows s1 c, false)
  else (s1, false)

/-! ### Releases (R476) -/

/-- A failed write of the core is one that a release at `tier` waits for. -/
def Core.failedWithin (k : Core) (tier : Nat) : Bool :=
  k.fails.any (fun x => x == 1 || (x == 2 && 5 ≤ tier) || (x == 3 && 6 ≤ tier))

/-- A release of the core is suppressed; the first of the leg is recorded. -/
def suppress (s : State) (c : Nat) : State :=
  let r := Reg.CORE_ERR c
  if s.flag r Fld.CORE_ERR_rel_blocked then s
  else
    let pc := (s.core c).pc.toNat
    let s1 := (s.setFlag r Fld.CORE_ERR_rel_blocked true).put r Fld.CORE_ERR_pc pc
    let g := (s.core c).leg
    errRecord s1 (coreDie c) { ErrRec.plain 2 0x061 1 c 0 with part := g.map (fun g => g.part.val), inst := g.map (fun g => g.inst.val), detail := pc }

def countRel (s : State) (c : Nat) : State := s.count (Reg.CORE_SYNC_REL c)

/-! ### Acquire (R257, R258) -/

/-- An UPG of the core's L1 is in flight. -/
def Core.upgInFlight (k : Core) : Bool := k.miss.any (·.upg)

/-- Steps 2 and 3 of R257. -/
def acquire (s : State) (c : Nat) : State :=
  let s1 := s.modCore c (fun k =>
    let k1 := (k.l1.map (·.1)).foldl (fun k i => match k.l1At i with | some x => if x.st == .s then k.setL1 i none else k | none => k) k
    { k1 with miss := k1.miss.map (fun m => if m.own then m else { m with once := true }) })
  let e := s1.dieEpoch (coreDie c) + 1
  ((s1.setReg (Reg.DIR_ACQ_EPOCH (coreDie c)) e).setReg (Reg.CORE_SYNC_EPOCH c) e).count (Reg.CORE_SYNC_ACQ c)

/-! ### Barriers (R105, R96) -/

/-- The unit of core `c` at a barrier scope. -/
def barUnit (scope c : Nat) : Nat := if scope = 1 then c / 16 else if scope = 3 then c / 512 else 0

/-- The members of a barrier of core `c`: its leg's cores within its unit. -/
def State.barMembers (s : State) (c scope : Nat) : List Nat :=
  match (s.core c).leg with
  | none => []
  | some g => (s.cores.map (·.1)).filter (fun x => barUnit scope x == barUnit scope c &&
      (match (s.core x).leg with | some h => h.car == g.car && h.ix == g.ix | none => false))

def Core.bar (k : Core) (key : Nat) : Bool × Bool := mapGet (fun _ => (false, false)) k.bars key

def Core.setBar (k : Core) (key : Nat) (v : Bool × Bool) : Core := { k with bars := mapSet (fun _ => (false, false)) k.bars key v }

/-- The phase completes when every member has arrived or ended; a failed phase marks every member that completes it (R476). -/
def barCheck (s : State) (c scope id : Nat) : State :=
  let key := barKey scope id
  let ms := s.barMembers c scope
  if ms.any (fun x => (s.core x).barArrived key) && ms.all (fun x => (s.core x).barArrived key || (s.core x).ended) then
    let failed := ms.any (fun x => (s.core x).barFail.contains key)
    forEach ms s (fun s x =>
      let arrived := (s.core x).barArrived key
      let s1 := s.modCore x (fun k => { k.setBar key (false, !(k.bar key).2) with barFail := setDel k.barFail key })
      if failed && arrived then writeFailed s1 x 5 else s1)
  else s

/-- Every barrier that core `c` is a member of is looked at again. -/
def barCheckAll (s : State) (c : Nat) : State :=
  forEach [1, 3, 4] s (fun s scope => forEach [0, 1, 2, 3] s (fun s id => barCheck s c scope id))

/-! ### The end of a part (R93, R95) -/

/-- The core's part of the leg ends once its three conditions hold. -/
def partEnd (s : State) (c : Nat) : State :=
  let k := s.core c
  if k.ended || k.leg.isNone || !(k.phase == .stopped || k.phase == .faulted) then s
  else if !(k.mvq.isEmpty && !k.anyOut) then wsdFlush s c
  else
    let w := releaseWait s c 6
    if !w.2 then w.1
    else
      let s1 := w.1.modCore c (fun k => { k with ended := true })
      let s2 := match k.leg with
        | some g => s1.modCar g.car (fun v => { v with last := setIns v.last c })
        | none => s1
      barCheckAll s2 c

/-- A core of an aborted caravan stops: its queued instructions are discarded and its outstanding tags are aborted (R288). -/
def abortCore (s : State) (c : Nat) : State :=
  s.modCore c (fun k =>
    if k.ended then k else { k with
      phase := if k.phase == .faulted then .faulted else .stopped, held := false, barWait := none, meq := [], veq := [], mvq := [],
      tags := k.tags.map (fun e => if e.2.out && e.2.abort == 0 then (e.1, { e.2 with abort := 1 }) else e) })

/-- A core of a caravan that has ended holds no leg any more. -/
def freeCore (s : State) (c : Nat) : State :=
  s.modCore c (fun k => { k with
    phase := if k.phase == .faulted then .faulted else .idle, ended := false, held := false, leg := none, ann := [],
    lastInst := match k.leg with | some g => some g.inst | none => k.lastInst })

/-! ### The commands -/

/-- LEG_PART_END (R95). -/
def execLegPartEnd (c : CoreId) (s : State) : Result := .next (partEnd s c.toNat)

end Sys2Proof.Machine
end

