-- ==== Sys2Proof/Machine/Sched.lean ====
section
/-!
DEFINITION. What the frame scheduler's commands share: partitions and instances (R294-R297, R310), rows that caravans hold (R283), the
end of a caravan with its receipt (R288-R290, R318, R444), and the commit-point rule (R287, R288).
-/
namespace Sys2Proof.Machine

/-! ### Partitions and instances -/

def State.part (s : State) (p : Nat) : PartSt := mapGet (fun _ => PartSt.empty) s.sched.parts p

def State.modPart (s : State) (p : Nat) (f : PartSt → PartSt) : State :=
  { s with sched := { s.sched with parts := mapSet (fun _ => PartSt.empty) s.sched.parts p (f (s.part p)) } }

def State.instRd (s : State) (i : Nat) : InstRd := mapGet (fun _ => InstRd.empty) s.sched.insts i

def State.modInst (s : State) (i : Nat) (f : InstRd → InstRd) : State :=
  { s with sched := { s.sched with insts := mapSet (fun _ => InstRd.empty) s.sched.insts i (f (s.instRd i)) } }

/-- A row mask held in four registers. -/
def State.rowMask (s : State) (f : Nat → Nat → Nat) (p : Nat) : Nat :=
  (List.range 4).foldl (fun acc n => acc + (s.reg (f p n)).toNat * 2 ^ (64 * n)) 0

/-- The rows of a partition, and those reserved for LC (R295, R296). -/
def State.rowsOf (s : State) (p : Nat) : Nat := s.rowMask Reg.PRT_ROWS p
def State.lcRowsOf (s : State) (p : Nat) : Nat := s.rowMask Reg.PRT_LCROWS p

/-- PRT_DESC(p).state: 0 FREE, 1 ACTIVE, 2 HOLDING, 3 QUIESCENT, 4 LOADING. -/
def State.partState (s : State) (p : Nat) : Nat := s.get (Reg.PRT_DESC p) Fld.PRT_DESC_state
def setPartState (s : State) (p v : Nat) : State := s.put (Reg.PRT_DESC p) Fld.PRT_DESC_state v
def State.partHeld (s : State) (p : Nat) : Bool := s.flag (Reg.PRT_DESC p) Fld.PRT_DESC_hold

def State.share (s : State) (p : Nat) : Nat := s.get (Reg.PRT_DESC p) Fld.PRT_DESC_share

/-- Save levels of a partition (Table 11-8: 0 encodes 8). -/
def State.levels (s : State) (p : Nat) : Nat :=
  let v := s.get (Reg.PRT_DESC p) Fld.PRT_DESC_levels
  if v = 0 then 8 else v

/-- The guaranteed clock in use: the one of the latest tick, else the partition's own (R280, R297). -/
def State.fgNow (s : State) (p : Nat) : Nat :=
  if s.share p = 0 || (s.part p).fg = 0 then s.get (Reg.PRT_DESC p) Fld.PRT_DESC_fg_mhz else (s.part p).fg

def State.instPart (s : State) (i : Nat) : Nat := s.get (Reg.PRT_INST i) Fld.PRT_INST_partition
def State.instBound (s : State) (i : Nat) : Bool := s.flag (Reg.PRT_INST i) Fld.PRT_INST_bound
def State.instPort (s : State) (i : Nat) : Nat := s.get (Reg.PRT_INST i) Fld.PRT_INST_port
def State.instPasid (s : State) (i : Nat) : BitVec 20 := BitVec.ofNat 20 (s.get (Reg.PRT_INST i) Fld.PRT_INST_pasid)
def State.tdiState (s : State) (i : Nat) : Nat := s.get (Reg.MBX_ID i) Fld.MBX_ID_tdi_state

/-! ### Save areas (R310) -/

/-- The save area of core `c` of partition `p` at level `d`. -/
def State.saveArea (s : State) (p d c : Nat) : Nat :=
  let die := coreDie c
  let x := s.rowsOf p / 2 ^ (32 * die) % 2 ^ 32
  let n := popCount 32 x
  let j := popCount (coreRow c % 32) x
  s.get (Reg.PRT_SAVE p die) Fld.PRT_SAVE_base_gib * 2 ^ 30 + ((d * n + j) * 10 + coreSlot c) * 0x111000

/-! ### Rows that caravans hold (R283) -/

def Caravan.rows (v : Caravan) : Nat := v.legs.foldl (fun acc g => acc ||| g.rows.toNat) 0

/-- The caravan has started. -/
def Caravan.started (v : Caravan) : Bool := v.level.isSome

/-- The caravan holds core state outside a save area. -/
def Caravan.onCores (v : Caravan) : Bool :=
  v.phase == .running || v.phase == .saving || v.phase == .restoring || (v.phase == .held && v.started)

/-- The rows on which some caravan other than `k` holds core state. -/
def State.busyRows (s : State) (k : Nat) : Nat :=
  s.sched.cars.foldl (fun acc v => if v.onCores && v.id != k then acc ||| v.rows else acc) 0

/-- The rows of partition `p` on which an LC caravan has still to run. -/
def State.lcPending (s : State) (p : Nat) : Nat :=
  s.sched.cars.foldl (fun acc v => if v.lc && v.part.val == p then acc ||| v.rows else acc) 0

/-- Every row of the caravan is free: for BE also of LC work that remains in the frame. -/
def State.rowsFree (s : State) (v : Caravan) : Bool :=
  v.rows &&& (s.busyRows v.id ||| (if v.lc then 0 else s.lcPending v.part.val &&& s.lcRowsOf v.part.val)) == 0

/-- Instance `i` may have its caravans admitted and started in its partition: it owns, or nobody does (R306). -/
def State.ownLets (s : State) (i : Nat) : Bool :=
  let p := s.instPart i
  !(s.part p).ownEff || s.get (Reg.PRT_OWN p) Fld.PRT_OWN_instance == i

/-- LC caravans run one at a time, in admission order (R282); saved ones of an instance that another one's ownership shuts out are
passed over. -/
def State.lcTurn (s : State) (v : Caravan) : Bool :=
  (s.part v.part.val).lcq.find? (fun k => match s.sched.cars.find? (fun w => w.id == k) with
    | some w => !(w.phase == .saved && !s.ownLets w.inst.val)
    | none => false) == some v.id

/-- Every core of a caravan with its leg: index, rank and size (R79). -/
def State.carLegs (s : State) (v : Caravan) : List (Nat × Leg × LegRec) :=
  v.legs.zipIdx.flatMap (fun x =>
    let cs := s.legCores x.1.rows
    cs.zipIdx.map (fun y => (y.1, ⟨v.id, x.2, y.2, cs.length, v.part, v.inst, v.lc⟩, x.1)))

/-- Cores execute: RUN or IDLE, and no coolant halt (Tables 17-1 and 17-2, R453). -/
def State.coresGo (s : State) : Bool := s.get Reg.PWR_STATE Fld.PWR_STATE_state < 2 && !s.pwr.halt

/-! ### Times -/

/-- Elapsed time from start, without held intervals, ns (R285, Table 10-4). -/
def State.elapsedNow (s : State) (v : Caravan) : Nat :=
  if v.started && (v.phase == .running || !v.lc) then v.elapsed + (s.now - v.since) else v.elapsed

/-- Elapsed time times fg, in thousandths of a cycle. -/
def State.milliCycles (s : State) (v : Caravan) : Nat := s.elapsedNow v * s.fgNow v.part.val

def State.cyclesNow (s : State) (v : Caravan) : Nat := s.milliCycles v / 1000

/-- Length of the frame in progress, ns (R269, R271). -/
def State.frameNs (s : State) : Nat := ((s.sched.len * 1000 : Nat) + s.sched.slew : Int).toNat

/-! ### Status at the end (R290, R476) -/

/-- What a save keeps of core `c` beside its save area. -/
def State.keepOf (s : State) (c : Nat) : CoreKeep :=
  let k := s.core c
  ⟨c, s.reg (Reg.CORE_ERR c), s.reg (Reg.CORE_FAULT c), k.fails, k.barFail, s.flag (Reg.CORE_REMOTE c) Fld.CORE_REMOTE_lost, k.escaped, k.phase,
    k.barWait, (k.meq ++ k.veq ++ k.mvq).map (fun q => (q.pc, q.m2)), k.winPorts, k.winLines, k.ann⟩

/-- What is known of each core of the caravan: CORE_ERR, CORE_FAULT, failed writes, lost requests. -/
def State.keeps (s : State) (v : Caravan) : List CoreKeep :=
  (s.carCores v).filterMap (fun x =>
    let c := x.2
    if s.inCar v.id c then
      some (s.keepOf c)
    else v.leaves.find? (fun y => y.core == c))

/-- Status and cause when the caravan ends. Among FAULT causes: one already due, BAD_OP, REMOTE_LOST, CONTAINED. -/
def State.carStatus (s : State) (v : Caravan) : Nat × Nat :=
  let ks := s.keeps v
  let due (n : Nat) : Option (Nat × Nat) := match v.ending with | some e => if e.1 = n then some e else none | none => none
  match due 6 with
  | some e => e
  | none =>
    if ks.any (fun y => Fld.CORE_FAULT_cause.get y.fault == 1) then (6, 1)
    else if ks.any (fun y => y.lost || y.fails.any (fun x => x == 2 || x == 3 || x == 12 || x == 13)) then (6, 2)
    else if ks.any (fun y => Fld.CORE_ERR_write_failed.get y.err == 1) then (6, 4)
    else match due 4 with
      | some e => e
      | none => if v.poisoned then (5, 0) else if 0 < v.overruns then (3, v.ovCause) else (1, 0)

/-- Sum of CORE_ADDR_ERR.count over the caravan's cores, in their save areas where they are saved (R112). -/
def State.carAddrErr (s : State) (v : Caravan) : Nat :=
  ((s.carCores v).map (fun x =>
    if s.inCar v.id x.2 then s.get (Reg.CORE_ADDR_ERR x.2) Fld.CORE_ADDR_ERR_count
    else match v.level with
      | some d => s.num (s.saveArea v.part.val d x.2 + 0x110040) 4
      | none => 0)).foldl (· + ·) 0

/-! ### Receipts (R289) -/

/-- A receipt of instance `i` falls due. -/
def dueReceipt (s : State) (i : Nat) (r : Receipt) : State :=
  let s1 := s.modInst i (fun x => { x with due := x.due ++ [r] })
  { s1 with sched := { s1.sched with dueq := s1.sched.dueq ++ [i] } }

/-- A receipt of a caravan that is refused without having run. -/
def refusal (s : State) (i tag cause : Nat) (lc untagged : Bool) : State :=
  (dueReceipt s i ⟨BitVec.ofNat 64 tag, 2, cause, 0, lc, untagged, 0, 0, 0, s.frame % 2 ^ 32, 0, 0⟩).count Reg.FRM_CNT_REFUSE

/-! ### Aborts (R287) -/

/-- The outcome of an abort is reported to its requester. -/
def abortReport (s : State) (tenant : Option InstId) (result : Nat) : State :=
  match tenant with
  | none => (s.put Reg.FRM_ABORT_STATUS Fld.FRM_ABORT_STATUS_result result).setFlag Reg.FRM_ABORT_STATUS Fld.FRM_ABORT_STATUS_done true
  | some i => (s.put (Reg.MBX_STATUS i.val) Fld.MBX_STATUS_abort_result result).setFlag (Reg.MBX_STATUS i.val) Fld.MBX_STATUS_abort_done true

/-- A caravan that an abort names has ended with `status`; with the last one the abort resolves. -/
def abortNote (s : State) (k status : Nat) : State :=
  match s.sched.abort with
  | none => s
  | some a =>
    if !a.named.contains k then s
    else
      let a1 : AbortReq := { a with named := a.named.erase k, aborted := a.aborted || status == 4 }
      if a1.named.isEmpty then abortReport { s with sched := { s.sched with abort := none } } a1.tenant (if a1.aborted then 0 else 1)
      else { s with sched := { s.sched with abort := some a1 } }

/-! ### Ending a caravan -/

/-- Ledger entries of an ended caravan: those that have left WAITING are freed, the others stay until they do (R318). -/
def ledgerEnd (s : State) (k : Nat) : State :=
  { s with sched := { s.sched with ledger := (s.sched.ledger.filter (fun e => e.car != k || e.st == .waiting)).map (fun e =>
      if e.car = k then { e with orphan := true } else e) } }

/-- The rows of a row mask. -/
def rowsIn (m : Nat) : List Nat := (List.range 256).filter (fun j => bit m j)

/-- The heavy level of rows (R445). -/
def setHeavy (s : State) (rows level : Nat) : State :=
  forEach (rowsIn rows) s (fun s j => s.put (Reg.PWR_ROW (j / 32) (j / 16 % 2) (j % 16)) Fld.PWR_ROW_heavy level)

/-- A save or restore of the core that has not ended is over (Table 11-11). -/
def preemptOver (s : State) (c : Nat) : State :=
  let st := s.get (Reg.CORE_PREEMPT c) Fld.CORE_PREEMPT_state
  if st = 1 || st = 3 then s.put (Reg.CORE_PREEMPT c) Fld.CORE_PREEMPT_state 0 else s

/-- The caravan ends with a status: its receipt falls due, its cores are free, its tolls are settled (R288, R289, R444). -/
def endCar (s : State) (k status cause : Nat) : State :=
  match s.carOf k with
  | none => s
  | some v =>
    let spent := spentTolls (s.get Reg.PWR_CAP Fld.PWR_CAP_uplift) v.spent
    let r : Receipt := ⟨v.tag, status, cause, min 255 v.overruns, v.lc, false, satTo 32 (s.cyclesNow v), satTo 32 (s.carAddrErr v),
      satTo 16 spent, s.frame % 2 ^ 32, spent, v.tolls.toNat⟩
    let s1 := dueReceipt s v.inst.val r
    let s2 := forEach (s.carCores v) s1 (fun s x => if s.inCar k x.2 then preemptOver (freeCore s x.2) x.2 else s)
    let s3 := if v.started then setHeavy s2 v.rows 0 else s2
    let s4 := if v.tolls.toNat < spent then
      raiseEdge (s3.incSat (Reg.PWR_TOLL v.part.val) Fld.PWR_TOLL_over) primaryDie 0x168 else s3
    let s5 := (ledgerEnd s4 k).modPart v.part.val (fun y => { y with lcq := y.lcq.erase k, beq := y.beq.erase k })
    abortNote { s5 with sched := { s5.sched with cars := s5.sched.cars.filter (fun v => v.id != k) } } k status

/-- What the caravan is to end with, when `status` and `cause` fall due: FAULT comes before ABORTED, and of two ABORTED causes the first stays
(R290, R390). -/
def Caravan.dueWith (v : Caravan) (status cause : Nat) : Nat × Nat :=
  match v.ending with
  | some e => if status = 6 && e.1 != 6 then (status, cause) else e
  | none => (status, cause)

/-- The caravan is to end with `status` (4 ABORTED or 6 FAULT) and `cause`, under the commit-point rule of R288; one that holds no core ends at
once, with the first status that applies (R290). -/
def resolveCar (s : State) (k status cause : Nat) : State :=
  match s.carOf k with
  | none => s
  | some v =>
    if !v.started || v.phase == .saved then
      let st := s.carStatus { v with ending := some (v.dueWith status cause) }
      endCar s k st.1 st.2
    else if s.committed v && (v.phase == .running || v.phase == .held) then s
    else
      -- A core that a save has stored, or a restore has not yet loaded, holds nothing: its part is over.
      let gone (c : Nat) : Bool := if v.phase = .saving then v.done.contains c else if v.phase = .restoring then !v.done.contains c else false
      let cs := (s.carCores v).map (·.2)
      let s1 := forEach cs s (fun s c =>
        if gone c then preemptOver (s.modCore c (fun k => { k with ended := true, phase := .stopped, held := false })) c
        else preemptOver (abortCore s c) c)
      s1.modCar k (fun v => { v with
        ending := some (v.dueWith status cause), last := (cs.filter gone).foldl setIns v.last, done := [],
        phase := if v.phase = .held then .held else .running })

/-- The caravans of an instance that have not ended. -/
def State.carsOf (s : State) (i : Nat) : List Nat := (s.sched.cars.filter (fun v => v.inst.val == i)).map (·.id)

/-- Caravans of a taken list that have not met admission yet end with `status`, having run nothing, where `p` holds of them. -/
def endCands (s : State) (i status cause : Nat) (p : Caravan → Bool) : State × Nat :=
  let hit (x : Cand) : Bool := match x with | .car v => p v | .refused .. => false
  let mine := (s.instRd i).taken.filter hit
  let s1 := s.modInst i (fun y => { y with taken := y.taken.filter (fun x => !hit x) })
  (forEach mine s1 (fun s x => match x with
    | .car v => dueReceipt s i ⟨v.tag, status, cause, 0, v.lc, false, 0, 0, 0, s.frame % 2 ^ 32, 0, v.tolls.toNat⟩
    | .refused .. => s), mine.length)

/-- The caravans that an abort request names (R287). -/
def State.abortNames (s : State) (i : Nat) (all : Bool) (tag : W64) : List Nat :=
  (s.sched.cars.filter (fun v => v.inst.val == i && (all || v.tag == tag))).map (·.id)

/-- An abort of the caravans of instance `i` that match. -/
def abortStart (s : State) (tenant : Option InstId) (i : Nat) (all : Bool) (tag : W64) : State :=
  let named := s.abortNames i all tag
  let r := endCands s i 4 1 (fun v => all || v.tag == tag)
  let n := named.length + r.2
  let s1 := match tenant with
    | none => ((r.1.setFlag Reg.FRM_ABORT_STATUS Fld.FRM_ABORT_STATUS_done false).put Reg.FRM_ABORT_STATUS Fld.FRM_ABORT_STATUS_matched n)
    | some i => ((r.1.setFlag (Reg.MBX_STATUS i.val) Fld.MBX_STATUS_abort_done false).put (Reg.MBX_STATUS i.val) Fld.MBX_STATUS_matched n)
  if n = 0 then abortReport s1 tenant 2
  else if named.isEmpty then abortReport s1 tenant 0
  else forEach named { s1 with sched := { s1.sched with abort := some ⟨tenant, named, r.2 != 0⟩ } } (fun s k => resolveCar s k 4 1)

/-- Tenants' aborts that waited for the abort engine begin (R390). -/
def abortPump : Nat → State → State
  | 0, s => s
  | n + 1, s =>
    if s.sched.abort.isSome then s
    else match s.sched.abortQ with
      | [] => s
      | (i, all, tag) :: rest =>
        abortPump n (abortStart { s with sched := { s.sched with abortQ := rest } } (some i) i.val all tag)

def abortsGo (s : State) : State := abortPump (s.sched.abortQ.length + 1) s

end Sys2Proof.Machine
end

