-- ==== Sys2Proof/Machine/Save.lean ====
section
/-!
DEFINITION. Pre-emption: when a caravan is saved (R308, R319), the save of its cores (R311-R315), the layout of a save area (R321), and
the restore (R316-R318, R478).
-/
namespace Sys2Proof.Machine

/-! ### QUIESCENT (R319, R396) -/

/-- A HOLDING partition is QUIESCENT once no caravan of it holds core state outside a save area, and the dirty bits of its instances have
reached their bitmaps. -/
def quiesceCheck (s : State) (p : Nat) : State :=
  if s.partState p = 2 && s.sched.cars.all (fun v => !(v.part.val == p && v.onCores)) &&
      s.host.dlog.all (fun x => !(s.instPart x.inst == p && (x.bits != 0 || x.out.isSome))) then setPartState s p 3
  else s

/-! ### Which caravans are saved (R308) -/

/-- Rows that LC candidates of partition `p` name. -/
def State.candRows (s : State) (p : Nat) : Nat :=
  s.sched.insts.foldl (fun acc e => e.2.taken.foldl (fun acc x =>
    match x with
    | .car v => if v.lc && v.part.val == p then acc ||| v.rows else acc
    | .refused .. => acc) acc) 0

/-- A running BE caravan is saved for a hold or to give back borrowed rows; a held LC caravan is saved for a hold. -/
def State.preempts (s : State) (v : Caravan) : Bool :=
  let p := v.part.val
  v.started && v.ending.isNone && !s.committed v &&
    (if v.lc then v.phase == .held && s.partState p == 2
     else v.phase == .running && (s.partState p == 2 || (v.rows &&& s.candRows p) &&& s.lcRowsOf p != 0))

/-! ### The start of a save (steps 1 to 4) -/

/-- Size code of Table 3-2 of a load of `n` bytes. -/
def sizeCode (n : Nat) : Nat := if n = 1 then 0 else if n = 2 then 1 else if n = 4 then 2 else 3

/-- The load has a part that is a read of another module. -/
def Core.remoteLoad (k : Core) (r : LoadRec) : Bool :=
  k.remote.any (fun q => match q.kind with | .read id _ _ _ => id == r.id | _ => false)

/-- Remote reads are abandoned; the register of one that still decides its value is recorded (R314). -/
def abandonReads (s : State) (c : Nat) : State :=
  let k := s.core c
  let rec' (r : LoadRec) : Option RemRead :=
    let mark (n bytes wid : Nat) (sx : Bool) : Option RemRead :=
      if n != 0 && k.pend.any (fun x => x.reg == .s n && x.id == wid) then some ⟨n, sizeCode bytes, sx, r.addr⟩ else none
    match r.dest with
    | .sreg n bytes sx wid => mark n bytes wid sx
    | .acqLoad n bytes wid => mark n bytes wid false
    | .elem .. => none
  let gone := k.loads.filter k.remoteLoad
  let s1 := s.modCore c (fun k => { k with
    loads := k.loads.filter (fun r => !k.remoteLoad r), remRead := gone.filterMap rec',
    mvBuf := k.mvBuf.filter (fun x => x.d.isSome || (keyPort x.key).isSome || x.key / 2 ^ 45 == 0xFFF) })
  s1.addWrap (Reg.CORE_REMOTE c) Fld.CORE_REMOTE_gen 1

/-- Every core of the caravan begins its save. -/
def startSave (s : State) (v : Caravan) : State :=
  let cs := (s.carCores v).map (·.2)
  let s1 := s.modCar v.id (fun x => { x with phase := .saving, resume := .running, done := [], leaves := cs.map s.keepOf, ledWait := false, elapsed := if v.lc then v.elapsed else s.elapsedNow v, since := s.now })
  forEach cs s1 (fun s c =>
    let s2 := (abandonReads s c).modCore c (fun k => { k with phase := .save, held := false })
    let r := Reg.CORE_PREEMPT c
    faultLevel (wsdFlush (s2.put r Fld.CORE_PREEMPT_state 1) c) (coreDie c))

/-! ### The ledger (R315) -/

def RemReq.isRead (r : RemReq) : Bool :=
  match r.kind with
  | .read .. => true
  | .pieceRead .. => true
  | _ => false

/-- The ledger entry of an unacknowledged request of core `c`. -/
def ledgerOf (k : Core) (g : Leg) (c : Nat) (r : RemReq) : Ledger :=
  let reg := match r.kind with
    | .amo n w wid => if n != 0 && k.pend.any (fun x => x.reg == .s n && x.id == wid) then some (n, w) else none
    | _ => none
  let tag := match r.kind with | .piece t => some t | _ => none
  ⟨g.car, g.inst, r.tag, r.gen, c, r.module, reg, tag, .waiting, 0, false, false⟩

/-- The ledger takes an entry; its high-water mark follows. -/
def ledgerAdd (s : State) (e : Ledger) : State :=
  let l := s.sched.ledger ++ [e]
  let s1 : State := { s with sched := { s.sched with ledger := l } }
  s1.put Reg.PRT_LEDGER Fld.PRT_LEDGER_high (max (s.get Reg.PRT_LEDGER Fld.PRT_LEDGER_high) l.length)

/-- A save waits for a ledger entry: counted once for the save. -/
def ledgerFull (s : State) (k : Nat) : State :=
  match s.carOf k with
  | some v => if v.ledWait then s else (s.count Reg.PRT_CNT_LEDGER_WAIT).modCar k (fun v => { v with ledWait := true })
  | none => s

/-- The remote wait of step 4 is over: what is unacknowledged takes ledger entries while there are free ones. -/
def remoteWaitOver (s : State) (c : Nat) : State :=
  match (s.core c).leg with
  | none => s
  | some g =>
    if (s.core c).phase != .save then s
    else forEach ((s.core c).remote.filter (fun r => !r.isRead)) s (fun s r =>
      if 4096 ≤ s.sched.ledger.length then ledgerFull s g.car
      else (ledgerAdd s (ledgerOf (s.core c) g c r)).modCore c (fun k => { k with remote := k.remote.erase r }))

/-! ### Writing the save area (R321) -/

def putNum (s : State) (a n v : Nat) : State := s.setBytes a (bytesOf n v)

def areaSize : Nat := 0x111000

/-- Bytes `a .. a + n - 1` become zero and their marks are cleared. -/
def clearRange (s : State) (a n : Nat) : State :=
  let inside (x : Nat) : Bool := a ≤ x && x < a + n
  { s with
    mem := s.mem.filter (fun x => !inside x.1), poison := s.poison.filter (fun x => !inside x),
    stk := { s.stk with bad := s.stk.bad.filter (fun e => !inside e.1) } }

/-- `n` bytes at `src` are copied to `dst`, which is all zero. -/
def copyRange (s : State) (src dst n : Nat) : State :=
  forEach (s.mem.filter (fun x => src ≤ x.1 && x.1 < src + n)) s (fun s x => s.setByte (x.1 - src + dst) x.2)

/-- The 21-bit form of Table 11-5. -/
def form21 (v : W64) : Nat := v.toNat % 2 ^ 20 + (if v.toNat / 2 ^ 20 = 0 then 0 else 2 ^ 20)

/-- The masks that a queued vector instruction has captured. -/
def maskCaptured (i : Instr) : Bool :=
  match i with
  | .vop _ op f => !(vopMasks op.toNat f).isEmpty
  | .vcvt _ f => !(vopMasks 0x20 f).isEmpty
  | .vacc _ f => !(vopMasks 0x3C f).isEmpty
  | .vargmax _ f => !(vopMasks 0x38 f).isEmpty
  | .vtopk _ f => !(vopMasks 0x39 f).isEmpty
  | .vld _ f => f.me
  | .vst _ f => f.me
  | .vcomp _ _ => true
  | .vexp _ _ => true
  | .vred _ f => !(vredMasks f).isEmpty
  | _ => false

/-- cap0 of a queue entry. -/
def cap0 (q : QEnt) : Nat :=
  match q.ins with
  | .mld _ _ => q.a.toNat
  | .mdrain _ _ => form21 q.a * 2 ^ 21 + form21 q.b
  | .vop _ _ f => if f.bs then q.a.toNat % 2 ^ 32 else 0
  | .vcvt _ f => if f.bs then q.a.toNat % 2 ^ 32 else 0
  | .vacc _ f => if f.bs then q.a.toNat % 2 ^ 32 else 0
  | .vargmax _ f => if f.bs then q.a.toNat % 2 ^ 32 else 0
  | .vtopk _ f => if f.bs then q.a.toNat % 2 ^ 32 else 0
  | .vld _ _ => q.a.toNat
  | .vst _ _ => q.a.toNat
  | .vcomp _ _ => q.a.toNat % 64
  | .move _ _ => q.a.toNat
  | _ => 0

/-- cap1 of a queue entry. -/
def cap1 (q : QEnt) : Nat :=
  match q.ins with
  | .mld _ _ => q.b.toNat
  | .mdrain _ _ => form21 q.c * 2 ^ 21 + form21 q.d
  | i => if maskCaptured i then q.m.toNat else 0

/-- The twait field of a queued instruction. -/
def twaitOf (i : Instr) : Nat :=
  match i with
  | .move _ f => f.twait.toNat
  | i => (tokFields i).1

/-- The four words of a queue entry. -/
def queueWords (k : Core) (q : QEnt) : List Nat :=
  let n := twaitOf q.ins
  let left := if n = 0 then 0 else (q.need - (k.tok n).done) % 256
  let stride := match q.ins with
    | .vld _ _ => q.b.toNat % 2 ^ 48 * 2 ^ 16
    | .vst _ _ => q.b.toNat % 2 ^ 48 * 2 ^ 16
    | _ => 0
  [((encodeWord q.ins).getD 0).toNat, left + 256 + stride, cap0 q, cap1 q]

/-- The number of the descriptor that a tag's record names: the last one read for ACKWAIT, else the lowest that has not completed. -/
def TagSt.recordIdx (x : TagSt) : Nat :=
  if x.committed && x.ended.isNone then x.next - 1
  else match x.runs.find? (fun r => !r.done) with
    | some r => r.idx
    | none => if x.ended.isSome then x.next - 1 else x.next

/-- The two words of a tag record. -/
def recordWords (t : Nat) (x : TagSt) : List Nat :=
  let i := x.recordIdx
  let addr := (x.base.toNat / 64 * 64 + 64 * i) % 2 ^ 52
  let state := if x.committed && x.ended.isNone then 2 else 1
  [2 ^ 63 + state * 2 ^ 60 + t * 2 ^ 52 + addr / 64 * 64,
   i % 2 ^ 16 + b2n x.wakeEn * 2 ^ 16 + x.wake.toNat * 2 ^ 17 + b2n x.evt * 2 ^ 21]

/-- The status byte of a tag. -/
def tagByte (x : TagSt) : Nat :=
  stCode.get x.word % 8 + stPoison.get x.word * 16 + stAddrErr.get x.word * 32 + b2n x.out * 128

/-- The buffer record of a buffer. -/
def bufRecord (s : State) (c : Nat) (opd : Bool) : Nat :=
  let b := (s.core c).buf opd
  s.meFmt c opd * 2 ^ 60 + s.get (Reg.CORE_ME_STATE c) (if opd then Fld.CORE_ME_STATE_k_b else Fld.CORE_ME_STATE_k_a) * 2 ^ 58 +
    form21 b.offA * 2 ^ 21 + form21 b.offB

/-- An engine's code in the control page. -/
def engCode (e : Option Engine) : Nat :=
  match e with
  | some .me => 1
  | some .ve => 2
  | _ => 0

/-- Setters of token `n` that are pending. -/
def Core.tokPending (k : Core) (n : Nat) : Nat := (k.tok n).issued - (k.tok n).done

/-- The control page of core `c` as (offset, size, value), from what the save keeps (Table 11-4). -/
def pageItems (s : State) (c : Nat) (keep : CoreKeep) : List (Nat × Nat × Nat) :=
  let k := s.core c
  let barWait := keep.bar.isSome
  let reexec := match keep.phase with | .wait _ => !barWait | _ => false
  let pc := if barWait then k.pc + 8 else k.pc
  let range (n : Nat) (f : Nat → Nat × Nat × Nat) : List (Nat × Nat × Nat) := (List.range n).map f
  let rd (n : Nat) : Option RemRead := (k.remRead.filter (fun r => r.reg == n)).getLast?
  let ledRegs := s.sched.ledger.filterMap (fun e => if s.inCar e.car c && e.core == c then e.reg.map (·.1) else none)
  let queued (base : Nat) (l : List QEnt) : List (Nat × Nat × Nat) :=
    l.zipIdx.flatMap (fun x => (queueWords k x.1).zipIdx.map (fun w => (0x110340 + 32 * (base + x.2) + 8 * w.2, 8, w.1)))
  let out := k.tags.filter (fun e => e.2.out)
  [(0x110000, 8, 0x10 * 2 ^ 56 + c * 2 ^ 32 + b2n barWait * 4 + b2n reexec * 2 + 1),
   (0x110008, 8, pc.toNat),
   (0x110010, 8, k.p.toNat / 2 * 2 + k.wf.toNat * 2 ^ 16 + b2n (s.liveBank c) * 2 ^ 32),
   (0x110028, 8, ofBits 32 (fun i => bit (if k.tokPending (i / 2) = 0 then 0 else engCode (k.tok (i / 2)).eng) (i % 2))),
   (0x110030, 8, ofBits 24 (fun i => if i % 2 = 0 then (k.bar (i / 2)).1 else (k.bar (i / 2)).2)),
   (0x110038, 8, (s.reg (Reg.CORE_LFSR c)).toNat),
   (0x110040, 8, (s.reg (Reg.CORE_ADDR_ERR c)).toNat),
   (0x110048, 8, (s.reg (Reg.CORE_ADDR_ERR_FIRST c)).toNat),
   (0x110050, 8, (s.reg (Reg.CORE_VE_STATUS c)).toNat),
   (0x110058, 8, bufRecord s c false), (0x110060, 8, bufRecord s c true),
   (0x110068, 8, (s.reg (Reg.CORE_ME_POISON0 c)).toNat), (0x110070, 8, (s.reg (Reg.CORE_ME_POISON1 c)).toNat),
   (0x110078, 8, ofBits 32 (fun n => n != 0 && ledRegs.contains n))] ++
  range 15 (fun i => (0x110019 + i, 1, k.tokPending (i + 1) % 256)) ++
  range 32 (fun n => (0x110080 + n, 1, match rd n with | some r => 128 + r.size * 2 + b2n r.sx | none => 0)) ++
  range 32 (fun n => (0x110100 + 8 * n, 8, (k.sr n).toNat)) ++
  range 8 (fun n => (0x110200 + 8 * n, 8, (k.mr n).toNat)) ++
  range 32 (fun n => (0x110240 + 8 * n, 8, match rd n with | some r => r.addr.toNat | none => 0)) ++
  queued 0 k.meq ++ queued 8 k.veq ++ queued 16 k.mvq ++
  k.tags.map (fun e => (0x110640 + e.1, 1, tagByte e.2)) ++
  out.zipIdx.flatMap (fun x => (recordWords x.1.1 x.1.2).zipIdx.map (fun w => (0x110740 + 16 * x.2 + 8 * w.2, 8, w.1))) ++
  range 1024 (fun n => (0x110B40 + n / 8, 1, ofBits 8 (fun i => (List.range 16).any (fun g => s.poisoned (scrBase c + (n / 8 * 8 + i) * 1024 + 64 * g))))) ++
  range 128 (fun n => (0x110BC0 + 8 * n, 8, (k.mark n).toNat))

/-- Scratchpad words in error are decoded as the save reads them (R460). -/
def decodeScratch (s : State) (c : Nat) : State :=
  forEach ((s.stk.bad.filter (fun e => scrBase c ≤ e.1 && e.1 < scrBase c + 0x100000)).map (·.1)) s scratchWord

/-- What step 6 writes to the area at `a`: the arrays and the control page. -/
def writeAll (s : State) (c a : Nat) (keep : CoreKeep) : State :=
  let s0 := clearRange (decodeScratch s c) a areaSize
  let k := s0.core c
  let s1 := copyRange s0 (scrBase c) a 0x100000
  let s2 := forEach k.oc s1 (fun s e => putNum s (a + 0x100000 + 256 * e.1) 256 e.2.toNat)
  let s3 := forEach k.acc0 s2 (fun s e => putNum s (a + 0x108000 + 256 * e.1) 256 e.2.toNat)
  let s4 := forEach k.acc1 s3 (fun s e => putNum s (a + 0x10C000 + 256 * e.1) 256 e.2.toNat)
  forEach (pageItems s4 c keep) s4 (fun s x => putNum s (a + x.1) x.2.1 x.2.2)

/-- Lines of the area at `a` that no copy serves: their channels are FAILED_DEAD or lie on an isolated die (R335, R344, R364). -/
def State.areaGone (s : State) (a : Nat) : List Nat :=
  if (List.range 1024).any s.chanGone then
    ((List.range 8736).map (fun n => a / 128 * 128 + 128 * n)).filter (fun x => (s.chansOf x).all s.chanGone)
  else []

/-- Step 6: the arrays and the control page are written to the area at `a`; a line on a channel that is gone keeps nothing of it (R335). -/
def writeArea (s : State) (c a : Nat) (keep : CoreKeep) : State :=
  let s5 := writeAll s c a keep
  forEach (s.areaGone a) s5 (fun t x => (clearRange t x 128).setBytes x (s.bytes x 128))

/-! ### The end of a core's save (steps 5 to 7) -/

/-- Acknowledged pieces count as performed and quiet tags take their final status. -/
def settleTags (s : State) (c : Nat) : State :=
  let outs := ((s.core c).tags.filter (fun e => e.2.out)).map (·.1)
  forEach outs s (fun s t =>
    let n := ((s.core c).tag t).runs.foldl (fun n r => n + (r.flight.filter (fun f => f.wait == .ready)).length) 0
    moverFinal (forEach (List.range n) s (fun s _ => piecePerformed s c t)) c t)

/-- Flush reads leave for what the stopped mover has written through host ports (step 2 of Table 11-1, Table 9-2). -/
def flushTags (s : State) (c : Nat) : State :=
  if (s.core c).moverStopped then forEach (((s.core c).tags.filter (fun e => e.2.out)).map (·.1)) s (fun s t => moverFlush s c t true) else s

/-- Steps 1 to 4 have ended: nothing local is outstanding, and what is remote lies in the ledger. -/
def State.saveReady (s : State) (c : Nat) : Bool :=
  let k := s.core c
  let out := k.tags.filter (fun e => e.2.out)
  k.accessesDone && k.loads.isEmpty && k.mvBuf.all (fun x => x.d.isSome) && !s.flushing c && k.remote.all (·.isRead) && out.length ≤ 64 &&
    out.all (fun e => e.2.flush.isEmpty && e.2.runs.all (fun r => r.flight.all (fun f => match f.wait with
      | .ready => true
      | .remote _ => true
      | _ => false)))

/-- The caravan is saved. -/
def carSaved (s : State) (v : Caravan) : State :=
  quiesceCheck ((s.count Reg.PRT_CNT_SAVE).modCar v.id (fun x => { x with phase := .saved, done := [] })) v.part.val

/-- CORE_SAVED: core `c` finishes steps 5 to 7. -/
def coreSaved (s : State) (c : Nat) : State :=
  match (s.core c).leg with
  | none => s
  | some g =>
    match s.carOf g.car with
    | none => s
    | some v =>
      let s1 := flushTags (wsdFlush s c) c
      if (s.core c).phase != .save || v.phase != .saving then s
      else if !s1.saveReady c then s1
      else
        let s2 := settleTags s1 c
        let s3 := icFlush (l1Flush s2 c) c
        match v.leaves.find? (fun y => y.core == c) with
        | none => s3
        | some y =>
          -- What the leg has recorded since the save began is kept too; where the sequencer stood is not.
          let keep : CoreKeep := { s3.keepOf c with phase := y.phase, bar := y.bar }
          let s4 := writeArea s3 c (s3.saveArea v.part.val (v.level.getD 0) c) keep
          let r := Reg.CORE_PREEMPT c
          let s5 := ((freeCore s4 c).put r Fld.CORE_PREEMPT_state 2).put r Fld.CORE_PREEMPT_level (v.level.getD 0)
          let done := setIns v.done c
          let s6 := s5.modCar v.id (fun x => { x with
            done := done, leaves := x.leaves.map (fun z => if z.core = c then keep else z) })
          if (s6.carCores v).all (fun x => done.contains x.2) then carSaved s6 v else s6

/-! ### Restoring (R316) -/

/-- A saved caravan may be restored now. -/
def State.restorable (s : State) (v : Caravan) : Bool :=
  v.phase == .saved && s.partState v.part.val == 1 && s.coresGo && s.rowsFree v && s.ownLets v.inst.val && (!v.lc || s.lcTurn v)

/-- A ledger entry of the caravan is LOST. -/
def State.carLost (s : State) (k : Nat) : Bool := s.sched.ledger.any (fun e => e.car == k && e.st == .lost)

/-- The restore of a caravan begins on every core. -/
def startRestore (s : State) (v : Caravan) : State :=
  let s1 := s.modCar v.id (fun x => { x with phase := .restoring, done := [], since := s.now, elapsed := if v.lc then v.elapsed else s.elapsedNow v })
  forEach (s.carLegs v) s1 (fun s x =>
    let c := x.1
    (s.modCore c (fun k => { k with
      phase := .restore, ended := v.last.contains c, held := false, leg := some x.2.1, bars := [], barWait := none, pend := [], fails := [],
      tags := [], mvBuf := [], meq := [], veq := [], mvq := [], ledReg := [], remRead := [], barFail := [], winPorts := [], winLines := [],
      bufA := OpBuf.empty, bufB := OpBuf.empty })).put (Reg.CORE_PREEMPT c) Fld.CORE_PREEMPT_state 3)

/-- CARAVAN_RESTORE. One whose ledger holds a LOST entry ends FAULT instead (R318). -/
def restoreCar (s : State) (k : Nat) : State :=
  match s.carOf k with
  | none => s
  | some v =>
    if !s.restorable v then s
    else if s.carLost k then endCar s k 6 2
    else startRestore s v

/-- A queue entry as it is read back: its instruction, the setters it still waits for, what it captured. -/
def readQueue (s : State) (c : Nat) (a slot : Nat) (pc : BitVec 52) (m2 : W64) (id : Nat) : Option QEnt :=
  let w (n : Nat) : Nat := s.num (a + 0x110340 + 32 * slot + 8 * n) 8
  let v (n : Nat) : W64 := BitVec.ofNat 64 n
  if !bit (w 1) 8 then none
  else match decodeWord (BitVec.ofNat 12 c) (v (w 0)) with
    | none => none
    | some i =>
      let n := w 1 % 256
      let lo := w 2 % 2 ^ 21
      let hi := w 2 / 2 ^ 21 % 2 ^ 21
      match i with
      | .mld _ _ => some ⟨i, pc, v (w 2), v (w 3), 0, 0, 0, 0, n, id⟩
      | .mdrain _ _ => some ⟨i, pc, v hi, v lo, v (w 3 / 2 ^ 21 % 2 ^ 21), v (w 3 % 2 ^ 21), 0, 0, n, id⟩
      | .vld _ _ => some ⟨i, pc, v (w 2), v (bits (w 1) 63 16), 0, 0, v (w 3), m2, n, id⟩
      | .vst _ _ => some ⟨i, pc, v (w 2), v (bits (w 1) 63 16), 0, 0, v (w 3), m2, n, id⟩
      | _ => some ⟨i, pc, v (w 2), 0, 0, 0, v (w 3), m2, n, id⟩

/-- The registers that a queued instruction has yet to write. -/
def queueDest (i : Instr) : List PendReg :=
  match i with
  | .vop _ op f => vopDest op.toNat f
  | .vcomp _ f => [sr5 f.sd]
  | .vred _ f => [sr5 f.sd]
  | _ => []

/-- The entries of one queue, first slot `base`, their pcs and second masks taken from `side`. -/
def readQueues (s : State) (c a base : Nat) (side : List (BitVec 52 × W64)) : List QEnt :=
  (List.range 8).filterMap (fun n =>
    let x := side.getD n (0, 0)
    readQueue s c a (base + n) x.1 x.2 (base + n))

/-- Entries in a queue of the save area. -/
def queueLen (s : State) (a base : Nat) : Nat :=
  ((List.range 8).filter (fun n => bit (s.num (a + 0x110348 + 32 * (base + n)) 8) 8)).length

/-- The tags as the control page has them (R317). -/
def readTags (s : State) (a : Nat) : List (Nat × TagSt) :=
  let recs := (List.range 64).filterMap (fun n =>
    let w := s.num (a + 0x110740 + 16 * n) 8
    if bit w 63 then some (bits w 59 52, w, s.num (a + 0x110748 + 16 * n) 8) else none)
  (List.range 256).foldl (fun m t =>
    let b := s.num (a + 0x110640 + t) 1
    if b = 0 then m
    else
      let word := stAddrErr.put (stPoison.put (stCode.put 0 (b % 8)) (b / 16 % 2)) (b / 32 % 2)
      let x : TagSt := { TagSt.idle with word := word, used := true, counted := bit b 5 }
      let y : TagSt := match recs.find? (fun r => r.1 == t) with
        | none => x
        | some (_, w, v) =>
          let i := v % 2 ^ 16
          let base := (0xFFF * 2 ^ 52 + bits w 51 6 * 64 + 2 ^ 64 - 64 * i) % 2 ^ 64
          let wait := bits w 62 60 == 2
          { x with
            out := true, base := BitVec.ofNat 64 base, next := if wait then i + 1 else i, lastRead := wait, wakeEn := bit v 16,
            wake := BitVec.ofNat 4 (bits v 20 17), evt := bit v 21, word := stDesc.put word i }
      mapSet (fun _ => TagSt.idle) m t y) []

/-- Poison of the area's lost lines passes to the scratchpad granules and operand-cache lanes read from them; the accumulators, which carry no
poison, and the control page keep the bytes of before the loss (DESIGN CHOICE, log 49: the spec does not say what a restore does with them). -/
def areaPoison (s : State) (c a : Nat) (gone : List Nat) : State :=
  forEach gone s (fun s x =>
    let o := x - a
    if o < 0x100000 then forEach [0, 64] s (fun s g => s.setPoison (scrBase c + o + g) true)
    else if o < 0x108000 then
      let lanes : W64 := BitVec.ofNat 64 (if o % 256 < 128 then 2 ^ 32 - 1 else 2 ^ 64 - 2 ^ 32)
      let n := (o - 0x100000) / 256
      s.modCore c (fun k => { k with ocMark := mapSet (fun _ => 0) k.ocMark n (k.mark n ||| lanes) })
    else s)

/-- Step 1: the arrays and the registers of the control page are written back. -/
def readArea (s : State) (c a : Nat) (y : CoreKeep) : State :=
  let num (o n : Nat) : Nat := s.num (a + o) n
  let word (o : Nat) : W64 := BitVec.ofNat 64 (num o 8)
  let s1 := copyRange (clearRange s (scrBase c) 0x100000) a (scrBase c) 0x100000
  let kibs := (List.range 1024).filter (fun n => bit (num (0x110B40 + n / 8) 1) (n % 8))
  let s2 := forEach kibs s1 (fun s n => forEach (List.range 16) s (fun s g => s.setPoison (scrBase c + 1024 * n + 64 * g) true))
  let ents (base n : Nat) : List (Nat × Entry) :=
    (List.range n).foldl (fun m i => mapSet (fun _ => 0) m i (BitVec.ofNat 2048 (num (base + 256 * i) 256))) []
  let w10 := num 0x110010 8
  let bw := num 0x110030 8
  let bars := (List.range 12).foldl (fun m i => mapSet (fun _ => (false, false)) m i (bit bw (2 * i), bit bw (2 * i + 1))) []
  let eng (n : Nat) : Option Engine :=
    let e := num 0x110028 8 / 4 ^ n % 4
    if e = 1 then some .me else if e = 2 then some .ve else none
  let toks := (List.range 15).foldl (fun m i =>
    mapSet (fun _ => Tok.zero) m (i + 1) ⟨num (0x110019 + i) 1, 0, eng (i + 1)⟩) []
  let pc := BitVec.ofNat 52 (num 0x110008 8)
  let n0 := queueLen s a 0
  let n1 := queueLen s a 8
  let meq := readQueues s c a 0 y.queued
  let veq := readQueues s c a 8 (y.queued.drop n0)
  let mvq := readQueues s c a 16 (y.queued.drop (n0 + n1))
  let s3 := s2.modCore c (fun k =>
    let k1 : Core := { k with
      pc := if y.bar.isSome then pc - 8 else pc, p := BitVec.ofNat 8 (w10 % 256 / 2 * 2), wf := BitVec.ofNat 16 (bits w10 31 16),
      oc := ents 0x100000 128, acc0 := ents 0x108000 64, acc1 := ents 0x10C000 64,
      ocMark := (List.range 128).foldl (fun m i => mapSet (fun _ => 0) m i (word (0x110BC0 + 8 * i))) [],
      s := (List.range 32).foldl (fun m i => mapSet (fun _ => 0) m i (word (0x110100 + 8 * i))) [],
      m := (List.range 8).foldl (fun m i => mapSet (fun _ => 0) m i (word (0x110200 + 8 * i))) [],
      toks := toks, bars := bars, barWait := y.bar, nextId := 24, meq := meq, veq := veq, mvq := mvq, tags := readTags s a,
      fails := y.fails, barFail := y.barFail, winPorts := y.winPorts, winLines := y.winLines, ann := y.ann,
      escaped := y.escaped }
    (meq ++ veq ++ mvq).foldl (fun k q => (queueDest q.ins).foldl (fun k r => k.markPend r q.id) k) k1)
  let regs : List (Nat × Nat) := [(Reg.CORE_LFSR c, 0x110038), (Reg.CORE_ADDR_ERR c, 0x110040), (Reg.CORE_ADDR_ERR_FIRST c, 0x110048),
    (Reg.CORE_VE_STATUS c, 0x110050), (Reg.CORE_ME_POISON0 c, 0x110068), (Reg.CORE_ME_POISON1 c, 0x110070)]
  let s4 := forEach regs s3 (fun s x => s.setReg x.1 (word x.2))
  let s5 := s4.setFlag (Reg.CORE_ME_STATE c) Fld.CORE_ME_STATE_live_bank (bit w10 32)
  ((s5.setReg (Reg.CORE_ERR c) y.err).setReg (Reg.CORE_FAULT c) y.fault).setFlag (Reg.CORE_REMOTE c) Fld.CORE_REMOTE_lost y.lost

/-- Step 4: a recorded MLD is repeated; a buffer without a recorded format is zero (R133). DESIGN CHOICE (log 92): the repeat adds nothing to
CORE_ME_BUSY. -/
def repeatMld (s : State) (c a : Nat) (opd : Bool) : State :=
  let w := s.num (a + (if opd then 0x110060 else 0x110058)) 8
  let fmt := bits w 63 60
  let k := match bits w 59 58 with | 1 => 64 | 2 => 128 | 3 => 256 | _ => 0
  let s1 := setMeFmt s c opd fmt k
  if fmt = 0xF then s1
  else
    let r := loadTile s1 c (Format.ofCode fmt) (k / 64) (bits w 41 21) (bits w 20 0)
    r.1.modCore c (fun y => y.setBuf opd { r.2 with fmt := fmt })

/-- The old value of an AMO reaches its register (R99, R318). -/
def ledgerDeliver (s : State) (c n : Nat) (w : Bool) (v : W64) : State :=
  let val : W64 := if w then v else BitVec.ofNat 64 (v.toNat % 2 ^ 32)
  s.modCore c (fun k =>
    match k.ledReg.find? (fun x => x.1 == n) with
    | some x => { (k.lateSr n x.2 val) with ledReg := k.ledReg.filter (fun y => y.1 != n) }
    | none => k)

/-- Step 5: registers that await ledger values are pending; ACKED entries deliver theirs and are freed. -/
def consultLedger (s : State) (k c : Nat) : State :=
  let mine (e : Ledger) : Bool := e.car == k && e.core == c
  let s1 := forEach (s.sched.ledger.filter mine) s (fun s e =>
    match e.reg with
    | none => s
    | some (n, _) => s.modCore c (fun k => { (k.markPend (.s n) k.nextId) with nextId := k.nextId + 1, ledReg := (k.ledReg.filter (fun x => x.1 != n)) ++ [(n, k.nextId)] }))
  let s2 := forEach (s1.sched.ledger.filter (fun e => mine e && e.st == .acked)) s1 (fun s e =>
    match e.reg with
    | some (n, w) => (let s1 := ledgerDeliver s c n w e.val; if e.poison then seqPoison s1 c else s1)
    | none => s)
  { s2 with sched := { s2.sched with ledger := s2.sched.ledger.filter (fun e => !(mine e && e.st == .acked)) } }

/-- The lines of a remote load and its parts (R404): each line is a read under a tag of its own. -/
def remoteLoadAt (s : State) (c id a n pos : Nat) : State :=
  let m := a / 2 ^ 52 % 4096
  forEach (lineParts (a % 2 ^ 52) n) s (fun s x =>
    match s.remoteTag c m false with
    | none => s
    | some t => remoteSend s c m t 0x01 (s.remoteHdr c m (x.1 * 128) t 0 false 0) none []
        (.read id (pos + x.2.2.2) x.2.2.1 (BitVec.ofNat 64 (x.1 * 128 + x.2.1))))

/-- A remote load of the whole record. -/
def remoteLoad (s : State) (c id a n : Nat) : State := remoteLoadAt s c id a n 0

/-- Tags that a remote load of `n` bytes at `a` takes are free. -/
def State.tagsFree (s : State) (c n : Nat) : Bool :=
  n ≤ ((List.range 64).filter (fun t => !((s.ledgerTags c).contains t || (s.core c).remote.any (fun r => r.tag == t)))).length

/-- Step 6: the recorded remote reads are issued again. -/
def reissueReads (s : State) (c a : Nat) : State :=
  forEach (List.range 32) s (fun s n =>
    let b := s.num (a + 0x110080 + n) 1
    if !bit b 7 then s
    else
      let addr := s.num (a + 0x110240 + 8 * n) 8
      let size := 2 ^ bits b 2 1
      let id := (s.core c).nextId
      let s1 := s.modCore c (fun k => { (k.markPend (.s n) id) with nextId := id + 1 })
      remoteLoad ((newLoad s1 c id size (.sreg n size (bit b 0) id) (BitVec.ofNat 64 addr) true).count Reg.PRT_CNT_REISSUE) c id addr size)

/-- Reads that the control page records need `n` tags. -/
def readsNeed (s : State) (a : Nat) : Nat :=
  (List.range 32).foldl (fun acc n =>
    let b := s.num (a + 0x110080 + n) 1
    if bit b 7 then acc + (lineParts (s.num (a + 0x110240 + 8 * n) 8 % 2 ^ 52) (2 ^ bits b 2 1)).length else acc) 0

/-- The caravan has been restored on every core. -/
def carRestored (s : State) (v : Caravan) : State :=
  (s.count Reg.PRT_CNT_RESTORE).modCar v.id (fun x => { x with
    phase := x.resume, done := [], leaves := [], since := if v.lc then s.now else x.since })

/-- CORE_RESTORED: core `c` finishes its restore and resumes issue where it stood. -/
def coreRestored (s : State) (c : Nat) : State :=
  match (s.core c).leg with
  | none => s
  | some g =>
    match s.carOf g.car with
    | none => s
    | some v =>
      if (s.core c).phase != .restore || v.phase != .restoring then s
      else match v.leaves.find? (fun y => y.core == c) with
        | none => s
        | some y =>
          let a := s.saveArea v.part.val (v.level.getD 0) c
          if !s.tagsFree c (readsNeed s a) then s
          else
            let s1 := acquire (wsdReset (areaPoison (readArea s c a y) c a (s.areaGone a)) c) c
            let s2 := repeatMld (repeatMld s1 c a false) c a true
            let s3 := reissueReads (consultLedger s2 g.car c) c a
            let ph := match y.phase with | .wait (.acq ..) => .run | x => x
            let s4 := (s3.modCore c (fun k => { k with phase := ph, held := v.resume == .held })).put (Reg.CORE_PREEMPT c) Fld.CORE_PREEMPT_state 0
            let done := setIns v.done c
            let s5 := faultLevel (s4.modCar v.id (fun x => { x with done := done })) (coreDie c)
            if (s5.carCores v).all (fun x => done.contains x.2) then barCheckAll (carRestored s5 v) c else barCheckAll s5 c

/-! ### The commands -/

/-- CARAVAN_SAVE (R308, R311). -/
def execCaravanSave (k : Nat) (s : State) : Result :=
  .next (match s.carOf k with
    | some v => if s.preempts v then startSave s v else s
    | none => s)

/-- REMOTE_WAIT_EXPIRE (R315). -/
def execRemoteWaitExpire (c : CoreId) (s : State) : Result := .next (remoteWaitOver s c.toNat)

/-- CORE_SAVED (R311). -/
def execCoreSaved (c : CoreId) (s : State) : Result := .next (coreSaved s c.toNat)

/-- CARAVAN_RESTORE (R316). -/
def execCaravanRestore (k now : Nat) (s : State) : Result := .next (abortsGo (restoreCar (s.at now) k))

/-- CORE_RESTORED (R316). -/
def execCoreRestored (c : CoreId) (s : State) : Result := .next (coreRestored s c.toNat)

end Sys2Proof.Machine
end

