-- ==== Sys2Proof/Machine/Frame.lean ====
section
/-!
DEFINITION. Frames (chapter 10): the reference (R271), what each step of a tick does (R285, R286, R206, R444-R446, R280, R306, R319), the
waybill reader (R265, R273-R279), admission (R281, R282), the start and the end of a caravan, receipts (R289-R291), aborts (R287).
-/
namespace Sys2Proof.Machine

/-! ### The reference (R271) -/

/-- The generator follows FRAME_REF_IN. -/
def State.refMode (s : State) : Bool := s.flag Reg.FRM_REF Fld.FRM_REF_mode

/-- The reference is lost: the generator runs free. -/
def refLost (s : State) : State :=
  if !s.refMode || 2 ≤ s.sched.badEdges then s
  else
    let s1 : State := { s with sched := { s.sched with goodEdges := 0, badEdges := 2 } }
    raiseEdge ((s1.setFlag Reg.FRM_REF Fld.FRM_REF_locked false).setFlag Reg.FRM_REF Fld.FRM_REF_ref_lost true) primaryDie 0x200

/-- An edge arrives at `t`: good when it lies within 1 µs of one frame length after the previous one. -/
def refEdge (s : State) (t : Nat) : State :=
  if !s.refMode then s
  else
    let s1 : State := { s with sched := { s.sched with lastEdge := some t } }
    match s.sched.lastEdge with
    | none => s1
    | some e =>
      let want := e + s.sched.len * 1000
      let lost := decide (2 ≤ s.sched.badEdges)
      if want ≤ t + 1000 && t ≤ want + 1000 then
        let g := min 4 (s.sched.goodEdges + 1)
        { s1 with sched := { s1.sched with goodEdges := g, badEdges := if lost && g < 4 then 2 else 0 } }
      else
        let s2 : State := { s1 with sched := { s1.sched with goodEdges := 0 } }
        if lost then s2
        else if s.sched.badEdges = 1 then refLost s2
        else { s2 with sched := { s2.sched with badEdges := 1 } }

/-- The phase is held once a tick follows its edge by the offset. -/
def refTick (s : State) (now : Nat) : State :=
  match s.sched.lastEdge with
  | some e => if s.refMode && s.sched.badEdges < 2 && now == e + s.get Reg.FRM_REF Fld.FRM_REF_offset_ns then s.setFlag Reg.FRM_REF Fld.FRM_REF_locked true else s
  | none => s

/-! ### Rates below fg (R285) -/

/-- Running LC caravans with a core below the fg in use are marked. -/
def markSlow (s : State) : State :=
  { s with sched := { s.sched with cars := s.sched.cars.map (fun v =>
      if v.lc && v.phase == .running && (s.carCores v).any (fun x => s.coreRate x.2 < s.fgNow v.part.val) then { v with slow := true } else v) } }

/-- Rows of a mask. -/
def maskRows (m : Nat) : List Nat := (List.range 256).filter (bit m)

/-- In-service cores of the reserved rows of a partition. -/
def State.reservedCores (s : State) (p : Nat) : List Nat :=
  (maskRows (s.lcRowsOf p)).flatMap (fun j => ((List.range 10).map (fun k => j * 16 + k)).filter s.inService)

/-- While an LC caravan of a partition runs, the set rate of every reserved core is at least fg (R297), but for cores that a power rule lowers:
those of R448's steps 2 and 3, and cores that run BE caravans (R447, R448 step 1). -/
def keepFg (s : State) : State :=
  forEach ((List.range 32).filter (fun p => s.sched.cars.any (fun v => v.lc && v.phase == .running && v.part.val == p))) s (fun s p =>
    forEach ((s.reservedCores p).filter (fun c => !s.runsBe c && !s.pwr.capLow.contains c && s.setRateOf c < s.fgNow p)) s (fun s c =>
      putRate s c (s.fgNow p)))

/-- Rates settle once LC caravans start, resume or go on: fg is kept, and what still runs slower is marked. -/
def rateCheck (s : State) : State := markSlow (keepFg s)

/-! ### Step 2: OVERRUN (R285, R286) -/

/-- The cause of an OVERRUN mark. -/
def State.overCause (s : State) (v : Caravan) : Nat :=
  if !v.started then 2 else if v.cycles.toNat * 1000 < s.milliCycles v then 1 else if v.slow then 3 else 2

/-- An LC caravan that has not ended is held in place at the end tick; one whose restore is under way is held once its cores are restored. -/
def holdCar (s : State) (v : Caravan) : State :=
  let on := v.phase == .running
  let back := v.phase == .restoring
  if !v.lc || v.ending.isSome || !(on || back || v.phase == .admitted || v.phase == .held) || (on && s.committed v) then s
  else if s.get Reg.FRM_CTL Fld.FRM_CTL_overrun_max ≤ v.overruns then resolveCar s v.id 6 3
  else
    let cause := s.overCause v
    let el := s.elapsedNow v
    let s1 := s.modCar v.id (fun w => { w with
      phase := if back then .restoring else .held, resume := if back then .held else w.resume, elapsed := el, overruns := w.overruns + 1,
      ovCause := cause })
    let s2 := if v.started then
        -- Each core writes its streaming line buffers (Table 22-4, s).
        forEach (s.carCores v) s1 (fun s x => if (s.core x.2).ended || (back && !v.done.contains x.2) then s else (wsdFlush s x.2).modCore x.2 (fun k => { k with held := true }))
      else s1
    s2.count Reg.FRM_CNT_OVERRUN

/-! ### Step 3: thrash, tolls, fg -/

/-- The mode of slice `g` for the frame that the tick opens (R206, R207). -/
def thrashSlice (s : State) (g : Nat) : State :=
  let d := g / 64
  let st := sliceReg Reg.LLC_THRASH_STATE g
  let looks := s.get st Fld.LLC_THRASH_STATE_looks
  let misses := s.get st Fld.LLC_THRASH_STATE_misses
  let on := s.flag (Reg.LLC_DIE_CTL d) Fld.LLC_DIE_CTL_thrash_en && s.get (Reg.LLC_THRASH d) Fld.LLC_THRASH_min_acc ≤ looks &&
    s.get (Reg.LLC_THRASH d) Fld.LLC_THRASH_thresh * looks < misses * 1024
  let r := sliceReg Reg.LLC_SLICE_STATUS g
  let was := s.flag r Fld.LLC_SLICE_STATUS_nalloc_be
  let s1 := (s.setReg st 0).setFlag r Fld.LLC_SLICE_STATUS_nalloc_be on
  let s2 := if on then s1.count (sliceReg Reg.LLC_CNT_NALLOC g) else s1
  if on && !was then
    setLevel (s2.setReg (Reg.LLC_THRASH_FLAGS d) (s2.reg (Reg.LLC_THRASH_FLAGS d) ||| BitVec.ofNat 64 (2 ^ (g % 64)))) d 0x141 true
  else s2

/-- The largest announcement for frame `f` by a core of the caravan: tolls, or a heavy level (R445). -/
def State.announced (s : State) (v : Caravan) (f : Nat) (heavy : Bool) : Option Nat :=
  (s.carCores v).foldl (fun best x =>
    (s.core x.2).ann.foldl (fun best a =>
      if a.1 == f && a.2.2 == heavy then (match best with | some b => some (max b a.2.1) | none => some a.2.1) else best) best) none

/-- Heavy phases of the frame begin or end, and announcements for frames that have begun are dropped. -/
def heavyTick (s : State) : State :=
  let f := s.frame
  let s1 := forEach s.sched.cars s (fun s v =>
    if v.started && (v.phase == .running || v.phase == .held) then
      match s.announced v f true with
      | some n => setHeavy s v.rows n
      | none => s
    else s)
  forEach (s1.cores.map (·.1)) s1 (fun s c => s.modCore c (fun k => { k with ann := k.ann.filter (fun a => f < a.1) }))

/-- The prediction of a caravan for the frame (R446). -/
def State.predOf (s : State) (v : Caravan) : Nat := s.predict v.inst.val v.tolls.toNat ((s.announced v s.frame false).getD 0)

/-- The BE allowance from the predictions so far (R447), and each partition's sum. -/
def allowance (s : State) : State :=
  let len := s.sched.len
  let ec := s.get Reg.PWR_CAP Fld.PWR_CAP_cap_w * len / 1000
  let eb := s.get Reg.PWR_CAP Fld.PWR_CAP_base_w * len / 1000
  let sum (p : Option Nat) : Nat := s.sched.cars.foldl (fun acc v =>
    if p.isNone || p == some v.part.val then acc + mapGet (fun _ => 0) s.pwr.pred v.id else acc) 0
  let ebe := ec - eb - sum none
  forEach (List.range 32) { s with pwr := { s.pwr with ebe := ebe } } (fun s p =>
    (s.put (Reg.PWR_TOLL p) Fld.PWR_TOLL_pred (satTo 16 (sum (some p)))).put (Reg.PWR_TOLL p) Fld.PWR_TOLL_be_lim (satTo 16 ebe))

/-- The tick's predictions: the LC caravans held into the frame. -/
def predTick (s : State) : State :=
  let held := s.sched.cars.filter (fun v => v.lc && (v.phase == .held || v.phase == .saved || v.phase == .saving))
  let s1 := forEach (List.range 1024) s (fun s i =>
    s.put (Reg.PWR_RATIO i) Fld.PWR_RATIO_warm (min 16 (s.get (Reg.PWR_RATIO i) Fld.PWR_RATIO_warm + 1)))
  let hist := (List.range 1024).filter (fun i => s.get (Reg.PWR_RATIO i) Fld.PWR_RATIO_warm == 16)
  let s2 : State := { s1 with pwr := { s1.pwr with hist := hist } }
  allowance { s2 with pwr := { s2.pwr with pred := held.foldl (fun m v => mapSet (fun _ => 0) m v.id (s2.predOf v)) [] } }

/-- Tolls of the frame that has ended (R444). -/
def spentTick (s : State) : State :=
  forEach (List.range 32) s (fun s p =>
    let e := (s.part p).spentT
    (s.put (Reg.PWR_TOLL p) Fld.PWR_TOLL_spent (satTo 16 (spentTolls (s.get Reg.PWR_CAP Fld.PWR_CAP_uplift) e))).modPart p
      (fun y => { y with spentT := 0 }))

/-- fg of partition `p` at a tick: lowered to the slowest half clock and revised maximum of its reserved rows (R280, R297). -/
def State.fgTick (s : State) (p : Nat) : Nat :=
  (maskRows (s.lcRowsOf p)).foldl (fun f j =>
    let cs := ((List.range 10).map (fun k => j * 16 + k)).filter s.inService
    cs.foldl (fun f c => min f (s.fmax c)) (min f (s.halfClock (j / 16)))) (s.get (Reg.PRT_DESC p) Fld.PRT_DESC_fg_mhz)

/-- A half that the image does not gate runs below 1,800 MHz (R368). -/
def State.slowHalf (s : State) : Bool := (List.range 16).any (fun h => !s.img.gated.getLsbD h && s.halfClock h < 1800)

/-- Bc of partition `p` (R280). -/
def State.budgetC (s : State) (p : Nat) : Nat := s.frameNs * s.fgNow p * 95 / 100000 * s.share p / 256

/-- fg, budget and LC_AT_RISK of a partition with an LC share. -/
def fgPart (s : State) (p : Nat) : State :=
  if s.share p = 0 then s
  else
    let fg := s.fgTick p
    let risk := decide (fg < s.get (Reg.PRT_DESC p) Fld.PRT_DESC_fg_mhz) || s.slowHalf
    let was := (s.part p).risk
    let s1 := s.modPart p (fun y => { y with fg := fg, risk := risk })
    let s2 := s1.put (Reg.FRM_BUDGET_C p) Fld.FRM_BUDGET_C_budget (s1.budgetC p)
    if risk && !was then raiseEdge (s2.setFlag (Reg.PRT_STATUS p) Fld.PRT_STATUS_lc_at_risk true) primaryDie 0x201 else s2

/-! ### Partitions at a tick (R306, R319) -/

/-- A reloaded partition becomes ACTIVE and ready (R494, R513). -/
def reloadTick (s : State) (p : Nat) : State :=
  let r := Reg.BOOT_READY_PRT
  let s1 := setPartState (s.setFlag (Reg.PRT_DESC p) Fld.PRT_DESC_hold false) p 1
  (s1.setReg r (s1.reg r ||| BitVec.ofNat 64 (2 ^ p))).modPart p (fun y => { y with reloaded := false })

/-- HOLDING begins and ends at a tick. -/
def stateTick (s : State) (p : Nat) : State :=
  let st := s.partState p
  if st = 4 && (s.part p).reloaded then reloadTick s p else
  if st = 1 && s.partHeld p then quiesceCheck (setPartState s p 2) p
  else if (st = 2 || st = 3) && !s.partHeld p then setPartState s p 1
  else if st = 2 then quiesceCheck s p
  else s

/-- A caravan of another instance than `i` runs or is held on partition `p`. -/
def State.othersRun (s : State) (p i : Nat) : Bool :=
  s.sched.cars.any (fun v => v.part.val == p && v.inst.val != i && (v.onCores || v.phase == .held || (v.phase == .admitted && v.overruns != 0)))

/-- Whole-job ownership takes effect in its two stages. -/
def ownTick (s : State) (p : Nat) : State :=
  let r := Reg.PRT_OWN p
  if !s.flag r Fld.PRT_OWN_pending then s
  else
    let i := s.get r Fld.PRT_OWN_instance
    let s1 := s.modPart p (fun y => { y with ownEff := true })
    if s1.othersRun p i then s1
    else ((s1.setFlag r Fld.PRT_OWN_pending false).setFlag r Fld.PRT_OWN_owned true).setFlag (Reg.PRT_INST i) Fld.PRT_INST_owns true

/-! ### Step 4: generation reads -/

/-- The scheduler reads the slot of instance `i` at this tick (R275, R306, R319, R383, R392). -/
def State.readsSlot (s : State) (i : Nat) : Bool :=
  let r := Reg.FRM_SLOT i
  let sp := s.get r Fld.FRM_SLOT_space
  s.flag r Fld.FRM_SLOT_active && s.instBound i && !s.flag (Reg.PRT_INST i) Fld.PRT_INST_unbinding &&
    s.partState (s.instPart i) == 1 && s.ownLets i && s.tdiState i != 1 && !s.errs.fatal && (sp == 0 || sp == 3 || s.portUp (sp - 1))

/-- Space, address and length of the read that the waybill reader is at for instance `i` (R265, R275); none where it reads nothing outside the
module's binding blocks. -/
def State.wayNext (s : State) (i : Nat) : Option (Nat × Nat × Nat) :=
  let x := s.instRd i
  let slot := s.get (Reg.FRM_SLOT i) Fld.FRM_SLOT_addr * 256
  let sp := s.get (Reg.FRM_SLOT i) Fld.FRM_SLOT_space
  let head (j : Nat) (addrs : List (Option W64)) : Nat := ((addrs[j]?.getD none).getD 0).toNat
  match x.stage with
  | .idle => none
  | .first => some (sp, slot, 4)
  | .gen => some (sp, slot, 4)
  | .slot _ => some (sp, slot + 4, 28)
  | .list _ => some (x.slot.listSpace, x.slot.list.toNat, 8 * x.slot.count)
  | .header _ j addrs => some (x.slot.listSpace, head j addrs, 64)
  | .legs _ j addrs h => some (x.slot.listSpace, head j addrs + 64, 64 * numAt h 0x20 1)
  | .binds .. => none

/-- Port of the read that the waybill reader is at for instance `i`, where it goes to host memory through the instance's own port and that is up
(R380, R383). -/
def State.wayPort (s : State) (i : Nat) : Option (Nat × Nat × Nat) :=
  match s.wayNext i with
  | some (sp, a, n) => if sp != 0 && sp != 3 && sp - 1 == s.instPort i && s.portUp (sp - 1) then some (sp - 1, a, n) else none
  | none => none

/-- That read leaves under the instance's PASID, once the port has room, unless it is outstanding. -/
def wayAsk (s : State) (i : Nat) : State :=
  match s.wayPort i with
  | some (p, a, n) =>
    if (s.instRd i).req.isSome || !s.portRoom p 1 then s
    else
      let r := hostAsk s p (some (i, s.instPasid i)) a n (.waybill (Fin.ofNat 1024 i))
      r.1.modInst i (fun x => { x with req := some r.2 })
  | none => s

def readTick (s : State) : State :=
  forEach ((List.range 1024).filter s.readsSlot) s (fun s i =>
    wayAsk (s.modInst i (fun x => if x.stage = .idle then { x with stage := if x.fresh then .first else .gen } else x)) i)

/-! ### Steps of the tick before the links and ports -/

/-- A power state reported by PWR_STATE; PWR(7) follows a change. -/
def setPwrState (s : State) (v : Nat) : State :=
  if s.get Reg.PWR_STATE Fld.PWR_STATE_state = v then s
  else raiseEdge ((settleCycles s).put Reg.PWR_STATE Fld.PWR_STATE_state v) primaryDie 0x167

/-- RUN passes to IDLE with no caravan running, held, admitted or queued (R438). -/
def idleTick (s : State) : State :=
  if s.get Reg.PWR_STATE Fld.PWR_STATE_state = 0 && s.sched.cars.all (fun v => v.phase == .saved) && s.sched.insts.all (fun e => e.2.taken.isEmpty) then
    setPwrState s 1
  else s

/-- The opening frame's slewing (R271): towards the instant at which a tick would follow its edge, by at most 0.5 µs. -/
def State.slewAt (s : State) (now : Nat) : Int :=
  match s.sched.lastEdge with
  | some e =>
    if !s.refMode || 2 ≤ s.sched.badEdges then 0
    else
      let n : Int := (s.get Reg.FRM_PERIOD Fld.FRM_PERIOD_period_us * 1000 : Nat)
      let late : Int := ((e + s.get Reg.FRM_REF Fld.FRM_REF_offset_ns : Nat) - (now : Int)) % max 1 n
      let d := if n < 2 * late then late - n else late
      max (-500) (min d 500)
  | none => 0

/-- Step 1 and the opening of the frame (R269, R270); the count never wraps (R532). -/
def openFrame (s : State) (now : Nat) : State :=
  let n := match s.sched.load with
    | some v => v
    | none => if s.reg Reg.FRM_COUNT = BitVec.allOnes 64 then BitVec.allOnes 64 else s.reg Reg.FRM_COUNT + 1
  let s1 := (refTick s now).setReg Reg.FRM_COUNT n
  let s2 : State := { s1 with sched := { s1.sched with load := none, t0 := now, len := s.get Reg.FRM_PERIOD Fld.FRM_PERIOD_period_us, slew := s1.slewAt now } }
  forEach (List.range 10) s2 (fun s d => raiseEdge s d 0x140)

/-- Steps 1 to 4 of Table 10-6, without the links and ports. -/
def schedTick (s : State) (now : Nat) : State :=
  let s1 := forEach s.sched.cars (openFrame s now) (fun s v => holdCar s v)
  let s2 : State := { s1 with sched := { s1.sched with cars := s1.sched.cars.map (fun v => { v with slow := false }) } }
  let s3 := forEach (List.range 512) s2 thrashSlice
  let s4 := heavyTick (predTick (spentTick (fmaxTick s3)))
  let s5 : State := { s4 with pwr := { s4.pwr with droopsFrame := [] } }
  let s6 := forEach (List.range 32) s5 (fun s p => (fgPart (ownTick (stateTick s p) p) p))
  let s7 := forEach (List.range 32) s6 (fun s p => s.modPart p (fun y => { y with admitDue := s.partState p == 1 }))
  readTick s7

/-! ### The waybill reader (R265, R274-R279) -/

/-- GiB `g` is a save pool or a mirror store, which only the device's own transfers reach (R300, R343). -/
def State.gibInner (s : State) (g : Nat) : Bool :=
  s.gmap g Fld.PRT_GMAP_valid == 1 && (s.gmap g Fld.PRT_GMAP_kind == 2 || (s.gmap g Fld.PRT_GMAP_mirrored == 1 && g % 2 == 1))

/-- Global address `a` names stacked memory of this module of which `n` bytes can be reached. -/
def State.ownMem (s : State) (a n : Nat) : Option Nat :=
  let m := a / 2 ^ 52 % 4096
  let x := a % 2 ^ 52
  if (m = 0xFFF || m = s.moduleId) && x + n ≤ s.topGib * 2 ^ 30 && !s.gibInner (x / 2 ^ 30) && !s.gibInner ((x + n - 1) / 2 ^ 30) then some x
  else none

/-- A read of the waybill reader in space `sp`: its bytes and poison; none where it fails (R380, R382). -/
def State.wayRead (s : State) (i sp a n : Nat) (d : List Byte) (ok poison : Bool) : Option (List Byte × Bool) :=
  if sp = 0 then (s.ownMem a n).map (fun x => s.currentBytes x n)
  else if sp = 3 || sp - 1 != s.instPort i || !s.portUp (sp - 1) || !ok || d.length < n then none
  else some (d.take n, poison)

/-- The same for a read whose poison makes it unusable. -/
def State.wayClean (s : State) (i sp a n : Nat) (d : List Byte) (ok poison : Bool) : Option (List Byte) :=
  match s.wayRead i sp a n d ok poison with
  | some (bs, false) => some bs
  | _ => none

def setStage (s : State) (i : Nat) (x : ReadStage) : State := s.modInst i (fun y => { y with stage := x })

/-- A failed slot read leaves the generation unchanged and reports (Table 14-3). -/
def slotFault (s : State) (i sp : Nat) : State :=
  setStage (if sp = 0 then s else s.setFlag (Reg.MBX_STATUS i) Fld.MBX_STATUS_slot_fault true) i .idle

/-- One caravan of the list has been read: LC candidates wait for admission, BE caravans join their queue (R283). -/
def takeCand (s : State) (i : Nat) (x : Cand) : State :=
  let lc := (s.instRd i).slot.lc
  if lc then s.modInst i (fun y => { y with taken := y.taken ++ [x] })
  else match x with
    | .refused tag untagged cause => refusal s i tag.toNat cause false untagged
    | .car v =>
      if 256 ≤ (s.part v.part.val).beq.length then refusal s i v.tag.toNat 7 false false
      else
        let k := s.sched.nextCar
        let s1 := s.modPart v.part.val (fun y => { y with beq := y.beq ++ [k] })
        { s1 with sched := { s1.sched with cars := s1.sched.cars ++ [{ v with id := k, phase := .queued }], nextCar := k + 1 } }

/-- Tag of a caravan whose header was not read (R289). -/
def bareTag (gen : BitVec 32) (j : Nat) : W64 := BitVec.ofNat 64 (gen.toNat + j * 2 ^ 32)

/-- The reader goes to the header of entry `j`, or on past entries that cannot be read; `left` bounds the entries. -/
def nextHeader : Nat → State → Nat → BitVec 32 → Nat → List (Option W64) → State
  | 0, s, i, _, _, _ => setStage s i .idle
  | left + 1, s, i, gen, j, addrs =>
    match addrs[j]? with
    | none => setStage s i .idle
    | some none => nextHeader left (takeCand s i (.refused (bareTag gen j) true 8)) i gen (j + 1) addrs
    | some (some _) => setStage s i (.header gen j addrs)

def afterHeader (s : State) (i : Nat) (gen : BitVec 32) (j : Nat) (addrs : List (Option W64)) : State :=
  nextHeader (addrs.length + 1) s i gen (j + 1) addrs

/-- Every caravan of a list is refused without its header being read. -/
def refuseList (s : State) (i : Nat) (gen : BitVec 32) (n cause : Nat) (lc : Bool) : State :=
  setStage (forEach (List.range n) s (fun s j => refusal s i (bareTag gen j).toNat cause lc true)) i .idle

/-- A ring that receipts can be written to: no reserved space or size, base aligned (Table 10-1). -/
def SlotInfo.ringFits (x : SlotInfo) : Bool :=
  x.ringSpace != 3 && 4 ≤ x.ringLog2 && x.ringLog2 ≤ 16 && x.ring.toNat % 4096 == 0

/-- The rest of the slot has been read (R274-R276). A reserved encoding in it refuses every caravan of the list FORMAT (R19, R279); where the
ring itself is unusable no room is waited for and the receipts fail to be written (DESIGN CHOICE, log 61). -/
def takeSlot (s : State) (i : Nat) (gen : BitVec 32) (b : List Byte) : State :=
  let at' (o n : Nat) : Nat := numAt b (o - 4) n
  let flags := at' 6 1
  let count := at' 7 1
  let x : SlotInfo := {
    lc := at' 4 1 == 0, irq := bit flags 0, listSpace := bits flags 2 1, ringSpace := bits flags 4 3, count := count,
    list := BitVec.ofNat 64 (at' 8 8), ring := BitVec.ofNat 64 (at' 0x10 8), ringLog2 := at' 0x18 1, vector := at' 0x1A 2,
    consumed := BitVec.ofNat 32 (at' 0x1C 4) }
  let r := Reg.FRM_INST_STATE i
  let used := (s.get r Fld.FRM_INST_STATE_produced + 2 ^ 32 - x.consumed.toNat) % 2 ^ 32 + (s.instRd i).owed
  if x.ringFits && decide (2 ^ x.ringLog2 < used + count) then
    (setStage s i .idle).setFlag (Reg.FRM_SLOT i) Fld.FRM_SLOT_ring_wait true |>.count Reg.FRM_CNT_RING_WAIT
  else
    let s1 := (s.put r Fld.FRM_INST_STATE_last_gen gen.toNat).setFlag (Reg.FRM_SLOT i) Fld.FRM_SLOT_ring_wait false
    let s2 := s1.modInst i (fun y => { y with slot := x, owed := y.owed + count })
    if count = 0 then setStage s2 i .idle
    else if at' 5 1 / 16 != 1 then refuseList s2 i gen count 6 x.lc
    else if 2 ≤ at' 4 1 || x.listSpace == 3 || 64 < count || !x.ringFits || (x.irq && 2048 ≤ x.vector) then refuseList s2 i gen count 5 x.lc
    else if x.list.toNat % 8 != 0 then refuseList s2 i gen count 8 x.lc
    else setStage s2 i (.list gen)

/-- The caravan list has been read. -/
def takeList (s : State) (i : Nat) (gen : BitVec 32) (d : List Byte) (ok poison : Bool) : State :=
  let x := (s.instRd i).slot
  let addrs : List (Option W64) := (List.range x.count).map (fun j =>
    (s.wayClean i x.listSpace (x.list.toNat + 8 * j) 8 (d.drop (8 * j)) ok poison).map (fun b => BitVec.ofNat 64 (ofBytes b)))
  nextHeader (addrs.length + 1) s i gen 0 addrs

/-- The leg records behind a header (Table 10-3). -/
def legRecs (b : List Byte) : List LegRec :=
  (List.range (b.length / 64)).map (fun j =>
    ⟨BitVec.ofNat 256 (numAt b (64 * j) 32), BitVec.ofNat 64 (numAt b (64 * j + 0x20) 8), BitVec.ofNat 64 (numAt b (64 * j + 0x28) 8),
      BitVec.ofNat 16 (numAt b (64 * j + 0x30) 2)⟩)

/-- What a header and its legs give a caravan (Table 10-2). -/
def State.carRead (s : State) (i : Nat) (h : List Byte) (legs : List LegRec) : Caravan :=
  { id := 0, inst := Fin.ofNat 1024 i, part := Fin.ofNat 32 (s.instPart i), lc := (s.instRd i).slot.lc,
    tag := BitVec.ofNat 64 (numAt h 0 8), cycles := BitVec.ofNat 32 (numAt h 8 4), tolls := BitVec.ofNat 32 (numAt h 12 4),
    dram := BitVec.ofNat 64 (numAt h 16 8), link := BitVec.ofNat 64 (numAt h 24 8), legs := legs, phase := .queued, resume := .running,
    level := none, since := 0, elapsed := 0, overruns := 0, ovCause := 0, ledWait := false, slow := false, ending := none,
    poisoned := false, spent := 0, leaves := [], last := [], done := [] }

/-- A leg names a row that it may not (R279). -/
def State.legRowsBad (s : State) (v : Caravan) (g : LegRec) : Bool :=
  let p := v.part.val
  let rows := maskRows g.rows.toNat
  rows.isEmpty || g.rows.toNat &&& s.rowsOf p != g.rows.toNat || rows.any (fun j => (List.range 10).all (fun k => !s.inService (j * 16 + k))) ||
    (v.lc && (g.rows.toNat &&& s.lcRowsOf p != g.rows.toNat || s.share p == 0))

/-- Legs of one caravan share a row. -/
def legsShare : List LegRec → Bool
  | [] => false
  | g :: l => l.any (fun h => g.rows &&& h.rows != 0) || legsShare l

/-- Causes that a leg record itself gives (R277-R279). -/
def State.legBad (s : State) (g : LegRec) : List Nat :=
  (if (s.ownMem g.entry.toNat 1).isNone || g.entry.toNat % 8 != 0 then [8] else []) ++
  (if 256 < g.nbind.toNat then [5]
   else if g.binding.toNat % 16 != 0 || s.topGib * 2 ^ 30 < g.binding.toNat + max 1 (16 * g.nbind.toNat) then [8] else [])

/-- The binding on this module lies within the partition's memory regions (R278, R279). -/
def State.bindOk (s : State) (p base len : Nat) (write : Bool) : Bool :=
  match s.ownMem base (max 1 len) with
  | none => false
  | some a => (List.range ((a + max 1 len - 1) / 2 ^ 30 - a / 2 ^ 30 + 1)).all (fun k => s.gibReach p (a / 2 ^ 30 + k) write)

/-- Causes that the binding block of a leg gives. -/
def State.blockBad (s : State) (p : Nat) (g : LegRec) : List Nat :=
  let r := s.currentBytes g.binding.toNat (16 * g.nbind.toNat)
  if r.2 then [8]
  else (List.range g.nbind.toNat).flatMap (fun k =>
    let b := slice r.1 (16 * k) 16
    let base := numAt b 0 8
    let acc := numAt b 14 2
    let here := base / 2 ^ 52 % 4096 == 0xFFF || base / 2 ^ 52 % 4096 == s.moduleId
    if here && !s.bindOk p base (numAt b 8 4) (bit acc 0) then [4] else [])

/-- Refusal causes in the order of R279: ADDRESS, FORMAT, ROWS, BINDING. -/
def firstCause (bad : List Nat) : Option Nat := [8, 5, 3, 4].find? (fun c => bad.contains c)

/-- The caravan has been read whole: refused or a candidate. -/
def endRead (s : State) (i : Nat) (gen : BitVec 32) (j : Nat) (addrs : List (Option W64)) (v : Caravan) (bad : List Nat) : State :=
  let rows := if v.legs.any (s.legRowsBad v) || legsShare v.legs then [3] else []
  let x : Cand := match firstCause (bad ++ rows) with
    | some c => .refused v.tag false c
    | none => .car v
  afterHeader (takeCand s i x) i gen j addrs

/-- The reader goes to the next binding block that is to be read; `left` bounds the legs. -/
def nextBinds : Nat → State → Nat → BitVec 32 → Nat → List (Option W64) → Caravan → Nat → List Nat → State
  | 0, s, i, gen, j, addrs, v, _, bad => endRead s i gen j addrs v bad
  | left + 1, s, i, gen, j, addrs, v, n, bad =>
    match v.legs[n]? with
    | none => endRead s i gen j addrs v bad
    | some g =>
      let b := s.legBad g
      if b.isEmpty && g.nbind != 0 then setStage s i (.binds gen j addrs v n bad)
      else nextBinds left s i gen j addrs v (n + 1) (bad ++ b)

/-- A read of the waybill reader has returned. -/
def wayTake (s : State) (i : Nat) (d : List Byte) (ok poison : Bool) : State :=
  let slotAt := s.get (Reg.FRM_SLOT i) Fld.FRM_SLOT_addr * 256
  let sp := s.get (Reg.FRM_SLOT i) Fld.FRM_SLOT_space
  let ls := (s.instRd i).slot.listSpace
  match (s.instRd i).stage with
  | .idle => s
  | .first =>
    match s.wayRead i sp slotAt 4 d ok poison with
    | none => slotFault s i sp
    | some (b, bad) =>
      let s1 := setStage s i .idle
      if bad then s1
      else (s1.modInst i (fun x => { x with fresh := false })).put (Reg.FRM_INST_STATE i) Fld.FRM_INST_STATE_last_gen (ofBytes b)
  | .gen =>
    match s.wayRead i sp slotAt 4 d ok poison with
    | none => slotFault s i sp
    | some (b, bad) =>
      if bad || ofBytes b = s.get (Reg.FRM_INST_STATE i) Fld.FRM_INST_STATE_last_gen then setStage s i .idle
      else setStage s i (.slot (BitVec.ofNat 32 (ofBytes b)))
  | .slot gen =>
    match s.wayRead i sp (slotAt + 4) 28 d ok poison with
    | none => slotFault s i sp
    | some (b, bad) => if bad then setStage s i .idle else takeSlot s i gen b
  | .list gen => takeList s i gen d ok poison
  | .header gen j addrs =>
    match s.wayClean i ls ((addrs[j]?.getD none).getD 0).toNat 64 d ok poison with
    | none => afterHeader (takeCand s i (.refused (bareTag gen j) true 8)) i gen j addrs
    | some h =>
      let n := numAt h 0x20 1
      if numAt h 8 4 = 0 || n = 0 || 16 < n then
        afterHeader (takeCand s i (.refused (BitVec.ofNat 64 (numAt h 0 8)) false 5)) i gen j addrs
      else setStage s i (.legs gen j addrs h)
  | .legs gen j addrs h =>
    match s.wayClean i ls (((addrs[j]?.getD none).getD 0).toNat + 64) (64 * numAt h 0x20 1) d ok poison with
    | none => afterHeader (takeCand s i (.refused (BitVec.ofNat 64 (numAt h 0 8)) false 8)) i gen j addrs
    | some b =>
      let v := s.carRead i h (legRecs b)
      nextBinds (v.legs.length + 1) s i gen j addrs v 0 []
  | .binds gen j addrs v n bad =>
    match v.legs[n]? with
    | none => endRead s i gen j addrs v bad
    | some g => nextBinds (v.legs.length + 1) s i gen j addrs v (n + 1) (bad ++ s.blockBad v.part.val g)

/-- A read of the waybill reader for instance `i` returns with these data, and the next one leaves. -/
def wayReturn (s : State) (i : Nat) (d : List Byte) (ok poison : Bool) : State :=
  wayAsk (wayTake (s.modInst i (fun x => { x with req := none })) i d ok poison) i

/-- WAYBILL_READ. A read of host memory returns only while its request is outstanding at the port; one that found no room leaves now. -/
def wayRead (s : State) (i : Nat) (d : List Byte) (ok poison : Bool) : State :=
  match s.wayPort i with
  | none => wayReturn s i d ok poison
  | some (p, _, _) =>
    match (s.instRd i).req with
    | none => wayAsk s i
    | some id =>
      match (s.port p).reqs.find? (fun r => r.id == id) with
      | some r => wayReturn (dropReq s p id) i d (ok && !r.dead) poison
      | none => wayAsk (s.modInst i (fun x => { x with req := none })) i

/-! ### Admission (R281) -/

/-- Budgets that remain: cycles, DRAM bytes, link bytes, tolls. -/
structure Budget where
  c : Nat
  d : Nat
  l : Nat
  t : Nat
deriving DecidableEq, Repr

def Budget.fits (b : Budget) (v : Caravan) : Bool :=
  v.cycles.toNat ≤ b.c && v.dram.toNat ≤ b.d && v.link.toNat ≤ b.l && v.tolls.toNat ≤ b.t

/-- The budget less a caravan's charges, at least 0. -/
def Budget.less (b : Budget) (v : Caravan) : Budget :=
  ⟨b.c - v.cycles.toNat, b.d - v.dram.toNat, b.l - v.link.toNat, b.t - v.tolls.toNat⟩

/-- The frame's budget at `ta`, charged with the held OVERRUN caravans. -/
def State.budgetAt (s : State) (p ta : Nat) : Budget :=
  let guard := s.sched.t0 + s.frameNs - s.get Reg.FRM_PERIOD Fld.FRM_PERIOD_period_us * 50
  let y := s.part p
  let b : Budget := ⟨min (s.budgetC p) ((guard - ta) * s.fgNow p / 1000), y.bd.toNat, y.bl.toNat, y.bt.toNat⟩
  (s.sched.cars.filter (fun v => v.part.val == p && v.lc && v.overruns != 0)).foldl Budget.less b

/-- One candidate: admitted, or refused with a cause. The Bool says whether an earlier one of its instance failed. -/
def admitOne (i : Nat) (a : State × Budget × Bool) (x : Cand) : State × Budget × Bool :=
  let (s, b, failed) := a
  match x with
  | .refused tag untagged cause => (refusal s i tag.toNat cause true untagged, b, failed)
  | .car v =>
    if failed then (refusal s i v.tag.toNat 2 true false, b, true)
    else if b.fits v then
      let k := s.sched.nextCar
      let s1 := (s.modPart v.part.val (fun y => { y with lcq := y.lcq ++ [k] })).count Reg.FRM_CNT_ADMIT
      let v1 : Caravan := { v with id := k, phase := .admitted }
      ({ s1 with
          sched := { s1.sched with cars := s1.sched.cars ++ [v1], nextCar := k + 1 }
          pwr := { s1.pwr with pred := mapSet (fun _ => 0) s1.pwr.pred k (s1.predOf v1) } }, b.less v, false)
    else (refusal s i v.tag.toNat 1 true false, b, true)

/-- Instances of partition `p` in the order in which admission visits them. -/
def State.visitOrder (s : State) (p : Nat) : List Nat :=
  let rot := s.get (Reg.FRM_BUDGET_T p) Fld.FRM_BUDGET_T_rot
  ((List.range 1024).map (fun k => (rot + k) % 1024)).filter (fun i => s.instPart i == p && !(s.instRd i).taken.isEmpty && s.ownLets i)

/-- Held caravans resume at ta (R282). -/
def resumeHeld (s : State) (p : Nat) : State :=
  let held := s.sched.cars.filter (fun v => v.part.val == p && v.lc && v.ending.isNone &&
    (v.phase == .held || (v.phase == .restoring && v.resume == .held)))
  let s1 := forEach held s (fun s v =>
    if v.phase = .restoring then
      forEach ((s.carCores v).filter (fun x => v.done.contains x.2)) (s.modCar v.id (fun w => { w with resume := .running })) (fun s x =>
        s.modCore x.2 (fun k => { k with held := false }))
    else if v.started then
      forEach (s.carCores v) (s.modCar v.id (fun w => { w with phase := .running, since := s.now })) (fun s x =>
        s.modCore x.2 (fun k => { k with held := false }))
    else s.modCar v.id (fun w => { w with phase := .admitted }))
  rateCheck s1

/-- Every read of the partition's instances is complete, and no BE caravan holds a row that a candidate names. -/
def State.admitReady (s : State) (p : Nat) : Bool :=
  (s.part p).admitDue && s.partState p == 1 &&
    s.sched.insts.all (fun e => s.instPart e.1 != p || e.2.stage == .idle) &&
    s.sched.cars.all (fun v => !(!v.lc && v.onCores && v.rows &&& s.candRows p != 0))

/-- ADMIT: admission of partition `p` at `ta`. -/
def admitCaravans (s : State) (p ta : Nat) : State :=
  if !s.admitReady p then s
  else
    let order := s.visitOrder p
    let lists := order.map (fun i => (i, (s.instRd i).taken))
    let s1 := forEach order s (fun s i => s.modInst i (fun y => { y with taken := [] }))
    let r := lists.foldl (fun (a : State × Budget) x =>
      let y := x.2.foldl (admitOne x.1) (a.1, a.2, false)
      (y.1, y.2.1)) (s1, s.budgetAt p ta)
    let b := r.2
    let rot := (s.get (Reg.FRM_BUDGET_T p) Fld.FRM_BUDGET_T_rot + 1) % 1024
    let s2 := (r.1.put (Reg.FRM_BUDGET_T p) Fld.FRM_BUDGET_T_rot rot).put (Reg.FRM_BUDGET_C p) Fld.FRM_BUDGET_C_remain (satTo 32 b.c)
    let s3 := ((s2.setReg (Reg.FRM_BUDGET_D p) (BitVec.ofNat 64 b.d)).setReg (Reg.FRM_BUDGET_L p) (BitVec.ofNat 64 b.l)).setReg
      (Reg.FRM_TOLLS p) (BitVec.ofNat 64 b.t)
    allowance (resumeHeld (s3.modPart p (fun y => { y with admitDue := false })) p)

/-! ### Starting and ending a caravan (R282, R283, R309) -/

/-- The lowest level of the caravan's class at which no other caravan's save area holds any of its rows. -/
def State.freeLevel (s : State) (v : Caravan) : Option Nat :=
  let p := v.part.val
  let taken (d : Nat) : Bool := s.sched.cars.any (fun w => w.id != v.id && w.part.val == p && w.level == some d && w.phase == .saved && w.rows &&& v.rows != 0)
  if v.lc then (if taken 0 then none else some 0)
  else ((List.range (s.levels p)).drop 1).find? (fun d => !taken d)

/-- The caravan may start now, but for its place in the queue. An LC caravan of another instance than the owner's starts where it was held before
(R306). -/
def State.canStart (s : State) (v : Caravan) : Bool :=
  !v.started && v.ending.isNone && s.partState v.part.val == 1 && s.coresGo && !s.errs.fatal &&
    (s.ownLets v.inst.val || (v.lc && v.overruns != 0)) && s.rowsFree v && (s.freeLevel v).isSome

/-- A saved BE caravan of the partition takes its rows ahead of `v`. -/
def State.savedAhead (s : State) (v : Caravan) : Bool :=
  s.sched.cars.any (fun w => !w.lc && w.part == v.part && w.rows &&& v.rows != 0 && s.restorable w)

/-- No queued BE caravan ahead of `v` could start now. -/
def State.queueTurn (s : State) (v : Caravan) : Bool :=
  ((s.part v.part.val).beq.takeWhile (fun k => k != v.id)).all (fun k => match s.carOf k with
    | some w => !s.canStart w
    | none => true) && !s.savedAhead v

def startCar (s : State) (v : Caravan) (level : Nat) : State :=
  let s1 := setPwrState s 0
  let s2 := s1.modCar v.id (fun w => { w with phase := .running, level := some level, since := s.now, elapsed := 0, slow := false })
  let s3 := s2.modPart v.part.val (fun y => { y with beq := y.beq.erase v.id })
  rateCheck (forEach (s3.carLegs v) s3 (fun s x => beginLeg s x.1 x.2.1 x.2.2))

def caravanStart (s : State) (k : Nat) : State :=
  match s.carOf k with
  | none => s
  | some v =>
    let ready := if v.lc then v.phase == .admitted && s.lcTurn v else v.phase == .queued && s.queueTurn v
    match s.freeLevel v with
    | some d => if ready && s.canStart v then startCar s v d else s
    | none => s

/-- CARAVAN_END: every core of every leg has ended its part. -/
def caravanEnd (s : State) (k : Nat) : State :=
  match s.carOf k with
  | none => s
  | some v =>
    if (v.phase == .running || v.phase == .held) && v.started && s.committed v then
      let st := s.carStatus v
      quiesceCheck (endCar s k st.1 st.2) v.part.val
    else s

/-! ### Receipts (R289-R291) -/

/-- The bytes of a receipt (Table 10-4). -/
def receiptBytes (r : Receipt) (seq log2 : Nat) : List Byte :=
  bytesOf 8 r.tag.toNat ++ bytesOf 4 seq ++ bytesOf 1 r.status ++ bytesOf 1 r.cause ++ bytesOf 1 r.overruns ++
    bytesOf 1 (seq / 2 ^ log2 % 2 + b2n r.lc * 2 + b2n r.untagged * 4) ++ bytesOf 4 r.frame ++ bytesOf 4 r.cycles ++
    bytesOf 4 r.addrErr ++ bytesOf 2 r.tolls ++ bytesOf 2 0

/-- The instance is unbound once the last receipt's write has been performed (R304); its PASID's translations are dropped first (R381). -/
def unbindDone (s0 : State) (i : Nat) : State :=
  let r := Reg.PRT_INST i
  let p := s0.instPort i
  let h := s0.port p
  let s := s0.setPort p { h with ats := h.ats.filter (fun e => e.pasid != s0.instPasid i) }
  (s.setFlag r Fld.PRT_INST_bound false).setFlag r Fld.PRT_INST_unbinding false

def unbindCheck (s : State) (i : Nat) : State :=
  let x := s.instRd i
  if !s.flag (Reg.PRT_INST i) Fld.PRT_INST_unbinding || !x.due.isEmpty || x.owed != 0 || !x.writes.isEmpty || x.flush ||
      s.host.zeroing.any (fun z => z.1 == i) then s
  else if x.slot.ringSpace != 0 && x.slot.ringFits && s.portUp (x.slot.ringSpace - 1) then
    (hostFlush s (x.slot.ringSpace - 1) none (.unbind (Fin.ofNat 1024 i))).modInst i (fun y => { y with flush := true })
  else unbindDone s i

/-- The ring cannot be written: the receipt still counts as written (Table 14-3). -/
def ringFault (s : State) (i : Nat) : State := s.setFlag (Reg.MBX_STATUS i) Fld.MBX_STATUS_ring_fault true

/-- The MSI-X message that follows a receipt (R291). -/
def receiptMsix (s : State) (i : Nat) (v : Option Nat) : State :=
  match v with
  | some n => (sendMsix s (s.instPort i) n (some i)).1
  | none => s

/-- A receipt goes to its ring, and its MSI-X message follows it: at once where it is a posted write or counts as written, else once the write has
been entered at its home. Its write to stacked memory has no requester key of its own (R195). -/
def ringWrite (s : State) (i : Nat) (x : SlotInfo) (seq : Nat) (bs : List Byte) : State :=
  let a := x.ring.toNat + 32 * (seq % 2 ^ x.ringLog2)
  let v := if x.irq then some x.vector else none
  if !x.ringFits then receiptMsix (ringFault s i) i v
  else if x.ringSpace = 0 then
    match s.ownMem a 32 with
    | none => receiptMsix (ringFault s i) i v
    | some m =>
      let l := lineOf m
      let d := linePut 0 (m % 128) 32 (ofBytes bs)
      let key : Key := ⟨s.gibOwner (m / 2 ^ 30), false, false⟩
      let s1 := s.send (epDieCtl primaryDie) (epSlice (s.home l)) l (.mwr (BitVec.ofNat 13 (0x1000 + primaryDie)) key d (byteMask (m % 128) 32) false)
      s1.modInst i (fun y => { y with writes := y.writes ++ [(l.toNat, v)] })
  else
    let p := x.ringSpace - 1
    if p != s.instPort i || !s.portUp p then receiptMsix (ringFault s i) i v
    else
      let r := hostWrite s p (some (i, s.instPasid i)) a bs false true
      receiptMsix (if r.2 then r.1 else ringFault r.1 i) i v

/-- The ratio of R446 follows a receipt. -/
def ratioUpdate (s : State) (i : Nat) (r : Receipt) : State :=
  if (r.status = 1 || r.status = 3) && r.declared != 0 then
    s.put (Reg.PWR_RATIO i) Fld.PWR_RATIO_r (ratioNext (s.get (Reg.PWR_RATIO i) Fld.PWR_RATIO_r) r.spent r.declared)
  else s

/-- RECEIPT_WRITE: the instance's oldest receipt is written, once it is the oldest of the device and its dirty bits have reached their bitmaps
(R289, R396). -/
def receiptWrite (s : State) (i : Nat) : State :=
  match (s.instRd i).due with
  | [] => s
  | r :: rest =>
    if s.dlogPending i || s.sched.dueq.head? != some i then s
    else
      let x := (s.instRd i).slot
      let seq := s.get (Reg.FRM_INST_STATE i) Fld.FRM_INST_STATE_produced
      let s0 : State := { s with sched := { s.sched with dueq := s.sched.dueq.drop 1 } }
      let s1 := s0.modInst i (fun y => { y with due := rest, owed := y.owed - 1 })
      let s2 := ringWrite s1 i x seq (receiptBytes r seq x.ringLog2)
      unbindCheck (ratioUpdate (s2.addWrap (Reg.FRM_INST_STATE i) Fld.FRM_INST_STATE_produced 1) i r) i

/-! ### The commands -/

/-- FRAME_REF_EDGE (R271). -/
def execFrameRefEdge (t : Nat) (s : State) : Result := .next (refEdge (s.at t) t)

/-- FRAME_REF_LOST (R271). -/
def execFrameRefLost (t : Nat) (s : State) : Result := .next (refLost (s.at t))

/-- WAYBILL_READ (R265, R275). -/
def execWaybillRead (i : InstId) (d : List Byte) (ok poison : Bool) (s : State) : Result := .next (wayRead s i.val d ok poison)

/-- ADMIT (R281). -/
def execAdmitCaravans (p : PartId) (ta : Nat) (s : State) : Result := .next (admitCaravans (s.at ta) p.val ta)

/-- CARAVAN_START (R282, R283). -/
def execCaravanStart (k now : Nat) (s : State) : Result := .next (caravanStart (s.at now) k)

/-- CARAVAN_END (R282). -/
def execCaravanEnd (k now : Nat) (s : State) : Result := .next (abortsGo (caravanEnd (s.at now) k))

/-- RECEIPT_WRITE (R289). -/
def execReceiptWrite (i : InstId) (now : Nat) (s : State) : Result := .next (receiptWrite (s.at now) i.val)

/-- A write of FRM_ABORT (R287). -/
def frmAbort (s : State) (i : Nat) (all : Bool) : State :=
  if s.sched.abort.isSome then s.setFlag Reg.FRM_ABORT_STATUS Fld.FRM_ABORT_STATUS_busy_drop true
  else abortStart s none i all (s.reg Reg.FRM_ABORT_TAG)

/-- FRM_ABORT (R287). -/
def execFrmAbort (i : InstId) (all : Bool) (s : State) : Result := .next (frmAbort s i.val all)

/-- FRM_COUNT_LOAD (R270). -/
def execFrmCountLoad (v : W64) (s : State) : Result := .next { s with sched := { s.sched with load := some v } }

end Sys2Proof.Machine
end

