-- ==== Sys2Proof/Machine/Partition.lean ====
section
/-!
DEFINITION. Partitions (chapter 11): binding and unbinding an instance (R303, R304, R385), whole-job ownership (R306, R307), hold and
release (R319), rows that pass between partitions (R301), teardown, a TDI's clearing (R393), contained and fatal errors (R470, R471).
-/
namespace Sys2Proof.Machine

/-! ### Teardown -/

/-- Caravans of instance `i` that have not ended are to end with `status` and `cause`, whatever they have reached. -/
def endInst (s : State) (i status cause : Nat) : State :=
  let s1 := (endCands s i status cause (fun _ => true)).1
  forEach (s1.carsOf i) s1 (fun s k => resolveCar s k status cause)

/-- The same for a partition: caravans that have been taken or read. -/
def endPart (s : State) (p status cause : Nat) : State :=
  let s1 := forEach ((List.range 1024).filter (fun i => s.instPart i == p)) s (fun s i => (endCands s i status cause (fun _ => true)).1)
  forEach ((s1.sched.cars.filter (fun v => v.part.val == p)).map (·.id)) s1 (fun s k => resolveCar s k status cause)

/-! ### Ownership (R306, R307) -/

/-- Ownership of partition `p` ends, or its request is withdrawn. -/
def ownEnd (s : State) (p : Nat) : State :=
  let r := Reg.PRT_OWN p
  let i := s.get r Fld.PRT_OWN_instance
  let s1 := (s.setFlag r Fld.PRT_OWN_owned false).setFlag r Fld.PRT_OWN_pending false
  (s1.setFlag (Reg.PRT_INST i) Fld.PRT_INST_owns false).modPart p (fun y => { y with ownEff := false })

/-- Instance `i` owns partition `p` or has a request accepted. -/
def State.owning (s : State) (p i : Nat) : Bool :=
  let r := Reg.PRT_OWN p
  (s.flag r Fld.PRT_OWN_owned || s.flag r Fld.PRT_OWN_pending) && s.get r Fld.PRT_OWN_instance == i

/-- A request for instance `i` on partition `p` is refused. -/
def State.ownRefused (s : State) (p i : Nat) : Bool :=
  let r := Reg.PRT_OWN p
  s.flag r Fld.PRT_OWN_pending || (s.flag r Fld.PRT_OWN_owned && s.get r Fld.PRT_OWN_instance != i) ||
    !s.instBound i || s.flag (Reg.PRT_INST i) Fld.PRT_INST_unbinding || s.instPart i != p

/-- A request for whole-job ownership. An owner's own request changes nothing. -/
def ownRequest (s : State) (p i : Nat) : State :=
  let r := Reg.PRT_OWN p
  if s.ownRefused p i then s.setFlag r Fld.PRT_OWN_refused true
  else if s.flag r Fld.PRT_OWN_owned then s
  else (s.put r Fld.PRT_OWN_instance i).setFlag r Fld.PRT_OWN_pending true

/-! ### Reading stops -/

/-- Caravans of the list being read that have not been read yet. -/
def ReadStage.unread (x : ReadStage) (count : Nat) : Nat :=
  match x with
  | .list _ => count
  | .header _ j _ => count - j
  | .legs _ j _ _ => count - j
  | .binds _ j _ _ _ _ => count - j
  | _ => 0

/-- The reader drops what it was reading for instance `i`. -/
def stopReading (s : State) (i : Nat) : State :=
  s.modInst i (fun x => { x with stage := .idle, req := none, owed := x.owed - x.stage.unread x.slot.count })

/-- The slot of instance `i` becomes active or inactive (R273, Table 10-12). -/
def slotActive (s : State) (i : Nat) (on : Bool) : State :=
  let was := s.flag (Reg.FRM_SLOT i) Fld.FRM_SLOT_active
  let s1 := s.setFlag (Reg.FRM_SLOT i) Fld.FRM_SLOT_active on
  if on && !was then (s1.put (Reg.FRM_INST_STATE i) Fld.FRM_INST_STATE_produced 0).modInst i (fun x => { x with fresh := true })
  else if !on && was then (stopReading s1 i).modInst i (fun x => { x with fresh := false })
  else s1

/-! ### TDIs (R392, R393) -/

def setTdi (s : State) (i v : Nat) : State := s.put (Reg.MBX_ID i) Fld.MBX_ID_tdi_state v

/-- From CONFIG_LOCKED until the next CONFIG_UNLOCKED the configuration is locked. -/
def State.tdiLocked (s : State) (i : Nat) : Bool := s.tdiState i != 0

/-- Instances of partition `p` whose TDI is locked. -/
def State.partLocked (s : State) (p : Nat) : Bool :=
  (List.range 1024).any (fun i => s.instBound i && s.instPart i == p && s.tdiLocked i)

/-- The clearing of a TDI begins: its caravans end; `unlock`: CONFIG_UNLOCKED follows. -/
def tdiClear (s : State) (i : Nat) (unlock : Bool) : State :=
  let s1 := setTdi (endInst s i 4 2) i 3
  let z := (s1.host.zeroing.filter (fun x => x.1 != i)) ++ [(i, unlock || s1.host.zeroing.any (fun x => x.1 == i && x.2))]
  { s1 with host := { s1.host with zeroing := z } }

/-- The TDI enters ERROR (R393). -/
def tdiError (s : State) (i : Nat) : State :=
  if s.tdiState i = 1 || s.tdiState i = 2 then tdiClear s i false else s

/-- A change of a partition's section puts its locked TDI into ERROR. -/
def partTdiError (s : State) (p : Nat) : State :=
  forEach ((List.range 1024).filter (fun i => s.instBound i && s.instPart i == p)) s tdiError

/-- GiB `g` holds zero everywhere: memory, and every copy of its lines. -/
def zeroGib (s : State) (g : Nat) : State :=
  let a := g * 2 ^ 30
  let mine (l : LineNo) : Bool := l.toNat / 2 ^ 23 == g
  let s1 := clearRange s a (2 ^ 30)
  let zero : LineData := ⟨0, false⟩
  let ways := s1.llc.ways.filterMap (fun e => match e.2 with
    | some w => if !mine w.line then some e
      else if w.isHome then some (e.1, some ({ w with ld := zero, dirty := false, bad := none }.withDir Dir.empty)) else none
    | none => some e)
  let buf (m : List (Nat × List VbEnt)) : List (Nat × List VbEnt) := m.map (fun e => (e.1, e.2.map (fun x => if mine x.line then { x with ld := zero } else x)))
  let cores := s1.cores.map (fun e => (e.1, { e.2 with
    l1 := e.2.l1.filter (fun x => match x.2 with | some y => !mine y.line | none => true) }))
  { s1 with
    cores := cores
    llc := { s1.llc with
      ways := ways, vbuf := buf s1.llc.vbuf, rbuf := buf s1.llc.rbuf,
      shadows := s1.llc.shadows.filter (fun e => match e.2 with | some x => !mine x.line | none => true) }
    stk := { s1.stk with wr := s1.stk.wr.map (fun x => if x.1 / 2 ^ 23 = g then (x.1, zero) else x) } }

/-- GiBs of kind normal of partition `p`. -/
def State.normalGibs (s : State) (p : Nat) : List Nat :=
  (List.range 3072).filter (fun g => s.gmap g Fld.PRT_GMAP_valid == 1 && s.gmap g Fld.PRT_GMAP_kind == 0 && s.gmap g Fld.PRT_GMAP_partition == p)

/-- The GiB is being zeroed for a TDI: denied to everyone. -/
def State.gibZeroing (s : State) (g : Nat) : Bool :=
  s.host.zeroing.any (fun z => s.gmap g Fld.PRT_GMAP_partition == s.instPart z.1) && s.gmap g Fld.PRT_GMAP_valid == 1 &&
    s.gmap g Fld.PRT_GMAP_kind == 0

/-- Cores of partition `p`'s rows. -/
def State.partCores (s : State) (p : Nat) : List Nat := s.coresIn.filter (s.coreOfPart p)

/-- The clearing ends, once every caravan of the instance has ended: steps 2 to 4 of R301 on every slot, and zeros (R393). -/
def tdiCleared (s : State) (i : Nat) : State :=
  match s.host.zeroing.find? (fun z => z.1 == i) with
  | none => s
  | some z =>
    if !(s.carsOf i).isEmpty then s
    else
      let p := s.instPart i
      let s1 := forEach (s.partCores p) s (fun s c => clearSeq (clearArrays s c) c)
      let s2 := forEach (s.normalGibs p) s1 zeroGib
      let s3 : State := { s2 with host := { s2.host with zeroing := s2.host.zeroing.filter (fun x => x.1 != i), tdiStream := s2.host.tdiStream.filter (fun x => !(z.2 && x.1 == i)) } }
      if z.2 then unbindCheck (setTdi s3 i 0) i else s3

/-! ### Instances (R303, R304) -/

/-- Both directions of the mailbox start over (R385). -/
def mailboxClear (s : State) (i : Nat) : State :=
  let s1 := ((s.setReg (Reg.MBX_T2M i) 0).setReg (Reg.MBX_M2T i) 0).setReg (Reg.MBX_STATUS i) 0
  forEach (List.range 16) s1 (fun s n => forEach (List.range 8) s (fun s w =>
    (s.setReg (Reg.MBX_T2M_SLOT i n w) 0).setReg (Reg.MBX_M2T_SLOT i n w) 0))

/-- The binding is refused. -/
def State.bindRefused (s : State) (i port : Nat) (pasid : BitVec 20) (p : Nat) : Bool :=
  2 ≤ port || s.partState p != 1 || s.partLocked p ||
    (List.range 1024).any (fun j => j != i && s.instBound j && s.instPort j == port && s.instPasid j == pasid)

def instanceBind (s : State) (i port : Nat) (pasid : BitVec 20) (p : Nat) : State :=
  let r := Reg.PRT_INST i
  if s.instBound i then s
  else
    let s1 := (s.put r Fld.PRT_INST_pasid pasid.toNat).put r Fld.PRT_INST_partition p
    let s2 := if port < 2 then s1.put r Fld.PRT_INST_port port else s1
    if s.bindRefused i port pasid p then s2.setFlag r Fld.PRT_INST_bind_err true
    else
      let s3 := mailboxClear (s2.setFlag r Fld.PRT_INST_bound true) i
      let s3 : State := { s3 with pwr := { s3.pwr with hist := setDel s3.pwr.hist i } }
      let s4 := (s3.put (Reg.PWR_RATIO i) Fld.PWR_RATIO_r 256).put (Reg.PWR_RATIO i) Fld.PWR_RATIO_warm 0
      s4.modInst i (fun x => { x with stage := .idle, slot := SlotInfo.empty, taken := [], owed := 0, due := [], writes := [], flush := false, req := none })

/-- Steps 1 to 3 of R304; the last follows the last receipt. -/
def instanceUnbind (s : State) (i : Nat) : State :=
  let r := Reg.PRT_INST i
  if !s.instBound i || s.flag r Fld.PRT_INST_unbinding then s
  else
    let s1 := if s.tdiLocked i then tdiClear s i true else s
    let s2 := slotActive (s1.setFlag r Fld.PRT_INST_unbinding true) i false
    let s3 := endInst { s2 with sched := { s2.sched with abortQ := s2.sched.abortQ.filter (fun x => x.1.val != i) } } i 4 2
    let s4 := if s3.owning (s3.instPart i) i then ownEnd s3 (s3.instPart i) else s3
    unbindCheck s4 i

/-! ### Hold (R319) -/

/-- A released hold takes effect at the next tick; a partition that a contained error holds keeps it (R470). -/
def partRelease (s : State) (p : Nat) : State :=
  if (s.part p).stuck then s else s.setFlag (Reg.PRT_DESC p) Fld.PRT_DESC_hold false

def partHold (s : State) (p : Nat) : State := s.setFlag (Reg.PRT_DESC p) Fld.PRT_DESC_hold true

/-! ### Contained and fatal errors (R470, R471) -/

/-- A contained error of partition `p`: held until a reload, its caravans ended FAULT with `cause` (4 CONTAINED, 5 DIE_LOST). -/
def containPart (s : State) (p cause : Nat) : State :=
  if s.partState p = 0 then s
  else endPart ((partHold s p).modPart p (fun y => { y with stuck := true })) p 6 cause

/-- A contained error of the caravan that core `c` runs. -/
def containCar (s : State) (c : Nat) : State :=
  match (s.core c).leg with
  | some g => resolveCar s g.car 6 4
  | none => s

/-- Every caravan of a list ends at once with a status. -/
def endAll (s : State) (status cause : Nat) : State :=
  let s1 := forEach ((List.range 1024).filter (fun i => !(s.instRd i).taken.isEmpty)) s (fun s i => (endCands s i status cause (fun _ => true)).1)
  forEach (s1.sched.cars.map (·.id)) s1 (fun s k => endCar s k status cause)

/-- Cores stop: what is queued is discarded, what has started completes. -/
def stopCores (s : State) : State :=
  forEach (s.cores.map (·.1)) s (fun s c => s.modCore c (fun k => { k with meq := [], veq := [], mvq := [] }))

/-- A fatal error of the module. -/
def fatalError (s : State) : State :=
  if s.errs.fatal then s
  else
    let s1 := endAll (stopCores { s with errs := { s.errs with fatal := true } }) 6 5
    let s2 := forEach ((List.range 1024).filter (fun i => (s1.instRd i).stage != .idle)) s1 stopReading
    forEach [0, 1] s2 (fun s p => if s.portUp p then (aerLog s p .internal).out (.fatal p) else s)

/-! ### The commands -/

/-- INSTANCE_BIND (R303). -/
def execInstanceBind (i : InstId) (port : BitVec 2) (pasid : BitVec 20) (p : PartId) (s : State) : Result :=
  .next (instanceBind s i.val port.toNat pasid p.val)

/-- INSTANCE_UNBIND (R304). -/
def execInstanceUnbind (i : InstId) (s : State) : Result := .next (instanceUnbind s i.val)

/-- OWN_REQUEST (R306). -/
def execOwnRequest (p : PartId) (i : InstId) (s : State) : Result := .next (ownRequest s p.val i.val)

/-- OWN_END (R307). -/
def execOwnEnd (p : PartId) (s : State) : Result := .next (ownEnd s p.val)

/-- PARTITION_HOLD (R319). -/
def execPartitionHold (p : PartId) (s : State) : Result := .next (partHold s p.val)

/-- PARTITION_RELEASE (R319). -/
def execPartitionRelease (p : PartId) (s : State) : Result := .next (partRelease s p.val)

end Sys2Proof.Machine
end

