-- ==== Sys2Proof/Machine/HostPort.lean ====
section
/-!
DEFINITION. The host ports (chapter 14) but for inbound requests: completions and links (R382, R383, R548), ATS (R381), MSI-X masks (R384),
mailboxes (R387-R390), TDISP (R391-R393), dirty logging (R395, R396).
-/
namespace Sys2Proof.Machine

/-! ### Completions (R382, R414) -/

/-- A load through a remote window fails: it returns zero and the caravan has lost a request. -/
def windowLost (s : State) (c : Nat) : State := s.setFlag (Reg.CORE_REMOTE c) Fld.CORE_REMOTE_lost true

/-- What a completed or failed request of port `p` was for. -/
def hostDone (s : State) (p : Nat) (r : HostReq) (ok : Bool) (d : List Byte) (ep : Bool) : State :=
  match r.what with
  | .piece c t => moverFlushed s c t.toNat p ok
  | .source c t key => moverSource s c t.toNat key (if ok && 128 ≤ d.length then some ⟨lineOfBytes (d.take 128), ep⟩ else none)
  | .waybill i => if (s.instRd i.val).req == some r.id then wayReturn s i.val d ok ep else s
  | .winLoad c id pos len =>
    if ok && len ≤ d.length then loadPart s c id pos len (ofBytes (d.take len)) ep
    else loadDead (windowLost s c) c id len
  | .flush c => if ok then s else windowLost (writeFailed s c 3) c
  | .unbind i => unbindDone (s.modInst i.val (fun y => { y with flush := false })) i.val

/-- An IDE stream of port `p` becomes insecure (R382, R383); a TDI that uses it enters ERROR (R393). -/
def streamFails (s : State) (p k : Nat) : State :=
  let st := setDel (s.port p).streams k
  let r := Reg.HIF_PORT p
  let s1 := ((s.setPort p { s.port p with streams := st }).setFlag r Fld.HIF_PORT_ide_link (setHas st 0)).put r Fld.HIF_PORT_ide_sel
    (st.filter (1 ≤ ·)).length
  forEach ((List.range 1024).filter (fun i => s.instBound i && s.instPort i == p && s.host.tdiStream.any (fun e => e.1 == i && e.2 + 1 == k))) s1
    tdiError

/-- What an ended request logs under AER (Table 14-3). -/
def cplLog (s : State) (p : Nat) (st : HostCpl) (ep : Bool) : State :=
  let s1 := match st with
    | .ok => s
    | .ur => aerLog s p .unsupported
    | .ca => aerLog s p .abort
    | .timeout => aerLog s p .timeout
    | .ide _ => aerLog s p .ideCheck
  if ep then aerLog s1 p .poisoned else s1

/-- Instances whose unbind waits for room at a port go on. -/
def unbindsGo (s : State) : State :=
  forEach ((List.range 1024).filter (fun i => s.flag (Reg.PRT_INST i) Fld.PRT_INST_unbinding)) s unbindCheck

/-- Request `id` of port `p` ends. A completion that fails its integrity check is dropped, and its request stays until it times out; one that nothing
outstanding waits for is unexpected and discarded. -/
def hostCompletion (s : State) (p id : Nat) (st : HostCpl) (d : List Byte) (ep : Bool) : State :=
  match st with
  | .ide k => streamFails (cplLog s p st false) p k.val
  | _ =>
    match (s.port p).reqs.find? (fun r => r.id == id) with
    | some r =>
      let full := !s.portRoom p 1
      let s1 := hostDone (dropReq (cplLog s p st ep) p id) p r (st == .ok && !r.dead) d ep
      if full then unbindsGo s1 else s1
    | none => aerLog s p .unexpected

/-! ### Dirty logging (R395, R396) -/

/-- busy shows whether bits remain; a hold may have waited for them. -/
def dlogSettle (s : State) (i : Nat) : State :=
  quiesceCheck (s.setFlag (Reg.HIF_DLOG_CTL i) Fld.HIF_DLOG_CTL_busy (s.dlogPending i)) (s.instPart i)

def dlogFault (s : State) (i : Nat) : State :=
  (s.setFlag (Reg.HIF_DLOG_CTL i) Fld.HIF_DLOG_CTL_map_fault true).setFlag (Reg.HIF_DLOG_CTL i) Fld.HIF_DLOG_CTL_unranged true

def setDlog (s : State) (f : DlogWord → DlogWord) : State := { s with host := { s.host with dlog := s.host.dlog.map f } }

/-- Host address of a bitmap word. -/
def State.dlogAddr (s : State) (x : DlogWord) : Nat := s.get (Reg.HIF_DLOG_MAP x.inst x.range) Fld.HIF_DLOG_MAP_addr * 8 + 8 * x.word

/-- One word's CAS leaves with every bit gathered for it; on a port that is down it fails. -/
def dlogCas (s : State) (x : DlogWord) : State :=
  let p := s.instPort x.inst
  let b := x.bits ||| x.out.getD 0
  let me (y : DlogWord) : Bool := y.inst == x.inst && y.range == x.range && y.word == x.word
  if s.portUp p then
    setDlog (s.out (.hostCas p (s.dlogAddr x) x.last (x.last ||| b))) (fun y => if me y then { y with last := x.last, bits := 0, out := some b } else y)
  else dlogFault (setDlog s (fun y => if me y then { y with bits := 0, out := none } else y)) x.inst

/-- DIRTY_BITMAP_UPDATE: a CAS for each bitmap word of the instance that holds bits and has none outstanding. -/
def dirtyUpdate (s : State) (i : Nat) : State :=
  dlogSettle (forEach (s.host.dlog.filter (fun x => x.inst == i && x.bits != 0 && x.out.isNone)) s dlogCas) i

/-- DLOG_CAS_COMPLETE: the word is up to date, or the CAS is sent again with the value it found. -/
def dlogComplete (s : State) (i r n : Nat) (ok : Bool) (old : W64) : State :=
  let me (y : DlogWord) : Bool := y.inst == i && y.range == r && y.word == n
  match s.host.dlog.find? (fun y => me y && y.out.isSome) with
  | none => s
  | some x =>
    let s1 := if !ok then dlogFault (setDlog s (fun y => if me y then { y with out := none } else y)) i
      else if old = x.last then setDlog s (fun y => if me y then { y with last := x.last ||| x.out.getD 0, out := none } else y)
      else dlogCas s { x with last := old }
    dlogSettle s1 i

/-- The CAS outstanding on a port that goes down fail. -/
def dlogPortLost (s : State) (p : Nat) : State :=
  let hit (x : DlogWord) : Bool := x.out.isSome && s.instPort x.inst == p
  forEach ((s.host.dlog.filter hit).map (·.inst)).eraseDups (setDlog s (fun x => if hit x then { x with out := none } else x)) (fun s i =>
    dlogSettle (dlogFault s i) i)

/-! ### Links (R383, R494, R548) -/

/-- The die of host port `p`. -/
def portDie (p : Nat) : Nat := 8 + p

def readyPort (p : Nat) : Fld := if p = 0 then Fld.BOOT_READY0_p0 else Fld.BOOT_READY0_p1

/-- The ready bits of the host ports (Table 19-3). -/
def portReady (s : State) : State :=
  forEach [0, 1] s (fun s p => s.setFlag Reg.BOOT_READY0 (readyPort p) (s.portUp p && 1 ≤ s.stage))

/-- The PCI Express layers of port `p` return to their reset values; every request outstanding there fails (R383). -/
def portReset (s : State) (p : Nat) : State :=
  let reqs := (s.port p).reqs
  forEach reqs (s.setPort p { HostPort.reset with nextReq := (s.port p).nextReq }) (fun s r => hostDone s p r false [] false)

/-- The link of port `p` goes down. -/
def portDown (s : State) (p : Nat) : State :=
  if !s.portUp p then portReset s p
  else
    let s1 := s.setReg (Reg.HIF_PORT p) (Fld.HIF_PORT_down_seen.put 0 1)
    let s2 := portReset (portReady (setLevel s1 (portDie p) 0x203 true)) p
    let s3 := dlogPortLost s2 p
    forEach ((List.range 1024).filter (fun i => s3.instBound i && s3.instPort i == p)) s3 tdiError

/-- Port `p` can train: its die runs, PERST_N is deasserted, and no trip holds the module (Table 19-6). -/
def State.portTrains (s : State) (p : Nat) : Bool :=
  1 ≤ s.stage && !s.host.perst && !s.pwr.trip && !s.ceral.isolated.contains (portDie p) &&
    (portDie p == primaryDie || s.boot.released.contains (portDie p))

/-- The highest rate code at which a host port trains: 128 GT/s, in RECOVERY 32 GT/s (R372, R520). -/
def State.rateTop (s : State) : Nat := if s.stage = 8 then 5 else 7

/-- HOST_LINK_UP: link and configuration as trained and programmed by the host, within what the capabilities advertise (Table 14-1, R378):
Max Payload Size to 512 B, Max Read Request Size to 4,096 B, BAR2 from 1 GiB to 4 TiB. -/
def linkUp (s : State) (p rate width : Nat) (flit ats msix fmask : Bool) (mps mrrs bar2 : Nat) : State :=
  if s.portUp p || !s.portTrains p || rate < 5 || s.rateTop < rate || !([1, 3, 4, 5].contains width) then s
  else
    let r := Reg.HIF_PORT p
    let s1 := ((s.setFlag r Fld.HIF_PORT_up true).put r Fld.HIF_PORT_rate rate).put r Fld.HIF_PORT_width width
    let s2 := (s1.setFlag r Fld.HIF_PORT_flit (flit || 6 ≤ rate)).setFlag r Fld.HIF_PORT_ats_en ats
    portReady (s2.setPort p { s2.port p with
      msixEn := msix, fmask := fmask, mps := min mps 2, mrrs := min mrrs 5, bar2 := if 30 ≤ bar2 && bar2 ≤ 42 then bar2 else 42 })

/-! ### ATS (R381) -/

/-- An Invalidate Request: the translations go; its completion waits for the non-posted requests issued under them (posted ones have been sent).
A request beyond the Invalidate Queue Depth of 32 (Table 14-1) is not taken. -/
def invalidate (s : State) (p : Nat) (itag : BitVec 5) (pasid : BitVec 20) (va len : Nat) : State :=
  let h := s.port p
  if 32 ≤ h.inval.length then s else
  let hit (e : AtsEnt) : Bool := e.pasid == pasid && e.va < va + len && va < e.va + e.len
  let wait := (h.reqs.filter (fun r => r.pasid == some pasid && va < r.addr + max 1 r.len && r.addr < va + len)).map (·.id)
  s.setPort p { h with ats := h.ats.filter (fun e => !hit e), inval := h.inval ++ [⟨itag, wait⟩] }

/-- The Invalidate Completion is sent once nothing is waited for. -/
def invalidated (s : State) (p : Nat) (itag : BitVec 5) : State :=
  let h := s.port p
  match h.inval.find? (fun x => x.itag == itag && x.wait.isEmpty) with
  | some x => (s.setPort p { h with inval := h.inval.erase x }).out (.invalidated p itag)
  | none => s

/-! ### MSI-X masks (R384) -/

/-- Pending messages of port `p` that nothing masks are sent. -/
def msixGo (s : State) (p : Nat) : State :=
  let h := s.port p
  if !h.msixEn || h.fmask then s
  else forEach (h.pba.filter (fun v => !(h.vec v).mask)) s (fun s v =>
    (s.setPort p { s.port p with pba := setDel (s.port p).pba v }).out (.msix p v (s.msixTlp p v)))

/-- A vector, or the function, is unmasked. -/
def msixUnmask (s : State) (p : Nat) (v : Option Nat) : State :=
  let h := s.port p
  msixGo (match v with
    | some n => s.setPort p { h with msix := mapSet (fun _ => MsixEnt.reset) h.msix n { h.vec n with mask := false } }
    | none => s.setPort p { h with fmask := false }) p

/-! ### Mailboxes (R386-R390) -/

/-- next and acked or consumed of a direction. -/
def State.mbxSeq (s : State) (i : Nat) (m2t : Bool) : Nat × Nat :=
  if m2t then (s.get (Reg.MBX_M2T i) Fld.MBX_M2T_next, s.get (Reg.MBX_M2T i) Fld.MBX_M2T_consumed)
  else (s.get (Reg.MBX_T2M i) Fld.MBX_T2M_next, s.get (Reg.MBX_T2M i) Fld.MBX_T2M_acked)

/-- Distance from `a` to `b` modulo 65,536. -/
def seqGap (a b : Nat) : Nat := (b + 65536 - a) % 65536

/-- Slot `n` holds a posted message that the receiver has not acknowledged. -/
def State.slotHeld (s : State) (i : Nat) (m2t : Bool) (n : Nat) : Bool :=
  let q := s.mbxSeq i m2t
  decide ((n + 16 - q.2 % 16) % 16 < seqGap q.2 q.1)

def mbxSlotReg (i : Nat) (m2t : Bool) (n w : Nat) : Nat := if m2t then Reg.MBX_M2T_SLOT i n w else Reg.MBX_T2M_SLOT i n w

/-- A write that R387 drops. -/
def mbxDrop (s : State) (i : Nat) : State := s.incSat (Reg.MBX_STATUS i) Fld.MBX_STATUS_drops

/-- The receiver is notified of a post, where that is enabled. -/
def mbxNotify (s : State) (i : Nat) (m2t : Bool) : State :=
  let r := Reg.MBX_IRQ i
  if m2t then
    if s.flag r Fld.MBX_IRQ_m2t_en then (sendMsix s (s.instPort i) (s.get r Fld.MBX_IRQ_m2t_vec) (some i)).1 else s
  else if s.flag r Fld.MBX_IRQ_t2m_en then (sendMsix s (s.instPort i) (s.get r Fld.MBX_IRQ_t2m_vec) none).1 else s

/-- A write of word 0 of slot `n` posts a message, or is dropped (R387). -/
def mbxPost (s : State) (i : Nat) (m2t : Bool) (n : Nat) (w : W64) : State :=
  let seq := bits w.toNat 15 0
  let q := s.mbxSeq i m2t
  if seq = q.1 && seq % 16 = n && seqGap q.2 q.1 < 16 && s.get (Reg.MBX_VER i) Fld.MBX_VER_major != 0 && bits w.toNat 23 16 ≤ 56 then
    let s1 := s.setReg (mbxSlotReg i m2t n 0) w
    let s2 := if m2t then s1.put (Reg.MBX_M2T i) Fld.MBX_M2T_next (seq + 1) else s1.put (Reg.MBX_T2M i) Fld.MBX_T2M_next (seq + 1)
    mbxNotify s2 i m2t
  else mbxDrop s i

/-- A write of bytes `be` of payload word `w` of slot `n`. -/
def mbxPayload (s : State) (i : Nat) (m2t : Bool) (n w : Nat) (be v : W64) : State :=
  if s.slotHeld i m2t n then mbxDrop s i
  else
    let r := mbxSlotReg i m2t n w
    s.setReg r ((s.reg r &&& ~~~ be) ||| (v &&& be))

/-- The receiver returns messages by writing acked or consumed; a value beyond next is reserved (R388). -/
def mbxReturn (s : State) (i : Nat) (m2t : Bool) (v : Nat) : State :=
  let q := s.mbxSeq i m2t
  if seqGap q.2 v ≤ seqGap q.2 q.1 then
    (if m2t then s.put (Reg.MBX_M2T i) Fld.MBX_M2T_consumed v else s.put (Reg.MBX_T2M i) Fld.MBX_T2M_acked v)
  else s

/-- The tenant states its majors; the device supports 1.0 (R389, R514). -/
def mbxVersion (s : State) (i hi lo : Nat) : State :=
  let r := Reg.MBX_VER i
  let s1 := (s.put r Fld.MBX_VER_ten_max hi).put r Fld.MBX_VER_ten_min lo
  (s1.put r Fld.MBX_VER_major (b2n (decide (lo ≤ 1) && decide (1 ≤ hi)))).put r Fld.MBX_VER_minor 0

/-- MBX_REQ op 1. -/
def tenantOwn (s : State) (i : Nat) : State :=
  let p := s.instPart i
  let s1 := ownRequest s p i
  if s.ownRefused p i then s1.setFlag (Reg.MBX_STATUS i) Fld.MBX_STATUS_own_refused true else s1

/-- MBX_REQ op 2. -/
def tenantRelease (s : State) (i : Nat) : State := if s.owning (s.instPart i) i then ownEnd s (s.instPart i) else s

/-- An abort of instance `i` is unresolved. -/
def State.abortOpen (s : State) (i : Nat) : Bool :=
  s.sched.abortQ.any (fun x => x.1.val == i) || (match s.sched.abort with
    | some a => a.tenant == some (Fin.ofNat 1024 i)
    | none => false)

/-- MBX_REQ ops 3 and 4. -/
def tenantAbort (s : State) (i : InstId) (all : Bool) : State :=
  if s.abortOpen i.val then s.setFlag (Reg.MBX_STATUS i.val) Fld.MBX_STATUS_abort_busy_drop true
  else
    let tag := s.reg (Reg.MBX_ABORT_TAG i.val)
    let s1 := s.setFlag (Reg.MBX_STATUS i.val) Fld.MBX_STATUS_abort_done false
    abortsGo { s1 with sched := { s1.sched with abortQ := s1.sched.abortQ ++ [(i, all, tag)] } }

/-! ### TDISP (R391-R393) -/

/-- LOCK_INTERFACE succeeds. -/
def State.mayLock (s : State) (i stream : Nat) : Bool :=
  let p := s.instPart i
  s.instBound i && s.tdiState i == 0 && s.partState p == 1 && !s.flag (Reg.HIF_DLOG_CTL i) Fld.HIF_DLOG_CTL_en &&
    (List.range 1024).all (fun j => j == i || !s.instBound j || s.instPart j != p) && (s.port (s.instPort i)).streams.contains (stream + 1)

def lockTdi (s : State) (i stream : Nat) : State :=
  let p := s.instPort i
  if s.mayLock i stream then
    let s1 := setTdi s i 1
    ({ s1 with host := { s1.host with tdiStream := mapIns (mapDrop s1.host.tdiStream i) i stream } }).out (.tdisp p true [])
  else s.out (.tdisp p false [])

/-- START_INTERFACE: CONFIG_LOCKED to RUN. -/
def startTdi (s : State) (i : Nat) : State :=
  if s.tdiState i = 1 then (setTdi s i 2).out (.tdisp (s.instPort i) true []) else s.out (.tdisp (s.instPort i) false [])

/-- STOP_INTERFACE: from CONFIG_LOCKED, RUN or ERROR. -/
def stopTdi (s : State) (i : Nat) : State :=
  if s.tdiState i = 0 then s.out (.tdisp (s.instPort i) false [])
  else abortsGo ((tdiClear s i true).out (.tdisp (s.instPort i) true []))

/-! ### The commands -/

/-- HOST_COMPLETION (R382). -/
def execHostCompletion (p : PortId) (id : Nat) (st : HostCpl) (d : List Byte) (ep : Bool) (s : State) : Result :=
  .next (abortsGo (hostCompletion s p.val id st d ep))

/-- INVALIDATE_REQUEST (R381). -/
def execInvalidateRequest (p : PortId) (itag : BitVec 5) (pasid : BitVec 20) (va : W64) (len : Nat) (s : State) : Result :=
  .next (invalidate s p.val itag pasid va.toNat len)

/-- INVALIDATE_COMPLETION (R381). -/
def execInvalidateCompletion (p : PortId) (itag : BitVec 5) (s : State) : Result := .next (invalidated s p.val itag)

/-- HOST_LINK_DOWN (R383). -/
def execHostLinkDown (p : PortId) (s : State) : Result := .next (abortsGo (portDown s p.val))

/-- HOST_LINK_UP (R494). -/
def execHostLinkUp (p : PortId) (rate width : BitVec 4) (flit ats msix : Bool) (cfg : PortCfg) (s : State) : Result :=
  .next (linkUp s p.val rate.toNat width.toNat flit ats msix cfg.fmask cfg.mps.toNat cfg.mrrs.toNat cfg.bar2)

/-- PERST_N (R487, R548). -/
def execPerstN (asserted : Bool) (s : State) : Result :=
  let s1 : State := { s with host := { s.host with perst := asserted } }
  .next (if asserted then abortsGo (portDown (portDown s1 0) 1) else s1)

/-- MSIX_UNMASK (R384). -/
def execMsixUnmask (p : PortId) (v : Option (Fin 2048)) (s : State) : Result := .next (msixUnmask s p.val (v.map (·.val)))

/-- MAILBOX_POST (R387). -/
def execMailboxPost (i : InstId) (m2t : Bool) (slot : Fin 16) (w : W64) (s : State) : Result := .next (mbxPost s i.val m2t slot.val w)

/-- MAILBOX_ACK (R388). -/
def execMailboxAck (i : InstId) (v : BitVec 16) (s : State) : Result := .next (mbxReturn s i.val false v.toNat)

/-- MAILBOX_CONSUME (R388). -/
def execMailboxConsume (i : InstId) (v : BitVec 16) (s : State) : Result := .next (mbxReturn s i.val true v.toNat)

/-- MBX_VER (R389). -/
def execMbxVer (i : InstId) (hi lo : BitVec 4) (s : State) : Result := .next (mbxVersion s i.val hi.toNat lo.toNat)

/-- MBX_OWN (R390, R306). -/
def execMbxOwn (i : InstId) (s : State) : Result := .next (tenantOwn s i.val)

/-- MBX_RELEASE (R390, R307). -/
def execMbxRelease (i : InstId) (s : State) : Result := .next (tenantRelease s i.val)

/-- MBX_ABORT_TAG (R390). -/
def execMbxAbortTag (i : InstId) (s : State) : Result := .next (tenantAbort s i false)

/-- MBX_ABORT_ALL (R390). -/
def execMbxAbortAll (i : InstId) (s : State) : Result := .next (tenantAbort s i true)

/-- LOCK_INTERFACE (R391). -/
def execLockInterface (i : InstId) (stream : Fin 8) (s : State) : Result := .next (lockTdi s i.val stream.val)

/-- START_INTERFACE (R392). -/
def execStartInterface (i : InstId) (s : State) : Result := .next (startTdi s i.val)

/-- STOP_INTERFACE (R393). -/
def execStopInterface (i : InstId) (s : State) : Result := .next (stopTdi s i.val)

/-- TDI_ZEROING_COMPLETE (R393). -/
def execTdiZeroingComplete (i : InstId) (s : State) : Result := .next (tdiCleared s i.val)

/-- DIRTY_BITMAP_UPDATE (R395, R396). -/
def execDirtyBitmapUpdate (i : InstId) (s : State) : Result := .next (dirtyUpdate s i.val)

/-- DLOG_CAS_COMPLETE (R395). -/
def execDlogCasComplete (i : InstId) (r : Fin 16) (n : Nat) (ok : Bool) (old : W64) (s : State) : Result :=
  .next (dlogComplete s i.val r.val n ok old)

end Sys2Proof.Machine
end

