-- ==== Sys2Proof/Machine/Optical.lean ====
section
/-!
DEFINITION. The optical ports (chapter 15): requests of other modules served here (R411, R537), the answers to this module's requests
(R412, R418) and the ledger's (R315, R318), partner loss (R415-R418), and the commands of the chapter.
-/
namespace Sys2Proof.Machine

/-! ### Serving requests (R404, R411) -/

/-- The answer of a remote request leaves toward its issuer. -/
def remoteRespond (s : State) (h : RemHdr) (d : List Line) (op : BitVec 8) (status : Nat) (poison : Bool) (value : W64) : State :=
  let back : RemHdr := { h with
    arg := 0, lines := BitVec.ofNat 3 (d.length - 1), poison := poison, hops := 0, dst := h.src, src := BitVec.ofNat 12 s.moduleId, value := value }
  (optLeave s h.src.toNat op back none d status).1

/-- An inbound request has been served: a remote one is answered, a host's read or AtomicOp completes (R379). -/
def inbAnswer (s : State) (r : InbReq) : State :=
  if r.ep.toNat < 0x1230 then
    if r.failed then (remoteRespond s r.h [] 0x12 1 false 0).addWrap Reg.OPT_CNT_REFUSED Fld.OPT_CNT_REFUSED_count 1
    else if r.op = 0x01 then
      remoteRespond s r.h ((List.range (r.len / 128)).map (fun i => mapGet (fun _ => 0) r.got (r.addr / 128 + i))) 0x11 0 r.poison 0
    else remoteRespond s r.h [] 0x12 0 r.poison r.old
  else
    let p := r.ep.toNat - 0x1230
    if r.op = 0x01 then
      let bs := (List.range r.len).map (fun i => byteAt (mapGet (fun _ => 0) r.got ((r.addr + i) / 128)).toNat ((r.addr + i) % 128))
      -- A poisoned read logs Poisoned TLP Egress Blocked as an advisory (R379).
      (if r.poison then aerLog s p .egress else s).out (.completion p bs r.poison)
    -- An AtomicOp that reads poison gives zero and is reported by EP, as a read is (R243, R379; DEDUCED, log 95).
    else if r.op = 0x04 then s.out (.completion p (bytesOf r.len r.old.toNat) r.poison)
    else s

/-- A request whose lines have all been answered leaves the list. -/
def inbSettle (s : State) (r : InbReq) : State :=
  if r.left.isEmpty then inbAnswer { s with opt := { s.opt with inb := s.opt.inb.filter (fun x => x.id != r.id) } } r
  else { s with opt := { s.opt with inb := s.opt.inb.map (fun x => if x.id = r.id then r else x) } }

/-- The first request from endpoint `ep` that waits for line `l`, for data or for a DONE. -/
def State.inbFor (s : State) (ep : Ep) (l : LineNo) (read : Bool) : Option InbReq :=
  s.opt.inb.find? (fun r => r.ep == ep && r.left.contains l.toNat && (r.op == 0x01) == read)

/-- Data of a line reaches the port that reads it. -/
def inbData (s : State) (ep : Ep) (l : LineNo) (ld : LineData) : State :=
  match s.inbFor ep l true with
  | some r => inbSettle s { r with left := r.left.erase l.toNat, got := mapIns (mapDrop r.got l.toNat) l.toNat ld.d, poison := r.poison || ld.poison }
  | none => s

/-- A write, AMO or RADD of a port has been entered or applied at its home. -/
def inbDone (s : State) (ep : Ep) (l : LineNo) (status : BitVec 4) (old : W64) (poison : Bool) : State :=
  match s.inbFor ep l false with
  | some r => inbSettle s { r with left := r.left.erase l.toNat, failed := r.failed || status != 0, poison := r.poison || poison, old := old }
  | none => s

/-- A request is taken for service; its lines are sent to their homes by `go`. -/
def inbOpen (s : State) (ep : Ep) (op : BitVec 8) (h : RemHdr) (addr len : Nat) (lines : List Nat) : State :=
  { s with opt := { s.opt with
      inb := s.opt.inb ++ [⟨s.opt.nextInb, ep, op, h, addr, len, lines, [], false, false, 0⟩], nextInb := s.opt.nextInb + 1 } }

/-- Key of a request without one (R195). -/
def State.regionKey (s : State) (a : Nat) (stream : Bool) : Key := ⟨s.gibOwner (a / 2 ^ 30), false, stream⟩

/-- A TDI keeps requests of other modules off the partition (R537). -/
def State.tdiBars (s : State) (p : Nat) : Bool :=
  (List.range 1024).any (fun i => s.instBound i && s.instPart i == p && (s.tdiState i == 1 || s.tdiState i == 2)) ||
    s.host.zeroing.any (fun z => s.instPart z.1 == p)

/-- The partition of GiB `g` is barred. -/
def State.gibBarred (s : State) (g : Nat) : Bool := match s.gibOwner g with | some p => s.tdiBars p.val | none => false

/-- The line is homed on a die that is being reset (R498). -/
def State.homeResets (s : State) (l : Nat) : Bool :=
  match s.boot.dieReset with
  | some d => sliceDie (s.home (BitVec.ofNat 45 l)) == d
  | none => false

/-- Op `op` of another module over `len` bytes at `h.mpa` is served (R411, R439, R471, R498, R537). DESIGN CHOICE (log 96): a scratchpad is served
while the module is GATED, every row being power-gated, unless its half is gated: R43 names a gated half alone and R439 stacked memory. -/
def State.remoteServes (s : State) (op : Nat) (h : RemHdr) (a len : Nat) : Bool :=
  let scr := decide (0x100000000000 ≤ a)
  let k := (a - 0x100000000000) / 0x100000
  s.exportPasses h.src.toNat a len (64 ≤ h.tag.toNat) (op != 1) && !s.errs.fatal && s.get Reg.PWR_STATE Fld.PWR_STATE_state < 3 &&
    (if scr then (op == 1 || op == 2 || op == 3) && s.scratchServed k && !(List.range 32).any (fun p => s.coreOfPart p k && s.tdiBars p)
     else !s.gibBarred (a / 2 ^ 30) && !s.gibBarred ((a + len - 1) / 2 ^ 30) &&
       (List.range ((a + len - 1) / 128 - a / 128 + 1)).all (fun i => !s.homeResets (a / 128 + i)))

/-- A remote request to a scratchpad: performed at once (R411). -/
def remoteScratch (s : State) (op : Nat) (h : RemHdr) (a : Nat) (mask : Option (BitVec 128)) (d : List Line) (n : Nat) : State :=
  if op = 1 then
    let r := (List.range n).foldl (fun (x : State × List Line × Bool) i =>
      let y := scratchRead x.1 (a + 128 * i) 128
      (y.1, x.2.1 ++ [lineOfBytes y.2.1], x.2.2 || y.2.2)) (s, [], false)
    remoteRespond r.1 h r.2.1 0x11 0 r.2.2 0
  else
    let s1 := forEach d.zipIdx s (fun s x =>
      let be : BitVec 128 := mask.getD (BitVec.allOnes 128)
      let im : Image' := (List.range 128).map (fun i => if be.getLsbD i then some (byteAt x.1.toNat i) else none)
      forEach (runsOf 0 im) s (fun s r => scratchWrite s (a + 128 * x.2 + r.1) r.2 h.poison))
    remoteRespond s1 h [] 0x12 0 false 0

/-- The message that carries one line of a remote request to its home (Table 15-3). -/
def State.remoteMsg (s : State) (o op : Nat) (h : RemHdr) (mask : Option (BitVec 128)) (d : Line) (cmp : W64) (l : Nat) : MsgBody :=
  let num : ReqNum := BitVec.ofNat 13 (0x1010 + o)
  let key := s.regionKey (l * 128) (op == 3)
  let be : BitVec 128 := mask.getD (BitVec.allOnes 128)
  if op = 1 then .mrd num key
  else if op = 2 then .mwr num key d be h.poison
  else if op = 3 then .mwrs num key d be h.poison
  else if op = 4 then .amoH num key (BitVec.ofNat 7 h.mpa.toNat) (h.arg.extractLsb' 0 4) (h.arg.getLsbD 4) h.value cmp
  else .radd num key (h.arg.extractLsb' 0 2) d h.poison

/-- A request of another module arrives at port `o`: forwarded, refused, or served. -/
def remoteIn (s : State) (o : Nat) (op : BitVec 8) (h : RemHdr) (mask : Option (BitVec 128)) (d : List Line) (cmp : W64) : State :=
  let a := h.mpa.toNat
  let amo := op == 0x04
  let n := if op = 0x01 then h.lines.toNat + 1 else if amo then 1 else d.length
  let size := if amo then (if h.arg.getLsbD 4 then 8 else 4) else 128 * n
  if !s.optUp o then s
  else if h.dst.toNat != s.moduleId then forward s op h mask (if amo && h.arg.toNat % 16 = 9 then [cmp.setWidth 1024] else d) 0
  else if a % (if amo then size else 128) != 0 || n = 0 || (amo && 10 ≤ h.arg.toNat % 16) || !s.remoteServes op.toNat h a size then
    (remoteRespond s h [] 0x12 1 false 0).addWrap Reg.OPT_CNT_REFUSED Fld.OPT_CNT_REFUSED_count 1
  else if 0x100000000000 ≤ a then remoteScratch s op.toNat h a mask d n
  else
    let ls := (List.range n).map (fun i => a / 128 + i)
    forEach ls.zipIdx (inbOpen s (epOptical o) op h a (128 * n) ls) (fun s x =>
      let l : LineNo := BitVec.ofNat 45 x.1
      s.send (epOptical o) (epSlice (s.home l)) l (s.remoteMsg o op.toNat h mask (d.getD x.2 0) cmp x.1))

/-! ### Answers at the issuer (R411, R412, R418) -/

/-- The global address of byte `off` of what module `m` was asked for. -/
def remoteAddr (m : BitVec 12) (off : Nat) : Nat := m.toNat * 2 ^ 52 + off

/-- A read that a save abandoned (R314). -/
def State.staleRead (s : State) (c : Nat) (r : RemReq) : Bool :=
  r.isRead && r.gen.toNat != s.get (Reg.CORE_REMOTE c) Fld.CORE_REMOTE_gen

/-- One line of store `id` has completed; `bad` is the lowest of its bytes refused so far. The store counts one address error once its last
line has completed (R112). -/
def storeEnd (s : State) (c id : Nat) (counted : Bool) (bad : Option W64) : State :=
  let mine (r : RemReq) : Bool := match r.kind with | .write x _ _ _ => x == id | _ => false
  match bad with
  | none => s
  | some a =>
    if counted then s
    else if (s.core c).remote.any mine then
      s.modCore c (fun k => { k with remote := k.remote.map (fun r => match r.kind with
        | .write x addr b d => if x = id then { r with kind := .write x addr (lowerBad b a) d } else r
        | _ => r) })
    else addrErr s c a.toNat

/-- Request `r` of core `c` completes REMOTE_LOST; its tag is already free. -/
def remoteLost (s : State) (c : Nat) (r : RemReq) : State :=
  let s0 := s.addWrap Reg.OPT_CNT_LOST Fld.OPT_CNT_LOST_count 1
  if s.staleRead c r then s0
  else
    let s1 := s0.setFlag (Reg.CORE_REMOTE c) Fld.CORE_REMOTE_lost true
    match r.kind with
    | .read id _ len _ => loadDead s1 c id len
    | .write id _ bad counted => storeEnd (writeFailed s1 c 2) c id counted bad
    | .radd => writeFailed s1 c 2
    | .amo n _ wid => writeFailed (s1.modCore c (fun k => k.lateSr n wid 0)) c 2
    | .piece t => moverRemote s1 c t.toNat r.tag 0 false true
    | .pieceRead t key => sourceLost s1 c t.toNat key 5

/-- The destination refuses request `r`: an address error (R111, R171). -/
def remoteRefused (s : State) (c : Nat) (r : RemReq) (mpa : Nat) : State :=
  let a := remoteAddr r.module mpa
  if s.staleRead c r then s
  else match r.kind with
    | .read id _ len addr => loadRefused s c id len (BitVec.ofNat 64 (remoteAddr r.module (addr.toNat % 2 ^ 52)))
    | .write id addr bad counted => storeEnd s c id counted (lowerBad bad addr)
    | .radd => addrErr s c a
    | .amo n _ wid => addrErr (s.modCore c (fun k => k.lateSr n wid 0)) c a
    | .piece t => moverRemote s c t.toNat r.tag a true false
    | .pieceRead t key => moverData (tagAddrErr s c t.toNat a) c key ⟨0, false⟩

/-- The destination has served request `r`. -/
def remoteServed (s : State) (c : Nat) (r : RemReq) (d : Option Line) (poison : Bool) (v : W64) : State :=
  if s.staleRead c r then s
  else match r.kind with
    | .read id pos len addr => loadPart s c id pos len (lineNum (d.getD 0) (addr.toNat % 128) len) poison
    | .amo n w wid =>
      -- An AMO that read poison gives zero and sets CORE_ERR.seq_poison (R243, R466).
      let s1 := s.modCore c (fun k => k.lateSr n wid (if w then v else BitVec.ofNat 64 (v.toNat % 2 ^ 32)))
      if poison then seqPoison s1 c else s1
    | .piece t => moverRemote s c t.toNat r.tag 0 false false
    | .pieceRead _ key => moverData s c key ⟨d.getD 0, poison⟩
    | .write id _ bad counted => storeEnd s c id counted bad
    | .radd => s

/-! ### The ledger (R315, R318) -/

/-- An address error of a request in the ledger is counted for its core, in the save area while the caravan is saved (R112). -/
def ledgerRefused (s : State) (e : Ledger) (mpa : Nat) : State :=
  if s.inCar e.car e.core then addrErr s e.core (remoteAddr e.module mpa)
  else match s.carOf e.car with
    | some v =>
      let a := s.saveArea v.part.val (v.level.getD 0) e.core + 0x110040
      if v.phase = .saved then putNum s a 4 (satInc 32 (s.num a 4)) else s
    | none => s

/-- Entry `e` is lost: its caravan ends FAULT once its cores run again. -/
def ledgerLost (s : State) (e : Ledger) : State :=
  match s.carOf e.car with
  | some v => if v.phase = .running || v.phase = .held || v.phase = .restoring then resolveCar s e.car 6 2 else s
  | none => s

/-- The core has loaded its control page again and runs the caravan of `e`. -/
def State.ledgerRuns (s : State) (e : Ledger) : Bool :=
  s.inCar e.car e.core && (s.core e.core).phase != .save && (s.core e.core).phase != .restore

/-- An answer to a request in the ledger: the entry becomes ACKED with an AMO's old value, or LOST. -/
def ledgerAnswer (s : State) (e : Ledger) (status : Nat) (h : RemHdr) : State :=
  let put (s : State) (x : Ledger) : State := { s with sched := { s.sched with ledger := s.sched.ledger.map (fun y => if y = e then x else y) } }
  let drop (s : State) : State := { s with sched := { s.sched with ledger := s.sched.ledger.erase e } }
  if e.orphan then drop s
  else if status = 2 then ledgerLost (put s { e with st := .lost }) e
  else
    let s1 := if status = 1 then ledgerRefused s e h.mpa.toNat else s
    let v : W64 := if status = 1 then 0 else h.value
    match e.reg with
    | some (n, w) =>
      if s1.ledgerRuns e then
        let s2 := ledgerDeliver (put s1 { e with st := .acked, val := v, reg := none }) e.core n w v
        if status = 0 && h.poison then seqPoison s2 e.core else s2
      else put s1 { e with st := .acked, val := v, poison := decide (status = 0) && h.poison }
    | none => put s1 { e with st := .acked, val := v }

/-- An answer arrives at port `o`: forwarded, discarded for its epoch, or applied. -/
def remoteAnswer (s : State) (o : Nat) (op : BitVec 8) (h : RemHdr) (d : List Line) (status : Nat) : State :=
  let c := h.core.toNat
  if !s.optUp o then s
  else if h.dst.toNat != s.moduleId then forward s op h none d status
  else if h.epoch.toNat != s.get Reg.OPT_DOMAIN Fld.OPT_DOMAIN_epoch then s
  else match (s.core c).remote.find? (fun r => r.tag == h.tag.toNat && r.gen == h.gen) with
    | some r =>
      if status = 0 && r.isRead && d.isEmpty then s
      else
        let s1 := s.modCore c (fun k => { k with remote := k.remote.erase r })
        if status = 2 then remoteLost s1 c r
        else if status = 1 then remoteRefused s1 c r h.mpa.toNat
        else remoteServed s1 c r d.head? h.poison h.value
    | none =>
      match s.sched.ledger.find? (fun e => e.core == c && e.tag == h.tag.toNat && e.gen == h.gen && e.st == .waiting) with
      | some e => ledgerAnswer s e status h
      | none => s

/-! ### Partner loss (R415-R418) -/

/-- New requests to a destination whose route changed wait until every older one has completed (R409). -/
def routeRelease (s : State) : State :=
  { s with opt := { s.opt with routeHold := s.opt.routeHold.filter (fun m =>
      s.cores.any (fun e => e.2.remote.any (fun r => r.module.toNat == m)) ||
        s.sched.ledger.any (fun e => e.st == .waiting && e.module.toNat == m)) } }

/-- Every remote request of core `c` completes REMOTE_LOST. -/
def coreLoses (s : State) (c : Nat) : State :=
  forEach (s.core c).remote (s.modCore c (fun k => { k with remote := [] })) (fun s r => remoteLost s c r)

/-- A notice is processed. -/
def lossNotice (s : State) (n : LossNotice) : State :=
  let s1 := noticeEpoch s n
  let s2 := forEach (s1.cores.map (·.1)) s1 coreLoses
  let wait := s2.sched.ledger.filter (fun e => e.st == .waiting)
  let s3 : State := { s2 with sched := { s2.sched with
    ledger := (s2.sched.ledger.filter (fun e => !(e.st == .waiting && e.orphan))).map (fun e => if e.st = .waiting then { e with st := .lost } else e) } }
  routeRelease (abortsGo (forEach (wait.filter (fun e => !e.orphan)) s3 ledgerLost))

/-- Port `o` declares its partner lost. -/
def partnerLost (s : State) (o cause : Nat) : State :=
  if !s.optUp o then s
  else
    let r := portLost s o cause
    lossNotice (sendLoss r.1 r.2 none) r.2

/-- A LOSS record arrives: one not processed before is forwarded and processed. -/
def lossIn (s : State) (o : Nat) (n : LossNotice) : State :=
  if !s.optUp o || s.noticeSeen n then s else lossNotice (sendLoss s n (some o)) n

/-! ### The commands -/

/-- OPT_FLIT_RECEIVE (R405). -/
def execOptFlitReceive (o : OptId) (sent err : BitVec 2048) (fecOk : Bool) (fixed : Nat) (s : State) : Result :=
  .next (optFlit s o.val (sent ^^^ err) fecOk fixed)

/-- OPT_NAK (R405, R415). -/
def execOptNak (o : OptId) (seq : BitVec 16) (s : State) : Result :=
  .next (if s.optUp o.val then
    (match optNakFlits s o.val seq.toNat with
     | some buf => optReplayFlits s o.val buf
     | none => partnerLost s o.val 5)
    else s)

/-- OPT_ACK_TIMER (R405). -/
def execOptAckTimer (o : OptId) (s : State) : Result := .next (optAckDue s o.val)

/-- HEARTBEAT (R406). -/
def execHeartbeat (o : OptId) (id : BitVec 12) (port : BitVec 4) (s : State) : Result := .next (heartbeatIn s o.val id port)

/-- HEARTBEAT_SEND (R406). -/
def execHeartbeatSend (o : OptId) (s : State) : Result := .next (heartbeatOut s o.val)

/-- HEARTBEAT_TIMEOUT (R415). -/
def execHeartbeatTimeout (o : OptId) (s : State) : Result := .next (partnerLost s o.val 6)

/-- OPT_LOSS_OF_SIGNAL (R415). -/
def execOptLossOfSignal (o : OptId) (lane : Fin 8) (s : State) : Result :=
  .next (if (s.optEnd o.val).lanes.getLsbD lane.val then partnerLost s o.val 4 else s)

/-- LOSS (R417). -/
def execLoss (o : OptId) (n : LossNotice) (s : State) : Result := .next (lossIn s o.val n)

/-- OPT_PORT_TRAINING (R401). -/
def execOptPortTraining (o : OptId) (lanes : BitVec 8) (peer : Version) (id : BitVec 12) (port : BitVec 4) (s : State) : Result :=
  .next (if s.pwr.trip || s.ceral.isolated.contains (8 + o.val / 8) || (Config.fusePrimaryX1 % 2 = 1 && o.val < 8) then s
    else optTrain s o.val lanes peer id port)

/-- RD (R404, R411). -/
def execRd (o : OptId) (h : RemHdr) (s : State) : Result := .next (remoteIn s o.val 0x01 h none [] 0)

/-- WR (R404, R411). -/
def execWr (o : OptId) (h : RemHdr) (mask : Option (BitVec 128)) (d : List Line) (s : State) : Result := .next (remoteIn s o.val 0x02 h mask d 0)

/-- WRS (R404, R411). -/
def execWrs (o : OptId) (h : RemHdr) (mask : Option (BitVec 128)) (d : List Line) (s : State) : Result := .next (remoteIn s o.val 0x03 h mask d 0)

/-- AMO of another module (R404, R411). -/
def execRemoteAmo (o : OptId) (h : RemHdr) (cmp : W64) (s : State) : Result := .next (remoteIn s o.val 0x04 h none [] cmp)

/-- RADD of another module (R404, R411). -/
def execRemoteRadd (o : OptId) (h : RemHdr) (d : Line) (s : State) : Result := .next (remoteIn s o.val 0x05 h none [d] 0)

/-- RD_DATA (R412). -/
def execRdData (o : OptId) (h : RemHdr) (d : List Line) (s : State) : Result := .next (routeRelease (remoteAnswer s o.val 0x11 h d 0))

/-- DONE of another module (R411, R412). -/
def execRemoteDone (o : OptId) (h : RemHdr) (status : BitVec 4) (s : State) : Result :=
  .next (routeRelease (remoteAnswer s o.val 0x12 h [] status.toNat))

end Sys2Proof.Machine
end

