-- ==== Sys2Proof/Machine/Ceral.lean ====
section
/-!
DEFINITION. Isolated dies (R364), dies that become ready (R494), and the commands of the die links (chapter 13).
-/
namespace Sys2Proof.Machine

/-! ### Isolation (R364) -/

/-- Partition `p` has a row on compute die `d`, or places a unit of a GiB on its channels: lines of every GiB are homed on every die. -/
def State.partOnDie (s : State) (p d : Nat) : Bool :=
  s.rowsOf p / 2 ^ (32 * d) % 2 ^ 32 != 0 ||
    (List.range 3072).any (fun g => s.gmap g Fld.PRT_GMAP_valid == 1 && s.gmap g Fld.PRT_GMAP_partition == p)

/-- The host port and the optical ports of I/O die `d` go down. -/
def ioDieDown (s : State) (d : Nat) : State :=
  forEach (List.range 8) (portDown s (d - 8)) (fun s o => partnerLost s ((d - 8) * 8 + o) 4)

/-- Die `d` is isolated until module reset: a contained error of every partition on it (R470). -/
def isolateDie (s : State) (d : Nat) : State :=
  let s1 : State := { s with ceral := { s.ceral with isolated := setIns s.ceral.isolated d } }
  let s2 := errRecord s1 primaryDie (ErrRec.plain 2 0x070 5 0 0)
  if d < 8 then forEach ((List.range 32).filter (fun p => s2.partOnDie p d)) s2 (fun s p => quiesceCheck (containPart s p 5) p)
  else ioDieDown s2 d

/-- Dies that have lost every path are isolated. -/
def isolateCheck (s : State) : State := let l := s.cutOff; if l.isEmpty then s else abortsGo (forEach l s isolateDie)

/-! ### Ready dies (R494) -/

/-- Die `d` runs: the primary I/O die from stage 1, the secondary once released, a compute die once its core rails are good (R485). -/
def State.dieRuns (s : State) (d : Nat) : Bool :=
  !s.dieHeld d && (if d = primaryDie then 1 ≤ s.stage else s.boot.released.contains d && (8 ≤ d || s.boot.rails.contains (8 * (d + 1) + 4)))

/-- The link is UP, DEGRADED or HELD, or its partner is held in reset. -/
def State.linkSettled (s : State) (i l : Nat) : Bool :=
  let st := s.get (Reg.CRL_LINK i l) Fld.CRL_LINK_state
  2 ≤ st || (match peerOf i l with | some (j, _) => s.dieHeld j | none => true)

/-- The ready bit of die `d` and of its slice groups is set once its condition holds. -/
def dieReadyCheck (s : State) (d : Nat) : State :=
  if s.dieReady d || !s.dieRuns d || s.boot.dieReset == some d || !(linksOf d).all (s.linkSettled d) then s
  else
    let r := Reg.BOOT_READY0
    let s1 := s.put r Fld.BOOT_READY0_die (s.get r Fld.BOOT_READY0_die ||| 2 ^ d)
    if d < 8 then s1.put r Fld.BOOT_READY0_slices (s1.get r Fld.BOOT_READY0_slices ||| 3 * 2 ^ (2 * d)) else s1

/-- A link that has yet to train begins once both its dies run: it shows TRAINING (R354). -/
def linkBegins (s : State) (i l : Nat) : State :=
  match peerOf i l with
  | some (j, k) =>
    if s.linkDue i l && s.dieRuns i && s.dieRuns j then
      (s.put (Reg.CRL_LINK i l) Fld.CRL_LINK_state 1).put (Reg.CRL_LINK j k) Fld.CRL_LINK_state 1
    else s
  | none => s

def linksBegin (s : State) : State := forEach ((List.range 10).flatMap (fun i => (linksOf i).map (fun l => (i, l)))) s (fun s x => linkBegins s x.1 x.2)

/-- What follows from dies that have come to run or links that have settled. -/
def readyCheck (s : State) : State := forEach (List.range 10) (linksBegin s) dieReadyCheck

/-! ### The commands -/

/-- CRL_FLIT_RECEIVE (R352). -/
def execCrlFlitReceive (die : DieIx) (link : Fin 3) (bun : Fin 64) (sent err : BitVec 1536) (s : State) : Result :=
  .next (flitReceive s die.val link.val bun.val sent err)

/-- CRL_NAK (R352, R353). -/
def execCrlNak (die : DieIx) (link : Fin 3) (bun : Fin 64) (seq : BitVec 12) (s : State) : Result :=
  .next (isolateCheck (nakReceive s die.val link.val bun.val seq.toNat))

/-- CRL_ACK_TIMER (R352). -/
def execCrlAckTimer (die : DieIx) (link : Fin 3) (bun : Fin 64) (s : State) : Result := .next (ackTimer s die.val link.val bun.val)

/-- CRL_WINDOW_END (R357): the window of every bundle that the die receives on the link. -/
def execCrlWindowEnd (die : DieIx) (link : Fin 3) (s : State) : Result :=
  .next (forEach (List.range (linkBundles die.val link.val)) s (fun s b => windowEnd s die.val link.val b))

/-- BUNDLE_QUIESCE_COMPLETE (R361). -/
def execBundleQuiesceComplete (die : DieIx) (link : Fin 3) (bun : Fin 64) (s : State) : Result :=
  .next (isolateCheck (quiesceComplete s die.val link.val bun.val))

/-- CRL_LINK_TRAINING (R354-R356): a link that has yet to train since module reset or a die reset trains between two dies that run. A die that is
ready with no path to the primary I/O die is isolated (R364). -/
def execCrlLinkTraining (die : DieIx) (link : Fin 3) (tests : List LaneTest) (peer : Version) (s : State) : Result :=
  .next (match peerOf die.val link.val with
    | some (j, _) =>
      if s.linkDue die.val link.val && s.dieRuns die.val && s.dieRuns j && !s.ceral.isolated.contains die.val && !s.ceral.isolated.contains j then
        isolateCheck (readyCheck (linkTrain s die.val link.val tests peer))
      else s
    | none => s)

end Sys2Proof.Machine
end

