-- ==== Sys2Proof/Machine/Tick.lean ====
section
/-!
DEFINITION. FRAME_TICK (R292): what the scheduler does, then the changes that links, routes and windows make at a tick (R358-R363, R409).
-/
namespace Sys2Proof.Machine

/-- OPT_ROUTE entries and windows written since the last tick take effect (R409, R419). -/
def routesTake (s : State) : State :=
  let dests := s.opt.newRoute.flatMap (fun x => [s.get (Reg.OPT_ROUTE x.1) Fld.OPT_ROUTE_dest, Fld.OPT_ROUTE_dest.get x.2])
  let s1 := forEach s.opt.newRoute s (fun s x => s.setReg (Reg.OPT_ROUTE x.1) x.2)
  let s2 := forEach s.opt.newWin s1 (fun s x => s.setReg x.1 x.2)
  routeRelease { s2 with opt := { s2.opt with newRoute := [], newWin := [], routeHold := (dests.foldl setIns s2.opt.routeHold) } }

/-- After the first tick of a return to RUN the holds that the entry recorded are cleared (R442). -/
def heldTick (s : State) : State :=
  if s.pwr.entry.isSome || s.pwr.held.isEmpty then s
  else forEach s.pwr.held { s with pwr := { s.pwr with held := [] } } partRelease

/-- The tick at `now`. -/
def frameTick (s : State) (now : Nat) : State :=
  if !s.sched.run then s
  else heldTick (abortsGo (isolateCheck (idleTick (routesTake (ceralTick (schedTick s now))))))

/-- FRAME_TICK (R292). -/
def execFrameTick (now : Nat) (s : State) : Result := .next (frameTick (s.at now) now)

end Sys2Proof.Machine
end

