-- ==== Sys2Proof/Machine/Drain.lean ====
section
/-!
DEFINITION. Emptying caches as one step: buffers, slices (R193), the L1s and instruction caches of cores that lose power, and the
directory entries that name a die that is reset (R441, R498). Log 70 says that these drains are one step each.
-/
namespace Sys2Proof.Machine

/-- Every entry of a slice's buffers that has not issued its memory write issues it, and the buffers are empty. -/
def buffersOut (s : State) (g : Nat) : State :=
  let todo := (s.vbuf g ++ s.rbuf g).filter (fun e => !e.issued)
  forEach todo ((s.setVbuf g []).setRbuf g []) (fun s e => memWrite s e.line e.ld)

/-- A home line leaves its way for memory, with every copy of it. DESIGN CHOICE (log 95): a drained line does not count in LLC_CNT_EVICT. -/
def drainHome (s : State) (k : Nat) : State :=
  let s0 := wayDecode s k
  match s0.wayAt k with
  | none => s0
  | some x =>
    let r := purge s0 x.line
    let s1 := r.1.setWayAt k none
    match r.2 with
    | some ld => memWrite s1 x.line ld
    | none => if x.dirty then memWrite s1 x.line x.ld else s1

/-- A replica leaves its way with the L1 copies of its marked rows; its home's bit is cleared. -/
def drainReplica (s : State) (g k : Nat) : State :=
  match s.wayAt k with
  | some x =>
    match x.use with
    | .replica rows _ =>
      let s1 := forEach (s.rowCores (sliceDie g) rows) s (fun s c => l1Inv s c x.line)
      homeRepDrop (s1.setWayAt k none) (sliceDie g) x.line
    | .home .. => s
  | none => s

def drainWay (s : State) (g k : Nat) : State :=
  match s.wayAt k with
  | some x => if x.isHome then drainHome s k else drainReplica s g k
  | none => s

/-- A line that only a shadow entry records: its copies are removed and dirty data goes to memory. -/
def drainShadow (s : State) (k : Nat) : State :=
  match s.shadowAt k with
  | none => s
  | some x =>
    let r := purge s x.line
    let s1 := r.1.setShadowAt k none
    match r.2 with
    | some ld => memWrite s1 x.line ld
    | none => s1

/-- Slice `g` is drained (R193): dirty lines written back, every L1 copy and replica invalidated, every pin ended, its replicas discarded. -/
def drainSlice (s : State) (g : Nat) : State :=
  let ways := (s.llc.ways.filter (fun e => e.1 / 131072 == g)).map (·.1)
  let s1 := forEach ways s (fun s k => drainWay s g k)
  let shadows := (s1.llc.shadows.filter (fun e => e.1 / 16384 == g)).map (·.1)
  let s2 := forEach shadows s1 drainShadow
  let dead := s2.llc.fills.map (fun f => if f.slice = g then { f with dead := true } else f)
  let s3 := buffersOut { s2 with llc := { s2.llc with fills := dead } } g
  s3.put (sliceReg Reg.LLC_SLICE_STATUS g) Fld.LLC_SLICE_STATUS_pinned_max 0

/-- LLC_REPLICA_WAYS of slice `g` becomes `v` (R213): the replicas in the old replica ways are discarded and the lines in ways that become replica
ways are evicted, sweep reading 1 meanwhile (DESIGN CHOICE, log 70: one step, in which the slice holds new requests). -/
def replicaWays (s : State) (g v : Nat) : State :=
  let old := s.repWays g
  let sweep := Fld.LLC_SLICE_STATUS_sweep
  let r := sliceReg Reg.LLC_SLICE_STATUS g
  if old = v then s
  else
    let ways := (s.llc.ways.filter (fun e => e.1 / 131072 == g)).map (·.1)
    let s1 := forEach ways (s.setFlag r sweep true) (fun s k =>
      if bit old (k % 16) then drainReplica s g k
      else if bit v (k % 16) then (drainHome s k).count (sliceReg Reg.LLC_CNT_EVICT g)
      else s)
    (s1.put (sliceReg Reg.LLC_REPLICA_WAYS g) Fld.LLC_REPLICA_WAYS_ways v).setFlag r sweep false

/-- Apply `f` to every directory entry; a shadow entry that records nothing more is freed. -/
def mapDirs (s : State) (f : Dir → Dir) : State :=
  let way (x : Option Way) : Option Way := x.map (fun x => if x.isHome then x.withDir (f x.dir) else x)
  let sh := (s.llc.shadows.map (fun e => (e.1, e.2.map (fun x => { x with dir := f x.dir })))).filter (fun e =>
    match e.2 with | some x => !x.dir.isEmpty | none => false)
  { s with llc := { s.llc with ways := s.llc.ways.map (fun e => (e.1, way e.2)), shadows := sh } }

/-- The entry without die `d`: its L1s and its replica slice. -/
def Dir.forgetDie (x : Dir) (d : Nat) : Dir :=
  let y := if x.coarse then { x with ptrs := x.ptrs &&& ~~~ BitVec.ofNat 56 (2 ^ (48 + d)) }
    else (x.list.map (fun p => p.2.2)).foldl (fun e c => if coreDie c = d then e.without c else e) x
  ({ y with reps := y.reps &&& ~~~ BitVec.ofNat 8 (2 ^ d) }).settle

/-- A victim offer or a cleaned line of core `c`, and the acknowledgement that answers it. -/
def Msg.offerOf (m : Msg) (c : Nat) : Bool :=
  m.src == epCore c && (match m.body with | .victD _ => true | .victC _ => true | .cleanD _ => true | _ => false)

def Msg.ackTo (m : Msg) (c : Nat) : Bool := m.dst == epCore c && (match m.body with | .wbAck _ => true | _ => false)

/-- Every victim offer of core `c` on its way is settled at its home, and its acknowledgement reaches the core. -/
def settleOffers (s : State) (c : Nat) : State :=
  let s1 := forEach (s.net.filter (fun m => m.offerOf c)) s (fun s m =>
    let s1 := s.recv m
    match m.body with
    | .victD ld => victim s1 c m.l ld true (s.keyOf c false)
    | .victC key =>
      let ld := match (s.core c).offered.find? (fun e => e.1 == m.l.toNat) with | some e => e.2 | none => s.memLine m.l
      victim s1 c m.l ld false key
    | .cleanD ld => cleanData s1 c m.l ld
    | _ => s1)
  forEach (s1.net.filter (fun m => m.ackTo c)) s1 (fun s m => s.recv m)

/-- Core `c` loses its caches: dirty lines go to their homes, whose entries drop its pointers; kept forwards are answered. -/
def coreOut (s : State) (c : Nat) : State :=
  let s1 := settleOffers s c
  let held := (s1.core c).l1.filterMap (·.2)
  let s2 := forEach held s1 (fun s x => if x.st == .m || x.st == .o then placeData s x.line x.ld else s)
  let s3 := forEach ((s2.core c).kept.map (·.l)) s2 (fun s l => keptMiss s c l)
  let s4 := mapDirs s3 (fun d => if d.list.any (fun x => x.2.2 == c) then (d.without c).settle else d)
  icFlush (s4.modCore c (fun k => { k with l1 := [], plru := [], hold := [], kept := [], offered := [] })) c

/-- Every in-service core of a list loses its caches. -/
def coresOut (s : State) (cs : List Nat) : State := forEach (cs.filter s.inService) s coreOut

/-- The stacks of dies enter or leave self-refresh. -/
def setRefresh (s : State) (dies : List Nat) (on : Bool) : State :=
  forEach dies s (fun s d => forEach (List.range 4) s (fun s m =>
    s.setFlag (Reg.MEM_STK_STATUS d m) Fld.MEM_STK_STATUS_self_refresh on))

/-- Training substitutes a spare that module reset did not (R342); bytes 0 and 1 are MEM_CH_STATUS.spare0 and spare1, 0xFF none. -/
def newSpare (now old : BitVec 16) : Bool :=
  (List.range 2).any (fun q => bits now.toNat (8 * q + 7) (8 * q) != 0xFF && bits old.toNat (8 * q + 7) (8 * q) == 0xFF)

/-- The failing lanes that a training command brings, data lanes 0 to 63 and check lanes 64 to 71, each with its channel (R334). -/
def failingLanes {n : Nat} (data : List (Fin n × Fin 64)) (check : List (Fin n × Fin 8)) : List (Nat × Nat) :=
  data.map (fun x => (x.1.val, x.2.val)) ++ check.map (fun x => (x.1.val, 64 + x.2.val))

/-- The data and check lanes of channel `c` that training has measured as failing, ascending (R334). -/
def lanesOf (lanes : List (Nat × Nat)) (c : Nat) : List Nat := (List.range 72).filter (fun k => lanes.contains (c, k))

/-- The channel fails training: three lanes or more fail (R334). -/
def trainFails (lanes : List (Nat × Nat)) (c : Nat) : Bool := 3 ≤ (lanesOf lanes c).length

/-- The spares that training substitutes: spare 0 for the lowest failing lane, spare 1 for the next (R334; DESIGN CHOICE, log 97: the spec does
not say which spare takes which lane). -/
def sparesOf (lanes : List (Nat × Nat)) (c : Nat) : BitVec 16 :=
  let k := lanesOf lanes c
  BitVec.ofNat 16 (k.getD 0 0xFF + 256 * k.getD 1 0xFF)

/-- The spares that module reset gave channel `c`. -/
def State.firstSpares (s : State) (c : Nat) : BitVec 16 :=
  match s.stk.spares0.find? (fun x => x.1 == c) with
  | some x => x.2
  | none => 0xFFFF

def setSpares (s : State) (c : Nat) (v : BitVec 16) : State :=
  let r := chanReg Reg.MEM_CH_STATUS c
  (s.put r Fld.MEM_CH_STATUS_spare0 (bits v.toNat 7 0)).put r Fld.MEM_CH_STATUS_spare1 (bits v.toNat 15 8)

/-- A channel's training succeeds: ACTIVE, its counting window begins (R336, R341). -/
def chanTrained (s : State) (c : Nat) (v : BitVec 16) : State :=
  let s1 := setChan (setSpares s c v) c 1
  { s1 with stk := { s1.stk with win := mapSet (fun _ => 0) s1.stk.win c 0, good := mapSet (fun _ => 0) s1.stk.good c 0,
                                 skipWin := setDel s1.stk.skipWin c } }

/-- One channel ends retraining at a die reset or a return from STANDBY (R334, R335, R342): FAILED_DEAD where it fails, else ACTIVE, and FAILED
where a spare is substituted that module reset did not substitute. -/
def chanRetrain (s : State) (lanes : List (Nat × Nat)) (c : Nat) : State :=
  if !s.retrains c then s
  else if trainFails lanes c then chanDead s c true
  else
    let v := sparesOf lanes c
    let s1 := chanTrained s c v
    if newSpare v (s.firstSpares c) then chanFailed s1 c else s1

end Sys2Proof.Machine
end

