-- ==== Sys2Proof/Machine/ImageApply.lean ====
section
/-!
DEFINITION. Application of the Bastas image (R512), of one PARTITION section (R507, R513), and the registers that an application writes
(R504-R506), with the ends of an image operation (R511, R515).
-/
namespace Sys2Proof.Machine

/-! ### The end of an operation (R511, R515) -/

/-- An image operation ends with a result; the check code, partition and directory index follow it. -/
def imgEnd (s : State) (r : ImgResult) : State :=
  let q := Reg.BOOT_IMG_STATUS
  let s1 := ((s.setFlag q Fld.BOOT_IMG_STATUS_busy false).setFlag q Fld.BOOT_IMG_STATUS_done true).put q Fld.BOOT_IMG_STATUS_result r.result
  let s2 := ((s1.put q Fld.BOOT_IMG_STATUS_check r.check).put q Fld.BOOT_IMG_STATUS_partition r.part).put q Fld.BOOT_IMG_STATUS_section r.sect
  attestResume (endTurn { s2 with img := { s2.img with op := none } } 0)

/-- A RELOAD is busy. -/
def State.reloading (s : State) : Bool := s.flag Reg.BOOT_IMG_STATUS Fld.BOOT_IMG_STATUS_busy && s.img.op == some 4

/-- The partition that a RELOAD names. -/
def State.reloadPart (s : State) : Nat := s.img.opPart

/-! ### TOPOLOGY (R505, R193, R369) -/

/-- One row's slots: in service, or the outrider. -/
def applyRow (s : State) (j r : Nat) : State :=
  forEach (List.range 10) s (fun s k =>
    (s.setFlag (Reg.CORE_ID (j * 16 + k)) Fld.CORE_ID_in_service ((rowSlots r).contains k)).setFlag (Reg.CORE_ID (j * 16 + k))
      Fld.CORE_ID_outrider (bits r 3 0 == k))

/-- One half: gated or not, its ceiling, its clock. -/
def applyHalf (s : State) (h : Nat) (gated : Bool) (ceil : Nat) : State :=
  let r := Reg.PWR_HALF (h / 2) (h % 2)
  let s0 : State := if gated then { s with pwr := { s.pwr with droop := s.pwr.droop.filter (fun x => x / 16 != h) } } else s
  let s1 := (s0.setFlag r Fld.PWR_HALF_gated gated).put r Fld.PWR_HALF_ceil_mhz ceil
  seamClocks (s1.put r Fld.PWR_HALF_set_mhz (s.halfNow h ceil)) (h / 2)

/-- Physical slice `g` is in service: not retired, its half not gated, named by some entry. -/
def sliceServes (t : List Byte) (g : Nat) : Bool :=
  !bit (retireRec t g) 15 && !bit (gatedRec t) (g / 32) && (List.range 512).any (fun n => retireRec t n % 512 == g)

/-- One retirement entry: the slice that served it is drained before it changes, then every compute die's copy is written. -/
def applyRetire (s : State) (n v : Nat) : State :=
  let old := s.physSlice n
  let s1 := if old = v % 512 then s else drainSlice s old
  forEach (List.range 8) s1 (fun s d =>
    (s.setFlag (Reg.LLC_RETIRE d n) Fld.LLC_RETIRE_retired (bit v 15)).put (Reg.LLC_RETIRE d n) Fld.LLC_RETIRE_target (v % 512))

def applySlices (s : State) (t : List Byte) (gs : List Nat) : State :=
  forEach gs s (fun s g => s.setFlag (sliceReg Reg.LLC_SLICE_STATUS g) Fld.LLC_SLICE_STATUS_in_service (sliceServes t g))

def applyTopology (s : State) (t : List Byte) : State :=
  let s1 := forEach (List.range 256) s (fun s j => applyRow s j (rowRec t j))
  let s2 := forEach (List.range 512) s1 (fun s n => applyRetire s n (retireRec t n))
  let s3 := forEach (List.range 16) s2 (fun s h => applyHalf s h (bit (gatedRec t) h) (numAt t (0x210 + 2 * h) 2))
  let rows := (List.range 256).foldl (fun m j => mapSet (fun _ => 0) m j (BitVec.ofNat 16 (rowRec t j))) []
  applySlices { s3 with img := { s3.img with rows := rows, gated := BitVec.ofNat 16 (gatedRec t), topo := t } } t (List.range 512)

/-! ### DIE, MODULE, ROUTING, POLICY (Tables 20-4 to 20-6, R506) -/

/-- Channels of die `d` whose distinct uncorrectable lines reach MEM_CE.fail_lines enter FAILED (R342). -/
def linesCheck (s : State) (d : Nat) : State :=
  forEach ((s.stk.ue.filter (fun e => e.1 / 128 == d)).map (·.1)) s (fun s c =>
    let n := (mapGet (fun _ => []) s.stk.ue c).length
    if n != 0 && s.get (Reg.MEM_CE d) Fld.MEM_CE_fail_lines ≤ n then chanFailed s c else s)

/-- MEM_CE of a compute die; a change starts a new window on every channel of the die (R341), and the new limit of lines holds at once (R342). -/
def applyCe (s : State) (d v : Nat) : State :=
  let r := Reg.MEM_CE d
  let s1 := ((s.put r Fld.MEM_CE_fail_lines (bits v 63 48)).put r Fld.MEM_CE_window_ms (bits v 47 32)).put r Fld.MEM_CE_thresh (bits v 31 0)
  if s1.reg r = s.reg r then s1
  else linesCheck { s1 with stk := { s1.stk with
    win := s1.stk.win.filter (fun e => e.1 / 128 != d), skipWin := s1.stk.skipWin.filter (fun c => c / 128 != d) } } d

/-- The fields of die `i` (Table 20-5). -/
def applyDie (s : State) (b : List Byte) (i : Nat) : State :=
  let e := slice b (i * 0x40) 0x40
  let s1 := s.setFields (Reg.CRL_CTL i) (BitVec.ofNat 64 (numAt e 0x18 8))
  if 8 ≤ i then s1 else
  let s2 := forEach (List.range 64) s1 (fun s k =>
    replicaWays (s.put (Reg.LLC_PIN_FLOOR i k) Fld.LLC_PIN_FLOOR_floor (numAt e 0 2)) (64 * i + k) (numAt e 2 2))
  let c := numAt e 6 1
  let s3 := (((s2.put (Reg.DIR_CTL i) Fld.DIR_CTL_hold (numAt e 4 2)).setFlag (Reg.LLC_DIE_CTL i) Fld.LLC_DIE_CTL_replica_en (bit c 7)).setFlag
    (Reg.LLC_DIE_CTL i) Fld.LLC_DIE_CTL_thrash_en (bit c 6)).setFlag (Reg.LLC_DIE_CTL i) Fld.LLC_DIE_CTL_stream_en (bit c 5)
  let s4 := (s3.put (Reg.MEM_DIE_CTL i) Fld.MEM_DIE_CTL_retry_max (bits (numAt e 7 1) 7 4)).setFlag (Reg.MEM_DIE_CTL i)
    Fld.MEM_DIE_CTL_scrub_en (bit (numAt e 7 1) 0)
  let s5 := (s4.put (Reg.LLC_THRASH i) Fld.LLC_THRASH_min_acc (numAt e 8 4)).put (Reg.LLC_THRASH i) Fld.LLC_THRASH_thresh (numAt e 0x0C 2)
  applyCe (s5.put (Reg.MEM_SCRUB i) Fld.MEM_SCRUB_period_h (numAt e 0x0E 1)) i (numAt e 0x10 8)

/-- The droop and error fields that MODULE gives die `i`. -/
def applyModuleDie (s : State) (m : List Byte) (i : Nat) : State :=
  let s1 := (s.put (Reg.ERR_CTL i) Fld.ERR_CTL_merge_ms (numAt m 0x1A 2)).put (Reg.ERR_CTL i) Fld.ERR_CTL_slice_ue (numAt m 0x20 1)
  if 8 ≤ i then s1
  else (s1.put (Reg.PWR_DROOP i) Fld.PWR_DROOP_thresh_mv (numAt m 0x19 1)).put (Reg.PWR_DROOP i) Fld.PWR_DROOP_burst (numAt m 0x1C 4)

/-- MODULE (Table 20-4). -/
def applyModule (s : State) (m : List Byte) : State :=
  let pw := numAt m 0x10 8
  let s1 := (s.put Reg.FRM_PERIOD Fld.FRM_PERIOD_period_us (numAt m 0 2)).put Reg.FRM_CTL Fld.FRM_CTL_overrun_max (numAt m 2 2)
  let s2 := ((s1.put Reg.FRM_REF Fld.FRM_REF_mode (numAt m 4 1)).put Reg.HIF_PORT_CFG Fld.HIF_PORT_CFG_p1_role (numAt m 5 1)).put Reg.FRM_REF
    Fld.FRM_REF_offset_ns (numAt m 6 2)
  let s3 := (s2.setFlag Reg.OPT_ID Fld.OPT_ID_valid (bit (numAt m 8 2) 15)).put Reg.OPT_ID Fld.OPT_ID_module_id (bits (numAt m 8 2) 11 0)
  let s4 := ((s3.put Reg.OPT_CTL Fld.OPT_CTL_hb_us (numAt m 0x0A 2)).put Reg.OPT_CTL Fld.OPT_CTL_replay_max (numAt m 0x0C 1)).put Reg.PRT_CTL
    Fld.PRT_CTL_remote_wait_us (numAt m 0x0E 2)
  let s5 := (((s4.put Reg.PWR_CAP Fld.PWR_CAP_amp_lim (bits pw 63 48)).put Reg.PWR_CAP Fld.PWR_CAP_uplift (bits pw 47 32)).put Reg.PWR_CAP
    Fld.PWR_CAP_base_w (bits pw 31 16)).put Reg.PWR_CAP Fld.PWR_CAP_cap_w (bits pw 15 0)
  let s6 := s5.put Reg.PWR_THERM Fld.PWR_THERM_throttle_c (numAt m 0x18 1)
  forEach (List.range 10) s6 (fun s i => applyModuleDie s m i)

/-- The value that a write of OPT_ROUTE stores: every named path is live (Table 15-7). -/
def routeValue (v : W64) : W64 :=
  Fld.put Fld.OPT_ROUTE_live v (ofBits 4 (fun q => decide (q < Fld.OPT_ROUTE_npaths.get v)))

/-- ROUTING (Table 20-6). -/
def applyRouting (s : State) (b : List Byte) : State :=
  let w (o : Nat) : W64 := BitVec.ofNat 64 (numAt b o 8)
  let s1 := forEach (List.range 32) s (fun s e => s.setFields (Reg.OPT_ROUTE e) (routeValue (w (8 * e))))
  let s2 := forEach (List.range 16) s1 (fun s e => s.setFields (Reg.OPT_EXPORT e) (w (0x100 + 8 * e)))
  let s3 := forEach (List.range 64) s2 (fun s e =>
    (s.setFields (Reg.OPT_WIN e) (w (0x180 + 16 * e))).setFields (Reg.OPT_WIN_BUS e) (w (0x188 + 16 * e)))
  let s4 := forEach (List.range 32) s3 (fun s e => s.setFields (Reg.HIF_PEER (e / 16) (e % 16)) (w (0x580 + 8 * e)))
  forEach (List.range 8) s4 (fun s e => s.setFields (Reg.HIF_PEER_WIN e) (w (0x680 + 8 * e)))

def applyPolicy (s : State) (b : List Byte) : State :=
  { s with img := { s.img with flags := BitVec.ofNat 8 (numAt b 0 1 % 4), reachMax := BitVec.ofNat 16 (numAt b 2 2) } }

/-! ### One partition (Table 20-7) -/

/-- The way masks of partition `p` on compute die `d`. -/
def applyMasks (s : State) (d p : Nat) (b : List Byte) : State :=
  let m := partMask b
  let a := Reg.LLC_WMASK_A d p
  let c := Reg.LLC_WMASK_B d p
  let s1 := (((s.put a Fld.LLC_WMASK_A_core_lc (m 0)).put a Fld.LLC_WMASK_A_core_be (m 1)).put a Fld.LLC_WMASK_A_stream_lc (m 2)).put a
    Fld.LLC_WMASK_A_stream_be (m 3)
  ((s1.put c Fld.LLC_WMASK_B_repl_lc (m 4)).put c Fld.LLC_WMASK_B_repl_be (m 5)).put c Fld.LLC_WMASK_B_pin (m 6)

/-- The PRT_DESC fields, row masks and save bases of a section. -/
def applyDesc (s : State) (p : Nat) (b : List Byte) : State :=
  let r := Reg.PRT_DESC p
  let scrub := bit (numAt b 1 1) 0 || bit s.img.flags.toNat 1
  let s1 := (((s.setFlag r Fld.PRT_DESC_scrub scrub).put r Fld.PRT_DESC_levels (partLevels b)).put r Fld.PRT_DESC_share (partShare b)).put r
    Fld.PRT_DESC_fg_mhz (partFg b)
  let s2 := (s1.put r Fld.PRT_DESC_nrows (popCount 256 (partRows b))).put r Fld.PRT_DESC_nlc (popCount 256 (partLcRows b))
  let s3 := forEach (List.range 4) s2 (fun s n =>
    (s.setReg (Reg.PRT_ROWS p n) (BitVec.ofNat 64 (partRows b / 2 ^ (64 * n)))).setReg (Reg.PRT_LCROWS p n)
      (BitVec.ofNat 64 (partLcRows b / 2 ^ (64 * n))))
  forEach (List.range 8) s3 (fun s d =>
    (s.setFlag (Reg.PRT_SAVE p d) Fld.PRT_SAVE_valid (bit (partSave b d) 15)).put (Reg.PRT_SAVE p d) Fld.PRT_SAVE_base_gib (bits (partSave b d) 11 0))

/-- The region-map entry of GiB `g` as record `r` of partition `p` gives it. -/
def applyGib (s : State) (p r g : Nat) : State :=
  let s1 := ((s.setGmap g Fld.PRT_GMAP_valid 1).setGmap g Fld.PRT_GMAP_kind (regKind r)).setGmap g Fld.PRT_GMAP_die_local (b2n (regLocal r))
  ((s1.setGmap g Fld.PRT_GMAP_die (regDie r)).setGmap g Fld.PRT_GMAP_mirrored (b2n (regMirror r))).setGmap g Fld.PRT_GMAP_partition p

/-- The entry of a GiB that no partition owns any more. -/
def clearGib (s : State) (g : Nat) : State :=
  let s1 := ((s.setGmap g Fld.PRT_GMAP_valid 0).setGmap g Fld.PRT_GMAP_kind 0).setGmap g Fld.PRT_GMAP_die_local 0
  ((s1.setGmap g Fld.PRT_GMAP_die 0).setGmap g Fld.PRT_GMAP_mirrored 0).setGmap g Fld.PRT_GMAP_partition 0

/-- GiBs that the map gives partition `p`. -/
def State.gibsOf (s : State) (p : Nat) : List Nat :=
  (List.range 3072).filter (fun g => s.gmap g Fld.PRT_GMAP_valid == 1 && s.gmap g Fld.PRT_GMAP_partition == p)

/-- Core slots of the rows of a mask. -/
def maskCores (m : Nat) : List Nat := (rowList m).flatMap (fun j => (List.range 10).map (fun k => j * 16 + k))

/-- A section's fields are written and the rows that the partition gains are prepared (R301). -/
def applyPart (s : State) (p : Nat) (b : List Byte) : State :=
  let gained := partRows b &&& (2 ^ 256 - 1 - s.rowsOf p)
  let s1 := forEach (s.gibsOf p) (applyDesc s p b) clearGib
  let s2 := forEach (partRegions b) s1 (fun s r => forEach (regGibs r) s (fun s g => applyGib s p r g))
  let s3 := forEach (List.range 8) s2 (fun s d => applyMasks s d p b)
  let s4 := forEach (maskCores gained) s3 prepareSlot
  let parts := mapSet (fun _ => ⟨[]⟩) s4.img.parts p ⟨b⟩
  let s5 : State := { s4 with img := { s4.img with parts := parts } }
  setPartState (s5.modPart p (fun y => { y with
    bd := BitVec.ofNat 64 (numAt b 0x10 8), bl := BitVec.ofNat 64 (numAt b 0x18 8), bt := BitVec.ofNat 64 (partTolls b), fg := 0 })) p 4

/-! ### Pins (R201, R204) -/

/-- Lines pinned for partition `p` outside `keep` are unpinned. -/
def unpinPart (s : State) (p : Nat) (keep : Nat → Bool) : State :=
  let hit (x : Way) : Bool := match x.use with | .home _ (some q) _ => q.val == p && !keep (lineBase x.line) | _ => false
  let mine := s.llc.ways.filter (fun e => match e.2 with | some x => hit x | none => false)
  let ways := s.llc.ways.map (fun e => (e.1, e.2.map (fun x =>
    if hit x then (match x.use with | .home d _ r => { x with use := .home d none r } | .replica .. => x) else x)))
  let gs := mine.map (fun e => e.1 / 131072)
  forEach ((List.range 512).filter (fun g => gs.contains g)) { s with llc := { s.llc with ways := ways } } pinCount

/-- The lines of a pin record. -/
def pinLinesOf (x : Nat × Nat) : List LineNo := (List.range (x.2 / 128)).map (fun i => BitVec.ofNat 45 (x.1 / 128 + i))

/-- The declared regions of a section contain byte `a`. -/
def declaredPin (b : List Byte) (a : Nat) : Bool := (partPins b).any (fun x => x.1 ≤ a && a < x.1 + x.2)

/-- Pin the records in order; `only` picks lines. False where one fails, none where one must wait. -/
def applyPins (s : State) (p : Nat) (only : State → LineNo → Bool) : List (Nat × Nat) → Option (State × Bool)
  | [] => some (s, true)
  | x :: xs =>
    match pinAll s p ((pinLinesOf x).filter (only s)) with
    | none => none
    | some (s1, 0) => applyPins s1 p only xs
    | some (s1, _) => some (s1, false)

/-- Partition `p` ends FREE: its pins, rows, region-map entries and masks are released. -/
def partFree (s : State) (p : Nat) : State :=
  let s1 := coresOut (unpinPart s p (fun _ => false)) (maskCores (s.rowsOf p))
  let s2 := forEach (s1.gibsOf p) s1 clearGib
  let s3 := forEach (List.range 8) s2 (fun s d => ((s.setReg (Reg.LLC_WMASK_A d p) 0).setReg (Reg.LLC_WMASK_B d p) 0).setReg (Reg.PRT_SAVE p d) 0)
  let s4 := forEach (List.range 4) s3 (fun s n => (s.setReg (Reg.PRT_ROWS p n) 0).setReg (Reg.PRT_LCROWS p n) 0)
  let hold := s.partHeld p
  let s5 := (s4.setReg (Reg.PRT_DESC p) (Reg.resetVal (Reg.PRT_DESC p))).setFlag (Reg.PRT_DESC p) Fld.PRT_DESC_hold hold
  let s6 : State := { s5 with img := { s5.img with parts := mapDrop s5.img.parts p } }
  s6.modPart p (fun y => { y with bd := 0, bl := 0, bt := 0, fg := 0, reloaded := false, stuck := false })

/-- The declared pins of partition `p`; a failed record leaves it FREE. -/
def partPin (s : State) (p : Nat) (b : List Byte) : Option (State × Bool) :=
  match applyPins s p (fun _ _ => true) (partPins b) with
  | none => none
  | some (s1, true) => some (s1, true)
  | some (s1, false) => some (partFree s1 p, false)

/-- Pins of every section in ascending partition order, with the first partition whose pin failed. -/
def pinParts (s : State) (bad : Option Nat) : List (Nat × List Byte) → Option (State × Option Nat)
  | [] => some (s, bad)
  | (p, b) :: rest =>
    match partPin s p b with
    | none => none
    | some (s1, true) => pinParts s1 bad rest
    | some (s1, false) => pinParts s1 (match bad with | some q => some q | none => some p) rest

/-! ### The map of relocated units (R333, R343) -/

/-- Relocated units of die-local GiBs: each mapped-out channel of the GiB's die holds 16,384 of its units. -/
def State.relocDl (s : State) : Nat :=
  ((List.range 3072).filter (fun g => s.gmap g Fld.PRT_GMAP_valid == 1 && s.gmap g Fld.PRT_GMAP_die_local == 1)).foldl (fun a g =>
    a + 16384 * (s.stk.mapped.filter (fun c => c / 128 == s.gmap g Fld.PRT_GMAP_die)).length) 0

/-- Units of mirrored pairs whose two copies share a stack. -/
def State.mirrorNear (s : State) : Nat :=
  if s.stk.mapped.isEmpty then 0 else
  ((List.range 3072).filter (fun g => s.gmap g Fld.PRT_GMAP_valid == 1 && s.gmap g Fld.PRT_GMAP_mirrored == 1 && g % 2 == 0)).foldl (fun a g =>
    a + ((List.range 2097152).filter (fun v =>
      let x := g * 2 ^ 30 + v * 512
      s.chanOf x / 32 == s.chanOf (x + 2 ^ 30) / 32)).length) 0

def mapInfo (s : State) : State :=
  let dl := s.relocDl
  let near := s.mirrorNear
  forEach (List.range 8) s (fun s d =>
    (s.put (Reg.MEM_MAP_INFO d) Fld.MEM_MAP_INFO_reloc_dl (satTo 24 dl)).put (Reg.MEM_MAP_INFO d) Fld.MEM_MAP_INFO_mirror_near (satTo 24 near))

/-! ### The whole application (R512) -/

/-- The image `bs`, which has passed verification, is applied whole; none where a pin must wait. The result is OK or PIN with the first
partition whose pin failed. -/
def applyImage (s : State) (bs : List Byte) : Option (State × ImgResult) :=
  let parts := imgParts bs
  let die := imgModuleSec bs 3
  let m := imgModuleSec bs 1
  let s1 := applyTopology (settleCycles s) (imgModuleSec bs 2)
  let s2 := applyModule (forEach (List.range 10) s1 (fun s i => applyDie s die i)) m
  let s3 := applyPolicy (applyRouting s2 (imgModuleSec bs 4)) (imgModuleSec bs 5)
  let s4 := forEach parts s3 (fun s x => applyPart s x.1 x.2)
  match pinParts s4 none parts with
  | none => none
  | some (s5, bad) =>
    let serial := imgSerial bs
    let s6 := (mapInfo s5).setFlag Reg.BOOT_READY0 Fld.BOOT_READY0_image true
    let s7 := (s6.put Reg.BOOT_IMG_SERIAL Fld.BOOT_IMG_SERIAL_applied serial).put Reg.BOOT_IMG_SERIAL Fld.BOOT_IMG_SERIAL_floor serial
    let s8 : State := { s7 with
      img := { s7.img with applied := true, digest := imgDigest bs, module := m, die := die }
      flash := { s7.flash with floor := BitVec.ofNat 32 serial }
      sched := { s7.sched with run := true } }
    some (s8, match bad with | some p => ⟨10, 0, p, 0xFF⟩ | none => ImgResult.of 0)

/-! ### RELOAD (R513) -/

/-- The partition's section is removed: its instances are unbound and it ends FREE. -/
def removePart (s : State) (p : Nat) : State :=
  let is := (List.range 1024).filter (fun i => s.instBound i && s.instPart i == p)
  mapInfo (partFree (forEach is (partTdiError s p) instanceUnbind) p)

/-- The section `b` takes the place of partition `p`'s; none where a pin must wait. -/
def replacePart (s : State) (p : Nat) (b : List Byte) : Option (State × Bool) :=
  let leaving := s.rowsOf p &&& (2 ^ 256 - 1 - partRows b)
  let s1 := unpinPart s p (declaredPin b)
  let s2 := coresOut s1 (maskCores leaving)
  let s3 := partTdiError (applyPart s2 p b) p
  match partPin s3 p b with
  | none => none
  | some (s4, ok) =>
    let s5 := mapInfo s4
    if ok then some (s5.modPart p (fun y => { y with reloaded := true, stuck := false }), true) else some (s5, false)

/-- The reload of partition `p` from image `bs`, which has passed verification. -/
def reloadPart (s : State) (p : Nat) (bs : List Byte) : Option (State × ImgResult) :=
  let s1 := endPart (setPartState (settleCycles s) p 4) p 4 2
  match imgSection bs 0x10 p with
  | none => some (removePart s1 p, ImgResult.of 0)
  | some b =>
    match replacePart s1 p b with
    | none => none
    | some (s2, ok) => some (s2, if ok then ImgResult.of 0 else ⟨10, 0, p, 0xFF⟩)

/-- A busy RELOAD ends with result STATE and leaves its partition FREE (R513). -/
def reloadStop (s : State) : State :=
  if s.reloading then
    let p := s.reloadPart
    imgEnd (partFree (endPart s p 4 2) p) (ImgResult.of 9)
  else s

end Sys2Proof.Machine
end

