-- ==== Sys2Proof/Machine/Power.lean ====
section
/-!
DEFINITION. Power states (R437-R442), the coolant halt (R453) and the power loop's commands (chapter 17).
-/
namespace Sys2Proof.Machine

/-- A transition is in progress. -/
def State.pwrBusy (s : State) : Bool := s.pwr.entry.isSome || s.pwr.ret.isSome

def State.pwrState (s : State) : Nat := s.get Reg.PWR_STATE Fld.PWR_STATE_state

def pwrRefuse (s : State) : State := s.setFlag Reg.PWR_STATE Fld.PWR_STATE_req_refused true

def setBusy (s : State) (b : Bool) : State := s.setFlag Reg.PWR_STATE Fld.PWR_STATE_busy b

/-! ### Entry (R441) -/

/-- Step 1: hold on every partition whose hold is clear, recorded. -/
def holdAll (s : State) : State :=
  let ps := (List.range 32).filter (fun p => !s.partHeld p && s.partState p != 4)
  forEach ps { s with pwr := { s.pwr with held := ps.foldl setIns s.pwr.held } } partHold

/-- Step 2 is over: every partition is QUIESCENT or FREE, and no RELOAD is busy (R513). -/
def State.allQuiet (s : State) : Bool := !s.reloading && (List.range 32).all (fun p => s.partState p == 0 || s.partState p == 3)

/-- The lowest watch entry that a level source asserted now meets (R434). -/
def State.watchLevel (s : State) : Option Nat :=
  (List.range 64).find? (fun e =>
    let die := s.get (Reg.EVC_WATCH e) Fld.EVC_WATCH_die
    let n := s.get (Reg.EVC_WATCH e) Fld.EVC_WATCH_source
    s.flag (Reg.EVC_WATCH e) Fld.EVC_WATCH_en && (die == 8 || die == 9) && s.isLevel die n && s.flag (evSrc die n) Fld.EVC_SRC_asserted)

/-- The lower of two watch entries. -/
def lowerEntry (a b : Option Nat) : Option Nat :=
  match a, b with
  | some x, some y => some (min x y)
  | some x, none => some x
  | none, y => y

/-- The watch acts on what it met during the entry (R435). -/
def watchEntered (s : State) : State :=
  let e := lowerEntry s.pwr.wakeNext s.watchLevel
  let s1 : State := { s with pwr := { s.pwr with wakeNext := none } }
  match e with
  | some n => watchWake s1 n
  | none => s1

/-- Step 3: every slice is written back and emptied. -/
def slicesOut (s : State) : State := forEach (List.range 512) s drainSlice

/-- Steps 3 to 6. -/
def entryFinish (s : State) (e : PwrEntry) : State :=
  let s1 := if e.target = 3 then slicesOut s else s
  let s2 := coresOut s1 allCores
  let s3 := if e.target = 3 then setRefresh (fmaxStore s2) (List.range 8) true else s2
  let s4 := s3.put Reg.PWR_STATE Fld.PWR_STATE_cause (if e.coolant then 2 else 1)
  let s5 := halfClocks (setBusy (setPwrState s4 e.target) false)
  watchEntered { s5 with pwr := { s5.pwr with entry := none }, sched := { s5.sched with run := false } }

/-- The entry in progress goes on as far as it can. -/
def entryContinue (s : State) : State :=
  match s.pwr.entry with
  | none => s
  | some e =>
    if e.coolant || 3 ≤ e.step then entryFinish s e
    else
      let s1 := holdAll s
      if s1.allQuiet then entryFinish s1 e else s1

/-- A request for GATED (2) or STANDBY (3). -/
def pwrEnter (s : State) (target : Nat) : State :=
  let st := s.pwrState
  if s.pwrBusy || st == target || 3 ≤ st then pwrRefuse s
  else if st = 2 then
    setBusy { s with pwr := { s.pwr with entry := some ⟨target, 3, false⟩ } } true
  else
    setBusy (holdAll { s with pwr := { s.pwr with entry := some ⟨target, 2, false⟩ } }) true

/-- A request for RUN. -/
def pwrRun (s : State) : State :=
  if s.pwrBusy || s.pwrState < 2 || (s.pwr.halt && s.pwr.coolant) then pwrRefuse s
  else setBusy (returnBegin s none) true

/-! ### Return (R442) -/

/-- Level sources of the compute dies, not sampled while their controllers were off, are sampled. -/
def sampleAll (s : State) : State :=
  forEach (List.range 8) s (fun s d => forEach ((List.range 1024).filter (fun n => s.isLevel d n)) s (fun s n => sampleLevel s d n))

/-- The watch reports that it has returned the module to RUN (R434). -/
def wokeReport (s : State) : State :=
  match s.pwr.woke with
  | some _ => raiseEdge (s.setFlag Reg.EVC_WATCH_STATUS Fld.EVC_WATCH_STATUS_woke true) primaryDie 0x206
  | none => s

/-- The four steps of Table 17-3; the frame generator runs again (R272). -/
def returnComplete (s : State) (lanes : List (Nat × Nat)) : State :=
  match s.pwr.ret with
  | none => s
  | some from_ =>
    let s1 := if from_ = 3 then
        forEach (List.range 8) (forEach (List.range 1024) (setRefresh s (List.range 8) false) (fun s c => chanRetrain s lanes c)) linesCheck
      else s
    let s2 : State := { s1 with pwr := { s1.pwr with ret := none, halt := false, rates := [], capLow := [] } }
    let s3 := wokeReport (halfClocks (setBusy (setPwrState s2 0) false))
    let s4 : State := { s3 with pwr := { s3.pwr with woke := none }, sched := { s3.sched with run := s3.img.applied } }
    capSource (sampleAll s4)

/-! ### Coolant (R453) -/

/-- Caravans that a halt does not save end FAULT, cause DIE_LOST. -/
def haltCars (s : State) : State :=
  forEach ((s.sched.cars.filter (fun v => v.phase != .saved)).map (·.id)) s (fun s k => endCar s k 6 5)

/-- Every core stops: queued instructions are discarded and no further piece is issued. -/
def haltCores (s : State) : State :=
  forEach ((stopCores s).cores.map (·.1)) (stopCores s) (fun s c => s.modCore c (fun k => { k with tags := [], mvBuf := [] }))

/-- The coolant halt starts: it takes over an entry or a return in progress and ends in STANDBY. -/
def coolantHalt (s : State) : State :=
  let s1 := reloadStop (haltCars (haltCores { s with pwr := { s.pwr with halt := true } }))
  let inStandby := s.pwrState == 3
  let s2 : State := { s1 with pwr := { s1.pwr with ret := none, woke := none, entry := if inStandby then none else some ⟨3, 3, true⟩ } }
  abortsGo (setBusy s2 (!inStandby))

/-- COOLANT_FAULT_N has been asserted for `ns`: filtered at 1 µs; between 0.5 and 1 µs the filter may act (R547). Before the compute dies
are released the assertion only holds the boot. -/
def coolantAssert (s : State) (ns : Nat) : State :=
  let act := if 1000 ≤ ns then true else if ns < 500 then false else s.fresh.getLsbD 0
  let s1 := if 500 ≤ ns && ns < 1000 then s.drawn else s
  if !act || s1.pwr.coolant then s1
  else
    let s2 : State := { s1 with pwr := { s1.pwr with coolant := true } }
    let s3 := setLevel (setLevel s2 8 0x204 true) 9 0x204 true
    if s3.stage < 2 || s3.stage == 8 || s3.pwr.halt then s3 else coolantHalt s3

/-- COOLANT_FAULT_N has been deasserted for 1 s. -/
def coolantEnd (s : State) : State :=
  let s1 := setLevel (setLevel s 8 0x204 false) 9 0x204 false
  { s1 with pwr := { s1.pwr with coolant := false } }

/-! ### The commands -/

/-- PWR_REQ_RUN (R440). -/
def execPwrReqRun (s : State) : Result := .next (if s.copyDark primaryDie then s else pwrRun s)

/-- PWR_REQ_GATED (R440). -/
def execPwrReqGated (s : State) : Result := .next (if s.copyDark primaryDie then s else pwrEnter s 2)

/-- PWR_REQ_STANDBY (R440). -/
def execPwrReqStandby (s : State) : Result := .next (if s.copyDark primaryDie then s else pwrEnter s 3)

/-- POWER_ENTRY_CONTINUE (R441). -/
def execPowerEntryContinue (s : State) : Result := .next (entryContinue s)

/-- POWER_RETURN_COMPLETE (R442). -/
def execPowerReturnComplete (data : List (ChanId × Fin 64)) (check : List (ChanId × Fin 8)) (s : State) : Result :=
  .next (returnComplete s (failingLanes data check))

/-- POWER_LOOP_TICK (R447, R448). -/
def execPowerLoopTick (watts beWatts : Nat) (rows : List (Fin 256 × Nat)) (s : State) : Result :=
  let s1 := powerLoop s watts beWatts rows
  .next (if s.get Reg.PWR_CAP Fld.PWR_CAP_cap_w < watts then markSlow s1 else rateCheck s1)

/-- COOLANT_FAULT_ASSERT (R453). -/
def execCoolantFaultAssert (ns : Nat) (s : State) : Result := .next (coolantAssert s ns)

/-- COOLANT_FAULT_DEASSERT (R440, R453). -/
def execCoolantFaultDeassert (s : State) : Result := .next (coolantEnd s)

end Sys2Proof.Machine
end

