-- ==== Sys2Proof/Machine/Boot.lean ====
section
/-!
DEFINITION. Module reset (R487), the rails (R485, R486), straps (R488-R490), the boot stages (R492), readiness (R494, R496), die reset
(R497, R498) and the junction trip (R454).
-/
namespace Sys2Proof.Machine

/-! ### Module reset (R487, R501, R515) -/

/-- Registers whose value at module reset is read again from fuses and flash. -/
def flashRegs (s old : State) : State :=
  let f := s.flash
  let s1 := fwReport (fuseReport (s.setReg Reg.SEC_FW (old.reg Reg.SEC_FW)))
  let s2 := s1.setReg Reg.SEC_NONCE (BitVec.ofNat 64 (Config.secNonce s.sec.nonces))
  let s3 := s2.put Reg.BOOT_IMG_SERIAL Fld.BOOT_IMG_SERIAL_floor f.floor.toNat
  let s4 := (s3.setReg (Reg.BOOT_IMG_COPY 0) (old.reg (Reg.BOOT_IMG_COPY 0))).setReg (Reg.BOOT_IMG_COPY 1) (old.reg (Reg.BOOT_IMG_COPY 1))
  let s5 := ((s4.put Reg.PWR_TRIP Fld.PWR_TRIP_count f.tripCount.toNat).put Reg.PWR_TRIP Fld.PWR_TRIP_die f.tripDie.toNat).put Reg.PWR_TRIP
    Fld.PWR_TRIP_sensor f.tripSensor.toNat
  forEach f.fmax s5 (fun s x => s.put (Reg.CORE_FMAX x.1) Fld.CORE_FMAX_revised x.2)

/-- Module reset: everything but the always-on domain, the flash and the records in it; what waits in the queue, what has been sent and the
free values drawn are the model's own and stay. -/
def moduleReset (s : State) : State :=
  let base : State := { State.reset with
    pending := s.pending, flash := s.flash, outbox := s.outbox, free := s.free,
    host := { State.reset.host with perst := s.host.perst },
    stk := { Mem.reset with mapped := s.flash.mapout },
    sec := { Sec.reset with nonces := s.sec.nonces + 1 },
    pwr := { Power.reset with coolant := s.pwr.coolant },
    boot := { Boot.reset with rails := s.boot.rails.filter (· ≤ 2), inputOk := s.boot.inputOk } }
  flashRegs base s

/-- A module with the rails `rails` only, and everything volatile lost. -/
def powerLost (s : State) (rails : List Nat) (ok trip : Bool) : State :=
  let s1 := moduleReset s
  { s1 with boot := { s1.boot with rails := rails, inputOk := ok }, pwr := { s1.pwr with trip := trip } }

/-- The module answers a reset request: it has its always-on rail and no trip holds it. -/
def State.resettable (s : State) : Bool := s.boot.inputOk && s.boot.rails.contains 1 && !s.pwr.trip

/-! ### Rails (R485, R486, R540) -/

def railStep (s : State) (k : Nat) : State := { s with boot := { s.boot with rails := setIns s.boot.rails k } }

/-- The key of a compute die's rail step. -/
def railKey (d step : Nat) : Nat := 8 * (d + 1) + step

/-- A rail's power-good asserts, in the order of Table 19-1. -/
def railGood (s : State) (die : Option Nat) (step : Nat) : State :=
  let have_ (k : Nat) : Bool := s.boot.rails.contains k
  if !s.boot.inputOk || (s.pwr.trip && step != 1) then s else
  match die with
  | none => if step = 1 || (step = 2 && have_ 1) then railStep s step else s
  | some d =>
    if (step = 3 && have_ 2 && s.boot.released.contains d) || (step = 4 && have_ (railKey d 3)) then readyCheck (railStep s (railKey d step))
    else s

/-! ### Straps (R488-R490) -/

/-- A die holds itself in reset: it behaves as an isolated die until the next module reset. -/
def holdDie (s : State) (d : Nat) : State :=
  let s1 := s.setFlag (Reg.BOOT_STRAP d) Fld.BOOT_STRAP_held true
  readyCheck { s1 with ceral := { s1.ceral with isolated := setIns s1.ceral.isolated d } }

/-- The position that straps name: 0 to 7 a compute die, 8 X0, 9 X1; none for an encoding that names none. -/
def strapPos (role id : Nat) : Option Nat :=
  if role = 0 then some id else if role = 1 && id = 0 then some 8 else if role = 2 && id = 1 then some 9 else none

/-- DIE_ROLE, DIE_ID and DIE_PAR hold an even number of ones, role 0b11, or an I/O ID above 1. -/
def strapBad (role id : Nat) (par : Bool) : Bool :=
  (popCount 2 role + popCount 3 id + b2n par) % 2 == 0 || role == 3 || (role != 0 && 1 < id)

/-- Die `d` reads and reports its straps: a compute die reports once it has trained its first Ceral link, but one whose straps fail holds itself
in reset at once (R488, R489). -/
def strapReport (s : State) (d role id : Nat) (par : Bool) : State :=
  let r := Reg.BOOT_STRAP d
  let out := if d = primaryDie then s.boot.rails.contains 1 else s.boot.released.contains d
  if !out || s.dieHeld d then s else
  let s1 := ((s.put r Fld.BOOT_STRAP_die_role role).put r Fld.BOOT_STRAP_die_id id).setFlag r Fld.BOOT_STRAP_die_par par
  if strapBad role id par then holdDie (s1.setFlag r Fld.BOOT_STRAP_par_err true) d
  else if d < 8 && !(linksOf d).any (s.linkUp d) then s
  else
    let s2 := s1.setFlag r Fld.BOOT_STRAP_valid true
    if strapPos role id != some d || s.boot.reported.contains d then holdDie (s2.setFlag r Fld.BOOT_STRAP_dup true) d
    else { s2 with boot := { s2.boot with reported := setIns s2.boot.reported d } }

/-! ### Stages (R492) -/

def setStageNo (s : State) (n : Nat) : State := s.put Reg.BOOT_STAGE Fld.BOOT_STAGE_stage n

/-- The secondary I/O die. -/
def secondaryDie : Nat := 17 - primaryDie

/-- Compute die `d` is held in reset or isolated. -/
def State.dieOut (s : State) (d : Nat) : Bool := s.dieHeld d || s.ceral.isolated.contains d

/-- Every compute die is ready or held, and every stack of those that run has ended training. -/
def State.diesDone (s : State) : Bool :=
  (List.range 8).all (fun d => s.dieOut d || (s.dieReady d && (List.range 4).all (fun m => s.boot.trained.contains (4 * d + m))))

/-- The map-out list is complete (R335, R345). -/
def mapoutDone (s : State) : State :=
  forEach (List.range 8) s (fun s d =>
    forEach (List.range s.stk.mapped.length) (s.put (Reg.MEM_MAP_INFO d) Fld.MEM_MAP_INFO_mapped_out s.stk.mapped.length) (fun s j =>
      (s.setFlag (Reg.MEM_MAPOUT d j) Fld.MEM_MAPOUT_valid true).put (Reg.MEM_MAPOUT d j) Fld.MEM_MAPOUT_channel (s.stk.mapped.getD j 0)))

/-- Copy `k` of the image is read: whether it passes steps 1 to 7 of R509 is reported (R515). -/
def copyRead (s : State) (k : Nat) : State :=
  let r := Reg.BOOT_IMG_COPY k
  match s.flash.imgCopy k with
  | none => (s.setFlag r Fld.BOOT_IMG_COPY_valid false).put r Fld.BOOT_IMG_COPY_serial 0
  | some bs =>
    (s.setFlag r Fld.BOOT_IMG_COPY_valid ((s.verifyForm bs s.flash.floor.toNat).result == 0)).put r Fld.BOOT_IMG_COPY_serial (imgSerial bs)

/-- Copy `k` passes R509. -/
def State.copyGood (s : State) (k : Nat) : Bool :=
  match s.flash.imgCopy k with
  | some bs => (s.verifyImage bs).result == 0
  | none => false

def State.copySerial (s : State) (k : Nat) : Nat := match s.flash.imgCopy k with | some bs => imgSerial bs | none => 0

/-- The copy that stage 3 applies (R510): the one with the higher serial where it passes, else the other; copy 0 on a tie. -/
def State.bootCopy (s : State) : Option Nat :=
  let first := if s.copySerial 0 < s.copySerial 1 then 1 else 0
  if s.copyGood first then some first else if s.copyGood (1 - first) then some (1 - first) else none

/-- Copy `k` is the one applied at the last boot. -/
def markBooted (s : State) (k : Nat) : State :=
  let s1 := (s.setFlag (Reg.BOOT_IMG_COPY k) Fld.BOOT_IMG_COPY_booted true).setFlag (Reg.BOOT_IMG_COPY (1 - k)) Fld.BOOT_IMG_COPY_booted false
  { s1 with flash := { s1.flash with booted := k } }

/-- Stage 4: mailboxes ready. -/
def stageRun (s : State) : State := setStageNo (s.setFlag Reg.BOOT_READY0 Fld.BOOT_READY0_mailbox true) 4

/-- A boot application's pin failure is recorded (R512). -/
def pinReport (s : State) (r : ImgResult) : State :=
  if r.result = 0 then s
  else (s.put Reg.BOOT_IMG_STATUS Fld.BOOT_IMG_STATUS_result r.result).put Reg.BOOT_IMG_STATUS Fld.BOOT_IMG_STATUS_partition r.part

/-- Stage 3: the image of the flash is verified and applied, or the module waits for one. -/
def stageImage (s : State) : State :=
  let first := if s.copySerial 0 < s.copySerial 1 then 1 else 0
  let s1 := copyRead s first
  let s2 := if s.copyGood first then s1 else copyRead s1 (1 - first)
  match s.bootCopy with
  | none => setStageNo s2 9
  | some k =>
    match s.flash.imgCopy k with
    | none => s
    | some bs =>
      match applyImage s2 bs with
      | none => s
      | some (s3, r) => stageRun (markBooted (pinReport s3 r) k)

/-- The stage that may follow begins. -/
def stageNext (s : State) : State :=
  let st := s.stage
  if st = 0 then
    (if !s.boot.rails.contains 1 || !s.boot.rails.contains 2 || s.dieHeld primaryDie then s else
     match s.fwPick with
     | none => setStageNo s 8
     | some k =>
       let s1 := setStageNo (deriveAlias (runFirmware s k)) 1
       if primaryDie = 9 then holdDie s1 8 else s1)
  else if st = 1 then
    (if (s.boot.released.contains secondaryDie || s.dieHeld secondaryDie) && !s.pwr.coolant then setStageNo s 2 else s)
  else if st = 2 then
    (if !s.diesDone then s
     else if (List.range 8).any s.dieOut then setStageNo s 10
     else setStageNo (mapoutDone s) 3)
  else if st = 3 then stageImage s
  else s

/-- BOOT_STAGE_ADVANCE at `ms` milliseconds after module reset. -/
def stageAdvance (s : State) (ms : Nat) : State :=
  if s.pwr.trip || !s.boot.inputOk then s
  else
    let s1 := s.put Reg.BOOT_STAGE Fld.BOOT_STAGE_ms (max (s.get Reg.BOOT_STAGE Fld.BOOT_STAGE_ms) (satTo 32 ms))
    readyCheck (portReady (if 2 ≤ s.pwrState || s.pwrBusy then s1 else stageNext s1))

/-! ### Dies and stacks -/

/-- A die may be released now (Table 19-2, R547): first-stage firmware has found the die-controller firmware good (R518). -/
def State.mayRelease (s : State) (d : Nat) : Bool :=
  s.dcGood && !s.dieOut d && !s.boot.released.contains d && d != primaryDie &&
    (if 8 ≤ d then s.stageOne
     else s.stage == 2 && !s.pwr.coolant && (List.range d).all (fun e => s.boot.released.contains e || s.dieHeld e))

/-- Die `d` is released, or held in reset where its firmware shares no major with the primary die's (R514). -/
def dieRelease (s : State) (d : Nat) : State :=
  if s.mayRelease d then
    if !s.dcSpeaks then holdDie s d else readyCheck { s with boot := { s.boot with released := setIns s.boot.released d } } else s

/-- Training of one channel ends at module reset (R331, R334, R335). -/
def chanTrain (s : State) (lanes : List (Nat × Nat)) (c : Nat) : State :=
  if s.stk.mapped.contains c then setChan s c 5
  else if trainFails lanes c then
    (if s.stk.mapped.length < 64 then setChan { s with stk := { s.stk with mapped := setIns s.stk.mapped c } } c 5
     else chanDead s c true)
  else
    let v := sparesOf lanes c
    chanTrained { s with stk := { s.stk with spares0 := s.stk.spares0 ++ [(c, v)] } } c v

/-- Every channel of stack `n` has ended training. -/
def stackTrained (s : State) (n : Nat) (lanes : List (Nat × Nat)) : State :=
  if s.boot.trained.contains n || !s.dieRuns (n / 4) || s.boot.dieReset == some (n / 4) then s
  else
    let s1 := forEach ((List.range 32).map (fun i => 32 * n + i)) s (fun s c => chanTrain s lanes c)
    let s2 : State := { s1 with boot := { s1.boot with trained := setIns s1.boot.trained n } }
    s2.setReg Reg.BOOT_READY_STK (s2.reg Reg.BOOT_READY_STK ||| BitVec.ofNat 64 (2 ^ n))

/-! ### Partitions (R496) -/

/-- Stacks that hold a unit of a GiB of partition `p`: those of a die-local GiB's die, or every stack where a unit may lie anywhere. -/
def State.partStacks (s : State) (p : Nat) : List Nat :=
  let wide := (s.gibsOf p).any (fun g => s.gmap g Fld.PRT_GMAP_die_local == 0 ||
    s.stk.mapped.any (fun c => c / 128 == s.gmap g Fld.PRT_GMAP_die))
  if wide then List.range 32
  else (s.gibsOf p).flatMap (fun g => (List.range 4).map (fun m => 4 * s.gmap g Fld.PRT_GMAP_die + m))

/-- The conditions of R496; pins of a LOADING partition have been pinned. -/
def State.partMayRun (s : State) (p : Nat) : Bool :=
  s.img.applied && s.partState p == 4 && !(s.part p).reloaded && s.get Reg.BOOT_READY0 Fld.BOOT_READY0_slices == 0xFFFF &&
    (s.partStacks p).all (fun n => bit (s.reg Reg.BOOT_READY_STK).toNat n)

def partitionReady (s : State) (p : Nat) : State :=
  if s.partMayRun p then
    (setPartState s p 1).setReg Reg.BOOT_READY_PRT (s.reg Reg.BOOT_READY_PRT ||| BitVec.ofNat 64 (2 ^ p))
  else s

/-! ### Die reset (R497, R498) -/

/-- The request is refused. -/
def State.dieResetRefused (s : State) (d : Nat) : Bool :=
  s.boot.dieReset.isSome || (List.range 32).any (fun p => s.partState p != 0 && s.partState p != 3) || s.dieOut d ||
    2 ≤ s.pwrState || s.pwrBusy || s.reloading

/-- The offset lies in a per-die copy of compute die `d` whose registers a die reset restores. -/
def dieOffset (d off : Nat) : Bool :=
  (0x1000000 + d * 0x400000 ≤ off && off < 0x1000000 + (d + 1) * 0x400000) ||
  (0x4000000 + d * 0x100000 ≤ off && off < 0x4000000 + (d + 1) * 0x100000 &&
    !(0x4001000 + d * 0x100000 ≤ off && off < 0x4002000 + d * 0x100000)) ||
  (0x5000000 + d * 0x100000 ≤ off && off < 0x5000000 + (d + 1) * 0x100000) ||
  (0x6000000 + d * 0x200000 ≤ off && off < 0x6000000 + (d + 1) * 0x200000 &&
    off != Reg.MEM_MAP_INFO d && !(Reg.MEM_MAPOUT d 0 ≤ off && off < Reg.MEM_MAPOUT d 64)) ||
  (0x8000000 + d * 0x80000 ≤ off && off < 0x8000000 + (d + 1) * 0x80000) ||
  (0x9000000 + d * 0x100000 ≤ off && off < 0x9000000 + (d + 1) * 0x100000) ||
  (0xA000000 + d * 0x100000 ≤ off && off < 0xA000000 + (d + 1) * 0x100000) ||
  (0xB000000 + d * 0x100000 ≤ off && off < 0xB000000 + (d + 1) * 0x100000 &&
    off != Reg.ERR_RING d && off != Reg.ERR_OVF d && off < Reg.ERR_REC d 0 0)

/-- The registers of die `d` take their reset values; revised maxima stay (R457), and so does what module reset dates in
MEM_CH_STATUS: dead and mapped-out channels, and the failed lines (Tables 12-4, 12-11). -/
def dieRegs (s : State) (d : Nat) : State :=
  let s1 : State := { s with regs := s.regs.filter (fun e => !dieOffset d e.1) }
  let s2 := forEach (allCores.filter (fun c => coreDie c == d)) s1 (fun s1 c =>
    s1.put (Reg.CORE_FMAX c) Fld.CORE_FMAX_revised (s.fmax c))
  forEach ((List.range 128).map (fun i => 128 * d + i)) s2 (fun s2 c =>
    let st := s.chanState c
    let r := chanReg Reg.MEM_CH_STATUS c
    let s3 := s2.put r Fld.MEM_CH_STATUS_fail_lines (satTo 8 (mapGet (fun _ => []) s.stk.ue c).length)
    if st = 4 || st = 5 then setChan s3 c st else s3)

/-- What the model holds of die `d` beside its registers goes back to its state at first use (Table 19-7). -/
def dieState (s : State) (d : Nat) : State :=
  let mine (c : Nat) : Bool := coreDie c == d
  let scr (a : Nat) : Bool := 0x100000000000 + d * 0x20000000 ≤ a && a < 0x100000000000 + (d + 1) * 0x20000000
  let chan (e : Nat × Nat) : Bool := e.1 / 128 != d
  let halves (k : Nat) : Bool := k / 2 != d
  { s with
    cores := s.cores.filter (fun e => !mine e.1)
    mem := s.mem.filter (fun x => !scr x.1)
    poison := s.poison.filter (fun a => !scr a)
    evc := s.evc.filter (fun e => e.1 / 4 != d)
    llc := { s.llc with
      ueLines := s.llc.ueLines.filter (fun e => sliceDie e.1 != d), fills := s.llc.fills.filter (fun f => sliceDie f.slice != d),
      promises := s.llc.promises.filter (fun p => sliceDie p.slice != d),
      repInv := s.llc.repInv.filter (fun e => sliceDie e.1 != d), binv := s.llc.binv.filter (fun e => e.1 != d),
      probes := s.llc.probes.filter (fun e => e.1 != d) }
    stk := { s.stk with
      bad := s.stk.bad.filter (fun e => !scr e.1), win := s.stk.win.filter chan, good := s.stk.good.filter chan,
      skipWin := s.stk.skipWin.filter (fun c => c / 128 != d) }
    errs := { s.errs with inj := mapDrop s.errs.inj d }
    pwr := { s.pwr with
      rates := s.pwr.rates.filter (fun e => !mine e.1), alarm := s.pwr.alarm.filter halves,
      temps := s.pwr.temps.filter (fun e => halves e.1), cool := s.pwr.cool.filter (fun e => halves e.1), thermLc := s.pwr.thermLc.filter (fun e => halves e.1),
      capLow := s.pwr.capLow.filter (fun c => !mine c), droop := s.pwr.droop.filter (fun r => r / 32 != d),
      droopsFrame := mapDrop s.pwr.droopsFrame d }
    boot := { s.boot with
      trained := s.boot.trained.filter (fun n => n / 4 != d), reported := setDel s.boot.reported d, dieReset := some d } }

/-- The links of die `d` stop; partner dies keep their records (R365). -/
def dieLinks (s : State) (d : Nat) : State :=
  forEach (linksOf d) s (fun s l =>
    match peerOf d l with
    | some (j, k) =>
      let s1 := s.put (Reg.CRL_LINK j k) Fld.CRL_LINK_state 0
      { s1 with ceral := { s1.ceral with
          keep := setIns (setDel s1.ceral.keep (d * 3 + l)) (j * 3 + k)
          untrained := setIns s1.ceral.untrained ((lowEnd d l).1 * 3 + (lowEnd d l).2) } }
    | none => s)

/-- The ready bits of die `d` are cleared. -/
def dieUnready (s : State) (d : Nat) : State :=
  let r := Reg.BOOT_READY0
  let s1 := s.put r Fld.BOOT_READY0_die (s.get r Fld.BOOT_READY0_die &&& (0x3FF - 2 ^ d))
  let s2 := s1.put r Fld.BOOT_READY0_slices (s1.get r Fld.BOOT_READY0_slices &&& (0xFFFF - 3 * 2 ^ (2 * d)))
  s2.put Reg.BOOT_READY_STK Fld.BOOT_READY_STK_stacks (s2.get Reg.BOOT_READY_STK Fld.BOOT_READY_STK_stacks &&& (0xFFFFFFFF - 15 * 2 ^ (4 * d)))

/-- Steps 1 to 5 of Table 19-5. -/
def dieResetRun (s : State) (d : Nat) : State :=
  let s1 := coresOut s (allCores.filter (fun c => coreDie c == d))
  let s2 := forEach (List.range 64) s1 (fun s k => drainSlice s (64 * d + k))
  let s3 := mapDirs s2 (fun x => x.forgetDie d)
  let s4 := setRefresh (dieState (dieRegs (dieLinks s3 d) d) d) [d] true
  linksBegin ((dieUnready s4 d).setFlag Reg.BOOT_DIE_RESET Fld.BOOT_DIE_RESET_busy true)

/-- A write of BOOT_DIE_RESET.die. -/
def dieReset (s : State) (d : Nat) : State :=
  if 8 ≤ d then s
  else if s.dieResetRefused d then s.setFlag Reg.BOOT_DIE_RESET Fld.BOOT_DIE_RESET_refused true
  else dieResetRun s d

/-- The image's fields for die `d` are rewritten (step 7). -/
def dieImage (s : State) (d : Nat) : State :=
  if !s.img.applied then s else
  let t := s.img.topo
  let s1 := forEach (List.range 32) s (fun s r => applyRow s (32 * d + r) (rowRec t (32 * d + r)))
  let s2 := forEach [2 * d, 2 * d + 1] s1 (fun s h => applyHalf s h (bit (gatedRec t) h) (numAt t (0x210 + 2 * h) 2))
  let s3 := applySlices s2 t ((List.range 64).map (fun k => 64 * d + k))
  let s4 := applyModuleDie (applyDie s3 s.img.die d) s.img.module d
  forEach s.img.parts s4 (fun s x => applyMasks s d x.1 x.2.bytes)

/-- The declared regions whose lines are homed on die `d` are pinned again (R204). -/
def diePins (s : State) (d : Nat) : List (Nat × PartSec) → Option State
  | [] => some s
  | (p, b) :: rest =>
    match applyPins s p (fun s l => sliceDie (s.home l) == d) (partPins b.bytes) with
    | none => none
    | some (s1, _) => diePins s1 d rest

/-- Steps 6 to 8: the die has booted, its links have settled, its stacks have retrained. -/
def dieResetEnd (s : State) (lanes : List (Nat × Nat)) : State :=
  match s.boot.dieReset with
  | none => s
  | some d =>
    if !(linksOf d).all (s.linkSettled d) then s
    else
      let s1 := forEach ((List.range 128).map (fun i => 128 * d + i)) (setRefresh s [d] false) (fun s c => chanRetrain s lanes c)
      match diePins (linesCheck (dieImage s1 d) d) d s.img.parts with
      | none => s
      | some s2 =>
        let sts := (List.range 4).map (fun m => 4 * d + m)
        let s3 : State := { s2 with boot := { s2.boot with dieReset := none, trained := sts.foldl setIns s2.boot.trained } }
        let s4 := s3.setReg Reg.BOOT_READY_STK (s3.reg Reg.BOOT_READY_STK ||| BitVec.ofNat 64 (15 * 2 ^ (4 * d)))
        (dieReadyCheck s4 d).setFlag Reg.BOOT_DIE_RESET Fld.BOOT_DIE_RESET_busy false

/-! ### The junction trip (R454) -/

/-- A sensor reads 115 °C or more: the module trips, and the trip is recorded in flash. -/
def tripNow (s : State) (die sensor : Nat) : State :=
  let f := { s.flash with
    tripCount := BitVec.ofNat 32 (satInc 32 s.flash.tripCount.toNat), tripDie := BitVec.ofNat 4 die, tripSensor := BitVec.ofNat 12 sensor }
  powerLost { s with flash := f } [1] s.boot.inputOk true

/-- MOD_ALIVE toggles: the primary die's firmware, or its ROM in RECOVERY, runs its health loop; else it is low (R499, Table 19-6).
MOD_PRESENT_N is tied to ground and holds no state. -/
def State.modAlive (s : State) : Bool := s.boot.inputOk && s.boot.rails.contains 1 && !s.pwr.trip && s.stage != 0

def junctionRead (s : State) (die h t sensor : Nat) : State :=
  if s.pwr.trip then s else if 115 ≤ t then tripNow s die sensor else markSlow (junction s die h t)

/-! ### The commands -/

/-- JUNCTION_READ (R452, R454). -/
def execJunctionRead (die : DieIx) (half : Bool) (t : BitVec 8) (sensor : BitVec 12) (s : State) : Result :=
  .next (junctionRead s die.val (b2n half) t.toNat sensor.toNat)

/-- TRIP_HOLD_END: X0 ends the hold of module reset (R454, R487). -/
def execTripHoldEnd (s : State) : Result := .next (if s.pwr.trip then moduleReset s else s)

/-- INPUT_RISE: the input reaches 43 V (R485). -/
def execInputRise (s : State) : Result := .next (if s.boot.inputOk then s else powerLost s [] true false)

/-- RAIL_POWER_GOOD (R485). -/
def execRailPowerGood (die : Option (Fin 8)) (step : Fin 5) (s : State) : Result :=
  .next (railGood s (die.map (·.val)) step.val)

/-- INPUT_LOSS: the input is below 40 V for `us` (R486). -/
def execInputLoss (us : Nat) (s : State) : Result := .next (if 100 ≤ us then powerLost s [] false false else s)

/-- INPUT_OVERVOLTAGE: the input is above 61 V for `us` (R540). -/
def execInputOvervoltage (us : Nat) (s : State) : Result := .next (if 10 ≤ us then powerLost s [] false false else s)

/-- BOOT_MODULE_RESET (R487, R501). -/
def execBootModuleReset (key : BitVec 16) (s : State) : Result :=
  .next (if key = 0x5A17 && s.resettable then moduleReset s else s)

/-- SHEDY_MODULE_RESET (R487). -/
def execShedyModuleReset (key : BitVec 16) (s : State) : Result :=
  .next (if key = 0x5A17 && s.resettable then moduleReset s else s)

/-- STRAP_REPORT (R488, R489). -/
def execStrapReport (die : DieIx) (role : BitVec 2) (id : BitVec 3) (par : Bool) (s : State) : Result :=
  .next (strapReport s die.val role.toNat id.toNat par)

/-- BOOT_STAGE_ADVANCE (R492). -/
def execBootStageAdvance (ms : Nat) (s : State) : Result := .next (stageAdvance s ms)

/-- DIE_RELEASE (R492). -/
def execDieRelease (die : DieIx) (s : State) : Result := .next (dieRelease s die.val)

/-- STACK_TRAINING_COMPLETE (R334, R335). -/
def execStackTrainingComplete (stack : StackId) (data : List (Fin 32 × Fin 64)) (check : List (Fin 32 × Fin 8)) (s : State) : Result :=
  .next (stackTrained s stack.val ((failingLanes data check).map (fun x => (32 * stack.val + x.1, x.2))))

/-- PARTITION_READY (R496). -/
def execPartitionReady (p : PartId) (s : State) : Result := .next (partitionReady s p.val)

/-- BOOT_DIE_RESET (R497, R498). -/
def execBootDieReset (die : BitVec 4) (s : State) : Result := .next (dieReset s die.toNat)

/-- DIE_RESET_COMPLETE (R498). -/
def execDieResetComplete (data : List (ChanId × Fin 64)) (check : List (ChanId × Fin 8)) (s : State) : Result :=
  .next (dieResetEnd s (failingLanes data check))

end Sys2Proof.Machine
end

