-- ==== Sys2Proof/Machine/ImageCmd.lean ====
section
/-!
DEFINITION. The image operations of the manager (R511): CHECK, STORE, APPLY, RELOAD. A write of BOOT_IMG_CTL starts one; the command of the
same name carries what the device read and ends it.
-/
namespace Sys2Proof.Machine

/-- The port that an image operation reads its image on. -/
def State.imgPort (s : State) : Nat := s.get Reg.BOOT_IMG_CTL Fld.BOOT_IMG_CTL_port

/-- A write of BOOT_IMG_CTL.op: dropped while busy; a reserved op starts nothing (R17, R511). -/
def imgStart (s : State) (op : Nat) : State :=
  let r := Reg.BOOT_IMG_STATUS
  if s.flag r Fld.BOOT_IMG_STATUS_busy then s.setFlag r Fld.BOOT_IMG_STATUS_busy_drop true
  else if 1 ≤ op && op ≤ 4 then
    let s1 := (s.setFlag r Fld.BOOT_IMG_STATUS_busy true).setFlag r Fld.BOOT_IMG_STATUS_done false
    bootAsk (beginTurn { s1 with img := { s1.img with op := some op, opPart := s1.get Reg.BOOT_IMG_CTL Fld.BOOT_IMG_CTL_partition } } 0)
      s.imgPort (s.get Reg.BOOT_IMG_ADDR Fld.BOOT_IMG_ADDR_addr * 4096) (s.get Reg.BOOT_IMG_CTL Fld.BOOT_IMG_CTL_len)
  else s

/-- Run `f` as operation `op`, unless another one is busy; nothing happens while an operation started before it has not ended (R523). -/
def imgRun (s : State) (op : Nat) (f : State → State) : State :=
  if s.flag Reg.BOOT_IMG_STATUS Fld.BOOT_IMG_STATUS_busy && s.img.op != some op then
    s.setFlag Reg.BOOT_IMG_STATUS Fld.BOOT_IMG_STATUS_busy_drop true
  else if s.turn 0 then f s else s

/-- Write an image to the flash copy that was not applied at the last boot (R510). -/
def storeImage (s : State) (bs : List Byte) : State :=
  let k := 1 - s.flash.booted
  let s1 : State := { s with flash := { s.flash with img := mapSet Config.flashImg s.flash.img k (some bs) } }
  (s1.put (Reg.BOOT_IMG_COPY k) Fld.BOOT_IMG_COPY_serial (imgSerial bs)).setFlag (Reg.BOOT_IMG_COPY k) Fld.BOOT_IMG_COPY_valid true

def imgCheck (s : State) (d : Option (List Byte)) : State :=
  if !s.stageOne then imgEnd s (ImgResult.of 9) else
  match s.fetched s.imgPort d with
  | none => imgEnd s (ImgResult.of 1)
  | some bs => imgEnd s (s.verifyImage bs)

def imgStore (s : State) (d : Option (List Byte)) : State :=
  if !s.stageOne then imgEnd s (ImgResult.of 9) else
  match s.fetched s.imgPort d with
  | none => imgEnd s (ImgResult.of 1)
  | some bs =>
    let r := s.verifyImage bs
    if r.result = 0 then imgEnd (storeImage s bs) r else imgEnd s r

/-- APPLY, in IMAGE_WAIT only; where a pin must wait, so does the operation. -/
def imgApply (s : State) (d : Option (List Byte)) : State :=
  if s.stage != 9 then imgEnd s (ImgResult.of 9) else
  match s.fetched s.imgPort d with
  | none => imgEnd s (ImgResult.of 1)
  | some bs =>
    let r := s.verifyImage bs
    if r.result != 0 then imgEnd s r
    else match applyImage s bs with
      | none => s
      | some (s1, r1) => imgEnd (portReady (stageRun (storeImage s1 bs))) r1

/-- The module's state allows a RELOAD of partition `p`. -/
def State.reloadAllowed (s : State) (p : Nat) : Bool :=
  s.stage == 4 && s.pwrState < 2 && bit s.img.flags.toNat 0 && (s.partState p == 0 || s.partState p == 3)

/-- RELOAD of partition `p`; where a pin must wait, so does the operation. -/
def imgReload (s : State) (p : Nat) (d : Option (List Byte)) : State :=
  if !s.reloadAllowed p then imgEnd s (ImgResult.of 9) else
  match s.fetched s.imgPort d with
  | none => imgEnd s (ImgResult.of 1)
  | some bs =>
    let r := s.verifyReload bs p
    if r.result != 0 then imgEnd s r
    else match reloadPart s p bs with
      | none => s
      | some (s1, r1) => abortsGo (imgEnd s1 r1)

/-! ### The commands -/

/-- IMG_CHECK (R511). -/
def execImgCheck (d : Option (List Byte)) (s : State) : Result := .next (imgRun s 1 (fun s => imgCheck s d))

/-- IMG_STORE (R510, R511). -/
def execImgStore (d : Option (List Byte)) (s : State) : Result := .next (imgRun s 2 (fun s => imgStore s d))

/-- IMG_APPLY (R511, R512). -/
def execImgApply (d : Option (List Byte)) (s : State) : Result := .next (imgRun s 3 (fun s => imgApply s d))

/-- IMG_RELOAD (R511, R513). -/
def execImgReload (p : PartId) (d : Option (List Byte)) (s : State) : Result := .next (imgRun s 4 (fun s => imgReload s p.val d))

end Sys2Proof.Machine
end

