-- ==== Sys2Proof/Machine/RegSpace.lean ====
section
/-!
DEFINITION. Reads and writes of the register space (R12-R18, R46-R49): what a read shows, the access codes of Table 0-3, and what a
write of a field starts. The mailbox pages (R399), the MSI-X tables (R384) and every register with an effect of its own are here.
-/
namespace Sys2Proof.Machine

/-- How a write reaches a register: the manager's way (BAR0, or a core's window), the tenant's page in BAR4, a die controller's firmware. -/
inductive Via where
  | manager | tenant | firmware
deriving DecidableEq, Repr

/-! ### Copies that are not served (R49) -/

/-- The die whose copy holds offset `off`; none for a block that is not per die (Table 1-12). -/
def copyDie (off : Nat) : Option Nat :=
  if off < 0x4000000 then none
  else if off < 0x6000000 then some (off % 0x1000000 / 0x100000)
  else if off < 0x8000000 then some ((off - 0x6000000) / 0x200000)
  else if off < 0x8800000 then some ((off - 0x8000000) / 0x80000)
  else if off < 0x9000000 then none
  else if off < 0xC000000 then some (off % 0x1000000 / 0x100000)
  else none

/-- The offset lies in the CORE_ pages, in the LLC_ or DIR_ copies. -/
def inCorePages (off : Nat) : Bool := 0x1000000 ≤ off && off < 0x3000000
def inSliceBlocks (off : Nat) : Bool := 0x4000000 ≤ off && off < 0x6000000

/-- The half (2 * die + half) whose gating closes `off`: the CORE_ pages, slice pages and PWR_ROW of the half. -/
def gatedBy (off : Nat) : Option Nat :=
  if inCorePages off then some ((off - 0x1000000) / 0x200000)
  else if inSliceBlocks off then
    (if 0x4000 ≤ off % 0x100000 && off % 0x100000 < 0x14000 then some (2 * (off % 0x1000000 / 0x100000) + (off % 0x100000 - 0x4000) / 0x8000)
     else none)
  else if 0xA000000 ≤ off && off < 0xA800000 && 0x200 ≤ off % 0x100000 && off % 0x100000 < 0x300 then
    some (2 * (off % 0x1000000 / 0x100000) + (off % 0x100000 - 0x200) / 0x80)
  else none

/-- Reads of `off` give zero and writes are dropped, since the unit is powered off or not ready (R49). -/
def State.regDark (s : State) (off : Nat) : Bool :=
  (match copyDie off with | some d => d < 10 && s.copyDark d | none => false) ||
  (match gatedBy off with | some h => s.flag (Reg.PWR_HALF (h / 2) (h % 2)) Fld.PWR_HALF_gated | none => false) ||
  (2 ≤ s.pwrState && inCorePages off) || (s.pwrState == 3 && inSliceBlocks off)

/-- Where the model keeps the register at `off`. On a module with PRIMARY_X1 blown the module-wide PWR_ registers and the watch registers lie at
die index 9 (R436, R456, R490); the model keeps them under the names of die index 8, whose own copies hold none. -/
def keptAt (off : Nat) : Nat :=
  let wide (o : Nat) : Bool := (0xA800000 ≤ o && o < 0xA900000) || (0x9804000 ≤ o && o < 0x9805000)
  if primaryDie = 9 then (if wide off then 0xE000000 else if 0x100000 ≤ off && wide (off - 0x100000) then off - 0x100000 else off) else off

/-! ### What a read shows -/

/-- CORE_STATE.state (Table 3-9). -/
def State.coreStateCode (s : State) (c : Nat) : Nat :=
  let k := s.core c
  if s.coreOff c then 0
  else match k.phase with
    | .save => 4
    | .restore => 4
    | .faulted => 5
    | .wait _ => if k.leg.isSome && !k.ended then 3 else 1
    | .run => if k.leg.isSome && !k.ended then 2 else 1
    | .stopped => if k.leg.isSome && !k.ended then 2 else 1
    | .idle => 1

/-- CORE_STATE (Table 3-9). -/
def State.coreStateWord (s : State) (c : Nat) : W64 :=
  let k := s.core c
  let busy := ofBits 16 (fun n => n != 0 && (k.tok n).issued != (k.tok n).done)
  BitVec.ofNat 64 (busy * 65536 + k.mvq.length * 4096 + k.veq.length * 256 + k.meq.length * 16 + s.coreStateCode c)

/-- The registers of a core's page that show what the core holds. -/
def coreView (s : State) (base c : Nat) (ix : List Nat) (v : W64) : W64 :=
  let k := s.core c
  if base = Reg.CORE_STATE 0 then s.coreStateWord c
  else if base = Reg.CORE_PC 0 then k.pc.setWidth 64
  else if base = Reg.CORE_MV_OUT 0 0 then
    let n := ix.getD 2 0
    BitVec.ofNat 64 (ofBits 64 (fun i => (mapGet (fun _ => TagSt.idle) k.tags (64 * n + i)).out))
  else if base = Reg.CORE_REMOTE 0 then
    let seq := (k.remote.filter (fun r => r.tag < 64)).length
    Fld.CORE_REMOTE_seq_out.put (Fld.CORE_REMOTE_mv_out.put v (k.remote.length - seq)) seq
  else if base = Reg.CORE_PREEMPT 0 then
    Fld.CORE_PREEMPT_ledger.put v (s.sched.ledger.filter (fun e => e.core == c && e.st == .waiting)).length
  else if base = Reg.CORE_FMAX 0 then Fld.CORE_FMAX_set_mhz.put v (s.coreRate c)
  else v

/-- Caravans of partition `p` in one of two groups of phases. -/
def State.carsIn (s : State) (p : Nat) (f : CarPhase → Bool) : Nat := (s.sched.cars.filter (fun v => v.part.val == p && f v.phase)).length

/-- PRT_LEDGER and PRT_STATUS (Tables 11-7, 11-8). -/
def prtView (s : State) (base : Nat) (ix : List Nat) (v : W64) : W64 :=
  if base = Reg.PRT_LEDGER then
    Fld.PRT_LEDGER_lost.put (Fld.PRT_LEDGER_used.put v s.sched.ledger.length) (s.sched.ledger.filter (fun e => e.st == .lost)).length
  else if base = Reg.PRT_STATUS 0 then
    let p := ix.getD 0 0
    let run := s.carsIn p (fun x => match x with | .running => true | .held => true | .saving => true | _ => false)
    let sav := s.carsIn p (fun x => match x with | .saved => true | .restoring => true | _ => false)
    Fld.PRT_STATUS_saved.put (Fld.PRT_STATUS_running.put v run) sav
  else v

/-- MBX_ID and MBX_STATUS (Table 14-6). -/
def mbxView (s : State) (base i : Nat) (v : W64) : W64 :=
  let inst := Reg.PRT_INST i
  if base = Reg.MBX_ID 0 then
    let v1 := Fld.MBX_ID_bound.put v (s.get inst Fld.PRT_INST_bound)
    let v2 := Fld.MBX_ID_unbinding.put v1 (s.get inst Fld.PRT_INST_unbinding)
    Fld.MBX_ID_partition.put (Fld.MBX_ID_port.put v2 (s.instPort i)) (s.instPart i)
  else if base = Reg.MBX_STATUS 0 then
    let r := Reg.PRT_OWN (s.instPart i)
    let mine := s.instBound i && s.get r Fld.PRT_OWN_instance == i
    Fld.MBX_STATUS_own_pending.put (Fld.MBX_STATUS_owned.put v (b2n (mine && s.flag r Fld.PRT_OWN_owned))) (b2n (mine && s.flag r Fld.PRT_OWN_pending))
  else v

/-- The event controllers' registers that show stacks and pending bits (Tables 16-4, 16-5). -/
def evcView (s : State) (base : Nat) (ix : List Nat) (v : W64) : W64 :=
  let die := ix.getD 0 0
  if base = Reg.EVC_CPU 0 0 then
    let k := s.cpu die (ix.getD 1 0)
    let top := match k.stack with | x :: _ => x | [] => (0, 0)
    let fast := match k.fast with | some n => Fld.EVC_CPU_fast_src.put (Fld.EVC_CPU_fast_busy.put 0 1) n | none => 0
    Fld.EVC_CPU_top_src.put (Fld.EVC_CPU_top_prio.put (Fld.EVC_CPU_depth.put fast k.stack.length) top.2) top.1
  else if base = Reg.EVC_PEND 0 0 then
    BitVec.ofNat 64 (ofBits 64 (fun b => s.flag (evSrc die (64 * ix.getD 1 0 + b)) Fld.EVC_SRC_pending))
  else v

/-- What the register of family `f` at `off` reads as, where it is not what the model stores. -/
def State.regView (s : State) (f : Family) (ix : List Nat) (off : Nat) : W64 :=
  let v := s.reg off
  if off < 0x400000 then v
  else if off < 0x800000 then mbxView s f.base (ix.getD 0 0) v
  else if off < 0xA00000 then v
  else if off < 0x1000000 then prtView s f.base ix v
  else if off < 0x3000000 then coreView s f.base (coreOf ix) ix v
  else if f.base = Reg.CRL_SEAM 0 then
    let d := ix.getD 0 0
    if d < 8 then
      Fld.CRL_SEAM_gated_w.put (Fld.CRL_SEAM_gated_e.put v (s.get (Reg.PWR_HALF d 1) Fld.PWR_HALF_gated)) (s.get (Reg.PWR_HALF d 0) Fld.PWR_HALF_gated)
    else v
  else if f.base = Reg.OPT_ROUTE 0 then
    match mapFind s.opt.newRoute (ix.getD 0 0) with | some w => w | none => v
  else if f.base = Reg.OPT_WIN 0 || f.base = Reg.OPT_WIN_BUS 0 then
    match mapFind s.opt.newWin off with | some w => w | none => v
  else if 0x9000000 ≤ off && off < 0xA000000 then evcView s f.base ix v
  else v

/-- CRL_SEAM_STALL brought up to date: both counts have grown by some cycles where the die is ready and both of its halves run (R367). -/
def countSeam (s : State) (d : Nat) : State :=
  let off := Reg.CRL_SEAM_STALL d
  if s.copyDark d || s.flag (Reg.PWR_HALF d 0) Fld.PWR_HALF_gated || s.flag (Reg.PWR_HALF d 1) Fld.PWR_HALF_gated then s
  else (s.growFree off Fld.CRL_SEAM_STALL_e_to_w).growFree off Fld.CRL_SEAM_STALL_w_to_e

/-- What the register of family `base` shows is brought up to date before a read: counts of cycles that the model does not time, and a die's
power, by free values (log 3). -/
def regTouch (s : State) (base : Nat) (ix : List Nat) : State :=
  let d := ix.getD 0 0
  if base = Reg.CORE_CYCLES 0 then countCycles s (coreOf ix)
  else if base = Reg.CRL_SEAM_STALL 0 then countSeam s d
  else if base = Reg.EVC_WATCH_TIMER then countTimer s
  else if base = Reg.BOOT_STAGE then s.growFree base Fld.BOOT_STAGE_ms
  else if base = Reg.PWR_DIE 0 then (s.put (Reg.PWR_DIE d) Fld.PWR_DIE_watts s.fresh.toNat).drawn
  else s

/-- A 64-bit word of port `p`'s MSI-X table or pending-bit array, at byte `x` from BAR0 + 0x1_0000 (R384). -/
def State.msixWord (s : State) (p x : Nat) : W64 :=
  let h := s.port p
  if x < 0x8000 then
    let e := h.vec (x / 16)
    if x % 16 = 0 then e.addr else BitVec.ofNat 64 (e.data.toNat + b2n e.mask * 2 ^ 32)
  else BitVec.ofNat 64 (ofBits 64 (fun b => setHas h.pba ((x - 0x8000) * 8 + b)))

/-- The word at 8-aligned offset `off`, as port `p` reads it: zero where nothing is served or defined (R18, R49), WO and RSV bits zero. -/
def State.regWord (s : State) (p off : Nat) : W64 :=
  if 0x10000 ≤ off && off < 0x18100 then s.msixWord p (off - 0x10000)
  else if s.regDark off then 0
  else match regFamily (keptAt off) with
    | some (f, ix) => s.regView f ix (keptAt off)
    | none => 0

/-- A read of `n` bytes at `off` (R13): an aligned 64-bit or 32-bit access, else zero. The state differs by the free values used up. -/
def regRead (s : State) (p off n : Nat) : State × Nat :=
  let o := off / 8 * 8
  let s1 := if s.regDark o then s else match regFamily (keptAt o) with | some (f, ix) => regTouch s f.base ix | none => s
  if n = 8 && off % 8 = 0 then (s1, (s1.regWord p o).toNat)
  else if n = 4 && off % 4 = 0 then (s1, (s1.regWord p o).toNat / 2 ^ (8 * (off % 8)) % 2 ^ 32)
  else (s, 0)

/-! ### The access codes (Table 0-3) -/

/-- The word after a software write of `v` under the byte mask `be`: RW takes the value unless it is reserved (R17) or only an image changes
it, each 1 clears a W1C bit, everything else stays. -/
def swWord (fs : List FieldRow) (old be v : W64) : W64 :=
  let whole := (old &&& ~~~ be) ||| (v &&& be)
  fs.foldl (fun acc r =>
    match r.acc with
    | .rw =>
      if r.img || r.resv (bits whole.toNat r.hi r.lo) whole.toNat then acc else (acc &&& ~~~ r.mask) ||| (whole &&& r.mask)
    | .w1c => acc &&& ~~~ (r.mask &&& v &&& be)
    | .ro => acc
    | .wo => acc) old

/-- The access covers some bit of the field. -/
def Fld.hit (f : Fld) (be : W64) : Bool := f.get be != 0

/-! ### Writes with an effect of their own -/

/-- A write to port `p`'s MSI-X table; pending messages follow an unmask (R384). -/
def msixStore (s : State) (p x : Nat) (be v : W64) : State :=
  if 0x8000 ≤ x then s
  else
    let h := s.port p
    let n := x / 16
    let e := h.vec n
    let w := (s.msixWord p (x / 8 * 8) &&& ~~~ be) ||| (v &&& be)
    let e1 : MsixEnt := if x % 16 = 0 then { e with addr := w } else { e with data := w.setWidth 32, mask := bit w.toNat 32 }
    msixGo (s.setPort p { h with msix := mapSet (fun _ => MsixEnt.reset) h.msix n e1 }) p

/-- The TDI enters ERROR where a write changed locked configuration (R393). -/
def lockedChange (s : State) (i : Nat) (changed : Bool) : State := if changed && s.tdiLocked i then tdiError s i else s

/-- HIF_ (Table 14-5). -/
def hifStore (s : State) (base off : Nat) (ix : List Nat) (old new : W64) : State :=
  let i := ix.getD 0 0
  let s1 := s.setReg off new
  if base = Reg.HIF_PORT 0 then
    if Fld.HIF_PORT_down_seen.get old == 1 && Fld.HIF_PORT_down_seen.get new == 0 then setLevel s1 (portDie i) 0x203 false else s1
  else if base = Reg.HIF_VEC 0 0 then
    let owner (w : W64) : Option Nat :=
      if Fld.HIF_VEC_inst.get w == 1 && s.instPort (Fld.HIF_VEC_instance.get w) == i then some (Fld.HIF_VEC_instance.get w) else none
    let s2 := match owner old with | some j => lockedChange s1 j (old != new) | none => s1
    match owner new with | some j => lockedChange s2 j (old != new) | none => s2
  else if base = Reg.HIF_DLOG_CTL 0 then
    let shut := Fld.HIF_DLOG_CTL_en.get old == 1 || Fld.HIF_DLOG_CTL_busy.get old == 1
    let w1 := if shut then Fld.HIF_DLOG_CTL_range_en.put new (Fld.HIF_DLOG_CTL_range_en.get old) else new
    let w2 := if Fld.HIF_DLOG_CTL_en.get new == 1 && (s.tdiState i == 1 || s.tdiState i == 2) then Fld.HIF_DLOG_CTL_en.put w1 (Fld.HIF_DLOG_CTL_en.get old) else w1
    s.setReg off w2
  else if base = Reg.HIF_DLOG_BASE 0 0 || base = Reg.HIF_DLOG_LEN 0 0 || base = Reg.HIF_DLOG_MAP 0 0 then
    let c := s.reg (Reg.HIF_DLOG_CTL i)
    if Fld.HIF_DLOG_CTL_en.get c == 1 || Fld.HIF_DLOG_CTL_busy.get c == 1 then s else s1
  else s1

/-- A write of MBX_REQ (R390). -/
def mbxRequest (s : State) (i op : Nat) : State :=
  if op = 1 then tenantOwn s i
  else if op = 2 then tenantRelease s i
  else if op = 3 then tenantAbort s (Fin.ofNat 1024 i) false
  else if op = 4 then tenantAbort s (Fin.ofNat 1024 i) true
  else s

/-- A write to word `w` of a mailbox slot (R387). -/
def mbxSlotStore (s : State) (i : Nat) (m2t : Bool) (n w : Nat) (be v : W64) : State :=
  if w = 0 then (if be = BitVec.allOnes 64 then mbxPost s i m2t n v else mbxDrop s i)
  else mbxPayload s i m2t n w be v

/-- A mailbox page (Table 14-6): the tenant's way and the manager's. -/
def mbxStore (s : State) (via : Via) (base off : Nat) (ix : List Nat) (old new be v : W64) : State :=
  let i := ix.getD 0 0
  let n := ix.getD 1 0
  let w := ix.getD 2 0
  if via = .tenant then
    if base = Reg.MBX_VER 0 then
      (if Fld.MBX_VER_ten_max.hit be then mbxVersion s i (Fld.MBX_VER_ten_max.get new) (Fld.MBX_VER_ten_min.get new) else s)
    else if base = Reg.MBX_REQ 0 then (if Fld.MBX_REQ_op.hit be then mbxRequest s i (Fld.MBX_REQ_op.get v) else s)
    else if base = Reg.MBX_M2T 0 then (if Fld.MBX_M2T_consumed.hit be then mbxReturn s i true (Fld.MBX_M2T_consumed.get v) else s)
    else if base = Reg.MBX_T2M_SLOT 0 0 0 then mbxSlotStore s i false n w be v
    else s.setReg off new
  else if base = Reg.MBX_T2M 0 then (if Fld.MBX_T2M_acked.hit be then mbxReturn s i false (Fld.MBX_T2M_acked.get v) else s)
  else if base = Reg.MBX_M2T_SLOT 0 0 0 then mbxSlotStore s i true n w be v
  else if base = Reg.MBX_IRQ 0 then
    let m : W64 := 0x800007FF800007FF#64 &&& be
    let w1 := (old &&& ~~~ m) ||| (v &&& m)
    lockedChange (s.setReg off w1) i (w1 != old)
  else s

/-- FRM_ (Tables 10-8 to 10-12). -/
def frmStore (s : State) (base off : Nat) (ix : List Nat) (old new be v : W64) : State :=
  if base = Reg.FRM_COUNT_LOAD then { s with sched := { s.sched with load := some (v &&& be) } }
  else if base = Reg.FRM_ABORT then
    (if Fld.FRM_ABORT_instance.hit be then frmAbort s (Fld.FRM_ABORT_instance.get v) (Fld.FRM_ABORT_all.get v == 1) else s)
  else if base = Reg.FRM_SLOT 0 then
    let i := ix.getD 0 0
    let on := Fld.FRM_SLOT_active.get new == 1
    let s1 := s.setReg off (Fld.FRM_SLOT_active.put new (Fld.FRM_SLOT_active.get old))
    lockedChange (slotActive s1 i on) i (new != old)
  else s.setReg off new

/-- A write of PRT_OWN (R306, R307). -/
def ownStore (s : State) (p : Nat) (be v : W64) : State :=
  let r := Reg.PRT_OWN p
  let s1 := if Fld.PRT_OWN_refused.get (v &&& be) == 1 then s.setFlag r Fld.PRT_OWN_refused false else s
  let i := Fld.PRT_OWN_instance.get v
  if !Fld.PRT_OWN_req.hit be then s1
  else if Fld.PRT_OWN_req.get v == 1 then
    let s2 := ownRequest s1 p i
    if s2.flag r Fld.PRT_OWN_owned || s2.flag r Fld.PRT_OWN_pending then s2 else s2.put r Fld.PRT_OWN_instance i
  else (ownEnd s1 p).put r Fld.PRT_OWN_instance i

/-- A write of PRT_INST (R303, R304). -/
def instStore (s : State) (i : Nat) (new be v : W64) : State :=
  let r := Reg.PRT_INST i
  let s1 := if Fld.PRT_INST_bind_err.get (v &&& be) == 1 then s.setFlag r Fld.PRT_INST_bind_err false else s
  if s.instBound i then (if Fld.PRT_INST_bound.hit be && Fld.PRT_INST_bound.get v == 0 then instanceUnbind s1 i else s1)
  else
    let port := if Fld.PRT_INST_port.hit be then Fld.PRT_INST_port.get v else s.instPort i
    let pasid := Fld.PRT_INST_pasid.get new
    let p := Fld.PRT_INST_partition.get new
    if Fld.PRT_INST_bound.hit be && Fld.PRT_INST_bound.get v == 1 then instanceBind s1 i port (BitVec.ofNat 20 pasid) p
    else
      let s2 := (s1.put r Fld.PRT_INST_pasid pasid).put r Fld.PRT_INST_partition p
      if port < 2 then s2.put r Fld.PRT_INST_port port else s2

/-- PRT_ (Tables 11-7 to 11-10). -/
def prtStore (s : State) (base off : Nat) (ix : List Nat) (new be v : W64) : State :=
  let p := ix.getD 0 0
  if base = Reg.PRT_DESC 0 then
    if !Fld.PRT_DESC_hold.hit be || s.partState p == 4 then s
    else if Fld.PRT_DESC_hold.get v == 1 then partHold s p else partRelease s p
  else if base = Reg.PRT_OWN 0 then ownStore s p be v
  else if base = Reg.PRT_INST 0 then instStore s p new be v
  else s.setReg off new

/-- LLC_ and DIR_ (chapters 7 and 8). -/
def cacheStore (s : State) (base off : Nat) (ix : List Nat) (old new be v : W64) : State :=
  let d := ix.getD 0 0
  if base = Reg.LLC_THRASH_FLAGS 0 then
    let s1 := s.setReg off new
    if old != 0 && new = 0 then setLevel s1 d 0x141 false else s1
  else if base = Reg.DIR_PROBE_ADDR 0 then probeStart s d (BitVec.ofNat 45 (Fld.DIR_PROBE_ADDR_line.get (v &&& be)))
  else s.setReg off new

/-- OPT_ (chapter 15): routes and windows take effect at the next tick (R409, R419). -/
def optStore (s : State) (f : Family) (off : Nat) (ix : List Nat) (be v : W64) : State :=
  let w := swWord f.fields (s.regView f ix off) be v
  if f.base = Reg.OPT_ROUTE 0 then
    let e := ix.getD 0 0
    { s with opt := { s.opt with newRoute := mapIns (mapDrop s.opt.newRoute e) e (routeValue w) } }
  else if f.base = Reg.OPT_WIN 0 then { s with opt := { s.opt with newWin := mapIns (mapDrop s.opt.newWin off) off w } }
  else if f.base = Reg.OPT_WIN_BUS 0 then
    { s with opt := { s.opt with newWin := mapIns (mapDrop s.opt.newWin off) off (w &&& 0xFFFFFFFFC0000000#64) } }
  else s.setReg off w

/-- EVC_ (chapter 16). -/
def evcStore (s : State) (via : Via) (base off : Nat) (ix : List Nat) (old new be v : W64) : State :=
  let die := ix.getD 0 0
  let n := ix.getD 1 0
  let w := (old &&& ~~~ be) ||| (v &&& be)
  if base = Reg.EVC_HOST_ACK 0 then (if Fld.EVC_HOST_ACK_source.hit be then hostAck s die (Fld.EVC_HOST_ACK_source.get v) else s)
  else if base = Reg.EVC_SW_SET 0 then (if Fld.EVC_SW_SET_n.hit be then raiseEdge s die (0x1E0 + Fld.EVC_SW_SET_n.get v) else s)
  else if base = Reg.EVC_DONE 0 0 then
    (if via = .firmware && Fld.EVC_DONE_source.hit be then evcComplete s die n (Fld.EVC_DONE_source.get v) else s)
  else if base = Reg.EVC_FAST_DONE 0 0 then
    (if via = .firmware && Fld.EVC_FAST_DONE_source.hit be then evcFastComplete s die n (Fld.EVC_FAST_DONE_source.get v) else s)
  else if base = Reg.EVC_SRC 0 0 then evcSrcWrite s die n w (via == .firmware)
  else if base = Reg.EVC_WATCH 0 then
    let s1 := s.setReg off new
    match (if 2 ≤ s1.pwrState && s1.pwr.entry.isNone then s1.watchLevel else none) with
    | some e => watchWake s1 e
    | none => s1
  else s.setReg off new

/-- A write of PWR_REQ (R440). -/
def pwrRequest (s : State) (target : Nat) : State :=
  if target = 0 then pwrRun s else if target = 1 then pwrRefuse s else pwrEnter s target

/-- PWR_ and ERR_ (chapters 17 and 18). -/
def pwrErrStore (s : State) (base off : Nat) (ix : List Nat) (new be v : W64) : State :=
  let die := ix.getD 0 0
  if base = Reg.PWR_REQ then (if Fld.PWR_REQ_target.hit be then pwrRequest s (Fld.PWR_REQ_target.get v) else s)
  else if base = Reg.ERR_RING 0 then (if Fld.ERR_RING_consumed.hit be then errConsume s die (Fld.ERR_RING_consumed.get v) else s)
  else if base = Reg.ERR_INJECT 0 then
    (if Fld.ERR_INJECT_unit.hit be then
      errArm s die (BitVec.ofNat 12 (Fld.ERR_INJECT_core.get v)) (BitVec.ofNat 2 (Fld.ERR_INJECT_kind.get v)) (BitVec.ofNat 4 (Fld.ERR_INJECT_unit.get v))
     else s)
  else s.setReg off new

/-- BOOT_ and SEC_ (chapters 19 to 21). -/
def bootSecStore (s : State) (base off : Nat) (new be v : W64) : State :=
  if base = Reg.BOOT_MODULE_RESET then
    (if Fld.BOOT_MODULE_RESET_key.hit be && Fld.BOOT_MODULE_RESET_key.get v == 0x5A17 && s.resettable then moduleReset s else s)
  else if base = Reg.BOOT_DIE_RESET then
    let s1 := s.setReg off new
    if Fld.BOOT_DIE_RESET_die.hit be then dieReset s1 (Fld.BOOT_DIE_RESET_die.get v) else s1
  else if base = Reg.BOOT_IMG_CTL then
    let s1 := s.setReg off new
    let op := Fld.BOOT_IMG_CTL_op.get v
    if Fld.BOOT_IMG_CTL_op.hit be && 1 ≤ op && op ≤ 4 then imgStart s1 op else s1
  else if base = Reg.SEC_CMD_CTL then
    let s1 := s.setReg off new
    let op := Fld.SEC_CMD_CTL_op.get v
    if Fld.SEC_CMD_CTL_op.hit be && 1 ≤ op && op ≤ 5 then secStart s1 op else s1
  else if base = Reg.SEC_ATTEST then
    (if Fld.SEC_ATTEST_instance.hit be then
      attestRequest s (if Fld.SEC_ATTEST_inst_en.get (v &&& be) == 1 then some (Fld.SEC_ATTEST_instance.get v) else none)
     else s)
  else s.setReg off new

/-- A write of `v` under the byte mask `be` to the register kept at `off`. -/
def keptStore (s : State) (via : Via) (off : Nat) (be v : W64) : State :=
  match regFamily off with
  | none => s
  | some (f, ix) =>
    let old := s.reg off
    let new := swWord f.fields old be v
    if off < 0x400000 then hifStore s f.base off ix old new
    else if off < 0x800000 then mbxStore s via f.base off ix old new be v
    else if off < 0xA00000 then frmStore s f.base off ix old new be v
    else if off < 0x1000000 then prtStore s f.base off ix new be v
    else if off < 0x4000000 then s.setReg off new
    else if off < 0x6000000 then cacheStore s f.base off ix old new be v
    else if off < 0x8800000 then s.setReg off new
    else if off < 0x9000000 then optStore s f off ix be v
    else if off < 0xA000000 then evcStore s via f.base off ix old new be v
    else if off < 0xC000000 then pwrErrStore s f.base off ix new be v
    else bootSecStore s f.base off new be v

/-- A write of the word at `off` is dropped (R49, R432). -/
def State.writeDark (s : State) (via : Via) (off : Nat) : Bool :=
  if via == .firmware && 0x9000000 ≤ off && off < 0x9A00000 && 0x1000 ≤ off % 0x100000 && off % 0x100000 < 0x3000 then
    s.srcDark ((off - 0x9000000) / 0x100000) true
  else s.regDark off

/-- A write of `v` under the byte mask `be` to the word at 8-aligned offset `off`, through port `p`'s BAR0 where it comes from a port. -/
def regStore (s : State) (via : Via) (p off : Nat) (be v : W64) : State :=
  if 0x10000 ≤ off && off < 0x18100 then msixStore s p (off - 0x10000) be v
  else if s.writeDark via off then s
  else keptStore s via (keptAt off) be v

/-- A write of `n` bytes at `off` (R13): an aligned 64-bit or 32-bit access, else dropped. -/
def regWrite (s : State) (via : Via) (p off n v : Nat) : State :=
  if n = 8 && off % 8 = 0 then regStore s via p off (BitVec.allOnes 64) (BitVec.ofNat 64 v)
  else if n = 4 && off % 4 = 0 then
    let sh := 8 * (off % 8)
    regStore s via p (off / 8 * 8) (BitVec.ofNat 64 (0xFFFFFFFF * 2 ^ sh)) (BitVec.ofNat 64 (v % 2 ^ 32 * 2 ^ sh))
  else s

/-- DIR_PROBE: a write of DIR_PROBE_ADDR of a compute die (R250). -/
def execDirProbe (die : Fin 8) (l : LineNo) (s : State) : Result :=
  .next (if s.regDark (Reg.DIR_PROBE_ADDR die.val) then s else probeStart s die.val l)

/-- REGISTER_WRITE: an access of 64 or 32 bits by the manager, or by a die controller's firmware (R13-R17). -/
def execRegisterWrite (off : BitVec 28) (wide : Bool) (v : W64) (fw : Bool) (s : State) : Result :=
  .next (abortsGo (regWrite s (if fw then .firmware else .manager) 0 off.toNat (if wide then 8 else 4) v.toNat))

end Sys2Proof.Machine
end

