-- ==== Sys2Proof/Machine/MemInstr.lean ====
section
/-!
DEFINITION. The sequencer's accesses (chapter 3): LD, ST, AMO, RADD and CACHE (R97-R101), what they reach (R42, R43, R49, R299, R506), their
ways to other modules and through remote windows (R410-R414), and the address errors of R111.
-/
namespace Sys2Proof.Machine

/-! ### What an access reaches -/

/-- The block of Table 1-12 that holds a register offset, counted from HIF_ at 0. -/
def blockOf (off : Nat) : Option Nat :=
  if off < 0x400000 then some 0
  else if off < 0x800000 then some 1
  else if off < 0xA00000 then some 2
  else if off < 0x1000000 then some 3
  else if off < 0x4000000 then some 4
  else if off < 0x5000000 then some 5
  else if off < 0x6000000 then some 6
  else if off < 0x8000000 then some 7
  else if off < 0x8800000 then some 8
  else if off < 0x9000000 then some 9
  else if off < 0xA000000 then some 10
  else if off < 0xB000000 then some 11
  else if off < 0xC000000 then some 12
  else if off < 0xD000000 then some 13
  else if off < 0xE000000 then some 14
  else none

/-- Partition `p` owns row `r` (R295). -/
def State.rowOf (s : State) (p r : Nat) : Bool := bit (s.reg (Reg.PRT_ROWS p (r / 64))).toNat (r % 64)

/-- The security policy lets core `c` reach register offset `off` (R49, R506). -/
def State.regReach (s : State) (c off : Nat) : Bool :=
  match s.partOf c, blockOf off with
  | some p, some b =>
    bit s.img.reachMax.toNat b && bit (partReach (mapGet (fun _ => ⟨[]⟩) s.img.parts p.val).bytes) b &&
      (b != 4 || (off < 0x3000000 && s.rowOf p.val ((off - 0x1000000) / 0x20000)))
  | _, _ => false

/-- The byte at global address `a` is an address error for the sequencer of core `c` (R42, R43, R97, R410). -/
def State.seqBad (s : State) (c a : Nat) (write : Bool) : Bool :=
  match s.place c a with
  | .own _ => !s.scratchServed c
  | .scratch _ _ => true
  | .mem m => !s.coreReach c m write
  | .reg o => !s.regReach c o
  | .window _ _ => false
  | .other _ m => 0x100000000000 ≤ m && m < 0x100100000000
  | .bad => true

/-- The first faulting byte of an access of `n` bytes at `a` (R112). -/
def State.seqFault (s : State) (c a n : Nat) (write : Bool) : Option Nat :=
  ((List.range n).map (fun i => (a + i) % 2 ^ 64)).find? (fun x => s.seqBad c x write)

/-- The bytes of an access that do not fault: where they begin in it, and how many. An access of at most eight bytes crosses at most one
border between places, so they stand together (R98: a misaligned access is performed byte by byte). Registers take no byte accesses (R13). -/
def State.seqGood (s : State) (c a n : Nat) (write : Bool) : Nat × Nat :=
  let good := (List.range n).filter (fun i => !s.seqBad c ((a + i) % 2 ^ 64) write)
  let lo := good.headD 0
  match good.length == n, s.place c ((a + lo) % 2 ^ 64) with
  | false, .reg _ => (0, 0)
  | _, _ => (lo, good.length)

/-- The access goes to another module, so that a core without the tags it needs stalls (R412). -/
def State.lacksTags (s : State) (c a n : Nat) : Bool :=
  match s.place c a with
  | .other _ _ => !s.tagsFree c (lineParts (a % 2 ^ 52) n).length
  | _ => false

/-- The access goes to a module to which requests wait for a route change (R409). -/
def State.routeWaits (s : State) (c a : Nat) : Bool :=
  match s.place c a with
  | .other m _ => s.opt.routeHold.contains m
  | _ => false

/-- An instruction suffers an address error first at byte `x`, and issue goes on. -/
def faultOn (s : State) (c x : Nat) : State := advance (addrErr s c (errAddr s x)) c

/-- An access ends, with one address error where a byte of it faulted (R112). -/
def endAccess (s : State) (c : Nat) (bad : Option Nat) : State :=
  match bad with
  | some x => faultOn s c x
  | none => advance s c

/-- A streaming line buffer holds bytes of line `l`. -/
def Core.buffered (k : Core) (l : Nat) : Bool := (k.wsdBuf l).isSome

/-- An RADD of core `c` to line `l` is in the line order at its home and not yet applied: the core's own copy may still be the one before
it (R244, R254). -/
def State.raddPending (s : State) (c : Nat) (l : LineNo) : Bool :=
  let q := s.lineq l
  let mine (r : Req) : Bool := r.src == epCore c && (match r.op with | .radd .. => true | _ => false)
  (match q.act with | some t => mine t.req | none => false) || q.wait.any mine

/-- A sequencer access must wait for an earlier one of a line it touches (R254). -/
def State.unordered (s : State) (c a n : Nat) : Bool :=
  (s.core c).unordered a n || (lineParts a n).any (fun x => s.raddPending c (BitVec.ofNat 45 x.1))

/-! ### Loads -/

/-- The register value of `n` loaded bytes (R98). -/
def loadValue (n : Nat) (sx : Bool) (v : Nat) : W64 := if sx then sext64 (8 * n) v else BitVec.ofNat 64 (v % 2 ^ (8 * n))

/-- A load that does not complete at once: its register is pending and its record made. -/
def openLoad (s : State) (c sd n a : Nat) (dest : Nat → LoadDest) (far : Bool) : State × Nat :=
  let id := (s.core c).nextId
  (newLoad (s.modCore c (fun k => { (k.markPend (.s sd) id) with nextId := id + 1 })) c id n (dest id) (BitVec.ofNat 64 a) far, id)

/-- The bytes of a load record beside the `len` bytes from `lo` that are read: they fault and are zero (R111). -/
def zeroRest (s : State) (c id n lo len : Nat) : State :=
  let s1 := if lo = 0 then s else loadPart s c id 0 lo 0 false
  if lo + len = n then s1 else loadPart s1 c id (lo + len) (n - lo - len) 0 false

/-- Reads through a remote window, one per line (R413, R414). -/
def windowLoad (s : State) (c id a n pos : Nat) : State :=
  forEach (lineParts a n) s (fun s x =>
    match s.place c (x.1 * 128 + x.2.1) with
    | .window p bus =>
      (hostAsk s p none bus x.2.2.1 (.winLoad c id (pos + x.2.2.2) x.2.2.1)).1
    | _ => loadDead s c id x.2.2.1)

/-- A sequencer load of `n` bytes into sd, of which the `len` bytes from `lo` lie at `a` and do not fault while the others are zero; `none`
while it must wait (R254). -/
def seqLoad (s : State) (c sd n a lo len : Nat) (sx : Bool) (dest : Nat → LoadDest) : Option State :=
  match s.place c a with
  | .own o =>
    let r := scratchRead s (scrBase c + o) len
    some (if r.2.2 then seqPoison (setS r.1 c sd 0) c else setS r.1 c sd (loadValue n sx (ofBytes r.2.1 * 2 ^ (8 * lo))))
  | .mem m =>
    if s.unordered c m len then none
    else
      let r := openLoad s c sd n a dest false
      some (memLoadAt (zeroRest r.1 c r.2 n lo len) c r.2 m len lo false)
  | .reg o =>
    let r := regRead s 0 o len
    some (setS r.1 c sd (loadValue n sx (r.2 * 2 ^ (8 * lo))))
  | .window p _ =>
    if !s.portRoom p 2 then none
    else
    let r := openLoad s c sd n a dest true
    some (windowLoad (zeroRest r.1 c r.2 n lo len) c r.2 a len lo)
  | .other _ _ =>
    if s.routeWaits c a then none
    else
      let r := openLoad s c sd n a dest true
      some (remoteLoadAt (zeroRest r.1 c r.2 n lo len) c r.2 a len lo)
  | _ => some (setS s c sd 0)

/-- LD issues (R97, R98). Bytes that fault read as zero. -/
def ldIssue (s : State) (c sd n a : Nat) (sx : Bool) : State :=
  let bad := s.seqFault c a n false
  let g := s.seqGood c a n false
  let b := (a + g.1) % 2 ^ 64
  if g.2 = 0 then endAccess (setS s c sd 0) c bad
  else if s.lacksTags c b g.2 then stall s c Fld.CORE_STALL_queue_full
  else match seqLoad s c sd n b g.1 g.2 sx (fun id => .sreg sd n sx id) with
    | some s1 => endAccess (if bad.isSome then loadCounted s1 c (s.core c).nextId else s1) c bad
    | none => s

/-! ### Stores -/

/-- Port and line of the parts of a window access. -/
def State.windowLines (s : State) (c a n : Nat) : List (Nat × Nat × Nat × Nat × Nat) :=
  (lineParts a n).filterMap (fun x =>
    match s.place c (x.1 * 128 + x.2.1) with
    | .window p bus => some (p, bus, x.2.2.1, x.2.2.2, bus / 128)
    | _ => none)

/-- A flush read leaves for port `p` before a write to a line that a window write has touched (R414). -/
def windowFlush (s : State) (c p : Nat) : State :=
  let last := ((s.core c).winPorts.find? (fun x => x.1 == p)).map (·.2)
  (hostFlush s p last (.flush c)).modCore c (fun k => { k with winLines := k.winLines.filter (fun x => x.1 != p) })

/-- A posted write of a window (R260, R414): it is noted for the next flush read. -/
def windowWrite (s : State) (c p bus n v : Nat) (isFlag : Bool) : State :=
  (hostWrite s p none bus (bytesOf n v) false isFlag).1.modCore c (fun k => { k with
    winPorts := (k.winPorts.filter (fun x => x.1 != p)) ++ [(p, bus + n - 1)],
    winLines := if k.winLines.contains (p, bus / 128) then k.winLines else k.winLines ++ [(p, bus / 128)] })

/-- A write of another module, one WR with a byte mask per line (R404, R410); `counted` when the instruction has counted an address error. -/
def remoteStore (s : State) (c a n v : Nat) (counted : Bool) : State :=
  let m := a / 2 ^ 52 % 4096
  let id := (s.core c).nextId
  forEach (lineParts (a % 2 ^ 52) n) (s.modCore c (fun k => { k with nextId := id + 1 })) (fun s x =>
    match s.remoteTag c m false with
    | none => s
    | some t => remoteSend s c m t 0x02 (s.remoteHdr c m (x.1 * 128) t 1 false 0) (some (byteMask x.2.1 x.2.2.1))
        [linePut 0 x.2.1 x.2.2.1 (v / 2 ^ (8 * x.2.2.2))] (.write id (BitVec.ofNat 64 (a + x.2.2.2)) none counted))

/-- A sequencer store of `n` bytes at `a`, where no byte faults; `fin` ends the instruction. While the store must wait the instruction
stays at issue. -/
def seqStore (s : State) (c n a v : Nat) (isFlag counted : Bool) (fin : State → State) : State :=
  match s.place c a with
  | .own o => fin (scratchWrite s (scrBase c + o) (bytesOf n v) false)
  | .mem m =>
    match s.staleBuf c m n with
    | some l => wsdWrite s c l
    | none => if s.unordered c m n then s else fin (memStore s c m n v false false)
  | .reg o => abortsGo (regWrite (fin s) .manager 0 o n v)
  | .window _ _ =>
    let ws := s.windowLines c a n
    match ws.find? (fun x => (s.core c).winLines.contains (x.1, x.2.2.2.2)) with
    | some x => if s.portRoom x.1 1 then windowFlush s c x.1 else s
    | none =>
      if s.flushing c then s
      else fin (forEach ws s (fun s x => windowWrite s c x.1 x.2.1 x.2.2.1 (v / 2 ^ (8 * x.2.2.2.1)) isFlag))
  | .other _ _ => if s.routeWaits c a then s else fin (remoteStore s c a n v counted)
  | _ => fin s

/-- ST issues (R97, R98). Bytes that fault are not written. -/
def stIssue (s : State) (c n a v : Nat) : State :=
  let bad := s.seqFault c a n true
  let g := s.seqGood c a n true
  let b := (a + g.1) % 2 ^ 64
  if g.2 = 0 then endAccess s c bad
  else if s.lacksTags c b g.2 then stall s c Fld.CORE_STALL_queue_full
  else seqStore s c g.2 b (v / 2 ^ (8 * g.1) % 2 ^ (8 * g.2)) false bad.isSome (fun s => endAccess s c bad)

/-! ### Atomics (R99, R242) -/

/-- An AMO of another module (R404): its request carries the operand, and the comparand of a compare-and-swap. -/
def remoteAmo (s : State) (c sd a op : Nat) (w : Bool) (y z : W64) : State :=
  let m := a / 2 ^ 52 % 4096
  match s.remoteTag c m false with
  | none => s
  | some t =>
    let id := (s.core c).nextId
    let s1 := s.modCore c (fun k => { (k.markPend (.s sd) id) with nextId := id + 1 })
    let h := s.remoteHdr c m (a % 2 ^ 52) t (BitVec.ofNat 8 (op + if w then 16 else 0)) false y
    advance (remoteSend s1 c m t 0x04 h none (if op = 9 then [z.setWidth 1024] else []) (.amo sd w id)) c

/-- AMO on the own scratchpad: poisoned bytes are not written and give zero (R99, R243). -/
def scratchAmo (s : State) (c sd a n op : Nat) (w : Bool) (y z : W64) : State :=
  let r := scratchRead s a n
  if r.2.2 then seqPoison (setS r.1 c sd 0) c
  else
    let old := ofBytes r.2.1
    setS (scratchWrite r.1 a (bytesOf n (amoResult op w old y.toNat z.toNat)) false) c sd (BitVec.ofNat 64 old)

/-- AMO on stacked memory: the L1 performs it (R242); a line buffer that holds the line is written first (R254). -/
def memAmo (s : State) (c sd a m n : Nat) (op : BitVec 4) (w : Bool) (y z : W64) : State :=
  if s.lineRefuses m then advance (setS (writeFailed s c 1) c sd 0) c
  else if (s.core c).buffered (m / 128) then wsdWrite s c (m / 128)
  else if s.unordered c m n then s
  else
    let r := openLoad s c sd n a (fun id => .sreg sd n false id) false
    advance (l1Access r.1 c (lineOf m) ⟨m % 128, n, 0, .amo r.2 op w y z, false⟩) c

/-- AMO issues (R99). -/
def amoIssue (s : State) (c sd a : Nat) (op : BitVec 4) (w : Bool) (y z : W64) : State :=
  let n := if w then 8 else 4
  let fault (x : Nat) : State := faultOn (setS s c sd 0) c x
  if a % n ≠ 0 then fault a
  else match s.seqFault c a n true with
    | some x => fault x
    | none => match s.place c a with
      | .own o => advance (scratchAmo s c sd (scrBase c + o) n op.toNat w y z) c
      | .mem m => memAmo s c sd a m n op w y z
      | .other _ _ =>
        if s.lacksTags c a n then stall s c Fld.CORE_STALL_queue_full
        else if s.routeWaits c a then s
        else remoteAmo s c sd a op.toNat w y z
      | _ => fault a

/-! ### RADD (R100) -/

/-- The vector of an RADD, half `h` of an entry, and its poison. -/
def Core.raddVec (k : Core) (oc : Nat) (h : Bool) : Line × Bool :=
  let sh := if h then 1024 else 0
  (BitVec.ofNat 1024 ((k.ent oc).toNat / 2 ^ sh), (k.mark oc).toNat / 2 ^ (sh / 32) % 2 ^ 32 != 0)

/-- Poison that an RADD carries out of the core marks its caravan (R467). -/
def raddPoison (s : State) (c : Nat) (poison : Bool) : State := if poison then markPoisoned s c else s

/-- RADD leaves for the line's home; a line buffer that holds the line is written first. -/
def memRadd (s : State) (c m : Nat) (typ : BitVec 2) (d : Line × Bool) : State :=
  let l := lineOf m
  if s.lineRefuses m then advance (writeFailed s c 1) c
  else if (s.core c).buffered l.toNat then wsdWrite s c l.toNat
  else if s.unordered c m 1 || ((s.core c).missOf l).isSome then s
  else
    let s1 := (raddPoison s c d.2).toHome c l (.radd (reqNum c) (s.keyOf c false) typ d.1 d.2)
    advance (s1.modCore c (fun k => { k with raddOut := k.raddOut ++ [l.toNat] })) c

/-- An RADD of another module. -/
def remoteRaddSend (s : State) (c a : Nat) (typ : BitVec 2) (d : Line × Bool) : State :=
  let m := a / 2 ^ 52 % 4096
  match s.remoteTag c m false with
  | none => s
  | some t => advance (remoteSend (raddPoison s c d.2) c m t 0x05 (s.remoteHdr c m (a % 2 ^ 52) t (typ.setWidth 8) d.2 0) none [d.1] .radd) c

/-- RADD issues (R100). -/
def raddIssue (s : State) (c addr : Nat) (typ : BitVec 2) (d : Line × Bool) : State :=
  let a := addr / 128 * 128
  match s.seqFault c a 1 true with
  | some x => faultOn s c x
  | none => match s.place c a with
    | .mem m => memRadd s c m typ d
    | .other _ _ =>
      if s.lacksTags c a 128 then stall s c Fld.CORE_STALL_queue_full
      else if s.routeWaits c a then s
      else remoteRaddSend s c a typ d
    | _ => faultOn s c a

/-! ### CACHE (R101) -/

/-- GiB `g` is one of partition `p`'s regions, and no mirror store (R203, R343). -/
def State.ownGib (s : State) (p g : Nat) : Bool := s.gibServes g false && s.gmap g Fld.PRT_GMAP_partition == p

/-- The range of a CACHE, as MPAs of this module: from, to; `none` where it names another module. -/
def State.cacheRange (s : State) (a n : Nat) : Option (Nat × Nat) :=
  let m := a / 2 ^ 52 % 4096
  if m = 0xFFF || m = s.moduleId then some (a % 2 ^ 52, a % 2 ^ 52 + n) else none

/-- The first byte of a non-empty range that lies outside stacked memory, the partition's regions, or in a mirror store. -/
def State.cacheFault (s : State) (p a n : Nat) : Option Nat :=
  match s.cacheRange a n with
  | none => some a
  | some (lo, hi) =>
    match (List.range s.topGib).find? (fun g => decide (lo < (g + 1) * 2 ^ 30) && decide (g * 2 ^ 30 < hi) && !s.ownGib p g) with
    | some g => some (a - lo + max lo (g * 2 ^ 30))
    | none => if s.topGib * 2 ^ 30 < hi then some (a - lo + max lo (s.topGib * 2 ^ 30)) else none

/-- Line `l` of stacked memory overlaps the range and is none of the lines that are skipped. -/
def State.inRange (s : State) (p a n l : Nat) : Bool :=
  match s.cacheRange a n with
  | some (lo, hi) => decide (lo < l * 128 + 128) && decide (l * 128 < hi) && s.ownGib p (l / 2 ^ 23)
  | none => false

/-- Sequencer accesses to lines of the range are still under way. -/
def State.rangeBusy (s : State) (c p a n : Nat) : Bool :=
  let k := s.core c
  let hit (l : Nat) : Bool := s.inRange p a n l
  k.swrOut.any hit || k.raddOut.any hit || k.miss.any (fun m => hit m.line.toNat)

/-- The line buffers of lines in the range are written (R209). -/
def bufsOut (s : State) (c p a n : Nat) : State :=
  forEach (((s.core c).wsd.bufs.map (·.1)).filter (s.inRange p a n)) s (fun s l => wsdWrite s c l)

/-- INV: the own L1 copies leave (Table 8-7). -/
def cacheInv (s : State) (c p a n : Nat) : State :=
  forEach ((s.core c).l1.map (·.1)) s (fun s i =>
    match (s.core c).l1At i with
    | some x => if s.inRange p a n x.line.toNat then l1Offer s c i else s
    | none => s)

/-- CLEAN: the own dirty L1 copies go to their homes and stay valid (Table 8-7). -/
def cacheClean (s : State) (c p a n : Nat) : State :=
  forEach ((s.core c).l1.map (·.1)) s (fun s i =>
    match (s.core c).l1At i with
    | some x =>
      if s.inRange p a n x.line.toNat && (x.st == .m || x.st == .o) then
        (s.modCore c (fun k => k.setL1 i (some { x with st := if x.st == .m then .e else .s }))).toHome c x.line (.cleanD x.ld)
      else s
    | none => s)

/-- CLEAN_D messages of core `c` for lines of the range are on their way. -/
def State.cleaning (s : State) (c p a n : Nat) : Bool :=
  s.net.any (fun m => m.src == epCore c && s.inRange p a n m.l.toNat && (match m.body with | .cleanD _ => true | _ => false))

/-- Dirty home copies of the range, by way. -/
def State.dirtyWays (s : State) (p a n : Nat) : List (Nat × LineNo) :=
  s.llc.ways.filterMap (fun e => match e.2 with
    | some x => (match x.use with
      | .home .. => if x.dirty && s.inRange p a n x.line.toNat then some (e.1, x.line) else none
      | .replica .. => none)
    | none => none)

/-- The home slices' dirty copies of the range go to memory and stay valid (R101, R201). -/
def homeClean (s : State) (p a n : Nat) : State :=
  forEach (s.dirtyWays p a n) s (fun s e =>
    let s1 := wayDecode s e.1
    match s1.wayAt e.1 with
    | some x => (memWrite s1 x.line x.ld).setWayAt e.1 (some { x with dirty := false })
    | none => s1)

/-- CACHE ends: one address error where the range held a fault; sd takes the status. -/
def cacheEnd (s : State) (c sd : Nat) (bad : Option Nat) (v : Nat) : State :=
  let s1 := setS s c sd (BitVec.ofNat 64 v)
  match bad with
  | some x => faultOn s1 c x
  | none => advance s1 c

/-- A CACHE on partition `p`'s lines of the range of `n` bytes at `a`, where the length is not zero. -/
def cacheIssue (s : State) (c sd a n : Nat) (act : State → PartId → Option Nat → State) : State :=
  match s.partOf c with
  | none => s
  | some p => if n = 0 then cacheEnd s c sd none 0 else act s p (s.cacheFault p.val a n)

/-- INV issues, once no access to the range is under way. -/
def invIssue (s : State) (c sd a n : Nat) : State :=
  cacheIssue s c sd a n (fun s p bad =>
    let s1 := bufsOut s c p.val a n
    if s1.rangeBusy c p.val a n then s1 else cacheEnd (cacheInv s1 c p.val a n) c sd bad 0)

/-- CLEAN issues, once no access to the range is under way; with lvl = 1 it goes on to the home copies once the L1's data has come there. -/
def cleanIssue (s : State) (c sd a n : Nat) (lvl : Bool) : State :=
  cacheIssue s c sd a n (fun s p bad =>
    let s1 := bufsOut s c p.val a n
    if s1.rangeBusy c p.val a n then s1
    else
      let s2 := cacheClean s1 c p.val a n
      if !lvl then cacheEnd s2 c sd bad 0
      else if s2.cleaning c p.val a n || (s2.dirtyWays p.val a n).any (fun e => s2.lineBusy e.2) then s2
      else cacheEnd (homeClean s2 p.val a n) c sd bad 0)

/-- PIN issues: it pins every line of the range or none, and waits while a line that it needs is in a transaction (R203). -/
def pinIssue (s : State) (c sd a n : Nat) : State :=
  cacheIssue s c sd a n (fun s p bad =>
    match bad, s.cacheRange a n with
    | none, some (lo, hi) =>
      match pinAll s p.val ((List.range ((hi + 127) / 128 - lo / 128)).map (fun i => BitVec.ofNat 45 (lo / 128 + i))) with
      | some r => cacheEnd r.1 c sd none r.2
      | none => s
    | _, _ => cacheEnd s c sd bad 3)

/-- UNPIN issues: the partition's pins in the range end. -/
def unpinIssue (s : State) (c sd a n : Nat) : State :=
  cacheIssue s c sd a n (fun s p bad =>
    let mine := s.llc.ways.filterMap (fun e => match e.2 with
      | some x => if s.inRange p.val a n x.line.toNat then some x.line else none
      | none => none)
    cacheEnd (unpinAll s p.val mine) c sd bad 0)

/-! ### The commands -/

/-- LD (R97, R98). -/
def execLd (c : CoreId) (pg : BitVec 3) (sd sa : BitVec 5) (size : BitVec 2) (sx : Bool) (imm : BitVec 32) (s : State) : Result :=
  .next (issue s c (.ld c pg sd sa size sx imm) pg [sr5 sa] (fun s =>
    ldIssue s c.toNat sd.toNat (2 ^ size.toNat) ((s.core c.toNat).ea sa imm).toNat sx))

/-- ST (R97, R98). -/
def execSt (c : CoreId) (pg : BitVec 3) (sb sa : BitVec 5) (size : BitVec 2) (imm : BitVec 32) (s : State) : Result :=
  .next (issue s c (.st c pg sb sa size imm) pg [sr5 sa, sr5 sb] (fun s =>
    let k := s.core c.toNat
    let n := 2 ^ size.toNat
    stIssue s c.toNat n (k.ea sa imm).toNat ((k.sr sb.toNat).toNat % 2 ^ (8 * n))))

/-- AMO (R99): s[sc] is read by a compare-and-swap alone. -/
def execAmo (c : CoreId) (pg : BitVec 3) (sd sa sb sc : BitVec 5) (op : BitVec 4) (w : Bool) (s : State) : Result :=
  .next (issue s c (.amo c pg sd sa sb sc op w) pg ([sr5 sa, sr5 sb] ++ if op = 9#4 then [sr5 sc] else []) (fun s =>
    let k := s.core c.toNat
    amoIssue s c.toNat sd.toNat (k.sr sa.toNat).toNat op w (k.sr sb.toNat) (k.sr sc.toNat)))

/-- RADD (R100). -/
def execRadd (c : CoreId) (pg : BitVec 3) (sa : BitVec 5) (oc : BitVec 7) (half : Bool) (typ : BitVec 2) (imm : BitVec 32) (s : State) : Result :=
  .next (issue s c (.radd c pg sa oc half typ imm) pg [sr5 sa] (fun s =>
    let k := s.core c.toNat
    raddIssue s c.toNat (k.ea sa imm).toNat typ (k.raddVec oc.toNat half)))

/-- CACHE INV (R101). -/
def execCacheInv (c : CoreId) (pg : BitVec 3) (sd sa sb : BitVec 5) (lvl : Bool) (s : State) : Result :=
  .next (issue s c (.cacheInv c pg sd sa sb lvl) pg [sr5 sa, sr5 sb] (fun s =>
    let k := s.core c.toNat
    invIssue s c.toNat sd.toNat (k.sr sa.toNat).toNat (k.sr sb.toNat).toNat))

/-- CACHE CLEAN (R101). -/
def execCacheClean (c : CoreId) (pg : BitVec 3) (sd sa sb : BitVec 5) (lvl : Bool) (s : State) : Result :=
  .next (issue s c (.cacheClean c pg sd sa sb lvl) pg [sr5 sa, sr5 sb] (fun s =>
    let k := s.core c.toNat
    cleanIssue s c.toNat sd.toNat (k.sr sa.toNat).toNat (k.sr sb.toNat).toNat lvl))

/-- CACHE PIN (R101, R203). -/
def execCachePin (c : CoreId) (pg : BitVec 3) (sd sa sb : BitVec 5) (lvl : Bool) (s : State) : Result :=
  .next (issue s c (.cachePin c pg sd sa sb lvl) pg [sr5 sa, sr5 sb] (fun s =>
    let k := s.core c.toNat
    pinIssue s c.toNat sd.toNat (k.sr sa.toNat).toNat (k.sr sb.toNat).toNat))

/-- CACHE UNPIN (R101, R201). -/
def execCacheUnpin (c : CoreId) (pg : BitVec 3) (sd sa sb : BitVec 5) (lvl : Bool) (s : State) : Result :=
  .next (issue s c (.cacheUnpin c pg sd sa sb lvl) pg [sr5 sa, sr5 sb] (fun s =>
    let k := s.core c.toNat
    unpinIssue s c.toNat sd.toNat (k.sr sa.toNat).toNat (k.sr sb.toNat).toNat))

end Sys2Proof.Machine
end

