-- ==== Sys2Proof/Machine/Sync.lean ====
section
/-!
DEFINITION. The synchronisation instructions of a core (R102, R103, R105, R256-R258, R476): ACQ, REL, FENCE, BAR.
-/
namespace Sys2Proof.Machine

/-- Issue stops in a synchronisation instruction; CORE_SYNC_STALL counts cycles that the model does not time (log 3). -/
def syncHold (s : State) (c : Nat) (i : Instr) : State := hold (s.countFree (Reg.CORE_SYNC_STALL c)) c i

/-! ### ACQ (R102, R257) -/

/-- The load of an ACQ has not returned. -/
def Core.acqLoading (k : Core) : Bool := k.loads.any (fun r => match r.dest with | .acqLoad .. => true | _ => false)

/-- The ACQ ends once its load has returned and no UPG is in flight. -/
def acqFinish (s : State) (c : Nat) (i : Instr) : State :=
  if (s.core c).acqLoading || (s.core c).upgInFlight then syncHold s c i else advance (acquire s c) c

/-- The load of an ACQ suffers an address error and returns zero; the acquire follows. -/
def acqFault (s : State) (c sd x : Nat) (i : Instr) : State := acqFinish (addrErr (setS s c sd 0) c (errAddr s x)) c i

/-- ACQ: its load first, then the wait and the acquire. -/
def acqIssue (s : State) (c : Nat) (i : Instr) (sd n a : Nat) (ld : Bool) : State :=
  if (s.core c).phase == .wait i || !ld then acqFinish s c i
  else if a % n ≠ 0 then acqFault s c sd a i
  else match s.seqFault c a n false with
    | some x => acqFault s c sd x i
    | none =>
      if s.lacksTags c a n then stall s c Fld.CORE_STALL_queue_full
      else match seqLoad s c sd n a 0 n false (fun id => .acqLoad sd n id) with
        | some s1 => acqFinish s1 c i
        | none => s

/-! ### REL and FENCE (R102, R256, R476) -/

def State.writeFailedSet (s : State) (c : Nat) : Bool := s.flag (Reg.CORE_ERR c) Fld.CORE_ERR_write_failed

/-- The store of a REL, a flag write through a window. -/
def relStore (s : State) (c n a v : Nat) : State :=
  if a % n ≠ 0 then faultOn (countRel s c) c a
  else match s.seqFault c a n true with
    | some x => faultOn (countRel s c) c x
    | none =>
      if s.lacksTags c a n then stall s c Fld.CORE_STALL_queue_full
      else seqStore s c n a v true false (fun s => advance (countRel s c) c)

/-- REL: the wait at its scope, then its store unless it is suppressed. -/
def relIssue (s : State) (c : Nat) (i : Instr) (tier n a v : Nat) (st : Bool) : State :=
  let w := releaseWait s c tier
  if !w.2 then syncHold w.1 c i
  else if (st && s.writeFailedSet c) || (s.core c).failedWithin tier then advance (countRel (suppress w.1 c) c) c
  else if st then relStore w.1 c n a v
  else advance (countRel w.1 c) c

/-- FENCE: the wait at its scope; one that waited for a failed write is suppressed. -/
def fenceIssue (s : State) (c : Nat) (i : Instr) (tier : Nat) : State :=
  let w := releaseWait s c tier
  if !w.2 then syncHold w.1 c i
  else if (s.core c).failedWithin tier then advance (countRel (suppress w.1 c) c) c
  else advance (countRel w.1 c) c

/-! ### BAR (R105) -/

/-- The phase has completed: issue goes on, after the acquire where f = 1. -/
def barEnd (s : State) (c : Nat) (i : Instr) (f : Bool) : State :=
  if f && (s.core c).upgInFlight then syncHold s c i
  else
    let s1 := advance (s.modCore c (fun k => { k with barWait := none })) c
    if f then acquire s1 c else s1

/-- The core arrives: it waits for the phase where `stay`. -/
def barArrive (s : State) (c scope id : Nat) (i : Instr) (stay f : Bool) : State :=
  let key := barKey scope id
  let s1 := s.modCore c (fun k => k.setBar key (true, (k.bar key).2))
  if stay then
    let s2 := barCheck (hold (s1.modCore c (fun k => { k with barWait := some i })) c i) c scope id
    if (s2.core c).barArrived key then s2 else barEnd s2 c i f
  else barCheck (advance s1 c) c scope id

/-- An arrival with f = 1 releases first; one that is suppressed marks the phase as failed (R476). -/
def barRelease (s : State) (c scope id : Nat) (i : Instr) : State :=
  let w := releaseWait s c scope
  if !w.2 then syncHold w.1 c i
  else
    let fails := s.writeFailedSet c || (s.core c).failedWithin scope
    let s1 := if fails then (suppress w.1 c).modCore c (fun k => { k with barFail := setIns k.barFail (barKey scope id) }) else w.1
    barArrive (countRel s1 c) c scope id i true true

/-- BAR. -/
def barIssue (s : State) (c : Nat) (i : Instr) (scope id : Nat) (w f : Bool) : State :=
  let k := s.core c
  let key := barKey scope id
  if k.barWait = some i && k.phase == .wait i then (if k.barArrived key then hold s c i else barEnd s c i f)
  else if k.barArrived key then s
  else if f then barRelease s c scope id i
  else barArrive s c scope id i w false

/-! ### The commands -/

/-- ACQ (R102, R257). -/
def execAcq (c : CoreId) (pg : BitVec 3) (sd sa : BitVec 5) (scope : BitVec 3) (ld w : Bool) (imm : BitVec 32) (s : State) : Result :=
  let i := Instr.acq c pg sd sa scope ld w imm
  .next (issue s c i pg (if ld then [sr5 sa] else []) (fun s =>
    acqIssue s c.toNat i sd.toNat (if w then 8 else 4) ((s.core c.toNat).ea sa imm).toNat ld))

/-- REL (R102, R256). -/
def execRel (c : CoreId) (pg : BitVec 3) (sb sa : BitVec 5) (scope : BitVec 3) (st w : Bool) (imm : BitVec 32) (s : State) : Result :=
  let i := Instr.rel c pg sb sa scope st w imm
  .next (issue s c i pg (if st then [sr5 sa, sr5 sb] else []) (fun s =>
    let k := s.core c.toNat
    let n := if w then 8 else 4
    relIssue s c.toNat i scope.toNat n (k.ea sa imm).toNat ((k.sr sb.toNat).toNat % 2 ^ (8 * n)) st))

/-- FENCE (R102, R256). -/
def execFence (c : CoreId) (pg scope : BitVec 3) (s : State) : Result :=
  .next (issue s c (.fence c pg scope) pg [] (fun s => fenceIssue s c.toNat (.fence c pg scope) scope.toNat))

/-- BAR (R105). -/
def execBar (c : CoreId) (pg scope : BitVec 3) (id : BitVec 2) (w f : Bool) (s : State) : Result :=
  let i := Instr.bar c pg scope id w f
  .next (issue s c i pg [] (fun s => barIssue s c.toNat i scope.toNat id.toNat w f))

end Sys2Proof.Machine
end

