-- ==== Sys2Proof/Machine/Coherence.lean ====
section
/-!
DEFINITION. The messages of the coherence protocol as they arrive (chapter 8), the line order, and what reaches a home from its memory
controller (chapters 7 and 12). Messages between two endpoints arrive in the order sent (R227).
-/
namespace Sys2Proof.Machine

/-! ### After a message -/

/-- Data for a mover or a port (MRD) reaches it as soon as no earlier message between the two endpoints is in flight (R227): the table has no
command for it. -/
def portData (s : State) : State :=
  forEach s.net s (fun s m =>
    match m.body with
    | .dataP ld =>
      if !s.isNext m then s
      else if m.dst.toNat < 0x1000 then moverData (s.recv m) m.dst.toNat (0xFFF * 2 ^ 45 + m.l.toNat) ld
      else inbData (s.recv m) m.dst m.l ld
    | _ => s)

/-- Transactions that waited for room are tried again, and data for movers and ports is delivered. -/
def coherent (s : State) : State := portData (settleAll s)

/-- Message `m` arrives and `f` is its effect; it cannot arrive before an earlier one between the same endpoints. -/
def onMsg (s : State) (src dst : Ep) (l : LineNo) (b : MsgBody) (f : State → State) : Result :=
  .next (match s.arrive ⟨src, dst, l, b⟩ with
    | some s1 => coherent (f s1)
    | none => s)

/-- The same for a message whose sender the command does not name. -/
def onMsgTo (s : State) (dst : Ep) (l : LineNo) (b : MsgBody) (f : State → State) : Result :=
  .next (match s.arriveTo dst l b with
    | some s1 => coherent (f s1)
    | none => s)

/-- A request reaches its home. -/
def onReq (s : State) (src : Ep) (l : LineNo) (num : ReqNum) (key : Key) (b : MsgBody) (op : ReqOp) (cyc : Nat) (f : State → State) : Result :=
  onMsg s src (s.homeEp l) l b (fun s => f (enter s l ⟨src, num, key, op, some cyc⟩))

def sliceEp (g : SliceId) : Ep := epSlice g.val

/-- The slice that an endpoint is. -/
def epIsSlice (e : Ep) : Option SliceId := if 0x1000 ≤ e.toNat && e.toNat < 0x1200 then some (Fin.ofNat 512 (e.toNat - 0x1000)) else none

/-! ### Requests -/

/-- GETS (R233, R235): at the home it enters the line order; at a replica slice it is served or goes on. -/
def execGets (src : Ep) (sl : SliceId) (l : LineNo) (num : ReqNum) (key : Key) (ifetch : Bool) (cyc : Nat) (s : State) : Result :=
  onMsg s src (sliceEp sl) l (.gets num key ifetch) (fun s =>
    if s.home l = sl.val then enter s l ⟨src, num, key, .gets ifetch (epIsSlice src), some cyc⟩
    else repGets s sl.val l num key ifetch)

/-- GETX (R235). -/
def execGetx (src : Ep) (l : LineNo) (num : ReqNum) (key : Key) (cyc : Nat) (s : State) : Result :=
  onReq s src l num key (.getx num key) .getx cyc id

/-- UPG (R232, R235). -/
def execUpg (src : Ep) (l : LineNo) (num : ReqNum) (key : Key) (cyc : Nat) (s : State) : Result :=
  onReq s src l num key (.upg num key) .upg cyc id

/-- MRD (R240). -/
def execMrd (src : Ep) (l : LineNo) (num : ReqNum) (key : Key) (cyc : Nat) (s : State) : Result :=
  onReq s src l num key (.mrd num key) .mrd cyc id

/-- MWR (R240). -/
def execMwr (src : Ep) (l : LineNo) (num : ReqNum) (key : Key) (d : Line) (be : BitVec 128) (poison : Bool) (cyc : Nat) (s : State) : Result :=
  onReq s src l num key (.mwr num key d be poison) (.mwr d be poison) cyc id

/-- MWRS (R240, R255). -/
def execMwrs (src : Ep) (l : LineNo) (num : ReqNum) (key : Key) (d : Line) (be : BitVec 128) (poison : Bool) (cyc : Nat) (s : State) : Result :=
  onReq s src l num key (.mwrs num key d be poison) (.mwrs d be poison) cyc id

/-- AMO_H (R243). -/
def execAmoH (src : Ep) (l : LineNo) (num : ReqNum) (key : Key) (off : BitVec 7) (op : BitVec 4) (w : Bool) (x y : W64) (cyc : Nat)
    (s : State) : Result :=
  onReq s src l num key (.amoH num key off op w x y) (.amoH off op w x y) cyc id

/-- A write of core `c` that its home refuses has failed (R475). -/
def refusedWrite (s : State) (c : Nat) (l : LineNo) : State := if s.lineRefuses (lineBase l) then writeFailed s c 1 else s

/-- SWR (R209): a streaming write is performed once it is in line order (R253). -/
def execSwr (c : CoreId) (l : LineNo) (d : Line) (be : BitVec 128) (poison : Bool) (cyc : Nat) (s : State) : Result :=
  onReq s (epCore c.toNat) l (reqNum c.toNat) (s.keyOf c.toNat false) (.swr d be poison) (.swr d be poison) cyc (fun s =>
    refusedWrite (s.modCore c.toNat (fun k => { k with swrOut := k.swrOut.erase l.toNat })) c.toNat l)

/-- An RADD is in line order: the core's, or a remote one whose DONE is sent (R248). -/
def raddEntered (s : State) (src : Ep) (l : LineNo) : State :=
  if src.toNat < 0x1000 then
    refusedWrite (s.modCore src.toNat (fun k => { k with raddOut := k.raddOut.erase l.toNat })) src.toNat l
  else inbDone s src l (if s.lineRefuses (lineBase l) then 1 else 0) 0 false

/-- RADD at its home (R244, R248). -/
def execRaddMsg (src : Ep) (l : LineNo) (num : ReqNum) (key : Key) (typ : BitVec 2) (d : Line) (poison : Bool) (cyc : Nat) (s : State) : Result :=
  onReq s src l num key (.radd num key typ d poison) (.radd typ d poison) cyc (fun s => raddEntered s src l)

/-! ### Victims (R211, R212, R231) -/

/-- VICT_C: the data offered lies with the offer. -/
def execVictC (c : CoreId) (l : LineNo) (key : Key) (s : State) : Result :=
  onMsg s (epCore c.toNat) (s.homeEp l) l (.victC key) (fun s =>
    match (s.core c.toNat).offered.find? (fun e => e.1 == l.toNat) with
    | some e => victim s c.toNat l e.2 false key
    | none => s)

/-- Dirty data waits while it needs a victim-buffer entry and none is free; the cycles are counted (R212). -/
def dirtyArrives (s : State) (l : LineNo) (r : Result) : Result :=
  if s.victimWaits l then .next (vbStall s (s.home l)) else r

/-- VICT_D. -/
def execVictD (c : CoreId) (l : LineNo) (d : Line) (poison : Bool) (s : State) : Result :=
  dirtyArrives s l (onMsg s (epCore c.toNat) (s.homeEp l) l (.victD ⟨d, poison⟩) (fun s =>
    victim s c.toNat l ⟨d, poison⟩ true (s.keyOf c.toNat false)))

/-- CLEAN_D. -/
def execCleanD (c : CoreId) (l : LineNo) (d : Line) (poison : Bool) (s : State) : Result :=
  dirtyArrives s l (onMsg s (epCore c.toNat) (s.homeEp l) l (.cleanD ⟨d, poison⟩) (fun s => cleanData s c.toNat l ⟨d, poison⟩))

/-- The offer of a line is settled: a miss that waited for it is requested (R231). -/
def offerSettled (s : State) (c : Nat) (l : LineNo) : State :=
  let s1 := s.modCore c (fun k => { k with offered := k.offered.filter (fun e => e.1 != l.toNat) })
  if !(s.core c).isOffered l then s
  else match (s1.core c).missOf l with
    | some m =>
      if m.asked then s1
      else sendMiss (s1.modCore c (fun k => { k with miss := k.miss.map (fun x => if x.line = l then { x with asked := true } else x) })) c l
        m.own m.upg
    | none => s1

/-- WB_ACK. -/
def execWbAck (c : CoreId) (l : LineNo) (accepted : Bool) (s : State) : Result :=
  onMsgTo s (epCore c.toNat) l (.wbAck accepted) (fun s => offerSettled s c.toNat l)

/-! ### Errors that hardware finds (R469, R472) -/

/-- Both copies of a line's directory entry are lost: every copy goes, and what it held is discarded (R472). -/
def dirLost (s : State) (l : LineNo) : State :=
  let g := s.home l
  let p := (purge (setDir s l Dir.empty) l).1
  let s1 := p.addWrap (sliceReg Reg.DIR_CNT_BINV g) ⟨0, 64⟩ 8
  let s2 := forEach ((List.range 8).filter (fun d => (s.repSlice l d).isSome)) s1 (fun s _ => s.count (sliceReg Reg.DIR_CNT_REP_INV g))
  let s3 := setDir s2 l Dir.empty
  let gib := lineBase l / 2 ^ 30
  match s.gibOwner gib with
  | some q =>
    if s.gmap gib Fld.PRT_GMAP_kind = 1 then errRecord s3 (sliceDie g) (ErrRec.plain 0 0x005 3 g (lineBase l))
    else
      let ld := (s3.lineData l).getD (s3.memLine l)
      let s4 := writeThrough s3 l ⟨ld.d, true⟩
      containPart (errRecord s4 (sliceDie g) { ErrRec.plain 2 0x050 3 g (lineBase l) with part := some q.val }) q.val 4
  | none => errRecord s3 (sliceDie g) (ErrRec.plain 0 0x005 3 g (lineBase l))

/-- A fatal error is recorded and stops the module (R471). -/
def fatalFound (s : State) (die : Nat) (r : ErrRec) : State := reloadStop (fatalError (errRecord s die r))

/-- A message with the data that it carries poisoned. -/
def MsgBody.spoil (b : MsgBody) : MsgBody :=
  let bad (ld : LineData) : LineData := { ld with poison := true }
  match b with
  | .victD ld => .victD (bad ld)
  | .cleanD ld => .cleanD (bad ld)
  | .swr d be _ => .swr d be true
  | .mwr num key d be _ => .mwr num key d be true
  | .mwrs num key d be _ => .mwrs num key d be true
  | .radd num key typ d _ => .radd num key typ d true
  | .dataS ld => .dataS (bad ld)
  | .dataE ld => .dataE (bad ld)
  | .dataM ld => .dataM (bad ld)
  | .dataI ld => .dataI (bad ld)
  | .dataP ld => .dataP (bad ld)
  | .fwdDone dirty st ld => .fwdDone dirty st (ld.map bad)
  | .recallData ld dirty => .recallData (bad ld) dirty
  | .repData ld num key ifetch => .repData (bad ld) num key ifetch
  | b => b

/-- The first message of line `l` between two endpoints has its data poisoned. -/
def spoilFirst (src dst : Ep) (l : LineNo) : List Msg → List Msg
  | [] => []
  | m :: ms => if m.src == src && m.dst == dst && m.l == l then { m with body := m.body.spoil } :: ms else m :: spoilFirst src dst l ms

/-- Block and location of the unit at an endpoint (Table 18-6). -/
def epUnit (e : Ep) : Nat × Nat :=
  let n := e.toNat
  if n < 0x1000 then (1, n)
  else if n < 0x1200 then (2, n - 0x1000)
  else if 0x1230 ≤ n then (8, n - 0x1230)
  else if 0x1220 ≤ n then (7, n - 0x1220)
  else (5, 0)

/-- What the structure that failed brings about (Table 18-4). -/
def hwError (s : State) (e : HwErr) : State :=
  match e with
  | .core c =>
    let n := c.toNat
    let g := (s.core n).leg
    containCar (errRecord s (coreDie n) { ErrRec.plain 2 0x060 1 n 0 with part := g.map (fun g => g.part.val), inst := g.map (fun g => g.inst.val) }) n
  | .acc c bank row =>
    let n := c.toNat
    let r := accMarkReg n bank
    errRecord (s.setReg r (s.reg r ||| BitVec.ofNat 64 (2 ^ row.toNat))) (coreDie n) (ErrRec.plain 1 0x041 1 n 0)
  | .refetch c => errRecord s (coreDie c.toNat) (ErrRec.plain 0 0x004 1 c.toNat 0)
  | .ocWord c v w ue =>
    -- An uncorrectable word marks its four lanes (R161).
    let n := c.toNat
    if ue then
      errRecord (s.modCore n (fun k => k.setMark v.toNat (k.mark v.toNat ||| BitVec.ofNat 64 (15 * 2 ^ (4 * w.toNat))))) (coreDie n)
        (ErrRec.plain 1 0x040 1 n 0)
    else errRecord s (coreDie n) (ErrRec.plain 0 0x001 1 n 0)
  | .l1Word c l ue =>
    -- A dirty line is poisoned, a clean one is read again (R463, Table 18-4).
    let n := c.toNat
    let dirty := match (s.core n).l1Line l with | some x => x.st == Moesi.m || x.st == Moesi.o | none => false
    if !ue then errRecord s (coreDie n) (ErrRec.plain 0 0x001 1 n (lineBase l))
    else if dirty then
      errRecord (s.modCore n (fun k => k.modL1 l (fun x => some { x with ld := ⟨x.ld.d, true⟩ }))) (coreDie n) (ErrRec.plain 1 0x040 1 n (lineBase l))
    else errRecord s (coreDie n) (ErrRec.plain 0 0x004 1 n (lineBase l))
  -- A scratchpad or LLC word that fails is decoded when it is next read (R460, R461, R463).
  | .scratchWord c w two => s.setBad (scrBase c.toNat + 16 * w.toNat) (if two then .two else .one)
  | .llcWord sl l two =>
    forEach ((s.llc.ways.filter (fun e => e.1 / 131072 == sl.val && e.2.map (·.line) == some l)).map (·.1)) s (fun s k =>
      s.setWayAt k ((s.wayAt k).map (fun x => { x with bad := some (if two then .two else .one) })))
  | .bufWord sl l ue =>
    let hit (m : List (Nat × List VbEnt)) : List (Nat × List VbEnt) := m.map (fun e =>
      if e.1 = sl.val then (e.1, e.2.map (fun x => if x.line = l then { x with ld := { x.ld with poison := true } } else x)) else e)
    if ue then errRecord { s with llc := { s.llc with vbuf := hit s.llc.vbuf, rbuf := hit s.llc.rbuf } } (sliceDie sl.val)
      (ErrRec.plain 1 0x040 2 sl.val (lineBase l))
    else errRecord s (sliceDie sl.val) (ErrRec.plain 0 0x001 2 sl.val (lineBase l))
  | .wireWord src dst l ue =>
    -- The receiving unit decodes what the transport carries (R458, R463).
    let u := epUnit dst
    if ue then errRecord { s with net := spoilFirst src dst l s.net } (epDie dst) (ErrRec.plain 1 0x040 u.1 u.2 (lineBase l))
    else errRecord s (epDie dst) (ErrRec.plain 0 0x001 u.1 u.2 (lineBase l))
  | .dirCopy sl => errRecord s (sliceDie sl.val) (ErrRec.plain 0 0x005 3 sl.val 0)
  | .dirBoth l => if s.lineBusy l then s else dirLost s l
  | .tagBoth sl => fatalFound s (sliceDie sl.val) (ErrRec.plain 3 0x080 2 sl.val 0)
  | .seam die => fatalFound s die.val (ErrRec.plain 3 0x081 6 0 0)
  | .control die => fatalFound s die.val (ErrRec.plain 3 0x082 10 0 0)

/-! ### The line order -/

/-- TRANSACTION_BEGIN (R228, R230): the home takes the line's next request; `ue` says that both copies of the entry are found uncorrectable. -/
def execTransactionBegin (l : LineNo) (ue : Bool) (s : State) : Result :=
  let lost := ue && !s.lineBusy l && !(s.lineq l).wait.isEmpty
  .next (abortsGo (coherent (takeNext (if lost then dirLost s l else s) l)))

/-! ### Messages to an L1 -/

/-- DATA_S. -/
def execDataS (c : CoreId) (l : LineNo) (d : Line) (poison : Bool) (s : State) : Result :=
  onMsgTo s (epCore c.toNat) l (.dataS ⟨d, poison⟩) (fun s => l1Fill s c.toNat l ⟨d, poison⟩ .s)

/-- DATA_E. -/
def execDataE (c : CoreId) (l : LineNo) (d : Line) (poison : Bool) (s : State) : Result :=
  onMsgTo s (epCore c.toNat) l (.dataE ⟨d, poison⟩) (fun s => l1Fill s c.toNat l ⟨d, poison⟩ .e)

/-- DATA_M. -/
def execDataM (c : CoreId) (l : LineNo) (d : Line) (poison : Bool) (s : State) : Result :=
  onMsgTo s (epCore c.toNat) l (.dataM ⟨d, poison⟩) (fun s => l1Fill s c.toNat l ⟨d, poison⟩ .m)

/-- GRANT. -/
def execGrant (c : CoreId) (l : LineNo) (s : State) : Result :=
  onMsgTo s (epCore c.toNat) l .grant (fun s => l1Grant s c.toNat l)

/-- A forward or recall reaches the L1 of core `c`. -/
def onForward (s : State) (c : CoreId) (l : LineNo) (b : MsgBody) : Result :=
  onMsgTo s (epCore c.toNat) l b (fun s => l1Forward s c.toNat ⟨s.homeEp l, epCore c.toNat, l, b⟩)

/-- FWD_GETS. -/
def execFwdGets (c : CoreId) (l : LineNo) (num : ReqNum) (ifetch : Bool) (s : State) : Result := onForward s c l (.fwdGets num ifetch)

/-- FWD_GETX. -/
def execFwdGetx (c : CoreId) (l : LineNo) (num : ReqNum) (s : State) : Result := onForward s c l (.fwdGetx num)

/-- FWD_RD. -/
def execFwdRd (c : CoreId) (l : LineNo) (s : State) : Result := onForward s c l .fwdRd

/-- RECALL. -/
def execRecall (c : CoreId) (l : LineNo) (keepS : Bool) (s : State) : Result := onForward s c l (.recall keepS)

/-- An S copy goes, and INV_ACK answers whatever was held (Table 8-7). -/
def invArrives (s : State) (src : Ep) (c : Nat) (l : LineNo) : State := (l1Inv s c l).send (epCore c) src l .invAck

/-- INV. -/
def execInv (src : Ep) (c : CoreId) (l : LineNo) (s : State) : Result :=
  onMsg s src (epCore c.toNat) l .inv (fun s => invArrives s src c.toNat l)

/-- HOLD_EXPIRE (R237). -/
def execHoldExpire (c : CoreId) (l : LineNo) (s : State) : Result := .next (coherent (holdEnd s c.toNat l))

/-! ### Broadcast paths and answers -/

/-- BINV (R226). -/
def execBinv (die : Fin 8) (l : LineNo) (s : State) : Result :=
  onMsg s (s.homeEp l) (epBroadcast die.val) l .binv (fun s => pathBinv s die.val l)

/-- INV_ACK, at the home, at a replica slice or at a broadcast path. -/
def execInvAck (c : CoreId) (dst : Ep) (l : LineNo) (s : State) : Result :=
  onMsg s (epCore c.toNat) dst l .invAck (fun s =>
    if dst = s.homeEp l then homeInvAck s c.toNat l
    else match epIsSlice dst with
      | some g => repInvAck s g.val c.toNat l
      | none => if 0x1200 ≤ dst.toNat && dst.toNat < 0x1208 then pathInvAck s (dst.toNat - 0x1200) c.toNat l else s)

/-- BINV_ACK. -/
def execBinvAck (die : Fin 8) (l : LineNo) (s : State) : Result :=
  onMsg s (epBroadcast die.val) (s.homeEp l) l .binvAck (fun s => homeBinvAck s die.val l)

/-- FWD_DONE. -/
def execFwdDone (c : CoreId) (l : LineNo) (dirty : Bool) (st : Option Moesi) (d : Option (Line × Bool)) (s : State) : Result :=
  let ld := d.map (fun x => (⟨x.1, x.2⟩ : LineData))
  onMsg s (epCore c.toNat) (s.homeEp l) l (.fwdDone dirty st ld) (fun s => homeFwdDone s c.toNat l dirty ld)

/-- FWD_MISS (R232). -/
def execFwdMiss (c : CoreId) (l : LineNo) (s : State) : Result :=
  onMsg s (epCore c.toNat) (s.homeEp l) l .fwdMiss (fun s => homeFwdMiss s c.toNat l)

/-- RECALL_DATA. -/
def execRecallData (c : CoreId) (l : LineNo) (d : Line) (poison dirty : Bool) (s : State) : Result :=
  onMsg s (epCore c.toNat) (s.homeEp l) l (.recallData ⟨d, poison⟩ dirty) (fun s => homeRecall s c.toNat l ⟨d, poison⟩ dirty)

/-! ### Replicas -/

/-- REP_DATA (R215, R239). -/
def execRepData (sl : SliceId) (l : LineNo) (d : Line) (poison : Bool) (num : ReqNum) (key : Key) (ifetch : Bool) (s : State) : Result :=
  onMsgTo s (sliceEp sl) l (.repData ⟨d, poison⟩ num key ifetch) (fun s => repFill s sl.val l ⟨d, poison⟩ num key ifetch)

/-- REP_FWD (R234). -/
def execRepFwd (sl : SliceId) (l : LineNo) (num : ReqNum) (key : Key) (ifetch : Bool) (dst : Option SliceId) (s : State) : Result :=
  onMsgTo s (sliceEp sl) l (.repFwd num key ifetch dst) (fun s => repServe s sl.val l num key ifetch dst)

/-- REP_INV (R238, R239). -/
def execRepInv (sl : SliceId) (l : LineNo) (s : State) : Result :=
  onMsg s (s.homeEp l) (sliceEp sl) l .repInv (fun s => repInvalidate s sl.val l)

/-- REP_ACK. -/
def execRepAck (sl : SliceId) (l : LineNo) (s : State) : Result :=
  onMsg s (sliceEp sl) (s.homeEp l) l .repAck (fun s => homeRepAck s (sliceDie sl.val) l)

/-- REP_DROP. -/
def execRepDrop (sl : SliceId) (l : LineNo) (s : State) : Result :=
  onMsg s (sliceEp sl) (s.homeEp l) l .repDrop (fun s => homeRepDrop s (sliceDie sl.val) l)

/-! ### DONE -/

/-- A receipt's write to a ring in stacked memory has been entered at its home (R304). -/
def receiptDone (s : State) (l : LineNo) : State :=
  match (List.range 1024).findSome? (fun i => ((s.instRd i).writes.find? (fun w => w.1 == l.toNat)).map (fun w => (i, w))) with
  | some (i, w) => unbindCheck (receiptMsix (s.modInst i (fun y => { y with writes := y.writes.erase w })) i w.2) i
  | none => s

/-- DONE: at a mover, a port, or X0's controller. -/
def execDone (dst : Ep) (l : LineNo) (status : BitVec 4) (old : OldVal) (s : State) : Result :=
  onMsgTo s dst l (.done status old.v old.poison) (fun s =>
    if dst.toNat < 0x1000 then moverDone s dst.toNat l (status != 0)
    else if dst = epDieCtl primaryDie then receiptDone s l
    else inbDone s dst l status old.v old.poison)

/-- PIECE_ISSUE (R177); `found` lists what the mover's own reads found: tag records, words of scratchpads (R469). -/
def execPieceIssue (c : CoreId) (tag : BitVec 8) (found : List HwErr) (now : Nat) (s : State) : Result :=
  let u := pieceIssue (s.at now) c.toNat tag.toNat
  .next (if found.isEmpty then u else abortsGo (coherent (forEach found u hwError)))

/-! ### Memory (chapters 7 and 12) -/

/-- VICTIM_BUFFER_WRITE (R212). -/
def execVictimBufferWrite (sl : SliceId) (l : LineNo) (s : State) : Result := .next (coherent (bufIssue s sl.val l))

/-- MEMORY_READ_RETURN (R327, R341); `found` lists what other hardware found (R469). -/
def execMemoryReadReturn (l : LineNo) (pri copy : List ReadRes) (found : List HwErr) (now : Nat) (s : State) : Result :=
  .next (abortsGo (coherent (forEach found (memReturn (s.at now) l pri copy) hwError)))

/-- MEMORY_WRITE_COMPLETE (R344). -/
def execMemoryWriteComplete (l : LineNo) (s : State) : Result := .next (coherent (memWriteDone s l))

end Sys2Proof.Machine
end

