-- ==== Sys2Proof/Machine/Inbound.lean ====
section
/-!
DEFINITION. Requests that arrive at a host port (R375-R379, R392, R399): their class, what it reaches, and how a read, a write and an
AtomicOp are applied through BAR0, BAR2 and BAR4; the order of R260.
-/
namespace Sys2Proof.Machine

/-! ### Classes (R375, R391, R392) -/

inductive ReqClass where
  | manager | inst (i : Nat) | peer | unattributed
deriving DecidableEq, Repr

/-- A Requester ID matches a valid peer entry of port `p`. -/
def State.peerId (s : State) (p rid : Nat) : Bool :=
  (List.range 16).any (fun n =>
    let r := Reg.HIF_PEER p n
    let m := s.get r Fld.HIF_PEER_mask
    s.flag r Fld.HIF_PEER_valid && rid &&& m == s.get r Fld.HIF_PEER_rid &&& m)

/-- The instance bound on port `p` with a PASID. -/
def State.instOf (s : State) (p : Nat) (pasid : BitVec 20) : Option Nat :=
  (List.range 1024).find? (fun i => s.instBound i && s.instPort i == p && s.instPasid i == pasid)

/-- The TDI whose request it is: on its selective stream, with the T bit, in RUN. -/
def State.tdiOf (s : State) (p : Nat) (rq : InReq) : Option Nat :=
  match rq.stream with
  | some k =>
    if rq.tbit then
      (s.host.tdiStream.find? (fun x => x.2 == k.val && s.instBound x.1 && s.instPort x.1 == p && s.tdiState x.1 == 2)).map (·.1)
    else none
  | none => none

/-- The class of a request at port `p`. -/
def State.classOf (s : State) (p : Nat) (rq : InReq) : ReqClass :=
  if p == 1 && s.flag Reg.HIF_PORT_CFG Fld.HIF_PORT_CFG_p1_role then .peer
  else if s.peerId p rq.rid.toNat then .peer
  else match rq.pasid with
    | some x => (match s.instOf p x with | some i => .inst i | none => .unattributed)
    | none => (match s.tdiOf p rq with | some i => .inst i | none => .manager)

/-- The instance of partition `q` whose TDI is CONFIG_LOCKED or RUN. -/
def State.lockedInst (s : State) (q : Nat) : Option Nat :=
  (List.range 1024).find? (fun i => s.instBound i && s.instPart i == q && (s.tdiState i == 1 || s.tdiState i == 2))

/-- What belongs to partition `q` is open to a request: no TDI of it is locked, or the request is that TDI's. -/
def State.lockOpen (s : State) (q : Nat) (t : Option Nat) : Bool :=
  match s.lockedInst q with
  | some i => t == some i
  | none => true

/-! ### Reach (R377, R378, Table 14-2) -/

/-- GiB `g` lies in a peer window; `write` needs wr. -/
def State.peerWin (s : State) (g : Nat) (write : Bool) : Bool :=
  (List.range 8).any (fun n =>
    let r := Reg.HIF_PEER_WIN n
    let b := s.get r Fld.HIF_PEER_WIN_base_gib
    s.flag r Fld.HIF_PEER_WIN_valid && b ≤ g && g < b + s.get r Fld.HIF_PEER_WIN_count && (!write || s.flag r Fld.HIF_PEER_WIN_wr))

/-- The class reaches GiB `g` through BAR2. -/
def State.classReach (s : State) (k : ReqClass) (g : Nat) (write : Bool) : Bool :=
  match k with
  | .manager => s.gibServes g false
  | .inst i => s.gibReach (s.instPart i) g write
  | .peer => s.gibServes g write && s.peerWin g write
  | .unattributed => false

/-- Partition `q` is being zeroed (R393). -/
def State.partZeroing (s : State) (q : Nat) : Bool := s.host.zeroing.any (fun z => s.instPart z.1 == q)

/-- A BAR2 request over `n` bytes at MPA `a` is served (R377, R392, R393, R439, R471, R498). -/
def State.bar2Serves (s : State) (p : Nat) (rq : InReq) (a n : Nat) (write : Bool) : Bool :=
  let g := a / 2 ^ 30
  let q := s.gmap g Fld.PRT_GMAP_partition
  s.classReach (s.classOf p rq) g write && s.lockOpen q (s.tdiOf p rq) && !s.partZeroing q && !s.errs.fatal && s.pwrState != 3 &&
    (lineParts a n).all (fun x => !s.homeResets x.1)

/-- The MPA of BAR2 offset `x` at port `p`. -/
def State.bar2Addr (s : State) (p x : Nat) : Nat := s.get (Reg.HIF_BAR2 p) Fld.HIF_BAR2_base_gib * 2 ^ 30 + x

/-- BAR0 offset `x` is open: to the manager, and the CORE_ pages of a locked partition's rows to its TDI alone. -/
def State.bar0Serves (s : State) (p : Nat) (rq : InReq) (x : Nat) : Bool :=
  let t := s.tdiOf p rq
  let row := (x - 0x1000000) / 0x20000
  let owner := if inCorePages x then (List.range 32).find? (fun q => s.rowOf q row) else none
  match owner with
  | some q => (match s.lockedInst q with | some i => t == some i | none => s.classOf p rq == .manager)
  | none => s.classOf p rq == .manager

/-- Instance page `i` of BAR4 is open. -/
def State.bar4Serves (s : State) (p : Nat) (rq : InReq) (i : Nat) : Bool :=
  let k := s.classOf p rq
  (k == .manager || k == .inst i) &&
    (if s.instBound i && (s.tdiState i == 1 || s.tdiState i == 2) then s.tdiOf p rq == some i else true)

/-- The register offset that BAR4 offset `x` shows, in a mailbox page (R378). -/
def bar4Reg (x : Nat) : Option Nat := if x % 0x10000 < 0x1000 then some (0x400000 + x / 0x10000 * 0x1000 + x % 0x10000) else none

/-- The sizes of the BARs: BAR2 as its Resizable BAR control has it. -/
def State.barHolds (s : State) (p bar x n : Nat) : Bool :=
  (bar == 0 && decide (x + n ≤ 2 ^ 28)) || (bar == 2 && decide (x + n ≤ 2 ^ (s.port p).bar2)) || (bar == 4 && decide (x + n ≤ 2 ^ 26))

def denied (s : State) (p : Nat) : State := s.incSat (Reg.HIF_STAT p) Fld.HIF_STAT_denied

/-! ### Order at a port (R260) -/

def hostNum (p : Nat) : ReqNum := BitVec.ofNat 13 (0x1020 + p)

/-- Every request that arrived earlier at the port is entered into its line's order, in the order of arrival (R227), where a posted write is among
them (R260). -/
def enterPosted (s : State) (p : Nat) : State :=
  let mine := s.net.filter (fun m => m.src == epHost p)
  let posted (m : Msg) : Bool := match m.body with | .mwrs .. => true | _ => false
  forEach (mine.reverse.dropWhile (fun m => !posted m)).reverse s (fun s m =>
    match m.body with
    | .mwrs num key d be poison => enter (s.recv m) m.l ⟨m.src, num, key, .mwrs d be poison, none⟩
    | .mrd num key => enter (s.recv m) m.l ⟨m.src, num, key, .mrd, none⟩
    | .amoH num key off op w x y => enter (s.recv m) m.l ⟨m.src, num, key, .amoH off op w x y, none⟩
    | _ => s)

/-- The header of a host request, which has none. -/
def hostHdr : RemHdr :=
  { arg := 0, lines := 0, poison := false, hops := 0, dst := 0, src := 0, mpa := 0, tag := 0, core := 0, gen := 0, epoch := 0, value := 0 }

def hostLines (a n : Nat) : List Nat := (lineParts a n).map (·.1)

/-! ### BAR2 (R379) -/

/-- A write: one MWRS per line it touches; a poisoned TLP poisons every line. -/
def bar2Write (s : State) (p : Nat) (rq : InReq) (a : Nat) (d : List Byte) (ep : Bool) : State :=
  let n := d.length
  let s1 := if rq.relaxed then s else enterPosted s p
  if n = 0 then s1
  else
    forEach (lineParts a n) (inbOpen s1 (epHost p) 0x03 hostHdr a n (hostLines a n)) (fun s x =>
      let l : LineNo := BitVec.ofNat 45 x.1
      s.send (epHost p) (epSlice (s.home l)) l (.mwrs (hostNum p) (s.regionKey (x.1 * 128) true)
        (linePut 0 x.2.1 x.2.2.1 (ofBytes ((d.drop x.2.2.2).take x.2.2.1))) (byteMask x.2.1 x.2.2.1) ep))

/-- A read: one MRD per line. -/
def bar2Read (s : State) (p a n : Nat) : State :=
  let s1 := enterPosted s p
  if n = 0 then s1.out (.completion p [] false)
  else
    forEach (hostLines a n) (inbOpen s1 (epHost p) 0x01 hostHdr a n (hostLines a n)) (fun s x =>
      let l : LineNo := BitVec.ofNat 45 x
      s.send (epHost p) (epSlice (s.home l)) l (.mrd (hostNum p) (s.regionKey (x * 128) false)))

/-- An AtomicOp: AMO_H with the operation of R99. -/
def bar2Atomic (s : State) (p a n : Nat) (op : BitVec 4) (x y : W64) : State :=
  let s1 := enterPosted s p
  let l := lineOf a
  (inbOpen s1 (epHost p) 0x04 hostHdr a n [l.toNat]).send (epHost p) (epSlice (s1.home l)) l
    (.amoH (hostNum p) (s1.regionKey a false) (BitVec.ofNat 7 a) op (n == 8) x y)

/-! ### Requests -/

/-- A write request at port `p`. -/
def inboundWrite (s : State) (p : Nat) (rq : InReq) (bar x : Nat) (d : List Byte) (ep : Bool) : State :=
  let n := d.length
  if !s.barHolds p bar x n then s
  else if bar = 2 then
    let a := s.bar2Addr p x
    if s.bar2Serves p rq a n true then bar2Write (if ep then aerLog s p .poisoned else s) p rq a d ep else denied s p
  else
    let s1 := if rq.relaxed then s else enterPosted s p
    if bar = 0 then
      (if !s.bar0Serves p rq x then denied s1 p else if ep then s1 else regWrite s1 .manager p x n (ofBytes d))
    else if !s.bar4Serves p rq (x / 0x10000) then denied s1 p
    else match bar4Reg x with
      | some o => if ep then s1 else regWrite s1 .tenant p o n (ofBytes d)
      | none => s1

/-- A read request at port `p`. -/
def inboundRead (s : State) (p : Nat) (rq : InReq) (bar x n : Nat) : State :=
  let zero (s : State) : State := s.out (.completion p (List.replicate n 0) false)
  if !s.barHolds p bar x n then s.out (.unsupported p)
  else if bar = 2 then
    let a := s.bar2Addr p x
    if s.bar2Serves p rq a n false then bar2Read s p a n else zero (denied s p)
  else
    let s1 := enterPosted s p
    let give (o : Nat) : State :=
      let r := regRead s1 p o n
      r.1.out (.completion p (bytesOf n r.2) false)
    if bar = 0 then (if s.bar0Serves p rq x then give x else zero (denied s1 p))
    else if !s.bar4Serves p rq (x / 0x10000) then zero (denied s1 p)
    else match bar4Reg x with
      | some o => give o
      | none => zero s1

/-- An AtomicOp request at port `p`: `op` 0 FetchAdd, 1 Swap, 2 CAS; `wid` 0 32 bits, 1 64 bits, else 128 bits; `x` the operand, `y` the
value compared. -/
def inboundAtomic (s : State) (p : Nat) (rq : InReq) (bar off : Nat) (op wid : Nat) (x y : W64) (ep : Bool) : State :=
  let n := if wid = 0 then 4 else 8
  let zero (s : State) : State := s.out (.completion p (List.replicate n 0) false)
  if 2 ≤ wid || 3 ≤ op || !s.barHolds p bar off n then s.out (.unsupported p)
  else if bar != 2 then zero (denied (enterPosted s p) p)
  else
    let a := s.bar2Addr p off
    if a % n != 0 || !s.bar2Serves p rq a n true then zero (denied s p)
    else if ep then zero (enterPosted s p)
    else bar2Atomic s p a n (if op = 0 then 0#4 else if op = 1 then 8#4 else 9#4) x y

/-! ### The commands -/

/-- INBOUND_WRITE (R260, R377, R379). -/
def execInboundWrite (p : PortId) (rq : InReq) (bar : BitVec 3) (off : BitVec 42) (d : List Byte) (ep : Bool) (s : State) : Result :=
  .next (if s.portUp p.val then abortsGo (inboundWrite s p.val rq bar.toNat off.toNat d ep) else s)

/-- INBOUND_READ (R260, R377, R379). -/
def execInboundRead (p : PortId) (rq : InReq) (bar : BitVec 3) (off : BitVec 42) (len : Nat) (s : State) : Result :=
  .next (if s.portUp p.val then inboundRead s p.val rq bar.toNat off.toNat len else s)

/-- INBOUND_ATOMICOP (R260, R377, R379). -/
def execInboundAtomicop (p : PortId) (rq : InReq) (bar : BitVec 3) (off : BitVec 42) (op wid : BitVec 2) (x y : W64) (ep : Bool)
    (s : State) : Result :=
  .next (if s.portUp p.val then inboundAtomic s p.val rq bar.toNat off.toNat op.toNat wid.toNat x y ep else s)

end Sys2Proof.Machine
end

