-- ==== Sys2Proof/Machine/Dispatch.lean ====
section
/-!
DEFINITION. Dispatch: the effect of each command on everything but the queue, one arm per constructor of `Instr`.
-/
namespace Sys2Proof.Machine

/-- The effect of a command. -/
def exec (i : Instr) (s : State) : Host.Outcome State Fault Refusal :=
  match i with
  | .instructionFetch c l d poison stall => Sys2Proof.Machine.execInstructionFetch c l d poison stall s
  | .alu c pg sd sa sb fn => Sys2Proof.Machine.execAlu c pg sd sa sb fn s
  | .alui c pg sd sa fn imm => Sys2Proof.Machine.execAlui c pg sd sa fn imm s
  | .movi c pg sd h imm => Sys2Proof.Machine.execMovi c pg sd h imm s
  | .cmp c pg pd pn sa sb cc => Sys2Proof.Machine.execCmp c pg pd pn sa sb cc s
  | .cmpi c pg pd pn sa cc imm => Sys2Proof.Machine.execCmpi c pg pd pn sa cc imm s
  | .pred c pg pd pa pb fn => Sys2Proof.Machine.execPred c pg pd pa pb fn s
  | .mask c pg md ma mb sx fn => Sys2Proof.Machine.execMask c pg md ma mb sx fn s
  | .sys c pg sd sel => Sys2Proof.Machine.execSys c pg sd sel s
  | .b c pg off => Sys2Proof.Machine.execB c pg off s
  | .bl c pg sd off => Sys2Proof.Machine.execBl c pg sd off s
  | .br c pg sd sa => Sys2Proof.Machine.execBr c pg sd sa s
  | .endLeg c pg => Sys2Proof.Machine.execEndLeg c pg s
  | .legPartEnd c => Sys2Proof.Machine.execLegPartEnd c s
  | .ld c pg sd sa size sx imm => Sys2Proof.Machine.execLd c pg sd sa size sx imm s
  | .st c pg sb sa size imm => Sys2Proof.Machine.execSt c pg sb sa size imm s
  | .amo c pg sd sa sb sc op w => Sys2Proof.Machine.execAmo c pg sd sa sb sc op w s
  | .radd c pg sa oc half typ imm => Sys2Proof.Machine.execRadd c pg sa oc half typ imm s
  | .cacheInv c pg sd sa sb lvl => Sys2Proof.Machine.execCacheInv c pg sd sa sb lvl s
  | .cacheClean c pg sd sa sb lvl => Sys2Proof.Machine.execCacheClean c pg sd sa sb lvl s
  | .cachePin c pg sd sa sb lvl => Sys2Proof.Machine.execCachePin c pg sd sa sb lvl s
  | .cacheUnpin c pg sd sa sb lvl => Sys2Proof.Machine.execCacheUnpin c pg sd sa sb lvl s
  | .cacheIinv c pg sd sa sb lvl => Sys2Proof.Machine.execCacheIinv c pg sd sa sb lvl s
  | .acq c pg sd sa scope ld w imm => Sys2Proof.Machine.execAcq c pg sd sa scope ld w imm s
  | .rel c pg sb sa scope st w imm => Sys2Proof.Machine.execRel c pg sb sa scope st w imm s
  | .fence c pg scope => Sys2Proof.Machine.execFence c pg scope s
  | .waitTokens c pg sd sb sel => Sys2Proof.Machine.execWaitTokens c pg sd sb sel s
  | .waitWake c pg sd sb sel => Sys2Proof.Machine.execWaitWake c pg sd sb sel s
  | .waitBarrier c pg sd sb sel => Sys2Proof.Machine.execWaitBarrier c pg sd sb sel s
  | .waitTimeout c => Sys2Proof.Machine.execWaitTimeout c s
  | .bar c pg scope id w f => Sys2Proof.Machine.execBar c pg scope id w f s
  | .toll c pg ahead tolls => Sys2Proof.Machine.execToll c pg ahead tolls s
  | .heavy c pg level ahead => Sys2Proof.Machine.execHeavy c pg level ahead s
  | .nop c pg => Sys2Proof.Machine.execNop c pg s
  | .mld c f => Sys2Proof.Machine.execMld c f s
  | .mma c f => Sys2Proof.Machine.execMma c f s
  | .mswap c f => Sys2Proof.Machine.execMswap c f s
  | .mdrain c f => Sys2Proof.Machine.execMdrain c f s
  | .vop c op f => Sys2Proof.Machine.execVop c op f s
  | .vcvt c f => Sys2Proof.Machine.execVcvt c f s
  | .vacc c f => Sys2Proof.Machine.execVacc c f s
  | .vargmax c f => Sys2Proof.Machine.execVargmax c f s
  | .vtopk c f => Sys2Proof.Machine.execVtopk c f s
  | .vld c f => Sys2Proof.Machine.execVld c f s
  | .vst c f => Sys2Proof.Machine.execVst c f s
  | .vcomp c f => Sys2Proof.Machine.execVcomp c f s
  | .vexp c f => Sys2Proof.Machine.execVexp c f s
  | .vred c f => Sys2Proof.Machine.execVred c f s
  | .engineInstructionStart c e => Sys2Proof.Machine.execEngineInstructionStart c e s
  | .engineInstructionComplete c e => Sys2Proof.Machine.execEngineInstructionComplete c e s
  | .move c f => Sys2Proof.Machine.execMove c f s
  | .moveStart c => Sys2Proof.Machine.execMoveStart c s
  | .descriptorStart c tag => Sys2Proof.Machine.execDescriptorStart c tag s
  | .pieceIssue c tag found now => Sys2Proof.Machine.execPieceIssue c tag found now s
  | .piecePerformed c tag => Sys2Proof.Machine.execPiecePerformed c tag s
  | .moverFinalStatus c tag => Sys2Proof.Machine.execMoverFinalStatus c tag s
  | .mwait c pg sd tag all => Sys2Proof.Machine.execMwait c pg sd tag all s
  | .mabort c pg sd tag => Sys2Proof.Machine.execMabort c pg sd tag s
  | .moverAbortReceive c tag => Sys2Proof.Machine.execMoverAbortReceive c tag s
  | .gets src sl l num key ifetch cyc => Sys2Proof.Machine.execGets src sl l num key ifetch cyc s
  | .getx src l num key cyc => Sys2Proof.Machine.execGetx src l num key cyc s
  | .upg src l num key cyc => Sys2Proof.Machine.execUpg src l num key cyc s
  | .victC c l key => Sys2Proof.Machine.execVictC c l key s
  | .victD c l d poison => Sys2Proof.Machine.execVictD c l d poison s
  | .cleanD c l d poison => Sys2Proof.Machine.execCleanD c l d poison s
  | .swr c l d be poison cyc => Sys2Proof.Machine.execSwr c l d be poison cyc s
  | .mrd src l num key cyc => Sys2Proof.Machine.execMrd src l num key cyc s
  | .mwr src l num key d be poison cyc => Sys2Proof.Machine.execMwr src l num key d be poison cyc s
  | .mwrs src l num key d be poison cyc => Sys2Proof.Machine.execMwrs src l num key d be poison cyc s
  | .amoH src l num key off op w x y cyc => Sys2Proof.Machine.execAmoH src l num key off op w x y cyc s
  | .raddMsg src l num key typ d poison cyc => Sys2Proof.Machine.execRaddMsg src l num key typ d poison cyc s
  | .transactionBegin l ue => Sys2Proof.Machine.execTransactionBegin l ue s
  | .dataS c l d poison => Sys2Proof.Machine.execDataS c l d poison s
  | .dataE c l d poison => Sys2Proof.Machine.execDataE c l d poison s
  | .dataM c l d poison => Sys2Proof.Machine.execDataM c l d poison s
  | .grant c l => Sys2Proof.Machine.execGrant c l s
  | .fwdGets c l num ifetch => Sys2Proof.Machine.execFwdGets c l num ifetch s
  | .fwdGetx c l num => Sys2Proof.Machine.execFwdGetx c l num s
  | .fwdRd c l => Sys2Proof.Machine.execFwdRd c l s
  | .recall c l keepS => Sys2Proof.Machine.execRecall c l keepS s
  | .inv src c l => Sys2Proof.Machine.execInv src c l s
  | .binv die l => Sys2Proof.Machine.execBinv die l s
  | .invAck c dst l => Sys2Proof.Machine.execInvAck c dst l s
  | .binvAck die l => Sys2Proof.Machine.execBinvAck die l s
  | .fwdDone c l dirty st d => Sys2Proof.Machine.execFwdDone c l dirty st d s
  | .fwdMiss c l => Sys2Proof.Machine.execFwdMiss c l s
  | .recallData c l d poison dirty => Sys2Proof.Machine.execRecallData c l d poison dirty s
  | .wbAck c l accepted => Sys2Proof.Machine.execWbAck c l accepted s
  | .holdExpire c l => Sys2Proof.Machine.execHoldExpire c l s
  | .repData sl l d poison num key ifetch => Sys2Proof.Machine.execRepData sl l d poison num key ifetch s
  | .repFwd sl l num key ifetch dst => Sys2Proof.Machine.execRepFwd sl l num key ifetch dst s
  | .repInv sl l => Sys2Proof.Machine.execRepInv sl l s
  | .repAck sl l => Sys2Proof.Machine.execRepAck sl l s
  | .repDrop sl l => Sys2Proof.Machine.execRepDrop sl l s
  | .done dst l status old => Sys2Proof.Machine.execDone dst l status old s
  | .victimBufferWrite sl l => Sys2Proof.Machine.execVictimBufferWrite sl l s
  | .memoryReadReturn l pri copy found now => Sys2Proof.Machine.execMemoryReadReturn l pri copy found now s
  | .patrolScrubRead stack pri copy now => Sys2Proof.Machine.execPatrolScrubRead stack pri copy now s
  | .stackTemperatureRead stack temp => Sys2Proof.Machine.execStackTemperatureRead stack temp s
  | .ceWindowEnd ch => Sys2Proof.Machine.execCeWindowEnd ch s
  | .mapoutRecordWrite ch => Sys2Proof.Machine.execMapoutRecordWrite ch s
  | .frameTick now => Sys2Proof.Machine.execFrameTick now s
  | .frameRefEdge t => Sys2Proof.Machine.execFrameRefEdge t s
  | .frameRefLost t => Sys2Proof.Machine.execFrameRefLost t s
  | .waybillRead inst d ok poison => Sys2Proof.Machine.execWaybillRead inst d ok poison s
  | .admitCaravans p ta => Sys2Proof.Machine.execAdmitCaravans p ta s
  | .caravanStart k now => Sys2Proof.Machine.execCaravanStart k now s
  | .caravanEnd k now => Sys2Proof.Machine.execCaravanEnd k now s
  | .receiptWrite inst now => Sys2Proof.Machine.execReceiptWrite inst now s
  | .frmAbort inst all => Sys2Proof.Machine.execFrmAbort inst all s
  | .frmCountLoad v => Sys2Proof.Machine.execFrmCountLoad v s
  | .instanceBind inst port pasid p => Sys2Proof.Machine.execInstanceBind inst port pasid p s
  | .instanceUnbind inst => Sys2Proof.Machine.execInstanceUnbind inst s
  | .ownRequest p inst => Sys2Proof.Machine.execOwnRequest p inst s
  | .ownEnd p => Sys2Proof.Machine.execOwnEnd p s
  | .partitionHold p => Sys2Proof.Machine.execPartitionHold p s
  | .partitionRelease p => Sys2Proof.Machine.execPartitionRelease p s
  | .caravanSave k => Sys2Proof.Machine.execCaravanSave k s
  | .remoteWaitExpire c => Sys2Proof.Machine.execRemoteWaitExpire c s
  | .coreSaved c => Sys2Proof.Machine.execCoreSaved c s
  | .caravanRestore k now => Sys2Proof.Machine.execCaravanRestore k now s
  | .crlFlitReceive die link bun sent err => Sys2Proof.Machine.execCrlFlitReceive die link bun sent err s
  | .crlNak die link bun seq => Sys2Proof.Machine.execCrlNak die link bun seq s
  | .crlAckTimer die link bun => Sys2Proof.Machine.execCrlAckTimer die link bun s
  | .crlWindowEnd die link => Sys2Proof.Machine.execCrlWindowEnd die link s
  | .bundleQuiesceComplete die link bun => Sys2Proof.Machine.execBundleQuiesceComplete die link bun s
  | .crlLinkTraining die link tests peer => Sys2Proof.Machine.execCrlLinkTraining die link tests peer s
  | .inboundWrite p rq bar off d ep => Sys2Proof.Machine.execInboundWrite p rq bar off d ep s
  | .inboundRead p rq bar off len => Sys2Proof.Machine.execInboundRead p rq bar off len s
  | .inboundAtomicop p rq bar off op wid x y ep => Sys2Proof.Machine.execInboundAtomicop p rq bar off op wid x y ep s
  | .hostCompletion p id st d ep => Sys2Proof.Machine.execHostCompletion p id st d ep s
  | .invalidateRequest p itag pasid va len => Sys2Proof.Machine.execInvalidateRequest p itag pasid va len s
  | .invalidateCompletion p itag => Sys2Proof.Machine.execInvalidateCompletion p itag s
  | .hostLinkDown p => Sys2Proof.Machine.execHostLinkDown p s
  | .hostLinkUp p rate width flit ats msix cfg => Sys2Proof.Machine.execHostLinkUp p rate width flit ats msix cfg s
  | .perstN asserted => Sys2Proof.Machine.execPerstN asserted s
  | .msixUnmask p v => Sys2Proof.Machine.execMsixUnmask p v s
  | .mailboxPost inst m2t slot w => Sys2Proof.Machine.execMailboxPost inst m2t slot w s
  | .mailboxAck inst v => Sys2Proof.Machine.execMailboxAck inst v s
  | .mailboxConsume inst v => Sys2Proof.Machine.execMailboxConsume inst v s
  | .mbxVer inst hi lo => Sys2Proof.Machine.execMbxVer inst hi lo s
  | .mbxOwn inst => Sys2Proof.Machine.execMbxOwn inst s
  | .mbxRelease inst => Sys2Proof.Machine.execMbxRelease inst s
  | .mbxAbortTag inst => Sys2Proof.Machine.execMbxAbortTag inst s
  | .mbxAbortAll inst => Sys2Proof.Machine.execMbxAbortAll inst s
  | .lockInterface inst stream => Sys2Proof.Machine.execLockInterface inst stream s
  | .startInterface inst => Sys2Proof.Machine.execStartInterface inst s
  | .stopInterface inst => Sys2Proof.Machine.execStopInterface inst s
  | .tdiZeroingComplete inst => Sys2Proof.Machine.execTdiZeroingComplete inst s
  | .getDeviceInterfaceReport p inst => Sys2Proof.Machine.execGetDeviceInterfaceReport p inst s
  | .ideKm p stream establish => Sys2Proof.Machine.execIdeKm p stream establish s
  | .getVersion p => Sys2Proof.Machine.execGetVersion p s
  | .getCapabilities p => Sys2Proof.Machine.execGetCapabilities p s
  | .negotiateAlgorithms p asym hash dhe aead => Sys2Proof.Machine.execNegotiateAlgorithms p asym hash dhe aead s
  | .getDigests p => Sys2Proof.Machine.execGetDigests p s
  | .getCertificate p slot off len => Sys2Proof.Machine.execGetCertificate p slot off len s
  | .challenge p slot nonce => Sys2Proof.Machine.execChallenge p slot nonce s
  | .getMeasurements p index nonce signed => Sys2Proof.Machine.execGetMeasurements p index nonce signed s
  | .keyExchange p slot key => Sys2Proof.Machine.execKeyExchange p slot key s
  | .finish p mac => Sys2Proof.Machine.execFinish p mac s
  | .endSession p => Sys2Proof.Machine.execEndSession p s
  | .dlogCasComplete inst r n ok old => Sys2Proof.Machine.execDlogCasComplete inst r n ok old s
  | .optFlitReceive o sent err fecOk fixed => Sys2Proof.Machine.execOptFlitReceive o sent err fecOk fixed s
  | .optNak o seq => Sys2Proof.Machine.execOptNak o seq s
  | .heartbeat o id port => Sys2Proof.Machine.execHeartbeat o id port s
  | .heartbeatSend o => Sys2Proof.Machine.execHeartbeatSend o s
  | .heartbeatTimeout o => Sys2Proof.Machine.execHeartbeatTimeout o s
  | .optLossOfSignal o lane => Sys2Proof.Machine.execOptLossOfSignal o lane s
  | .loss o n => Sys2Proof.Machine.execLoss o n s
  | .optPortTraining o lanes peer id port => Sys2Proof.Machine.execOptPortTraining o lanes peer id port s
  | .rd o h => Sys2Proof.Machine.execRd o h s
  | .wr o h mask d => Sys2Proof.Machine.execWr o h mask d s
  | .wrs o h mask d => Sys2Proof.Machine.execWrs o h mask d s
  | .remoteAmo o h cmp => Sys2Proof.Machine.execRemoteAmo o h cmp s
  | .remoteRadd o h d => Sys2Proof.Machine.execRemoteRadd o h d s
  | .rdData o h d => Sys2Proof.Machine.execRdData o h d s
  | .remoteDone o h status => Sys2Proof.Machine.execRemoteDone o h status s
  | .eventRaise die n => Sys2Proof.Machine.execEventRaise die n s
  | .levelChange die n v => Sys2Proof.Machine.execLevelChange die n v s
  | .eventDeliver die c => Sys2Proof.Machine.execEventDeliver die c s
  | .fastEventDeliver die c => Sys2Proof.Machine.execFastEventDeliver die c s
  | .evcDone die c n => Sys2Proof.Machine.execEvcDone die c n s
  | .evcFastDone die c n => Sys2Proof.Machine.execEvcFastDone die c n s
  | .evcHostAck die n => Sys2Proof.Machine.execEvcHostAck die n s
  | .evcSwSet die n => Sys2Proof.Machine.execEvcSwSet die n s
  | .evcSrc die n v fw => Sys2Proof.Machine.execEvcSrc die n v fw s
  | .watchTimer => Sys2Proof.Machine.execWatchTimer s
  | .pwrReqRun => Sys2Proof.Machine.execPwrReqRun s
  | .pwrReqGated => Sys2Proof.Machine.execPwrReqGated s
  | .pwrReqStandby => Sys2Proof.Machine.execPwrReqStandby s
  | .powerEntryContinue => Sys2Proof.Machine.execPowerEntryContinue s
  | .powerReturnComplete data check => Sys2Proof.Machine.execPowerReturnComplete data check s
  | .powerLoopTick watts beWatts rows => Sys2Proof.Machine.execPowerLoopTick watts beWatts rows s
  | .currentSample volts amps => Sys2Proof.Machine.execCurrentSample volts amps s
  | .ageingReading c mhz => Sys2Proof.Machine.execAgeingReading c mhz s
  | .fmaxFlashWrite => Sys2Proof.Machine.execFmaxFlashWrite s
  | .droopOnset die half row => Sys2Proof.Machine.execDroopOnset die half row s
  | .droopRecover die half row => Sys2Proof.Machine.execDroopRecover die half row s
  | .junctionRead die half t sensor => Sys2Proof.Machine.execJunctionRead die half t sensor s
  | .tripHoldEnd => Sys2Proof.Machine.execTripHoldEnd s
  | .coolantFaultAssert ns => Sys2Proof.Machine.execCoolantFaultAssert ns s
  | .coolantFaultDeassert => Sys2Proof.Machine.execCoolantFaultDeassert s
  | .inputRise => Sys2Proof.Machine.execInputRise s
  | .railPowerGood die step => Sys2Proof.Machine.execRailPowerGood die step s
  | .inputLoss us => Sys2Proof.Machine.execInputLoss us s
  | .inputOvervoltage us => Sys2Proof.Machine.execInputOvervoltage us s
  | .bootModuleReset key => Sys2Proof.Machine.execBootModuleReset key s
  | .shedyModuleReset key => Sys2Proof.Machine.execShedyModuleReset key s
  | .pldmFirmwareUpdate k d => Sys2Proof.Machine.execPldmFirmwareUpdate k d s
  | .strapReport die role id par => Sys2Proof.Machine.execStrapReport die role id par s
  | .bootStageAdvance ms => Sys2Proof.Machine.execBootStageAdvance ms s
  | .dieRelease die => Sys2Proof.Machine.execDieRelease die s
  | .stackTrainingComplete stack data check => Sys2Proof.Machine.execStackTrainingComplete stack data check s
  | .partitionReady p => Sys2Proof.Machine.execPartitionReady p s
  | .bootDieReset die => Sys2Proof.Machine.execBootDieReset die s
  | .dieResetComplete data check => Sys2Proof.Machine.execDieResetComplete data check s
  | .imgCheck d => Sys2Proof.Machine.execImgCheck d s
  | .imgStore d => Sys2Proof.Machine.execImgStore d s
  | .imgApply d => Sys2Proof.Machine.execImgApply d s
  | .imgReload p d => Sys2Proof.Machine.execImgReload p d s
  | .fwStore d => Sys2Proof.Machine.execFwStore d s
  | .keyEnroll d => Sys2Proof.Machine.execKeyEnroll d s
  | .keyRevoke d => Sys2Proof.Machine.execKeyRevoke d s
  | .arbAdvance d => Sys2Proof.Machine.execArbAdvance d s
  | .debugKill d => Sys2Proof.Machine.execDebugKill d s
  | .secAttest inst => Sys2Proof.Machine.execSecAttest inst s
  | .debugUnlock response => Sys2Proof.Machine.execDebugUnlock response s
  | .dirProbe die l => Sys2Proof.Machine.execDirProbe die l s
  | .errRingConsume die v => Sys2Proof.Machine.execErrRingConsume die v s
  | .errInject die core kind unit => Sys2Proof.Machine.execErrInject die core kind unit s
  | .registerWrite off wide v fw => Sys2Proof.Machine.execRegisterWrite off wide v fw s
  | .optAckTimer o => Sys2Proof.Machine.execOptAckTimer o s
  | .memoryWriteComplete l => Sys2Proof.Machine.execMemoryWriteComplete l s
  | .coreRestored c => Sys2Proof.Machine.execCoreRestored c s
  | .dirtyBitmapUpdate inst => Sys2Proof.Machine.execDirtyBitmapUpdate inst s

end Sys2Proof.Machine
end

