-- ==== Sys2Proof/Safety.lean ====
section
/-!
DEFINITION. What counts as a sound state and a safe run, in the terms that statements use: the canonical form of the state's storage,
the records that no command takes back, and a run in which every step answers a next state.
-/
namespace Sys2Proof.Machine

/-- The canonical form of storage: memory and registers list their keys in rising order and nothing that reads as unlisted, and poisoned
granules are listed in rising order. Equal contents are then equal data. -/
structure State.Canonical (s : State) : Prop where
  mem : Memory.wf s.mem = true
  regs : mapWf Reg.resetVal s.regs = true
  poison : setSorted s.poison = true

/-- Flash `g` holds every permanent record of flash `f`: revoked keys stay revoked, the anti-rollback count does not fall, a debug kill
stays (R525), a mapped-out channel stays mapped out (R331), the trip count does not fall (R454). -/
structure Flash.Keeps (f g : Flash) : Prop where
  revoked : ∀ i, f.revoked.getLsbD i = true → g.revoked.getLsbD i = true
  arb : f.arb ≤ g.arb
  debugKill : f.debugKill = true → g.debugKill = true
  mapout : ∀ c, setHas f.mapout c = true → setHas g.mapout c = true
  trips : f.tripCount.toNat ≤ g.tripCount.toNat

/-- What `t` may differ in from `s` when one command has led from one to the other: the commands that wait are as they were, what has left
the module stays sent, free values are drawn in order, permanent records stay, and storage keeps its canonical form. -/
structure State.Follows (s t : State) : Prop where
  pending : t.pending = s.pending
  outbox : s.outbox <+: t.outbox
  free : s.free ≤ t.free
  flash : s.flash.Keeps t.flash
  canonical : s.Canonical → t.Canonical

/-- The core that a sequencer instruction runs on and its guard; none for a command that is no instruction of a core. -/
def siteOf (i : Instr) : Option (CoreId × BitVec 3) :=
  match i with
  | .alu c pg _ _ _ _ => some (c, pg)
  | .alui c pg _ _ _ _ => some (c, pg)
  | .movi c pg _ _ _ => some (c, pg)
  | .cmp c pg _ _ _ _ _ => some (c, pg)
  | .cmpi c pg _ _ _ _ _ => some (c, pg)
  | .pred c pg _ _ _ _ => some (c, pg)
  | .mask c pg _ _ _ _ _ => some (c, pg)
  | .sys c pg _ _ => some (c, pg)
  | .b c pg _ => some (c, pg)
  | .bl c pg _ _ => some (c, pg)
  | .br c pg _ _ => some (c, pg)
  | .endLeg c pg => some (c, pg)
  | .ld c pg _ _ _ _ _ => some (c, pg)
  | .st c pg _ _ _ _ => some (c, pg)
  | .amo c pg _ _ _ _ _ _ => some (c, pg)
  | .radd c pg _ _ _ _ _ => some (c, pg)
  | .cacheInv c pg _ _ _ _ => some (c, pg)
  | .cacheClean c pg _ _ _ _ => some (c, pg)
  | .cachePin c pg _ _ _ _ => some (c, pg)
  | .cacheUnpin c pg _ _ _ _ => some (c, pg)
  | .cacheIinv c pg _ _ _ _ => some (c, pg)
  | .acq c pg _ _ _ _ _ _ => some (c, pg)
  | .rel c pg _ _ _ _ _ _ => some (c, pg)
  | .fence c pg _ => some (c, pg)
  | .waitTokens c pg _ _ _ => some (c, pg)
  | .waitWake c pg _ _ _ => some (c, pg)
  | .waitBarrier c pg _ _ _ => some (c, pg)
  | .bar c pg _ _ _ _ => some (c, pg)
  | .toll c pg _ _ => some (c, pg)
  | .heavy c pg _ _ => some (c, pg)
  | .nop c pg => some (c, pg)
  | .mld c f => some (c, f.pg)
  | .mma c f => some (c, f.pg)
  | .mswap c f => some (c, f.pg)
  | .mdrain c f => some (c, f.pg)
  | .vop c _ f => some (c, f.pg)
  | .vcvt c f => some (c, f.pg)
  | .vacc c f => some (c, f.pg)
  | .vargmax c f => some (c, f.pg)
  | .vtopk c f => some (c, f.pg)
  | .vld c f => some (c, f.pg)
  | .vst c f => some (c, f.pg)
  | .vcomp c f => some (c, f.pg)
  | .vexp c f => some (c, f.pg)
  | .vred c f => some (c, f.pg)
  | .move c f => some (c, f.pg)
  | .mwait c pg _ _ _ => some (c, pg)
  | .mabort c pg _ _ => some (c, pg)
  | _ => none

/-! ### What an instruction of a core changes -/

/-- Core `c` executes or issues instruction `i` now (R82, R86, R90): issue stands at it, its encoding is not reserved, its guard `pg` is true and
neither the guard nor a register of `reads` waits for an earlier writer. -/
structure State.Issues (s : State) (c : CoreId) (i : Instr) (pg : BitVec 3) (reads : List PendReg) : Prop where
  issuing : (s.core c.toNat).issuing i = true
  legal : reservedOp i = false
  guard : (s.core c.toNat).pr pg.toNat = true
  ready : (s.core c.toNat).pPend pg.toNat = false
  reads : (s.core c.toNat).anyPend reads = false

/-- `t` differs from `s` in core `c` alone: every register of the register space, every byte of memory and of a scratchpad, every other core
and every other structure is as it was. The next free value may have been drawn (log 3). -/
structure State.OnlyCore (s t : State) (c : Nat) : Prop where
  rest : t = { s with cores := t.cores, free := t.free }
  others : ∀ d, d ≠ c → t.core d = s.core d

/-- The core differs in its sequencer's registers, pc and phase alone: engines, queues, caches, accumulators, tokens, tags, wake flags and
barriers are as they were. -/
def Core.SeqOnly (k k' : Core) : Prop := k' = { k with phase := k'.phase, pc := k'.pc, s := k'.s, p := k'.p, m := k'.m, pend := k'.pend }

/-- A register file after a write of `v` to register `n`, where register `z` (if any) discards writes. -/
def written {α : Type} (f : Nat → α) (n : Nat) (z : Option Nat) (v : α) : Nat → α := fun j => if j = n ∧ some j ≠ z then v else f j

/-- The comparison that a legal cc names (R92). -/
def ccTest (cc : BitVec 4) (a b : W64) : Bool :=
  if cc = 0 then decide (a = b) else if cc = 1 then decide (a ≠ b) else if cc = 2 then decide (a.toInt < b.toInt)
  else if cc = 3 then decide (b.toInt ≤ a.toInt) else if cc = 4 then decide (a.toNat < b.toNat) else decide (b.toNat ≤ a.toNat)

/-- A sequencer instruction of core `c` has run: issue stands at `pc`, the registers read as `fs`, `fp` and `fm`, all else is as it was. -/
structure State.Ran (s t : State) (c : CoreId) (pc : BitVec 52) (fs : Nat → W64) (fp : Nat → Bool) (fm : Nat → W64) : Prop where
  only : s.OnlyCore t c.toNat
  seq : (s.core c.toNat).SeqOnly (t.core c.toNat)
  phase : (t.core c.toNat).phase = .run
  pc : (t.core c.toNat).pc = pc
  sr : ∀ n, n < 32 → (t.core c.toNat).sr n = fs n
  pr : ∀ n, n < 8 → (t.core c.toNat).pr n = fp n
  mr : ∀ n, n < 8 → (t.core c.toNat).mr n = fm n

/-- What an engine instruction is at issue (R83, R84, R108-R110): its engine, its token fields, the registers it reads, the scalars and masks it
captures, and the registers that wait for its result. -/
structure EngIssue where
  eng : Engine
  twait : Nat
  tset : Nat
  reads : List PendReg
  a : W64
  b : W64
  x : W64
  d : W64
  m : W64
  m2 : W64
  dest : List PendReg

/-- A VOP word on core `k` whose op code is `op` (R142-R144). -/
def vopIssue (k : Core) (op : Nat) (f : VopF) : EngIssue :=
  { eng := .ve, twait := f.twait.toNat, tset := f.tset.toNat
    reads := (if f.bs then [PendReg.s (f.vb.toNat % 32)] else []) ++ vopMasks op f
    a := k.sr (f.vb.toNat % 32), b := 0, x := 0, d := 0, m := k.mr f.msk.toNat, m2 := k.mr (f.msk.toNat ^^^ 1), dest := vopDest op f }

/-- A VLD or VST word (R145, R147). -/
def vmemIssue (k : Core) (f : VmemF) : EngIssue :=
  { eng := .ve, twait := f.twait.toNat, tset := f.tset.toNat
    reads := [.s f.sa.toNat, .s f.sb.toNat] ++ (if f.me then [PendReg.m f.msk.toNat] else [])
    a := k.sr f.sa.toNat + f.imm.signExtend 64, b := k.sr f.sb.toNat, x := 0, d := 0, m := k.mr f.msk.toNat, m2 := 0, dest := [] }

/-- The engine instructions on core `k`; none for any other command. -/
def engineForm (k : Core) (i : Instr) : Option EngIssue :=
  match i with
  | .mld _ f => some ⟨.me, f.twait.toNat, f.tset.toNat, [.s f.sa.toNat, .s f.sb.toNat], k.sr f.sa.toNat, k.sr f.sb.toNat, 0, 0, 0, 0, []⟩
  | .mma _ f => some ⟨.me, f.twait.toNat, f.tset.toNat, [], 0, 0, 0, 0, 0, 0, []⟩
  | .mswap _ f => some ⟨.me, f.twait.toNat, f.tset.toNat, [], 0, 0, 0, 0, 0, 0, []⟩
  | .mdrain _ f => some ⟨.me, f.twait.toNat, f.tset.toNat, [.s f.sa.toNat, .s f.sb.toNat, .s f.sc.toNat, .s f.se.toNat],
      k.sr f.sa.toNat, k.sr f.sb.toNat, k.sr f.sc.toNat, k.sr f.se.toNat, 0, 0, []⟩
  | .vop _ op f => some (vopIssue k op.toNat f)
  | .vcvt _ f => some (vopIssue k 0x20 f)
  | .vacc _ f => some (vopIssue k 0x3C f)
  | .vargmax _ f => some (vopIssue k 0x38 f)
  | .vtopk _ f => some (vopIssue k 0x39 f)
  | .vld _ f => some (vmemIssue k f)
  | .vst _ f => some (vmemIssue k f)
  | .vcomp _ f => some ⟨.ve, f.twait.toNat, f.tset.toNat, PendReg.m f.msk.toNat :: (if f.cont then [.s f.sd.toNat] else []),
      k.sr f.sd.toNat, 0, 0, 0, k.mr f.msk.toNat, 0, [.s f.sd.toNat]⟩
  | .vexp _ f => some ⟨.ve, f.twait.toNat, f.tset.toNat, [.m f.msk.toNat], 0, 0, 0, 0, k.mr f.msk.toNat, 0, []⟩
  | .vred _ f => some ⟨.ve, f.twait.toNat, f.tset.toNat, vredMasks f, 0, 0, 0, 0, k.mr f.msk.toNat, k.mr (f.msk.toNat ^^^ 1), [.s f.sd.toNat]⟩
  | .move _ f => some ⟨.mv, f.twait.toNat, 0, [.s f.sa.toNat], k.sr f.sa.toNat + f.imm.signExtend 64, 0, 0, 0, 0, 0, []⟩
  | _ => none

/-! ### Accesses -/

/-- The `n` bytes of an access at `a` lie in core `c`'s own scratchpad from offset `o` on, which serves it; no stored word there holds an error
and no granule is poisoned. -/
structure State.OwnBytes (s : State) (c : CoreId) (a : W64) (o n : Nat) : Prop where
  served : s.scratchServed c.toNat = true
  inside : o + n ≤ 0x100000
  place : ∀ j, j < n → s.place c.toNat ((a.toNat + j) % 2 ^ 64) = .own (o + j)
  clean : ∀ j, j < n → s.badWord ((scrBase c.toNat + o + j) / 16 * 16) = none
  sound : ∀ j, j < n → s.poisoned (scrBase c.toNat + o + j) = false

/-- The `n` bytes of an access at `a` lie in one line of stacked memory from address `m` on, which core `c` may access; the line is in its L1 as
`x`, clean of poison and in no line buffer, no miss of it is outstanding and no earlier access of it is unordered. -/
structure State.HitBytes (s : State) (c : CoreId) (a : W64) (m n : Nat) (write : Bool) (x : L1Line) : Prop where
  place : ∀ j, j < n → s.place c.toNat ((a.toNat + j) % 2 ^ 64) = .mem (m + j)
  reach : ∀ j, j < n → s.coreReach c.toNat (m + j) write = true
  inside : m % 128 + n ≤ 128
  held : (s.core c.toNat).l1Line (lineOf m) = some x
  sound : x.ld.poison = false
  ordered : s.unordered c.toNat m n = false
  buffers : (s.core c.toNat).buffered (m / 128) = false
  misses : (s.core c.toNat).missOf (lineOf m) = none
  range : m < 2 ^ 52
  records : ∀ r, r ∈ (s.core c.toNat).loads → r.id < (s.core c.toNat).nextId
  writers : ∀ r, r ∈ (s.core c.toNat).pend → r.id < (s.core c.toNat).nextId

/-- A register takes a loaded number of `n` bytes, sign-extended where `sx` (R98). -/
def extended (n : Nat) (sx : Bool) (v : Nat) : W64 := if sx then (BitVec.ofNat (8 * n) v).signExtend 64 else BitVec.ofNat 64 (v % 2 ^ (8 * n))

/-- `t` follows `s` after one address error of core `c`, first at global address `a` (R111, R112): counted once, the first address since leg start
kept, sd zero where `sd` names it, issue behind the instruction; every other register of the register space, memory and all else is as it was. -/
structure State.AddressError (s t : State) (c : CoreId) (a : Nat) (sd : Option (BitVec 5)) : Prop where
  rest : t = { s with regs := t.regs, cores := t.cores }
  others : ∀ d, d ≠ c.toNat → t.core d = s.core d
  seq : (s.core c.toNat).SeqOnly (t.core c.toNat)
  pc : (t.core c.toNat).pc = (s.core c.toNat).pc + 8
  phase : (t.core c.toNat).phase = .run
  sr : ∀ n, n < 32 → (t.core c.toNat).sr n = if some n = sd.map (·.toNat) then 0 else (s.core c.toNat).sr n
  count : t.get (Reg.CORE_ADDR_ERR c.toNat) Fld.CORE_ADDR_ERR_count =
    min (2 ^ 32 - 1) (s.get (Reg.CORE_ADDR_ERR c.toNat) Fld.CORE_ADDR_ERR_count + 1)
  seen : t.flag (Reg.CORE_ADDR_ERR c.toNat) Fld.CORE_ADDR_ERR_seen = true
  first : t.flag (Reg.CORE_ADDR_ERR c.toNat) Fld.CORE_ADDR_ERR_first_valid = true
  address : t.reg (Reg.CORE_ADDR_ERR_FIRST c.toNat) =
    if s.flag (Reg.CORE_ADDR_ERR c.toNat) Fld.CORE_ADDR_ERR_first_valid then s.reg (Reg.CORE_ADDR_ERR_FIRST c.toNat)
    else BitVec.ofNat 64 (errAddr s a)
  regs : ∀ r, r ≠ Reg.CORE_ADDR_ERR c.toNat → r ≠ Reg.CORE_ADDR_ERR_FIRST c.toNat → t.reg r = s.reg r

/-! ### Coherence -/

/-- The line orders of the homes hold exactly `q`, no data for a mover or a port is in flight, and no replica slice waits for room. -/
structure State.Homes (s : State) (q : List (Nat × LineQ)) : Prop where
  orders : s.llc.lineq = q
  ports : ∀ m, m ∈ s.net → ∀ ld, m.body ≠ .dataP ld
  fills : ∀ f, f ∈ s.llc.fills → f.got = none

/-- Nothing at the homes can go on by itself: each transaction in progress waits for an answer, no data for a mover or a port is in flight, and no
replica slice waits for room. -/
structure State.Quiet (s : State) : Prop where
  waits : ∀ l t, (s.lineq l).act = some t → t.ready = false ∧ (t.fwdNext = none ∨ t.roundOver = false)
  ports : ∀ m, m ∈ s.net → ∀ ld, m.body ≠ .dataP ld
  fills : ∀ f, f ∈ s.llc.fills → f.got = none

/-- What the entry of a core's SWR or RADD into the line order changes at the core: the access is no longer unordered (R253). -/
def State.entering (s : State) (i : Instr) : State :=
  match i with
  | .swr c l _ _ _ _ => s.modCore c.toNat (fun k => { k with swrOut := k.swrOut.erase l.toNat })
  | .raddMsg src l _ _ _ _ _ _ => s.modCore src.toNat (fun k => { k with raddOut := k.raddOut.erase l.toNat })
  | _ => s

/-- The home of line `l` holds nothing of it: no data way, no directory entry, no buffer. -/
structure State.HomeEmpty (s : State) (l : LineNo) : Prop where
  way : s.homeWay l = none
  shadow : s.findShadow l = none
  buffer : s.bufOf l = none
  issued : s.bufIssued l = false

/-- Way `k` holds line `l` at its home as `x` with entry `d`; the slice is not in bypass and the stored line shows no error. -/
structure State.HomeHolds (s : State) (l : LineNo) (k : Nat) (x : Way) (d : Dir) : Prop where
  way : s.homeWay l = some k
  at' : s.wayAt k = some x
  entry : x.dir = d
  sound : x.bad = none
  works : s.bypassed (s.home l) = false
  armed : s.armed (sliceDie (k / 131072)) 2 0 = none

/-- Core `c`'s L1 holds line `l` in way `i` as `x`, outside any hold, with no forward kept for it. -/
structure State.L1Holds (s : State) (c : CoreId) (l : LineNo) (i : Nat) (x : L1Line) : Prop where
  way : (s.core c.toNat).l1Way l = some i
  at' : (s.core c.toNat).l1At i = some x
  free : (s.core c.toNat).isHeld l = false
  kept : (s.core c.toNat).kept = []

/-! ### The scheduler -/

/-- The read that the waybill reader of instance `i` is at comes back: from this module's memory, or as the answer to its request outstanding at a
port. `good` says that it succeeded, `ok` of the answer alone. -/
def State.wayReturns (s : State) (i : Nat) (ok good : Bool) : Prop :=
  (s.wayPort i = none ∧ good = ok) ∨
    ∃ x id r, s.wayPort i = some x ∧ (s.instRd i).req = some id ∧ (s.port x.1).reqs.find? (fun r => r.id == id) = some r ∧ good = (ok && !r.dead)

/-- `t` differs from `s` in what the scheduler holds of instance `i`, in registers, and in what leaves or waits at the host ports. -/
structure State.WayFrame (s t : State) (i : InstId) : Prop where
  rest : t = { s with
    sched := { s.sched with insts := t.sched.insts }, regs := t.regs, host := t.host, outbox := t.outbox, free := t.free }
  others : ∀ n, n ≠ i.val → t.instRd n = s.instRd n

/-- Core `c` holds nothing that its save must wait for or report: no tag, no line in its L1, no line buffer, no accesses of engines; its queues
and arrays have their sizes, and no word of the scratchpads holds an error. -/
structure State.StillCore (s : State) (c : CoreId) : Prop where
  tags : (s.core c.toNat).tags = []
  lines : (s.core c.toNat).l1 = []
  buffers : (s.core c.toNat).wsd.bufs = []
  queues : (s.core c.toNat).meq.length ≤ 8 ∧ (s.core c.toNat).veq.length ≤ 8 ∧ (s.core c.toNat).mvq.length ≤ 8
  cache : ∀ e, e ∈ (s.core c.toNat).oc → e.1 < 128
  banks : ∀ e, e ∈ (s.core c.toNat).acc0 ++ (s.core c.toNat).acc1 → e.1 < 64
  words : s.stk.bad = []

/-- `t` is the module right after the module reset of `s` (R487, Table 19-7): everything is in its state at reset but the flash, the nonce count, the
always-on domain (rails, input, trip, COOLANT_FAULT_N, PERST) and the model's own queue, outputs and free values; every register reads its
reset value but those that show fuses, flash and the new nonce. -/
structure State.WasReset (s t : State) (rails : List Nat) (ok trip : Bool) : Prop where
  rest : t = { State.reset with
    regs := t.regs, pending := s.pending, outbox := s.outbox, free := s.free, flash := s.flash,
    host := { State.reset.host with perst := s.host.perst },
    stk := { Mem.reset with mapped := s.flash.mapout },
    sec := { Sec.reset with nonces := s.sec.nonces + 1 },
    pwr := { Power.reset with coolant := s.pwr.coolant, trip := trip },
    boot := { Boot.reset with rails := rails, inputOk := ok } }
  registers : ∀ r, r ∉ [Reg.SEC_FW, Reg.SEC_FUSE, Reg.SEC_NONCE, Reg.BOOT_IMG_SERIAL, Reg.BOOT_IMG_COPY 0, Reg.BOOT_IMG_COPY 1, Reg.PWR_TRIP] →
    (∀ c, r ≠ Reg.CORE_FMAX c) → t.reg r = Reg.resetVal r
  nonce : t.reg Reg.SEC_NONCE = BitVec.ofNat 64 (Config.secNonce (s.sec.nonces + 1))
  floor : t.get Reg.BOOT_IMG_SERIAL Fld.BOOT_IMG_SERIAL_floor = s.flash.floor.toNat
  trips : t.get Reg.PWR_TRIP Fld.PWR_TRIP_count = s.flash.tripCount.toNat

/-- `t` follows `s` at the end of a security command with `result` (R523, R524): done is set and busy clear, SEC_NONCE has its next value, its turn is over, nothing
of the state but the flash and what shows it differs. -/
structure State.CommandEnded (s t : State) (result : Nat) : Prop where
  rest : t = { s with regs := t.regs, flash := t.flash, sec := { s.sec with nonces := s.sec.nonces + 1, op := none, turns := s.sec.turns.erase 1 } }
  busy : t.flag Reg.SEC_CMD_STATUS Fld.SEC_CMD_STATUS_busy = false
  done : t.flag Reg.SEC_CMD_STATUS Fld.SEC_CMD_STATUS_done = true
  result : t.get Reg.SEC_CMD_STATUS Fld.SEC_CMD_STATUS_result = result
  nonce : t.reg Reg.SEC_NONCE = BitVec.ofNat 64 (Config.secNonce (s.sec.nonces + 1))
  registers : ∀ r, r ∉ [Reg.SEC_CMD_STATUS, Reg.SEC_NONCE, Reg.SEC_FW, Reg.SEC_FUSE] → t.reg r = s.reg r

/-- BOOT_IMG_STATUS of `t` shows the end of an image operation with result `r` (Table 20-12). -/
structure State.ShowsImage (t : State) (r : ImgResult) : Prop where
  busy : t.flag Reg.BOOT_IMG_STATUS Fld.BOOT_IMG_STATUS_busy = false
  done : t.flag Reg.BOOT_IMG_STATUS Fld.BOOT_IMG_STATUS_done = true
  result : t.get Reg.BOOT_IMG_STATUS Fld.BOOT_IMG_STATUS_result = r.result % 16
  check : t.get Reg.BOOT_IMG_STATUS Fld.BOOT_IMG_STATUS_check = r.check % 256
  part : t.get Reg.BOOT_IMG_STATUS Fld.BOOT_IMG_STATUS_partition = r.part % 32
  sect : t.get Reg.BOOT_IMG_STATUS Fld.BOOT_IMG_STATUS_section = r.sect % 256

/-- `n` steps from `s` all answer next states and end in `t`. -/
inductive Runs : Nat → State → State → Prop where
  | stop (s : State) : Runs 0 s s
  | step {n : Nat} {s t u : State} (h : Machine.step s = .next t) (r : Runs n t u) : Runs (n + 1) s u

end Sys2Proof.Machine
end

