-- ==== Sys2Proof/WellFormed.lean ====
section
/-!
DEFINITION. Well-formed commands: the operands name units that exist, sizes that a request can have, and no reserved field encoding (R90).
-/
namespace Sys2Proof

/-- Slots 10 to 15 name no core (Table 1-10). -/
def coreOk (c : CoreId) : Bool := decide (c.toNat % 16 < 10)

/-- Endpoint identifiers in use (R351). -/
def epOk (e : Ep) : Bool :=
  let n := e.toNat
  if n < 0x1000 then decide (n % 16 < 10)
  else decide (n < 0x1208) || (decide (0x1210 ≤ n) && decide (n < 0x121A)) || (decide (0x1220 ≤ n) && decide (n < 0x1232))

/-- Requester numbers in use (R229). -/
def numOk (r : ReqNum) : Bool :=
  let n := r.toNat
  if n < 0x1000 then decide (n % 16 < 10)
  else decide (n < 0x100A) || (decide (0x1010 ≤ n) && decide (n < 0x1022))

def HwErr.ok (e : HwErr) : Bool :=
  match e with
  | .core c => coreOk c
  | .acc c _ _ => coreOk c
  | .refetch c => coreOk c
  | .ocWord c _ _ _ => coreOk c
  | .l1Word c _ _ => coreOk c
  | .scratchWord c _ _ => coreOk c
  | .llcWord _ _ _ => true
  | .bufWord _ _ _ => true
  | .wireWord src dst _ _ => epOk src && epOk dst
  | .dirCopy _ => true
  | .dirBoth _ => true
  | .tagBoth _ => true
  | .seam _ => true
  | .control _ => true

/-- The BARs of a port (R378). -/
def barOk (b : BitVec 3) : Bool := b == 0 || b == 2 || b == 4

/-- A request never crosses a 4 KiB boundary (R377). -/
def inPage (off : BitVec 42) (n : Nat) : Bool := decide (off.toNat % 4096 + n ≤ 4096)

/-- The data of a remote message: as many lines as its header says, one where a byte mask comes with it (Tables 15-2 and 15-3). -/
def dataOk (h : RemHdr) (mask : Option (BitVec 128)) (d : List Line) : Bool :=
  d.length == h.lines.toNat + 1 && (mask.isNone || d.length == 1)

/-- The operands of a command name what can occur. -/
def operandsOk (i : Instr) : Bool :=
  match i with
  | .instructionFetch c _ _ _ _ => coreOk c
  | .alu c _ _ _ _ _ => coreOk c
  | .alui c _ _ _ _ _ => coreOk c
  | .movi c _ _ _ _ => coreOk c
  | .cmp c _ _ _ _ _ _ => coreOk c
  | .cmpi c _ _ _ _ _ _ => coreOk c
  | .pred c _ _ _ _ _ => coreOk c
  | .mask c _ _ _ _ _ _ => coreOk c
  | .sys c _ _ _ => coreOk c
  | .b c _ _ => coreOk c
  | .bl c _ _ _ => coreOk c
  | .br c _ _ _ => coreOk c
  | .endLeg c _ => coreOk c
  | .legPartEnd c => coreOk c
  | .ld c _ _ _ _ _ _ => coreOk c
  | .st c _ _ _ _ _ => coreOk c
  | .amo c _ _ _ _ _ _ _ => coreOk c
  | .radd c _ _ _ _ _ _ => coreOk c
  | .cacheInv c _ _ _ _ _ => coreOk c
  | .cacheClean c _ _ _ _ _ => coreOk c
  | .cachePin c _ _ _ _ _ => coreOk c
  | .cacheUnpin c _ _ _ _ _ => coreOk c
  | .cacheIinv c _ _ _ _ _ => coreOk c
  | .acq c _ _ _ _ _ _ _ => coreOk c
  | .rel c _ _ _ _ _ _ _ => coreOk c
  | .fence c _ _ => coreOk c
  | .waitTokens c _ _ _ _ => coreOk c
  | .waitWake c _ _ _ _ => coreOk c
  | .waitBarrier c _ _ _ _ => coreOk c
  | .waitTimeout c => coreOk c
  | .bar c _ _ _ _ _ => coreOk c
  | .toll c _ _ _ => coreOk c
  | .heavy c _ _ _ => coreOk c
  | .nop c _ => coreOk c
  | .mld c _ => coreOk c
  | .mma c _ => coreOk c
  | .mswap c _ => coreOk c
  | .mdrain c _ => coreOk c
  | .vop c op _ => coreOk c && !vopNamed op
  | .vcvt c _ => coreOk c
  | .vacc c _ => coreOk c
  | .vargmax c _ => coreOk c
  | .vtopk c _ => coreOk c
  | .vld c _ => coreOk c
  | .vst c _ => coreOk c
  | .vcomp c _ => coreOk c
  | .vexp c _ => coreOk c
  | .vred c _ => coreOk c
  | .engineInstructionStart c _ => coreOk c
  | .engineInstructionComplete c _ => coreOk c
  | .move c _ => coreOk c
  | .moveStart c => coreOk c
  | .descriptorStart c _ => coreOk c
  | .pieceIssue c _ found _ => coreOk c && found.all HwErr.ok
  | .piecePerformed c _ => coreOk c
  | .moverFinalStatus c _ => coreOk c
  | .mwait c _ _ _ _ => coreOk c
  | .mabort c _ _ _ => coreOk c
  | .moverAbortReceive c _ => coreOk c
  | .gets src _ _ num _ _ _ => epOk src && numOk num
  | .getx src _ num _ _ => epOk src && numOk num
  | .upg src _ num _ _ => epOk src && numOk num
  | .victC c _ _ => coreOk c
  | .victD c _ _ _ => coreOk c
  | .cleanD c _ _ _ => coreOk c
  | .swr c _ _ _ _ _ => coreOk c
  | .mrd src _ num _ _ => epOk src && numOk num
  | .mwr src _ num _ _ _ _ _ => epOk src && numOk num
  | .mwrs src _ num _ _ _ _ _ => epOk src && numOk num
  | .amoH src _ num _ _ op _ _ _ _ => epOk src && numOk num && decide (op.toNat < 10)
  | .raddMsg src _ num _ _ _ _ _ => epOk src && numOk num
  | .transactionBegin _ _ => true
  | .dataS c _ _ _ => coreOk c
  | .dataE c _ _ _ => coreOk c
  | .dataM c _ _ _ => coreOk c
  | .grant c _ => coreOk c
  | .fwdGets c _ num _ => coreOk c && numOk num
  | .fwdGetx c _ num => coreOk c && numOk num
  | .fwdRd c _ => coreOk c
  | .recall c _ _ => coreOk c
  | .inv src c _ => epOk src && coreOk c
  | .binv _ _ => true
  | .invAck c dst _ => coreOk c && epOk dst
  | .binvAck _ _ => true
  | .fwdDone c _ _ _ _ => coreOk c
  | .fwdMiss c _ => coreOk c
  | .recallData c _ _ _ _ => coreOk c
  | .wbAck c _ _ => coreOk c
  | .holdExpire c _ => coreOk c
  | .repData _ _ _ _ num _ _ => numOk num
  | .repFwd _ _ num _ _ _ => numOk num
  | .repInv _ _ => true
  | .repAck _ _ => true
  | .repDrop _ _ => true
  | .done dst _ _ _ => epOk dst
  | .victimBufferWrite _ _ => true
  | .memoryReadReturn _ _ _ found _ => found.all HwErr.ok
  | .patrolScrubRead _ _ _ _ => true
  | .stackTemperatureRead _ _ => true
  | .ceWindowEnd _ => true
  | .mapoutRecordWrite _ => true
  | .frameTick _ => true
  | .frameRefEdge _ => true
  | .frameRefLost _ => true
  | .waybillRead _ _ _ _ => true
  | .admitCaravans _ _ => true
  | .caravanStart _ _ => true
  | .caravanEnd _ _ => true
  | .receiptWrite _ _ => true
  | .frmAbort _ _ => true
  | .frmCountLoad _ => true
  | .instanceBind _ _ _ _ => true
  | .instanceUnbind _ => true
  | .ownRequest _ _ => true
  | .ownEnd _ => true
  | .partitionHold _ => true
  | .partitionRelease _ => true
  | .caravanSave _ => true
  | .remoteWaitExpire c => coreOk c
  | .coreSaved c => coreOk c
  | .caravanRestore _ _ => true
  | .crlFlitReceive _ _ _ _ _ => true
  | .crlNak _ _ _ _ => true
  | .crlAckTimer _ _ _ => true
  | .crlWindowEnd _ _ => true
  | .bundleQuiesceComplete _ _ _ => true
  | .crlLinkTraining _ _ _ _ => true
  | .inboundWrite _ _ bar off d _ => barOk bar && inPage off d.length
  | .inboundRead _ _ bar off len => barOk bar && inPage off len
  | .inboundAtomicop _ _ bar _ op wid _ _ _ => barOk bar && decide (op.toNat < 3) && decide (wid.toNat < 3)
  | .hostCompletion _ _ _ _ _ => true
  | .invalidateRequest _ _ _ _ _ => true
  | .invalidateCompletion _ _ => true
  | .hostLinkDown _ => true
  | .hostLinkUp _ _ _ _ _ _ _ => true
  | .perstN _ => true
  | .msixUnmask _ _ => true
  | .mailboxPost _ _ _ _ => true
  | .mailboxAck _ _ => true
  | .mailboxConsume _ _ => true
  | .mbxVer _ _ _ => true
  | .mbxOwn _ => true
  | .mbxRelease _ => true
  | .mbxAbortTag _ => true
  | .mbxAbortAll _ => true
  | .lockInterface _ _ => true
  | .startInterface _ => true
  | .stopInterface _ => true
  | .tdiZeroingComplete _ => true
  | .getDeviceInterfaceReport _ _ => true
  | .ideKm _ _ _ => true
  | .getVersion _ => true
  | .getCapabilities _ => true
  | .negotiateAlgorithms _ _ _ _ _ => true
  | .getDigests _ => true
  | .getCertificate _ _ _ _ => true
  | .challenge _ _ _ => true
  | .getMeasurements _ _ _ _ => true
  | .keyExchange _ _ _ => true
  | .finish _ _ => true
  | .endSession _ => true
  | .dlogCasComplete _ _ _ _ _ => true
  | .optFlitReceive _ _ _ _ _ => true
  | .optNak _ _ => true
  | .heartbeat _ _ _ => true
  | .heartbeatSend _ => true
  | .heartbeatTimeout _ => true
  | .optLossOfSignal _ _ => true
  | .loss _ _ => true
  | .optPortTraining _ _ _ _ _ => true
  | .rd _ _ => true
  | .wr _ h mask d => dataOk h mask d
  | .wrs _ h mask d => dataOk h mask d
  | .remoteAmo _ h _ => decide (h.arg.toNat % 16 < 10)
  | .remoteRadd _ _ _ => true
  | .rdData _ h d => dataOk h none d
  | .remoteDone _ _ status => decide (status.toNat < 3)
  | .eventRaise _ _ => true
  | .levelChange _ _ _ => true
  | .eventDeliver _ _ => true
  | .fastEventDeliver _ _ => true
  | .evcDone _ _ _ => true
  | .evcFastDone _ _ _ => true
  | .evcHostAck _ _ => true
  | .evcSwSet _ _ => true
  | .evcSrc _ _ _ _ => true
  | .watchTimer => true
  | .pwrReqRun => true
  | .pwrReqGated => true
  | .pwrReqStandby => true
  | .powerEntryContinue => true
  | .powerReturnComplete _ _ => true
  | .powerLoopTick _ _ _ => true
  | .currentSample _ _ => true
  | .ageingReading c _ => coreOk c
  | .fmaxFlashWrite => true
  | .droopOnset _ _ _ => true
  | .droopRecover _ _ _ => true
  | .junctionRead _ _ _ _ => true
  | .tripHoldEnd => true
  | .coolantFaultAssert _ => true
  | .coolantFaultDeassert => true
  | .inputRise => true
  | .railPowerGood die step => (match die with | some _ => true | none => decide (1 ≤ step.val && step.val ≤ 2))
  | .inputLoss _ => true
  | .inputOvervoltage _ => true
  | .bootModuleReset _ => true
  | .shedyModuleReset _ => true
  | .pldmFirmwareUpdate _ _ => true
  | .strapReport _ _ _ _ => true
  | .bootStageAdvance _ => true
  | .dieRelease _ => true
  | .stackTrainingComplete _ _ _ => true
  | .partitionReady _ => true
  | .bootDieReset _ => true
  | .dieResetComplete _ _ => true
  | .imgCheck _ => true
  | .imgStore _ => true
  | .imgApply _ => true
  | .imgReload _ _ => true
  | .fwStore _ => true
  | .keyEnroll _ => true
  | .keyRevoke _ => true
  | .arbAdvance _ => true
  | .debugKill _ => true
  | .secAttest _ => true
  | .debugUnlock _ => true
  | .dirProbe _ _ => true
  | .errRingConsume _ _ => true
  | .errInject _ core _ _ => coreOk core
  | .registerWrite _ _ _ _ => true
  | .optAckTimer _ => true
  | .memoryWriteComplete _ => true
  | .coreRestored c => coreOk c
  | .dirtyBitmapUpdate _ => true

/-- A well-formed command. -/
def Instr.wf (i : Instr) : Bool := operandsOk i && !reservedOp i

end Sys2Proof
end

