-- ==== Sys2Proof/Certificates/Slice0/Obligations.lean ====
section
/-!
DEFINITION. The statements for the provers: what the spec's rules say of the block, of every family of its commands and of every kind of its
state. A docstring names the rule that a statement formalises, or the log entry where it rests on a choice of the model.
-/
open Sys2Proof Sys2Proof.Machine

/-! ### The block: its queue, its commands, its reset state -/

/-- A step takes the command at the front of the queue and is that command's effect on the rest (the block's form; log 6).

The model's own choice (log 6): with no command waiting the block idles. -/
def Obligations.StepRunsFrontCommand : Prop :=
  (∀ (c : Instr) (s : State), step { s with pending := c :: s.pending } = exec c s) ∧
  (∀ s : State, s.pending = [] → step s = .next s)

/-- Every step answers a next state. Of the queue it takes the front command and nothing else; what has left the module stays sent; permanent
records stay (revoked keys, the anti-rollback count, a debug kill, mapped-out channels, the trip count: R525, R331, R454); memory,
registers and poison marks keep their canonical form. -/
def Obligations.EveryStepKeepsRecordsAndStorageForm : Prop :=
  ∀ s : State, ∃ t, step s = .next t ∧ t.pending = s.pending.tail ∧ s.outbox <+: t.outbox ∧ s.free ≤ t.free ∧ s.flash.Keeps t.flash ∧
    (s.Canonical → t.Canonical)

/-- The same of every command in every state, whatever waits in the queue. -/
def Obligations.EveryCommandAnswersAndFollows : Prop :=
  ∀ (i : Instr) (s : State), ∃ t, exec i s = .next t ∧ s.Follows t

/-- The state after reset has its storage in canonical form, no command waiting and nothing sent. -/
def Obligations.ResetStorageIsCanonical : Prop :=
  State.reset.Canonical ∧ State.reset.pending = [] ∧ State.reset.outbox = []

/-- Every well-formed instruction of a core is read back from its word, with every operand at every value (R87 to R90, Tables 3-1 and 3-2). -/
def Obligations.CoreWordsDecodeToTheirInstructions : Prop :=
  ∀ (i : Instr) (c : CoreId) (pg : BitVec 3), siteOf i = some (c, pg) → i.wf = true →
    ∃ w, encodeWord i = some w ∧ decodeWord c w = some i

/-- Words written out from the spec's encodings: the MMA word of chapter 3's example, an ALU, an ALUI, a branch, an LD and an END; the all-zero
word and a reserved fn are no instruction (R90). -/
def Obligations.SpecWordsDecode : Prop :=
  ∀ c : CoreId,
    decodeWord c 0x8400408000000000#64 = some (.mma c ⟨0, 0, 0, true, 0, 2⟩) ∧
    decodeWord c (0x01#6 ++ 2#3 ++ 3#5 ++ 4#5 ++ 5#5 ++ 0x08#6 ++ 0#34) = some (.alu c 2 3 4 5 8) ∧
    decodeWord c (0x02#6 ++ 0#3 ++ 31#5 ++ 1#5 ++ 0#6 ++ 0#7 ++ 0xFFFFFFFF#32) = some (.alui c 0 31 1 0 0xFFFFFFFF) ∧
    decodeWord c (0x0C#6 ++ 1#3 ++ 0#23 ++ 0xFFFFFFFE#32) = some (.b c 1 0xFFFFFFFE) ∧
    decodeWord c (0x10#6 ++ 0#3 ++ 7#5 ++ 8#5 ++ 2#2 ++ 1#1 ++ 0#10 ++ 16#32) = some (.ld c 0 7 8 2 true 16) ∧
    decodeWord c (0x0F#6 ++ 0#3 ++ 0#55) = some (.endLeg c 0) ∧
    decodeWord c 0 = none ∧
    decodeWord c (0x01#6 ++ 0#3 ++ 1#5 ++ 2#5 ++ 3#5 ++ 0x18#6 ++ 0#34) = none

/-! ### Sequencer instructions (chapter 3) -/

/-- R82, R90, R93: an instruction whose encoding is reserved is a bad operation whatever its guard holds. The core issues nothing further and
CORE_FAULT records cause BAD_OP (1) and the pc. -/
def Obligations.ReservedEncodingStopsTheCore : Prop :=
  ∀ (i : Instr) (c : CoreId) (pg : BitVec 3) (s : State), siteOf i = some (c, pg) → (s.core c.toNat).issuing i = true → reservedOp i = true →
    ∃ t, exec i s = .next t ∧ (t.core c.toNat).phase = .faulted ∧ (t.core c.toNat).pc = (s.core c.toNat).pc ∧
      t.get (Reg.CORE_FAULT c.toNat) Fld.CORE_FAULT_cause = 1 ∧
      t.get (Reg.CORE_FAULT c.toNat) Fld.CORE_FAULT_pc = (s.core c.toNat).pc.toNat ∧ t.mem = s.mem ∧ t.poison = s.poison

/-- R82: an instruction whose guard is false takes the issue cycle and has no other effect; it neither touches a token nor enqueues anything.

R86: while the guard waits for its earlier writer, issue stalls and the stall is counted; nothing else changes. -/
def Obligations.GuardsDecideExecution : Prop :=
  (∀ (i : Instr) (c : CoreId) (pg : BitVec 3) (s : State), siteOf i = some (c, pg) → (s.core c.toNat).issuing i = true → reservedOp i = false →
     (s.core c.toNat).pPend pg.toNat = false → (s.core c.toNat).pr pg.toNat = false →
     exec i s = .next (s.modCore c.toNat (fun k => { k with phase := .run, pc := k.pc + 8 }))) ∧
  (∀ (i : Instr) (c : CoreId) (pg : BitVec 3) (s : State), siteOf i = some (c, pg) → (s.core c.toNat).issuing i = true → reservedOp i = false →
     (s.core c.toNat).pPend pg.toNat = true →
     exec i s = .next (s.incSat (Reg.CORE_STALL c.toNat) Fld.CORE_STALL_reg_wait))

/-- R91, Tables 2-9 and 3-3: the results of the scalar operations; shift amounts take bits 5:0, division and remainder have defined results
for every operand; POPC, CLZ and CTZ count the ones, the leading and the trailing zeros of s[sa].

R91, R92: ALU, ALUI, MOVI and SYS write their result to sd (s0 discards it) and change nothing else; SYS of selector 1
writes CORE_CYCLES, which never falls, does not count while the core is OFF, and grows by a free amount else (R114, log 3).

R92: what SYS reads under the selectors other than 1. -/
def Obligations.ScalarResults : Prop :=
  (∀ a b : W64,
     aluOp 0x00 a b = a + b ∧ aluOp 0x01 a b = a - b ∧ aluOp 0x02 a b = a &&& b ∧ aluOp 0x03 a b = a ||| b ∧ aluOp 0x04 a b = a ^^^ b ∧
     aluOp 0x05 a b = a <<< (b.toNat % 64) ∧ aluOp 0x06 a b = a >>> (b.toNat % 64) ∧ aluOp 0x07 a b = a.sshiftRight (b.toNat % 64) ∧
     aluOp 0x08 a b = a * b ∧
     ((aluOp 0x09 a b).toInt = a.toInt * b.toInt / 2 ^ 64) ∧ ((aluOp 0x0A a b).toNat = a.toNat * b.toNat / 2 ^ 64) ∧
     (b ≠ 0 → aluOp 0x0B a b = a.sdiv b ∧ aluOp 0x0C a b = a / b ∧ aluOp 0x0D a b = a.srem b ∧ aluOp 0x0E a b = a % b) ∧
     (aluOp 0x0B a 0 = BitVec.intMax 64 ∧ aluOp 0x0C a 0 = BitVec.allOnes 64 ∧ aluOp 0x0D a 0 = a ∧ aluOp 0x0E a 0 = a) ∧
     (aluOp 0x0F a b).toInt = min a.toInt b.toInt ∧ (aluOp 0x10 a b).toInt = max a.toInt b.toInt ∧
     (aluOp 0x11 a b).toNat = min a.toNat b.toNat ∧ (aluOp 0x12 a b).toNat = max a.toNat b.toNat ∧
     (aluOp 0x13 a b).toInt = max (-(2 ^ 63)) (min (a.toInt + b.toInt) (2 ^ 63 - 1)) ∧
     (aluOp 0x14 a b).toInt = max (-(2 ^ 63)) (min (a.toInt - b.toInt) (2 ^ 63 - 1)) ∧
     (aluOp 0x15 a b).toNat = ((List.range 64).filter (fun i => a.getLsbD i)).length ∧
     (∀ n, n < 64 → a.getLsbD (63 - n) = true → (∀ i, 63 - n < i → i < 64 → a.getLsbD i = false) → (aluOp 0x16 a b).toNat = n) ∧
     (∀ n, n < 64 → a.getLsbD n = true → (∀ i, i < n → a.getLsbD i = false) → (aluOp 0x17 a b).toNat = n) ∧
     aluOp 0x16 0 b = 64 ∧ aluOp 0x17 0 b = 64) ∧
  ((∀ (c : CoreId) (pg : BitVec 3) (sd sa sb : BitVec 5) (fn : BitVec 6) (s : State), s.Issues c (.alu c pg sd sa sb fn) pg [.s sa.toNat, .s sb.toNat] →
     ∃ t, exec (.alu c pg sd sa sb fn) s = .next t ∧ s.Ran t c ((s.core c.toNat).pc + 8)
       (written (s.core c.toNat).sr sd.toNat (some 0) (aluOp fn.toNat ((s.core c.toNat).sr sa.toNat) ((s.core c.toNat).sr sb.toNat)))
       (s.core c.toNat).pr (s.core c.toNat).mr) ∧
   (∀ (c : CoreId) (pg : BitVec 3) (sd sa : BitVec 5) (fn : BitVec 6) (imm : BitVec 32) (s : State), s.Issues c (.alui c pg sd sa fn imm) pg [.s sa.toNat] →
     ∃ t, exec (.alui c pg sd sa fn imm) s = .next t ∧ s.Ran t c ((s.core c.toNat).pc + 8)
       (written (s.core c.toNat).sr sd.toNat (some 0) (aluOp fn.toNat ((s.core c.toNat).sr sa.toNat) (imm.signExtend 64)))
       (s.core c.toNat).pr (s.core c.toNat).mr) ∧
   (∀ (c : CoreId) (pg : BitVec 3) (sd : BitVec 5) (imm : BitVec 32) (s : State), s.Issues c (.movi c pg sd false imm) pg [] →
     ∃ t, exec (.movi c pg sd false imm) s = .next t ∧ s.Ran t c ((s.core c.toNat).pc + 8)
       (written (s.core c.toNat).sr sd.toNat (some 0) (imm.signExtend 64)) (s.core c.toNat).pr (s.core c.toNat).mr) ∧
   (∀ (c : CoreId) (pg : BitVec 3) (sd : BitVec 5) (imm : BitVec 32) (s : State), s.Issues c (.movi c pg sd true imm) pg [.s sd.toNat] →
     ∃ t, exec (.movi c pg sd true imm) s = .next t ∧ s.Ran t c ((s.core c.toNat).pc + 8)
       (written (s.core c.toNat).sr sd.toNat (some 0) (imm ++ ((s.core c.toNat).sr sd.toNat).setWidth 32))
       (s.core c.toNat).pr (s.core c.toNat).mr) ∧
   (∀ (c : CoreId) (pg : BitVec 3) (sd : BitVec 5) (sel : BitVec 6) (s : State), s.Issues c (.sys c pg sd sel) pg [] → sel ≠ 1 →
     ∃ t, exec (.sys c pg sd sel) s = .next t ∧ s.Ran t c ((s.core c.toNat).pc + 8)
       (written (s.core c.toNat).sr sd.toNat (some 0) (s.sysValue c.toNat sel.toNat)) (s.core c.toNat).pr (s.core c.toNat).mr) ∧
   (∀ (c : CoreId) (pg : BitVec 3) (sd : BitVec 5) (s : State), s.Issues c (.sys c pg sd 1) pg [] →
     ∃ t u, exec (.sys c pg sd 1) s = .next t ∧ u.Ran t c ((s.core c.toNat).pc + 8)
       (written (s.core c.toNat).sr sd.toNat (some 0) (BitVec.ofNat 64 (u.get (Reg.CORE_CYCLES c.toNat) Fld.CORE_CYCLES_count)))
       (s.core c.toNat).pr (s.core c.toNat).mr ∧
       u = { s with regs := u.regs, free := u.free } ∧ (∀ r, r ≠ Reg.CORE_CYCLES c.toNat → u.reg r = s.reg r) ∧
       s.get (Reg.CORE_CYCLES c.toNat) Fld.CORE_CYCLES_count ≤ u.get (Reg.CORE_CYCLES c.toNat) Fld.CORE_CYCLES_count ∧
       (s.coreOff c.toNat = true → u = s))) ∧
  (∀ (c : CoreId) (s : State) (g : Leg), (s.core c.toNat).leg = some g →
     s.sysValue c.toNat 0 = c.setWidth 64 ∧
     s.sysValue c.toNat 2 = BitVec.ofNat 64 (s.get Reg.FRM_COUNT Fld.FRM_COUNT_count) ∧
     s.sysValue c.toNat 3 = BitVec.ofNat 64 g.part.val ∧ s.sysValue c.toNat 4 = BitVec.ofNat 64 g.inst.val ∧
     s.sysValue c.toNat 5 = BitVec.ofNat 64 g.rank ∧ s.sysValue c.toNat 6 = BitVec.ofNat 64 g.size ∧
     s.sysValue c.toNat 7 = BitVec.ofNat 64 (s.coreRate c.toNat) ∧
     s.sysValue c.toNat 8 = BitVec.ofNat 64 (s.get (Reg.CORE_ADDR_ERR c.toNat) Fld.CORE_ADDR_ERR_count))

/-- R92: CMP and CMPI write the comparison to pd and its complement to pn (which is written last where both name one register); p0 discards
either. PRED writes pa fn pb to pd.

R92: the MASK functions. -/
def Obligations.PredicateAndMaskResults : Prop :=
  ((∀ (c : CoreId) (pg pd pn : BitVec 3) (sa sb : BitVec 5) (cc : BitVec 4) (s : State), s.Issues c (.cmp c pg pd pn sa sb cc) pg [.s sa.toNat, .s sb.toNat] →
     ∃ t, exec (.cmp c pg pd pn sa sb cc) s = .next t ∧ s.Ran t c ((s.core c.toNat).pc + 8) (s.core c.toNat).sr
       (written (written (s.core c.toNat).pr pd.toNat (some 0) (ccTest cc ((s.core c.toNat).sr sa.toNat) ((s.core c.toNat).sr sb.toNat)))
         pn.toNat (some 0) (!ccTest cc ((s.core c.toNat).sr sa.toNat) ((s.core c.toNat).sr sb.toNat))) (s.core c.toNat).mr) ∧
   (∀ (c : CoreId) (pg pd pn : BitVec 3) (sa : BitVec 5) (cc : BitVec 4) (imm : BitVec 32) (s : State), s.Issues c (.cmpi c pg pd pn sa cc imm) pg [.s sa.toNat] →
     ∃ t, exec (.cmpi c pg pd pn sa cc imm) s = .next t ∧ s.Ran t c ((s.core c.toNat).pc + 8) (s.core c.toNat).sr
       (written (written (s.core c.toNat).pr pd.toNat (some 0) (ccTest cc ((s.core c.toNat).sr sa.toNat) (imm.signExtend 64)))
         pn.toNat (some 0) (!ccTest cc ((s.core c.toNat).sr sa.toNat) (imm.signExtend 64))) (s.core c.toNat).mr) ∧
   (∀ (c : CoreId) (pg pd pa pb : BitVec 3) (fn : BitVec 3) (s : State), s.Issues c (.pred c pg pd pa pb fn) pg [.p pa.toNat, .p pb.toNat] →
     ∃ t, exec (.pred c pg pd pa pb fn) s = .next t ∧ s.Ran t c ((s.core c.toNat).pc + 8) (s.core c.toNat).sr
       (written (s.core c.toNat).pr pd.toNat (some 0)
         (let a := (s.core c.toNat).pr pa.toNat
          let b := (s.core c.toNat).pr pb.toNat
          if fn = 0 then a && b else if fn = 1 then a || b else if fn = 2 then a ^^ b else if fn = 3 then a && !b else a))
       (s.core c.toNat).mr)) ∧
  (∀ (c : CoreId) (pg md ma mb : BitVec 3) (sx : BitVec 5) (fn : BitVec 3) (s : State),
     s.Issues c (.mask c pg md ma mb sx fn) pg (maskReads fn.toNat ma mb sx) →
     ∃ t, exec (.mask c pg md ma mb sx fn) s = .next t ∧
       (let k := s.core c.toNat
        let a := k.mr ma.toNat
        let b := k.mr mb.toNat
        let toS (v : W64) : Prop := s.Ran t c (k.pc + 8) (written k.sr sx.toNat (some 0) v) k.pr k.mr
        let toM (v : W64) : Prop := s.Ran t c (k.pc + 8) k.sr k.pr (written k.mr md.toNat none v)
        (fn = 0 → toM (k.sr sx.toNat)) ∧ (fn = 1 → toS a) ∧ (fn = 2 → toM (a &&& b)) ∧ (fn = 3 → toM (a ||| b)) ∧ (fn = 4 → toM (a ^^^ b)) ∧
        (fn = 5 → toM (~~~a)) ∧ (fn = 6 → toS (BitVec.ofNat 64 ((List.range 64).filter (fun i => a.getLsbD i)).length))))

/-- R94: B jumps to pc + 8 × off, BL also writes pc + 8 to sd before the jump, BR jumps to s[sa] with bits 2:0 taken as zero and writes pc + 8
to sd; s0 discards the link. Nothing else changes.

R95: END stops issue; the core's registers, queues and everything else stay. -/
def Obligations.BranchesAndEnd : Prop :=
  ((∀ (c : CoreId) (pg : BitVec 3) (off : BitVec 32) (s : State), s.Issues c (.b c pg off) pg [] →
     ∃ t, exec (.b c pg off) s = .next t ∧ s.Ran t c ((s.core c.toNat).pc + 8 * off.signExtend 52) (s.core c.toNat).sr (s.core c.toNat).pr
       (s.core c.toNat).mr) ∧
   (∀ (c : CoreId) (pg : BitVec 3) (sd : BitVec 5) (off : BitVec 32) (s : State), s.Issues c (.bl c pg sd off) pg [] →
     ∃ t, exec (.bl c pg sd off) s = .next t ∧ s.Ran t c ((s.core c.toNat).pc + 8 * off.signExtend 52)
       (written (s.core c.toNat).sr sd.toNat (some 0) (((s.core c.toNat).pc + 8).setWidth 64)) (s.core c.toNat).pr (s.core c.toNat).mr) ∧
   (∀ (c : CoreId) (pg : BitVec 3) (sd sa : BitVec 5) (s : State), s.Issues c (.br c pg sd sa) pg [.s sa.toNat] →
     ∃ t, exec (.br c pg sd sa) s = .next t ∧ s.Ran t c (((s.core c.toNat).sr sa.toNat).setWidth 52 &&& ~~~7#52)
       (written (s.core c.toNat).sr sd.toNat (some 0) (((s.core c.toNat).pc + 8).setWidth 64)) (s.core c.toNat).pr (s.core c.toNat).mr)) ∧
  (∀ (c : CoreId) (pg : BitVec 3) (s : State), s.Issues c (.endLeg c pg) pg [] →
     ∃ t, exec (.endLeg c pg) s = .next t ∧ s.OnlyCore t c.toNat ∧
       t.core c.toNat = { s.core c.toNat with phase := .stopped, pc := (s.core c.toNat).pc + 8 })

/-- R104: WAIT on tokens (kind 0) completes with sd = 0 once every token of sel[15:1] has no setter pending; WAIT on wake flags (kind 1)
completes with sd = the flags found and clears those of sel; WAIT on a barrier (kind 2) at which the core has not arrived, or whose phase has
completed, completes with sd = 0. Nothing else changes.

R104: a WAIT whose condition does not hold stops issue at itself, with no other effect but the token-wait stall count of kind 0. When its
timeout expires (s0 holds none), sd becomes 1 under kinds 0 and 2 and 0 under kind 1, and issue goes on behind it. Kind 3 is reserved, and so is
kind 2 at a scope other than T1, T3 and T4. -/
def Obligations.WaitsCompleteOrHold : Prop :=
  ((∀ (c : CoreId) (pg : BitVec 3) (sd sb : BitVec 5) (sel : BitVec 16) (s : State), s.Issues c (.waitTokens c pg sd sb sel) pg [.s sb.toNat] →
     (∀ n, 1 ≤ n → n ≤ 15 → sel.getLsbD n = true → (s.core c.toNat).tokDone n = true) →
     ∃ t, exec (.waitTokens c pg sd sb sel) s = .next t ∧ s.Ran t c ((s.core c.toNat).pc + 8)
       (written (s.core c.toNat).sr sd.toNat (some 0) 0) (s.core c.toNat).pr (s.core c.toNat).mr) ∧
   (∀ (c : CoreId) (pg : BitVec 3) (sd sb : BitVec 5) (sel : BitVec 16) (s : State), s.Issues c (.waitWake c pg sd sb sel) pg [.s sb.toNat] →
     (s.core c.toNat).wf &&& sel ≠ 0 →
     ∃ t, exec (.waitWake c pg sd sb sel) s = .next t ∧ (t.core c.toNat).wf = (s.core c.toNat).wf &&& ~~~sel ∧
       (s.modCore c.toNat (fun k => { k with wf := (s.core c.toNat).wf &&& ~~~sel })).Ran t c ((s.core c.toNat).pc + 8)
         (written (s.core c.toNat).sr sd.toNat (some 0) (((s.core c.toNat).wf &&& sel).setWidth 64)) (s.core c.toNat).pr (s.core c.toNat).mr) ∧
   (∀ (c : CoreId) (pg : BitVec 3) (sd sb : BitVec 5) (sel : BitVec 16) (s : State), s.Issues c (.waitBarrier c pg sd sb sel) pg [.s sb.toNat] →
     (s.core c.toNat).barArrived (barKey (sel.toNat / 4 % 8) (sel.toNat % 4)) = false →
     ∃ t, exec (.waitBarrier c pg sd sb sel) s = .next t ∧ s.Ran t c ((s.core c.toNat).pc + 8)
       (written (s.core c.toNat).sr sd.toNat (some 0) 0) (s.core c.toNat).pr (s.core c.toNat).mr)) ∧
  ((∀ (c : CoreId) (pg : BitVec 3) (sd sb : BitVec 5) (sel : BitVec 16) (s : State), s.Issues c (.waitTokens c pg sd sb sel) pg [.s sb.toNat] →
     (∃ n, 1 ≤ n ∧ n ≤ 15 ∧ sel.getLsbD n = true ∧ (s.core c.toNat).tokDone n = false) →
     exec (.waitTokens c pg sd sb sel) s = .next ((s.incSat (Reg.CORE_STALL c.toNat) Fld.CORE_STALL_token_wait).modCore c.toNat
       (fun k => { k with phase := .wait (.waitTokens c pg sd sb sel) }))) ∧
   (∀ (c : CoreId) (pg : BitVec 3) (sd sb : BitVec 5) (sel : BitVec 16) (s : State), s.Issues c (.waitWake c pg sd sb sel) pg [.s sb.toNat] →
     (s.core c.toNat).wf &&& sel = 0 →
     exec (.waitWake c pg sd sb sel) s = .next (s.modCore c.toNat (fun k => { k with phase := .wait (.waitWake c pg sd sb sel) }))) ∧
   (∀ (c : CoreId) (pg : BitVec 3) (sd sb : BitVec 5) (sel : BitVec 16) (s : State), s.Issues c (.waitBarrier c pg sd sb sel) pg [.s sb.toNat] →
     (s.core c.toNat).barArrived (barKey (sel.toNat / 4 % 8) (sel.toNat % 4)) = true →
     exec (.waitBarrier c pg sd sb sel) s = .next (s.modCore c.toNat (fun k => { k with phase := .wait (.waitBarrier c pg sd sb sel) }))) ∧
   (∀ (c d : CoreId) (pg : BitVec 3) (sd sb : BitVec 5) (sel : BitVec 16) (s : State) (v : W64),
     ((s.core c.toNat).phase = .wait (.waitTokens d pg sd sb sel) ∧ v = 1 ∨ (s.core c.toNat).phase = .wait (.waitWake d pg sd sb sel) ∧ v = 0 ∨
       (s.core c.toNat).phase = .wait (.waitBarrier d pg sd sb sel) ∧ v = 1) → (s.core c.toNat).held = false → sb ≠ 0 →
     ∃ t, exec (.waitTimeout c) s = .next t ∧ s.Ran t c ((s.core c.toNat).pc + 8) (written (s.core c.toNat).sr sd.toNat (some 0) v)
       (s.core c.toNat).pr (s.core c.toNat).mr) ∧
   (∀ (c : CoreId) (pg : BitVec 3) (sd sb : BitVec 5) (sel : BitVec 16) (x : BitVec 53), decodeWord c (0x1B#6 ++ pg ++ 3#2 ++ x) = none ∧
     reservedOp (.waitTokens c pg sd sb sel) = false ∧ reservedOp (.waitWake c pg sd sb sel) = false ∧
     (reservedOp (.waitBarrier c pg sd sb sel) = false ↔ sel.toNat / 4 % 8 = 1 ∨ sel.toNat / 4 % 8 = 3 ∨ sel.toNat / 4 % 8 = 4)))

/-- R106, R81: TOLL and HEAVY record the announcement for frame n + ahead + 1 in place of an earlier one of the core; NOP does nothing; CACHE IINV
empties the instruction cache and writes 0 to sd. Issue goes on behind each; nothing else changes. -/
def Obligations.HintsAndInstructionCacheInvalidate : Prop :=
  (∀ (c : CoreId) (pg : BitVec 3) (ahead : BitVec 2) (tolls : BitVec 16) (s : State), s.Issues c (.toll c pg ahead tolls) pg [] →
    ∃ t, exec (.toll c pg ahead tolls) s = .next t ∧ s.OnlyCore t c.toNat ∧ t.core c.toNat = { s.core c.toNat with
      phase := .run, pc := (s.core c.toNat).pc + 8
      ann := (s.core c.toNat).ann.filter (fun x => !(x.1 == s.frame + ahead.toNat + 1 && x.2.2 == false)) ++
        [(s.frame + ahead.toNat + 1, tolls.toNat, false)] }) ∧
  (∀ (c : CoreId) (pg level : BitVec 3) (ahead : BitVec 2) (s : State), s.Issues c (.heavy c pg level ahead) pg [] →
    ∃ t, exec (.heavy c pg level ahead) s = .next t ∧ s.OnlyCore t c.toNat ∧ t.core c.toNat = { s.core c.toNat with
      phase := .run, pc := (s.core c.toNat).pc + 8
      ann := (s.core c.toNat).ann.filter (fun x => !(x.1 == s.frame + ahead.toNat + 1 && x.2.2 == true)) ++
        [(s.frame + ahead.toNat + 1, level.toNat, true)] }) ∧
  (∀ (c : CoreId) (pg : BitVec 3) (s : State), s.Issues c (.nop c pg) pg [] →
    ∃ t, exec (.nop c pg) s = .next t ∧ s.Ran t c ((s.core c.toNat).pc + 8) (s.core c.toNat).sr (s.core c.toNat).pr (s.core c.toNat).mr) ∧
  (∀ (c : CoreId) (pg : BitVec 3) (sd sa sb : BitVec 5) (lvl : Bool) (s : State), s.Issues c (.cacheIinv c pg sd sa sb lvl) pg [] →
    ∃ t, exec (.cacheIinv c pg sd sa sb lvl) s = .next t ∧ (t.core c.toNat).icache = [] ∧ (t.core c.toNat).fetch = [] ∧
      (s.modCore c.toNat (fun k => { k with icache := [], fetch := [], fetchOnce := [] })).Ran t c ((s.core c.toNat).pc + 8)
        (written (s.core c.toNat).sr sd.toNat (some 0) 0) (s.core c.toNat).pr (s.core c.toNat).mr)

/-- R83, R84, R86: a matrix, vector or mover instruction that issues enters its engine's queue of eight behind the earlier ones, with its pc, what
it captures now and the count of the setters it waits for. Its token gains one pending setter on this engine, its result registers become
pending, issue goes on; nothing else changes and no register is written.

R83, R85: a token with setters pending on another engine, or a full queue, stalls issue; only the stall of that cause is counted. -/
def Obligations.EngineInstructionsEnterTheirQueue : Prop :=
  (∀ (i : Instr) (c : CoreId) (pg : BitVec 3) (s : State) (e : EngIssue), siteOf i = some (c, pg) → engineForm (s.core c.toNat) i = some e →
     s.Issues c i pg e.reads → (s.core c.toNat).tokClash e.tset e.eng = false → ((s.core c.toNat).queue e.eng).length < 8 →
     ∃ t, exec i s = .next t ∧ s.OnlyCore t c.toNat ∧
       (let k := s.core c.toNat
        let k' := t.core c.toNat
        k'.queue e.eng = k.queue e.eng ++ [⟨i, k.pc, e.a, e.b, e.x, e.d, e.m, e.m2, if e.twait = 0 then 0 else (k.tok e.twait).issued, k.nextId⟩] ∧
        (∀ f, f ≠ e.eng → k'.queue f = k.queue f) ∧
        (∀ n, k'.tok n = if n = e.tset ∧ n ≠ 0 then ⟨(k.tok n).issued + 1, (k.tok n).done, some e.eng⟩ else k.tok n) ∧
        (∀ r, r ∈ e.dest → r ≠ .s 0 → k'.isPending r = true) ∧ (∀ r, r ∉ e.dest → k'.isPending r = k.isPending r) ∧
        k' = { k with phase := .run, pc := k.pc + 8, meq := k'.meq, veq := k'.veq, mvq := k'.mvq, toks := k'.toks, pend := k'.pend, nextId := k.nextId + 1 })) ∧
  (∀ (i : Instr) (c : CoreId) (pg : BitVec 3) (s : State) (e : EngIssue), siteOf i = some (c, pg) → engineForm (s.core c.toNat) i = some e →
     s.Issues c i pg e.reads →
     ((s.core c.toNat).tokClash e.tset e.eng = true → exec i s = .next (s.incSat (Reg.CORE_STALL c.toNat) Fld.CORE_STALL_token_wait)) ∧
     ((s.core c.toNat).tokClash e.tset e.eng = false → 8 ≤ ((s.core c.toNat).queue e.eng).length →
       exec i s = .next (s.incSat (Reg.CORE_STALL c.toNat) Fld.CORE_STALL_queue_full)))

/-! ### Accesses of the sequencer (chapters 3 and 8) -/

/-- R97, R98, R99: on the own scratchpad LD reads exactly its bytes, low byte first, extended as sx says, and changes no memory; ST writes exactly
its bytes; a naturally aligned AMO returns the old value zero-extended and writes the result of its operation. Every byte elsewhere reads as
before, and so does every register of the register space and every other core.

R99: the operations of AMO at both widths, on the low bits of old value, operand and comparand. -/
def Obligations.OwnScratchpadAccesses : Prop :=
  ((∀ (c : CoreId) (pg : BitVec 3) (sd sa : BitVec 5) (size : BitVec 2) (sx : Bool) (imm : BitVec 32) (o : Nat) (s : State),
     s.Issues c (.ld c pg sd sa size sx imm) pg [.s sa.toNat] →
     s.OwnBytes c ((s.core c.toNat).sr sa.toNat + imm.signExtend 64) o (2 ^ size.toNat) →
     ∃ t, exec (.ld c pg sd sa size sx imm) s = .next t ∧ s.Ran t c ((s.core c.toNat).pc + 8)
       (written (s.core c.toNat).sr sd.toNat (some 0) (extended (2 ^ size.toNat) sx (s.num (scrBase c.toNat + o) (2 ^ size.toNat))))
       (s.core c.toNat).pr (s.core c.toNat).mr) ∧
   (∀ (c : CoreId) (pg : BitVec 3) (sb sa : BitVec 5) (size : BitVec 2) (imm : BitVec 32) (o : Nat) (s : State),
     s.Issues c (.st c pg sb sa size imm) pg [.s sa.toNat, .s sb.toNat] →
     s.OwnBytes c ((s.core c.toNat).sr sa.toNat + imm.signExtend 64) o (2 ^ size.toNat) → s.armed (coreDie c.toNat) 3 c.toNat = none →
     ∃ t, exec (.st c pg sb sa size imm) s = .next t ∧ t = { s with mem := t.mem, stk := t.stk, cores := t.cores } ∧
       (∀ j, j < 2 ^ size.toNat → t.byte (scrBase c.toNat + o + j) = ((s.core c.toNat).sr sb.toNat).extractLsb' (8 * j) 8) ∧
       (∀ x, x < scrBase c.toNat + o ∨ scrBase c.toNat + o + 2 ^ size.toNat ≤ x → t.byte x = s.byte x) ∧
       (∀ d, d ≠ c.toNat → t.core d = s.core d) ∧ t.core c.toNat = { s.core c.toNat with phase := .run, pc := (s.core c.toNat).pc + 8 }) ∧
   (∀ (c : CoreId) (pg : BitVec 3) (sd sa sb sc : BitVec 5) (op : BitVec 4) (w : Bool) (o : Nat) (s : State),
     s.Issues c (.amo c pg sd sa sb sc op w) pg ([.s sa.toNat, .s sb.toNat] ++ if op = 9 then [.s sc.toNat] else []) →
     s.OwnBytes c ((s.core c.toNat).sr sa.toNat) o (if w then 8 else 4) → ((s.core c.toNat).sr sa.toNat).toNat % (if w then 8 else 4) = 0 →
     s.armed (coreDie c.toNat) 3 c.toNat = none →
     ∃ t, exec (.amo c pg sd sa sb sc op w) s = .next t ∧ t = { s with mem := t.mem, stk := t.stk, cores := t.cores } ∧
       t.num (scrBase c.toNat + o) (if w then 8 else 4) = amoResult op.toNat w (s.num (scrBase c.toNat + o) (if w then 8 else 4))
         ((s.core c.toNat).sr sb.toNat).toNat ((s.core c.toNat).sr sc.toNat).toNat ∧
       (∀ x, x < scrBase c.toNat + o ∨ scrBase c.toNat + o + (if w then 8 else 4) ≤ x → t.byte x = s.byte x) ∧
       (∀ d, d ≠ c.toNat → t.core d = s.core d) ∧ (s.core c.toNat).SeqOnly (t.core c.toNat) ∧
       (t.core c.toNat).pc = (s.core c.toNat).pc + 8 ∧
       (∀ n, n < 32 → (t.core c.toNat).sr n =
         written (s.core c.toNat).sr sd.toNat (some 0) (BitVec.ofNat 64 (s.num (scrBase c.toNat + o) (if w then 8 else 4))) n))) ∧
  (∀ (a b e : W64) (x y z : BitVec 32),
     amoResult 0 true a.toNat b.toNat e.toNat = (a + b).toNat ∧ amoResult 0 false x.toNat y.toNat z.toNat = (x + y).toNat ∧
     amoResult 1 true a.toNat b.toNat e.toNat = (if a.slt b then a else b).toNat ∧ amoResult 1 false x.toNat y.toNat z.toNat = (if x.slt y then x else y).toNat ∧
     amoResult 2 true a.toNat b.toNat e.toNat = (if a.slt b then b else a).toNat ∧ amoResult 2 false x.toNat y.toNat z.toNat = (if x.slt y then y else x).toNat ∧
     amoResult 3 true a.toNat b.toNat e.toNat = (if a < b then a else b).toNat ∧ amoResult 3 false x.toNat y.toNat z.toNat = (if x < y then x else y).toNat ∧
     amoResult 4 true a.toNat b.toNat e.toNat = (if a < b then b else a).toNat ∧ amoResult 4 false x.toNat y.toNat z.toNat = (if x < y then y else x).toNat ∧
     amoResult 5 true a.toNat b.toNat e.toNat = (a &&& b).toNat ∧ amoResult 5 false x.toNat y.toNat z.toNat = (x &&& y).toNat ∧
     amoResult 6 true a.toNat b.toNat e.toNat = (a ||| b).toNat ∧ amoResult 6 false x.toNat y.toNat z.toNat = (x ||| y).toNat ∧
     amoResult 7 true a.toNat b.toNat e.toNat = (a ^^^ b).toNat ∧ amoResult 7 false x.toNat y.toNat z.toNat = (x ^^^ y).toNat ∧
     amoResult 8 true a.toNat b.toNat e.toNat = b.toNat ∧ amoResult 8 false x.toNat y.toNat z.toNat = y.toNat ∧
     amoResult 9 true a.toNat b.toNat e.toNat = (if a = e then b else a).toNat ∧
     amoResult 9 false x.toNat y.toNat z.toNat = (if x = z then y else x).toNat ∧
     (∀ (op : Nat) (w : Bool) (u v m : Nat), amoResult op w u v m < 2 ^ (if w then 64 else 32)) ∧
     (∀ op u v m : Nat, amoResult op false u v m = amoResult op false (u % 2 ^ 32) (v % 2 ^ 32) (m % 2 ^ 32)))

/-- R97, R99, R100, R111, R112: a load or store none of whose bytes can be reached, a misaligned AMO and an RADD to a line that cannot be reached
are address errors: a load or AMO returns zero, nothing is written, one error is counted and the first address kept, and issue goes on. -/
def Obligations.AddressErrorsNeverTrap : Prop :=
  (∀ (c : CoreId) (pg : BitVec 3) (sd sa : BitVec 5) (size : BitVec 2) (sx : Bool) (imm : BitVec 32) (s : State),
    s.Issues c (.ld c pg sd sa size sx imm) pg [.s sa.toNat] →
    (∀ j, j < 2 ^ size.toNat → s.seqBad c.toNat ((((s.core c.toNat).sr sa.toNat + imm.signExtend 64).toNat + j) % 2 ^ 64) false = true) →
    ∃ t, exec (.ld c pg sd sa size sx imm) s = .next t ∧ s.AddressError t c ((s.core c.toNat).sr sa.toNat + imm.signExtend 64).toNat (some sd)) ∧
  (∀ (c : CoreId) (pg : BitVec 3) (sb sa : BitVec 5) (size : BitVec 2) (imm : BitVec 32) (s : State),
    s.Issues c (.st c pg sb sa size imm) pg [.s sa.toNat, .s sb.toNat] →
    (∀ j, j < 2 ^ size.toNat → s.seqBad c.toNat ((((s.core c.toNat).sr sa.toNat + imm.signExtend 64).toNat + j) % 2 ^ 64) true = true) →
    ∃ t, exec (.st c pg sb sa size imm) s = .next t ∧ s.AddressError t c ((s.core c.toNat).sr sa.toNat + imm.signExtend 64).toNat none) ∧
  (∀ (c : CoreId) (pg : BitVec 3) (sd sa sb sc : BitVec 5) (op : BitVec 4) (w : Bool) (s : State),
    s.Issues c (.amo c pg sd sa sb sc op w) pg ([.s sa.toNat, .s sb.toNat] ++ if op = 9 then [.s sc.toNat] else []) →
    ((s.core c.toNat).sr sa.toNat).toNat % (if w then 8 else 4) ≠ 0 →
    ∃ t, exec (.amo c pg sd sa sb sc op w) s = .next t ∧ s.AddressError t c ((s.core c.toNat).sr sa.toNat).toNat (some sd)) ∧
  (∀ (c : CoreId) (pg : BitVec 3) (sa : BitVec 5) (oc : BitVec 7) (half : Bool) (typ : BitVec 2) (imm : BitVec 32) (s : State),
    s.Issues c (.radd c pg sa oc half typ imm) pg [.s sa.toNat] →
    s.seqBad c.toNat (((s.core c.toNat).sr sa.toNat + imm.signExtend 64).toNat / 128 * 128) true = true →
    ∃ t, exec (.radd c pg sa oc half typ imm) s = .next t ∧
      s.AddressError t c (((s.core c.toNat).sr sa.toNat + imm.signExtend 64).toNat / 128 * 128) none)

/-- R98, R99, R217, R242: an access that hits in the L1 is performed there at once. LD takes the line's bytes; ST and AMO, on a line in M or E, put
their bytes into it and leave it in M, and AMO returns the old value. Stacked memory itself does not change, and CORE_L1_HIT counts the hit. -/
def Obligations.L1HitsArePerformedInTheL1 : Prop :=
  (∀ (c : CoreId) (pg : BitVec 3) (sd sa : BitVec 5) (size : BitVec 2) (sx : Bool) (imm : BitVec 32) (m : Nat) (x : L1Line) (s : State),
    s.Issues c (.ld c pg sd sa size sx imm) pg [.s sa.toNat] →
    s.HitBytes c ((s.core c.toNat).sr sa.toNat + imm.signExtend 64) m (2 ^ size.toNat) false x →
    ∃ t, exec (.ld c pg sd sa size sx imm) s = .next t ∧ t = { s with cores := t.cores, regs := t.regs } ∧
      (∀ d, d ≠ c.toNat → t.core d = s.core d) ∧ t.reg (Reg.CORE_L1_HIT c.toNat) = s.reg (Reg.CORE_L1_HIT c.toNat) + 1 ∧
      (∀ r, r ≠ Reg.CORE_L1_HIT c.toNat → t.reg r = s.reg r) ∧
      t.core c.toNat = { s.core c.toNat with
        phase := .run, pc := (s.core c.toNat).pc + 8, s := (t.core c.toNat).s, pend := (t.core c.toNat).pend
        nextId := (t.core c.toNat).nextId, plru := (t.core c.toNat).plru } ∧
      (∀ p, p.reg ≠ .s sd.toNat → (p ∈ (t.core c.toNat).pend ↔ p ∈ (s.core c.toNat).pend)) ∧ (t.core c.toNat).sPend sd.toNat = false ∧
      (∀ n, n < 32 → (t.core c.toNat).sr n =
        written (s.core c.toNat).sr sd.toNat (some 0) (extended (2 ^ size.toNat) sx (lineNum x.ld.d (m % 128) (2 ^ size.toNat))) n)) ∧
  (∀ (c : CoreId) (pg : BitVec 3) (sb sa : BitVec 5) (size : BitVec 2) (imm : BitVec 32) (m : Nat) (x : L1Line) (s : State),
    s.Issues c (.st c pg sb sa size imm) pg [.s sa.toNat, .s sb.toNat] →
    s.HitBytes c ((s.core c.toNat).sr sa.toNat + imm.signExtend 64) m (2 ^ size.toNat) true x → (x.st = .m ∨ x.st = .e) →
    s.lineRefuses (m / 128 * 128) = false →
    ∃ t, exec (.st c pg sb sa size imm) s = .next t ∧ t = { s with cores := t.cores, regs := t.regs, net := t.net } ∧
      (s.streaming c.toNat = false → t.net = s.net) ∧ (∀ d, d ≠ c.toNat → t.core d = s.core d) ∧
      t.reg (Reg.CORE_L1_HIT c.toNat) = s.reg (Reg.CORE_L1_HIT c.toNat) + 1 ∧
      (∀ r, r ≠ Reg.CORE_L1_HIT c.toNat → r ≠ Reg.CORE_WSD c.toNat → t.reg r = s.reg r) ∧
      t.core c.toNat = { s.core c.toNat with
        phase := .run, pc := (s.core c.toNat).pc + 8, l1 := (t.core c.toNat).l1, plru := (t.core c.toNat).plru
        wsd := (t.core c.toNat).wsd, swrOut := (t.core c.toNat).swrOut } ∧
      (∀ l, l ≠ lineOf m → (t.core c.toNat).l1Line l = (s.core c.toNat).l1Line l) ∧
      (t.core c.toNat).l1Line (lineOf m) = some ⟨lineOf m, .m, ⟨linePut x.ld.d (m % 128) (2 ^ size.toNat) ((s.core c.toNat).sr sb.toNat).toNat, false⟩⟩ ∧
      (∀ n, n < 32 → (t.core c.toNat).sr n = (s.core c.toNat).sr n)) ∧
  (∀ (c : CoreId) (pg : BitVec 3) (sd sa sb sc : BitVec 5) (op : BitVec 4) (w : Bool) (m : Nat) (x : L1Line) (s : State),
    s.Issues c (.amo c pg sd sa sb sc op w) pg ([.s sa.toNat, .s sb.toNat] ++ if op = 9 then [.s sc.toNat] else []) →
    s.HitBytes c ((s.core c.toNat).sr sa.toNat) m (if w then 8 else 4) true x → (x.st = .m ∨ x.st = .e) →
    ((s.core c.toNat).sr sa.toNat).toNat % (if w then 8 else 4) = 0 → s.lineRefuses m = false →
    ∃ t, exec (.amo c pg sd sa sb sc op w) s = .next t ∧ t = { s with cores := t.cores, regs := t.regs } ∧
      (∀ d, d ≠ c.toNat → t.core d = s.core d) ∧ t.reg (Reg.CORE_L1_HIT c.toNat) = s.reg (Reg.CORE_L1_HIT c.toNat) + 1 ∧
      (∀ r, r ≠ Reg.CORE_L1_HIT c.toNat → t.reg r = s.reg r) ∧
      t.core c.toNat = { s.core c.toNat with
        phase := .run, pc := (s.core c.toNat).pc + 8, s := (t.core c.toNat).s, pend := (t.core c.toNat).pend
        nextId := (t.core c.toNat).nextId, l1 := (t.core c.toNat).l1, plru := (t.core c.toNat).plru } ∧
      (∀ p, p.reg ≠ .s sd.toNat → (p ∈ (t.core c.toNat).pend ↔ p ∈ (s.core c.toNat).pend)) ∧ (t.core c.toNat).sPend sd.toNat = false ∧
      (∀ l, l ≠ lineOf m → (t.core c.toNat).l1Line l = (s.core c.toNat).l1Line l) ∧
      (t.core c.toNat).l1Line (lineOf m) = some ⟨lineOf m, .m, ⟨linePut x.ld.d (m % 128) (if w then 8 else 4)
        (amoResult op.toNat w (lineNum x.ld.d (m % 128) (if w then 8 else 4)) ((s.core c.toNat).sr sb.toNat).toNat ((s.core c.toNat).sr sc.toNat).toNat),
        false⟩⟩ ∧
      (∀ n, n < 32 → (t.core c.toNat).sr n =
        written (s.core c.toNat).sr sd.toNat (some 0) (BitVec.ofNat 64 (lineNum x.ld.d (m % 128) (if w then 8 else 4))) n))

/-- R100, R244: an RADD to stacked memory leaves for the line's home as one message with the chosen half of the entry and its poison; issue goes on
without waiting. R101: a CACHE of length zero writes 0 to sd and has no other effect. -/
def Obligations.ReductionsArePosted : Prop :=
  (∀ (c : CoreId) (pg : BitVec 3) (sa : BitVec 5) (oc : BitVec 7) (half : Bool) (typ : BitVec 2) (imm : BitVec 32) (m : Nat) (s : State),
    s.Issues c (.radd c pg sa oc half typ imm) pg [.s sa.toNat] →
    s.place c.toNat (((s.core c.toNat).sr sa.toNat + imm.signExtend 64).toNat / 128 * 128) = .mem m → s.coreReach c.toNat m true = true →
    s.lineRefuses m = false → (s.core c.toNat).buffered (lineOf m).toNat = false → s.unordered c.toNat m 1 = false →
    (s.core c.toNat).missOf (lineOf m) = none → ((s.core c.toNat).raddVec oc.toNat half).2 = false →
    ∃ t, exec (.radd c pg sa oc half typ imm) s = .next t ∧ t = { s with net := t.net, cores := t.cores } ∧
      t.net = s.net ++ [⟨epCore c.toNat, epSlice (s.home (lineOf m)), lineOf m,
        .radd (reqNum c.toNat) (s.keyOf c.toNat false) typ
          (((s.core c.toNat).ent oc.toNat).extractLsb' (if half then 1024 else 0) 1024) false⟩] ∧
      (∀ d, d ≠ c.toNat → t.core d = s.core d) ∧
      t.core c.toNat = { s.core c.toNat with phase := .run, pc := (s.core c.toNat).pc + 8, raddOut := (s.core c.toNat).raddOut ++ [(lineOf m).toNat] }) ∧
  (∀ (c : CoreId) (pg : BitVec 3) (sd sa sb : BitVec 5) (lvl : Bool) (p : PartId) (i : Instr) (s : State),
    (i = .cacheInv c pg sd sa sb lvl ∨ i = .cacheClean c pg sd sa sb lvl ∨ i = .cachePin c pg sd sa sb lvl ∨ i = .cacheUnpin c pg sd sa sb lvl) →
    s.Issues c i pg [.s sa.toNat, .s sb.toNat] → s.partOf c.toNat = some p → (s.core c.toNat).sr sb.toNat = 0 →
    ∃ t, exec i s = .next t ∧ s.Ran t c ((s.core c.toNat).pc + 8) (written (s.core c.toNat).sr sd.toNat (some 0) 0) (s.core c.toNat).pr
      (s.core c.toNat).mr)

/-- R101: on a range that its partition owns, with no access of the core to the range under way, INV leaves the L1 no line of the range (dirty data
travels home in a VICT_D) and keeps every other line; CLEAN keeps every line, leaves no line of the range dirty and sends the dirty data home;
UNPIN ends the partition's pin of each line of the range; PIN of one line that lies in a way of the pin mask pins it. All write 0 to sd. -/
def Obligations.CacheOperations : Prop :=
  (∀ (c : CoreId) (pg : BitVec 3) (sd sa sb : BitVec 5) (p : PartId) (s : State),
    let a := ((s.core c.toNat).sr sa.toNat).toNat
    let n := ((s.core c.toNat).sr sb.toNat).toNat
    s.Issues c (.cacheInv c pg sd sa sb false) pg [.s sa.toNat, .s sb.toNat] → s.partOf c.toNat = some p → n ≠ 0 →
    s.cacheFault p.val a n = none → (s.core c.toNat).wsd.bufs = [] → s.rangeBusy c.toNat p.val a n = false →
    ∃ t, exec (.cacheInv c pg sd sa sb false) s = .next t ∧ t.mem = s.mem ∧ t.regs = s.regs ∧
      (∀ i x, (t.core c.toNat).l1At i = some x ↔ (s.core c.toNat).l1At i = some x ∧ s.inRange p.val a n x.line.toNat = false) ∧
      (∀ i x, (s.core c.toNat).l1At i = some x → s.inRange p.val a n x.line.toNat = true → (x.st = .m ∨ x.st = .o) →
        (⟨epCore c.toNat, epSlice (s.home x.line), x.line, .victD x.ld⟩ : Msg) ∈ t.net) ∧
      (t.core c.toNat).pc = (s.core c.toNat).pc + 8 ∧
      (∀ j, j < 32 → (t.core c.toNat).sr j = written (s.core c.toNat).sr sd.toNat (some 0) 0 j)) ∧
  (∀ (c : CoreId) (pg : BitVec 3) (sd sa sb : BitVec 5) (p : PartId) (s : State),
    let a := ((s.core c.toNat).sr sa.toNat).toNat
    let n := ((s.core c.toNat).sr sb.toNat).toNat
    s.Issues c (.cacheClean c pg sd sa sb false) pg [.s sa.toNat, .s sb.toNat] → s.partOf c.toNat = some p → n ≠ 0 →
    s.cacheFault p.val a n = none → (s.core c.toNat).wsd.bufs = [] → s.rangeBusy c.toNat p.val a n = false →
    ∃ t, exec (.cacheClean c pg sd sa sb false) s = .next t ∧ t.mem = s.mem ∧ t.regs = s.regs ∧
      (∀ i x, (s.core c.toNat).l1At i = some x → ∃ y, (t.core c.toNat).l1At i = some y ∧ y.line = x.line ∧ y.ld = x.ld ∧
        y.st = if s.inRange p.val a n x.line.toNat then (if x.st = .m then .e else if x.st = .o then .s else x.st) else x.st) ∧
      (∀ i x, (s.core c.toNat).l1At i = some x → s.inRange p.val a n x.line.toNat = true → (x.st = .m ∨ x.st = .o) →
        (⟨epCore c.toNat, epSlice (s.home x.line), x.line, .cleanD x.ld⟩ : Msg) ∈ t.net) ∧
      (t.core c.toNat).pc = (s.core c.toNat).pc + 8 ∧
      (∀ j, j < 32 → (t.core c.toNat).sr j = written (s.core c.toNat).sr sd.toNat (some 0) 0 j)) ∧
  (∀ (c : CoreId) (pg : BitVec 3) (sd sa sb : BitVec 5) (lvl : Bool) (p : PartId) (s : State),
    let a := ((s.core c.toNat).sr sa.toNat).toNat
    let n := ((s.core c.toNat).sr sb.toNat).toNat
    s.Issues c (.cacheUnpin c pg sd sa sb lvl) pg [.s sa.toNat, .s sb.toNat] → s.partOf c.toNat = some p → n ≠ 0 →
    s.cacheFault p.val a n = none →
    ∃ t, exec (.cacheUnpin c pg sd sa sb lvl) s = .next t ∧ t.mem = s.mem ∧ t.net = s.net ∧
      (∀ k x d r, s.wayAt k = some x → s.homeWay x.line = some k → s.inRange p.val a n x.line.toNat = true → x.use = .home d (some p) r →
        t.wayAt k = some { x with use := .home d none r }) ∧
      (∀ k x, s.wayAt k = some x → s.inRange p.val a n x.line.toNat = false → t.wayAt k = some x) ∧
      (t.core c.toNat).pc = (s.core c.toNat).pc + 8 ∧
      (∀ j, j < 32 → (t.core c.toNat).sr j = written (s.core c.toNat).sr sd.toNat (some 0) 0 j)) ∧
  (∀ (c : CoreId) (pg : BitVec 3) (sd sa sb : BitVec 5) (lvl : Bool) (p : PartId) (l : LineNo) (k : Nat) (x : Way) (d : Dir) (r : Bool) (s : State),
    let a := ((s.core c.toNat).sr sa.toNat).toNat
    let n := ((s.core c.toNat).sr sb.toNat).toNat
    s.Issues c (.cachePin c pg sd sa sb lvl) pg [.s sa.toNat, .s sb.toNat] → s.partOf c.toNat = some p → n ≠ 0 →
    s.cacheFault p.val a n = none → s.cacheRange a n = some (lineBase l, lineBase l + n) → n ≤ 128 → s.homeWay l = some k →
    s.wayAt k = some x → x.use = .home d none r → s.lineBusy l = false → s.pinFloor [l] l = false → s.pinNoWays [l] p.val l = false →
    bit (s.pinMask (s.home l) p.val) (k % 16) = true →
    ∃ t, exec (.cachePin c pg sd sa sb lvl) s = .next t ∧ t.mem = s.mem ∧ t.net = s.net ∧
      t.wayAt k = some { x with use := .home d (some p) r } ∧ (∀ j, j ≠ k → t.wayAt j = s.wayAt j) ∧
      (t.core c.toNat).pc = (s.core c.toNat).pc + 8 ∧
      (∀ j, j < 32 → (t.core c.toNat).sr j = written (s.core c.toNat).sr sd.toNat (some 0) 0 j))

/-! ### Synchronisation (chapter 9) -/

/-- R102, R256: once the accesses of the core that a FENCE or REL waits for are performed (with no streaming buffer left, and at T6 no window write
to flush) and none of them has failed, FENCE and a REL without a store count in CORE_SYNC_REL and issue goes on; while some are not, issue
stops at the instruction. A REL with a store to the own scratchpad writes it after the wait; an ACQ with a load from there writes sd, then
acquires. R257: ACQ without a load, with no UPG in flight, drops every S line of the L1, keeps the others, records the die's next epoch
and counts in CORE_SYNC_ACQ.

R475, R476: a FENCE or REL that waits for a failed write, and a REL with a store once a write of the leg has failed, is suppressed: the first of the leg sets rel_blocked and records its pc in CORE_ERR, it
counts in CORE_SYNC_REL, its store is not performed, and issue goes on. -/
def Obligations.FenceReleaseAcquire : Prop :=
  ((∀ (c : CoreId) (pg scope : BitVec 3) (i : Instr) (sb sa : BitVec 5) (w : Bool) (imm : BitVec 32) (s : State),
     (i = .fence c pg scope ∨ i = .rel c pg sb sa scope false w imm) → s.Issues c i pg [] → (s.core c.toNat).wsd.bufs = [] →
     (6 ≤ scope.toNat → (s.core c.toNat).winPorts = [] ∧ s.flushing c.toNat = false) →
     (s.performed c.toNat scope.toNat = true → (s.core c.toNat).failedWithin scope.toNat = false →
       ∃ t, exec i s = .next t ∧ t = { s with cores := t.cores, regs := t.regs } ∧
         t.reg (Reg.CORE_SYNC_REL c.toNat) = s.reg (Reg.CORE_SYNC_REL c.toNat) + 1 ∧
         (∀ r, r ≠ Reg.CORE_SYNC_REL c.toNat → t.reg r = s.reg r) ∧ (∀ d, d ≠ c.toNat → t.core d = s.core d) ∧
         t.core c.toNat = { s.core c.toNat with phase := .run, pc := (s.core c.toNat).pc + 8 }) ∧
     (s.performed c.toNat scope.toNat = false →
       ∃ t, exec i s = .next t ∧ t = { s with cores := t.cores, regs := t.regs, free := t.free } ∧
         (∀ r, r ≠ Reg.CORE_SYNC_STALL c.toNat → t.reg r = s.reg r) ∧ (∀ d, d ≠ c.toNat → t.core d = s.core d) ∧
         t.core c.toNat = { s.core c.toNat with phase := .wait i })) ∧
   (∀ (c : CoreId) (pg scope : BitVec 3) (sb sa : BitVec 5) (w : Bool) (imm : BitVec 32) (o : Nat) (s : State),
     s.Issues c (.rel c pg sb sa scope true w imm) pg [.s sa.toNat, .s sb.toNat] → (s.core c.toNat).wsd.bufs = [] →
     (6 ≤ scope.toNat → (s.core c.toNat).winPorts = [] ∧ s.flushing c.toNat = false) →
     s.performed c.toNat scope.toNat = true → (s.core c.toNat).failedWithin scope.toNat = false → s.writeFailedSet c.toNat = false →
     s.OwnBytes c ((s.core c.toNat).sr sa.toNat + imm.signExtend 64) o (if w then 8 else 4) →
     ((s.core c.toNat).sr sa.toNat + imm.signExtend 64).toNat % (if w then 8 else 4) = 0 → s.armed (coreDie c.toNat) 3 c.toNat = none →
     ∃ t, exec (.rel c pg sb sa scope true w imm) s = .next t ∧ t = { s with mem := t.mem, stk := t.stk, cores := t.cores, regs := t.regs } ∧
       t.reg (Reg.CORE_SYNC_REL c.toNat) = s.reg (Reg.CORE_SYNC_REL c.toNat) + 1 ∧
       (∀ r, r ≠ Reg.CORE_SYNC_REL c.toNat → t.reg r = s.reg r) ∧
       (∀ j, j < (if w then 8 else 4) → t.byte (scrBase c.toNat + o + j) = ((s.core c.toNat).sr sb.toNat).extractLsb' (8 * j) 8) ∧
       (∀ x, x < scrBase c.toNat + o ∨ scrBase c.toNat + o + (if w then 8 else 4) ≤ x → t.byte x = s.byte x) ∧
       (∀ d, d ≠ c.toNat → t.core d = s.core d) ∧ t.core c.toNat = { s.core c.toNat with phase := .run, pc := (s.core c.toNat).pc + 8 }) ∧
   (∀ (c : CoreId) (pg scope : BitVec 3) (sd sa : BitVec 5) (w : Bool) (imm : BitVec 32) (o : Nat) (s : State),
     s.Issues c (.acq c pg sd sa scope true w imm) pg [.s sa.toNat] → (s.core c.toNat).phase = .run →
     s.OwnBytes c ((s.core c.toNat).sr sa.toNat + imm.signExtend 64) o (if w then 8 else 4) →
     ((s.core c.toNat).sr sa.toNat + imm.signExtend 64).toNat % (if w then 8 else 4) = 0 →
     (s.core c.toNat).acqLoading = false → (s.core c.toNat).upgInFlight = false →
     ∃ t, exec (.acq c pg sd sa scope true w imm) s = .next t ∧ t = { s with cores := t.cores, regs := t.regs } ∧
       (∀ i x, (t.core c.toNat).l1At i = some x ↔ (s.core c.toNat).l1At i = some x ∧ x.st ≠ .s) ∧
       t.reg (Reg.DIR_ACQ_EPOCH (coreDie c.toNat)) = s.reg (Reg.DIR_ACQ_EPOCH (coreDie c.toNat)) + 1 ∧
       t.reg (Reg.CORE_SYNC_EPOCH c.toNat) = s.reg (Reg.DIR_ACQ_EPOCH (coreDie c.toNat)) + 1 ∧
       t.reg (Reg.CORE_SYNC_ACQ c.toNat) = s.reg (Reg.CORE_SYNC_ACQ c.toNat) + 1 ∧
       (∀ r, r ≠ Reg.DIR_ACQ_EPOCH (coreDie c.toNat) → r ≠ Reg.CORE_SYNC_EPOCH c.toNat → r ≠ Reg.CORE_SYNC_ACQ c.toNat → t.reg r = s.reg r) ∧
       t.core c.toNat = { s.core c.toNat with
         phase := .run, pc := (s.core c.toNat).pc + 8, s := (t.core c.toNat).s, l1 := (t.core c.toNat).l1
         pend := (s.core c.toNat).pend.filter (fun p => p.reg != .s sd.toNat)
         miss := (s.core c.toNat).miss.map (fun m => if m.own then m else { m with once := true }) } ∧
       (∀ n, n < 32 → (t.core c.toNat).sr n =
         written (s.core c.toNat).sr sd.toNat (some 0) (BitVec.ofNat 64 (s.num (scrBase c.toNat + o) (if w then 8 else 4))) n) ∧
       (∀ d, d ≠ c.toNat → t.core d = s.core d)) ∧
   (∀ (c : CoreId) (pg scope : BitVec 3) (sd sa : BitVec 5) (w : Bool) (imm : BitVec 32) (s : State),
     s.Issues c (.acq c pg sd sa scope false w imm) pg [] → (s.core c.toNat).acqLoading = false → (s.core c.toNat).upgInFlight = false →
     ∃ t, exec (.acq c pg sd sa scope false w imm) s = .next t ∧ t = { s with cores := t.cores, regs := t.regs } ∧
       (∀ i x, (t.core c.toNat).l1At i = some x ↔ (s.core c.toNat).l1At i = some x ∧ x.st ≠ .s) ∧
       t.reg (Reg.DIR_ACQ_EPOCH (coreDie c.toNat)) = s.reg (Reg.DIR_ACQ_EPOCH (coreDie c.toNat)) + 1 ∧
       t.reg (Reg.CORE_SYNC_EPOCH c.toNat) = s.reg (Reg.DIR_ACQ_EPOCH (coreDie c.toNat)) + 1 ∧
       t.reg (Reg.CORE_SYNC_ACQ c.toNat) = s.reg (Reg.CORE_SYNC_ACQ c.toNat) + 1 ∧
       (∀ r, r ≠ Reg.DIR_ACQ_EPOCH (coreDie c.toNat) → r ≠ Reg.CORE_SYNC_EPOCH c.toNat → r ≠ Reg.CORE_SYNC_ACQ c.toNat → t.reg r = s.reg r) ∧
       t.core c.toNat = { s.core c.toNat with
         phase := .run, pc := (s.core c.toNat).pc + 8, l1 := (t.core c.toNat).l1
         miss := (s.core c.toNat).miss.map (fun m => if m.own then m else { m with once := true }) } ∧
       (∀ d, d ≠ c.toNat → t.core d = s.core d))) ∧
  (∀ (c : CoreId) (pg scope : BitVec 3) (i : Instr) (sb sa : BitVec 5) (st w : Bool) (imm : BitVec 32) (s : State),
     (i = .fence c pg scope ∨ i = .rel c pg sb sa scope st w imm) → s.Issues c i pg (if st then [.s sa.toNat, .s sb.toNat] else []) →
     (6 ≤ scope.toNat → (s.core c.toNat).winPorts = [] ∧ s.flushing c.toNat = false) →
     (s.core c.toNat).wsd.bufs = [] → s.performed c.toNat scope.toNat = true →
     ((s.core c.toNat).failedWithin scope.toNat = true ∨ i = .rel c pg sb sa scope true w imm ∧ s.writeFailedSet c.toNat = true) →
     ∃ t, exec i s = .next t ∧ t.mem = s.mem ∧ t.poison = s.poison ∧ t.net = s.net ∧ t.llc = s.llc ∧ t.stk = s.stk ∧ t.flag (Reg.CORE_ERR c.toNat) Fld.CORE_ERR_rel_blocked = true ∧
       t.get (Reg.CORE_ERR c.toNat) Fld.CORE_ERR_pc =
         (if s.flag (Reg.CORE_ERR c.toNat) Fld.CORE_ERR_rel_blocked then s.get (Reg.CORE_ERR c.toNat) Fld.CORE_ERR_pc
          else (s.core c.toNat).pc.toNat % 2 ^ Fld.CORE_ERR_pc.width) ∧
       t.reg (Reg.CORE_SYNC_REL c.toNat) = s.reg (Reg.CORE_SYNC_REL c.toNat) + 1 ∧
       t.core c.toNat = { s.core c.toNat with phase := .run, pc := (s.core c.toNat).pc + 8, wf := (t.core c.toNat).wf } ∧
       (∀ d, d ≠ c.toNat → t.core d = { s.core d with wf := (t.core d).wf }))

/-- R105: a core that arrives at a barrier whose phase it has not joined is recorded as arrived, and waits where w = 1; with w = 0 issue goes on.
A phase completes once every member has arrived or ended: in a leg of which this core is the only member within the unit, its arrival completes the phase
at once, toggling it, and issue goes on; with f = 1 it releases before and acquires after. -/
def Obligations.BarrierArrival : Prop :=
  (∀ (c x : CoreId) (pg scope : BitVec 3) (id : BitVec 2) (w : Bool) (s : State), s.Issues c (.bar c pg scope id w false) pg [] →
    (s.core c.toNat).barArrived (barKey scope.toNat id.toNat) = false → x ≠ c → x.toNat ∈ s.barMembers c.toNat scope.toNat →
    c.toNat ∈ s.barMembers c.toNat scope.toNat →
    (s.core x.toNat).barArrived (barKey scope.toNat id.toNat) = false → (s.core x.toNat).ended = false →
    ∃ t, exec (.bar c pg scope id w false) s = .next t ∧ s.OnlyCore t c.toNat ∧
      (t.core c.toNat).bar (barKey scope.toNat id.toNat) = (true, ((s.core c.toNat).bar (barKey scope.toNat id.toNat)).2) ∧
      ((t.core c.toNat).phase = if w then .wait (.bar c pg scope id w false) else .run) ∧
      ((t.core c.toNat).pc = if w then (s.core c.toNat).pc else (s.core c.toNat).pc + 8)) ∧
  (∀ (c : CoreId) (pg scope : BitVec 3) (id : BitVec 2) (w : Bool) (s : State), s.Issues c (.bar c pg scope id w false) pg [] →
    (s.core c.toNat).barArrived (barKey scope.toNat id.toNat) = false → s.barMembers c.toNat scope.toNat = [c.toNat] →
    (s.core c.toNat).barFail = [] →
    ∃ t, exec (.bar c pg scope id w false) s = .next t ∧ s.OnlyCore t c.toNat ∧
      (t.core c.toNat).bar (barKey scope.toNat id.toNat) = (false, !((s.core c.toNat).bar (barKey scope.toNat id.toNat)).2) ∧
      (t.core c.toNat).phase = .run ∧ (t.core c.toNat).pc = (s.core c.toNat).pc + 8) ∧
  (∀ (c : CoreId) (pg scope : BitVec 3) (id : BitVec 2) (w : Bool) (s : State), s.Issues c (.bar c pg scope id w true) pg [] →
    (s.core c.toNat).phase = .run → (s.core c.toNat).barArrived (barKey scope.toNat id.toNat) = false →
    s.barMembers c.toNat scope.toNat = [c.toNat] → (s.core c.toNat).barFail = [] → (s.core c.toNat).wsd.bufs = [] →
    s.performed c.toNat scope.toNat = true → (s.core c.toNat).failedWithin scope.toNat = false → s.writeFailedSet c.toNat = false →
    (s.core c.toNat).upgInFlight = false →
    ∃ t, exec (.bar c pg scope id w true) s = .next t ∧ t = { s with cores := t.cores, regs := t.regs } ∧
      (t.core c.toNat).bar (barKey scope.toNat id.toNat) = (false, !((s.core c.toNat).bar (barKey scope.toNat id.toNat)).2) ∧
      t.reg (Reg.CORE_SYNC_REL c.toNat) = s.reg (Reg.CORE_SYNC_REL c.toNat) + 1 ∧
      t.reg (Reg.CORE_SYNC_ACQ c.toNat) = s.reg (Reg.CORE_SYNC_ACQ c.toNat) + 1 ∧
      (∀ i x, (t.core c.toNat).l1At i = some x ↔ (s.core c.toNat).l1At i = some x ∧ x.st ≠ .s) ∧
      (t.core c.toNat).phase = .run ∧ (t.core c.toNat).pc = (s.core c.toNat).pc + 8 ∧ (∀ d, d ≠ c.toNat → t.core d = s.core d))

/-! ### Engines, fetch, the end of a part (chapters 3 to 5) -/

/-- R84: the instruction at the front of the matrix or vector queue starts once its token wait and the engine's interlocks are met, and joins the
started instructions behind the earlier ones; memory and the other queues stay. While its token wait is not met nothing changes.

R113, R84, R85: the oldest started instruction of an engine completes: it leaves the started ones and its token loses one pending setter. MSWAP
exchanges the live and the view bank and touches no row; MMA counts in CORE_ME_MMA and leaves the view bank as it was; a vector instruction
counts in CORE_VE_OPS. -/
def Obligations.EngineInstructionsRunInOrder : Prop :=
  ((∀ (c : CoreId) (q : QEnt) (rest : List QEnt) (s : State), (s.core c.toNat).meq = q :: rest → (s.core c.toNat).frozen = false →
     (s.core c.toNat).tokMet (tokFields q.ins).1 q.need = true → (s.core c.toNat).meReady q.ins = true →
     ∃ t r, exec (.engineInstructionStart c .me) s = .next t ∧ (t.core c.toNat).meq = rest ∧
       (t.core c.toNat).meRun = (s.core c.toNat).meRun ++ [⟨q, r⟩] ∧ (t.core c.toNat).veq = (s.core c.toNat).veq ∧
       (t.core c.toNat).mvq = (s.core c.toNat).mvq ∧ (t.core c.toNat).s = (s.core c.toNat).s ∧ t.mem = s.mem ∧ t.net = s.net) ∧
   (∀ (c : CoreId) (q : QEnt) (rest : List QEnt) (s : State), (s.core c.toNat).veq = q :: rest → (s.core c.toNat).frozen = false →
     (s.core c.toNat).tokMet (tokFields q.ins).1 q.need = true → s.veReady c.toNat q = true → (∀ d f, q.ins ≠ .vld d f) → (∀ d f, q.ins ≠ .vst d f) →
     ∃ t r, exec (.engineInstructionStart c .ve) s = .next t ∧ (t.core c.toNat).veq = rest ∧
       (t.core c.toNat).veRun = (s.core c.toNat).veRun ++ [⟨q, r⟩] ∧ (t.core c.toNat).meq = (s.core c.toNat).meq ∧
       (t.core c.toNat).mvq = (s.core c.toNat).mvq ∧ (t.core c.toNat).s = (s.core c.toNat).s ∧ t.mem = s.mem ∧ t.net = s.net) ∧
   (∀ (c : CoreId) (e : Engine) (q : QEnt) (rest : List QEnt) (s : State), e ≠ .mv → (s.core c.toNat).queue e = q :: rest →
     (s.core c.toNat).tokMet (tokFields q.ins).1 q.need = false → exec (.engineInstructionStart c e) s = .next s)) ∧
  ((∀ (c : CoreId) (x : Started) (rest : List Started) (s : State), (s.core c.toNat).meRun = x :: rest →
     ∃ t, exec (.engineInstructionComplete c .me) s = .next t ∧ (t.core c.toNat).meRun = rest ∧
       (∀ n, (t.core c.toNat).tok n = if n = (tokFields x.q.ins).2 ∧ n ≠ 0 then
         ⟨((s.core c.toNat).tok n).issued, ((s.core c.toNat).tok n).done + 1, ((s.core c.toNat).tok n).eng⟩ else (s.core c.toNat).tok n) ∧
       (x.res = .mswap → t.liveBank c.toNat = !s.liveBank c.toNat ∧ t.mem = s.mem ∧
         ∀ b i, (t.core c.toNat).accRow b i = (s.core c.toNat).accRow b i) ∧
       (∀ z fa fb a b, x.res = .mma z fa fb a b → t.reg (Reg.CORE_ME_MMA c.toNat) = s.reg (Reg.CORE_ME_MMA c.toNat) + 1 ∧ t.mem = s.mem ∧
         t.liveBank c.toNat = s.liveBank c.toNat ∧
         ∀ i, (t.core c.toNat).accRow (!s.liveBank c.toNat) i = (s.core c.toNat).accRow (!s.liveBank c.toNat) i)) ∧
   (∀ (c : CoreId) (x : Started) (rest : List Started) (s : State), (s.core c.toNat).veRun = x :: rest → (s.core c.toNat).veCan x = true →
     ∃ t, exec (.engineInstructionComplete c .ve) s = .next t ∧ (t.core c.toNat).veRun = rest ∧ t.mem = s.mem ∧ t.net = s.net ∧
       t.reg (Reg.CORE_VE_OPS c.toNat) = s.reg (Reg.CORE_VE_OPS c.toNat) + 1 ∧
       (∀ n, (t.core c.toNat).tok n = if n = (tokFields x.q.ins).2 ∧ n ≠ 0 then
         ⟨((s.core c.toNat).tok n).issued, ((s.core c.toNat).tok n).done + 1, ((s.core c.toNat).tok n).eng⟩ else (s.core c.toNat).tok n)))

/-- R149, Tables 2-9 and 5-2: the integer results of VOP at width w: sums, differences and products wrap, shifts take the amount modulo the width,
saturating sums stop at the ends, division by zero gives the greatest value, and every result fits the width. -/
def Obligations.IntegerVectorOperations : Prop :=
  ∀ (a b : BitVec 32), vopInt 0x00 32 a.toNat b.toNat 0 = (a + b).toNat ∧ vopInt 0x01 32 a.toNat b.toNat 0 = (a - b).toNat ∧
    vopInt 0x02 32 a.toNat b.toNat 0 = (a * b).toNat ∧ (∀ d : BitVec 32, vopInt 0x03 32 a.toNat b.toNat d.toNat = (a * b + d).toNat) ∧
    vopInt 0x04 32 a.toNat b.toNat 0 = (if a.slt b then a else b).toNat ∧ vopInt 0x05 32 a.toNat b.toNat 0 = (if a.slt b then b else a).toNat ∧
    vopInt 0x06 32 a.toNat b.toNat 0 = (if a.slt 0 then -a else a).toNat ∧ vopInt 0x07 32 a.toNat b.toNat 0 = (-a).toNat ∧
    vopInt 0x08 32 a.toNat b.toNat 0 = (a &&& b).toNat ∧ vopInt 0x09 32 a.toNat b.toNat 0 = (a ||| b).toNat ∧
    vopInt 0x0A 32 a.toNat b.toNat 0 = (a ^^^ b).toNat ∧ vopInt 0x0B 32 a.toNat b.toNat 0 = (a <<< (b.toNat % 32)).toNat ∧
    vopInt 0x0C 32 a.toNat b.toNat 0 = (a >>> (b.toNat % 32)).toNat ∧ vopInt 0x0D 32 a.toNat b.toNat 0 = (a.sshiftRight (b.toNat % 32)).toNat ∧
    (BitVec.ofNat 32 (vopInt 0x0E 32 a.toNat b.toNat 0)).toInt = max (-(2 ^ 31)) (min (a.toInt + b.toInt) (2 ^ 31 - 1)) ∧
    (BitVec.ofNat 32 (vopInt 0x0F 32 a.toNat b.toNat 0)).toInt = max (-(2 ^ 31)) (min (a.toInt - b.toInt) (2 ^ 31 - 1)) ∧
    (b ≠ 0 → vopInt 0x2B 32 a.toNat b.toNat 0 = (a.sdiv b).toNat) ∧ vopInt 0x2B 32 a.toNat 0 0 = 2 ^ 31 - 1 ∧
    (∀ op, vopInt op 32 a.toNat b.toNat 0 < 2 ^ 32)

/-- R80, R81: a fetch at a line that the instruction cache lacks asks for the line, and for the next one unless it is held, asked for or out of
reach, by a GETS with ifetch set to the replica slice or the home; the fill that returns is installed with its data and poison, and the cycles of
the miss are counted. R95: the part of a core
that has stopped ends once its queues, tags and accesses are done at T6 with nothing left to flush; its caravan records it. -/
def Obligations.FetchAndEndOfPart : Prop :=
  (∀ (c : CoreId) (l : LineNo) (d : Line) (poison : Bool) (cyc : Nat) (s : State),
    (∀ m, m ∈ s.net → m.dst = epCore c.toNat → m.l = l → m.body ≠ .dataI ⟨d, poison⟩) → (s.core c.toNat).fetchesAt l = true →
    s.fetchable c.toNat (s.core c.toNat).pc.toNat = true → (s.core c.toNat).icLine l = none → setHas (s.core c.toNat).fetch l.toNat = false →
    ∃ t, exec (.instructionFetch c l d poison cyc) s = .next t ∧ t = { s with net := t.net, cores := t.cores } ∧
      (let asks (x : LineNo) : Msg := ⟨epCore c.toNat, epSlice ((s.repSlice x (coreDie c.toNat)).getD (s.home x)), x,
         .gets (reqNum c.toNat) (s.keyOf c.toNat false) true⟩
       t.net = s.net ++ asks l :: if s.fetchable c.toNat ((l + 1).toNat * 128) = true ∧ (s.core c.toNat).icLine (l + 1) = none ∧
         setHas (s.core c.toNat).fetch (l + 1).toNat = false then [asks (l + 1)] else []) ∧
      setHas (t.core c.toNat).fetch l.toNat = true ∧ t.core c.toNat = { s.core c.toNat with fetch := (t.core c.toNat).fetch } ∧
      (∀ e, e ≠ c.toNat → t.core e = s.core e)) ∧
  (∀ (c : CoreId) (l : LineNo) (d : Line) (poison : Bool) (cyc : Nat) (src : Ep) (rest : List Msg) (s : State),
    s.net = ⟨src, epCore c.toNat, l, .dataI ⟨d, poison⟩⟩ :: rest → s.mayCross ⟨src, epCore c.toNat, l, .dataI ⟨d, poison⟩⟩ = true →
    setHas (s.core c.toNat).fetch l.toNat = true → setHas (s.core c.toNat).fetchOnce l.toNat = false →
    ∃ t, exec (.instructionFetch c l d poison cyc) s = .next t ∧ (t.core c.toNat).icLine l = some ⟨d, poison⟩ ∧ t.mem = s.mem ∧ t.net = rest ∧
      t.get (Reg.CORE_STALL c.toNat) Fld.CORE_STALL_fetch_miss =
        min (2 ^ Fld.CORE_STALL_fetch_miss.width - 1) (s.get (Reg.CORE_STALL c.toNat) Fld.CORE_STALL_fetch_miss + cyc) ∧
      (t.core c.toNat).pc = (s.core c.toNat).pc ∧ (t.core c.toNat).s = (s.core c.toNat).s) ∧
  (∀ (c : CoreId) (g : Leg) (v : Caravan) (s : State), (s.core c.toNat).leg = some g → s.carOf g.car = some v →
    ((s.core c.toNat).phase = .stopped ∨ (s.core c.toNat).phase = .faulted) → (s.core c.toNat).ended = false → (s.core c.toNat).mvq = [] →
    (s.core c.toNat).anyOut = false → (s.core c.toNat).wsd.bufs = [] → s.performed c.toNat 6 = true → (s.core c.toNat).winPorts = [] →
    s.flushing c.toNat = false →
    ∃ t w, exec (.legPartEnd c) s = .next t ∧ (t.core c.toNat).ended = true ∧ t.carOf g.car = some w ∧ c.toNat ∈ w.last ∧ t.mem = s.mem ∧
      t.net = s.net ∧ (t.core c.toNat).phase = (s.core c.toNat).phase ∧ (t.core c.toNat).s = (s.core c.toNat).s)

/-! ### The tile mover (chapter 6) -/

/-- R110, R181: MWAIT returns the status word of a tag that is not outstanding and of which no MOVE is queued, and waits otherwise. MABORT of a tag
never used returns 0; of an outstanding one it asks the mover and waits.

R165, R173, R180, R181: a MOVE whose token wait is met and whose tag is free leaves the queue and makes its tag outstanding; a descriptor in the
own scratchpad that is not refused joins the tag's runs; an acknowledged piece counts; a tag that has reached its final status stops being
outstanding, with the status in its word and in CORE_MV_STATE; an abort is in time before the commit point and late after it. -/
def Obligations.MoverTagsWaitAndAbort : Prop :=
  ((∀ (c : CoreId) (pg : BitVec 3) (sd : BitVec 5) (tag : BitVec 8) (all : Bool) (s : State), s.Issues c (.mwait c pg sd tag all) pg [] →
     ((s.core c.toNat).moveQueued tag.toNat all = false → (if all then (s.core c.toNat).anyOut else ((s.core c.toNat).tag tag.toNat).out) = false →
       ∃ t, exec (.mwait c pg sd tag all) s = .next t ∧ s.Ran t c ((s.core c.toNat).pc + 8)
         (written (s.core c.toNat).sr sd.toNat (some 0) ((s.core c.toNat).tag tag.toNat).word) (s.core c.toNat).pr (s.core c.toNat).mr) ∧
     (((s.core c.toNat).moveQueued tag.toNat all = true ∨ (if all then (s.core c.toNat).anyOut else ((s.core c.toNat).tag tag.toNat).out) = true) →
       exec (.mwait c pg sd tag all) s = .next (s.modCore c.toNat (fun k => { k with phase := .wait (.mwait c pg sd tag all) })))) ∧
   (∀ (c : CoreId) (pg : BitVec 3) (sd : BitVec 5) (tag : BitVec 8) (s : State), s.Issues c (.mabort c pg sd tag) pg [] →
     (s.core c.toNat).moveQueued tag.toNat true = false →
     (((s.core c.toNat).tag tag.toNat).used = false →
       ∃ t, exec (.mabort c pg sd tag) s = .next t ∧ s.Ran t c ((s.core c.toNat).pc + 8)
         (written (s.core c.toNat).sr sd.toNat (some 0) 0) (s.core c.toNat).pr (s.core c.toNat).mr) ∧
     (((s.core c.toNat).tag tag.toNat).used = true → ((s.core c.toNat).tag tag.toNat).out = true → ((s.core c.toNat).tag tag.toNat).abort = 0 →
       ∃ t, exec (.mabort c pg sd tag) s = .next t ∧ s.OnlyCore t c.toNat ∧ (t.core c.toNat).phase = .wait (.mabort c pg sd tag) ∧
         (t.core c.toNat).tag tag.toNat = { (s.core c.toNat).tag tag.toNat with abort := 1 } ∧
         (∀ n, n ≠ tag.toNat → (t.core c.toNat).tag n = (s.core c.toNat).tag n) ∧ (t.core c.toNat).s = (s.core c.toNat).s))) ∧
  ((∀ (c : CoreId) (d : CoreId) (f : MoveF) (q : QEnt) (rest : List QEnt) (i : Instr) (s : State),
     (i = .moveStart c ∨ i = .engineInstructionStart c .mv) → (s.core c.toNat).mvq = q :: rest → q.ins = .move d f →
     (s.core c.toNat).frozen = false → (s.core c.toNat).tokMet f.twait.toNat q.need = true → ((s.core c.toNat).tag f.tag.toNat).out = false →
     ∃ t, exec i s = .next t ∧ (t.core c.toNat).mvq = rest ∧ ((t.core c.toNat).tag f.tag.toNat).out = true ∧
       ((t.core c.toNat).tag f.tag.toNat).used = true ∧ ((t.core c.toNat).tag f.tag.toNat).base = q.a ∧ t.mem = s.mem ∧
       (∀ n, n ≠ f.tag.toNat → (t.core c.toNat).tag n = (s.core c.toNat).tag n)) ∧
   (∀ (c : CoreId) (tag : BitVec 8) (o : Nat) (s : State),
     let x := (s.core c.toNat).tag tag.toNat
     let a := (x.base.toNat / 64 * 64 + 64 * x.next) % 2 ^ 64
     let d : Desc := BitVec.ofNat 512 (s.num (scrBase c.toNat + o) 64)
     x.out = true → x.lastRead = false → x.ended = none → x.abort = 0 → (s.core c.toNat).moverStopped = false → x.next < 65536 →
     s.OwnBytes c (BitVec.ofNat 64 a) o 64 → x.runs.all DescRun.done = true → s.descRefused c.toNat d = false →
     ∃ t, exec (.descriptorStart c tag) s = .next t ∧ t = { s with cores := t.cores } ∧
       (let y := (t.core c.toNat).tag tag.toNat
        y.next = x.next + 1 ∧ y.lastRead = d.last ∧ y.wakeEn = d.wakeEn ∧ y.evt = d.evtEn ∧ y.out = true ∧ y.ended = none ∧
        y.runs = [⟨x.next, d, 0, 0, none, d.units == 0, []⟩] ∧ stDesc.get y.word = min x.next 0xFFFF)) ∧
   (∀ (c : CoreId) (tag : BitVec 8) (n : Nat) (rs : List DescRun) (s : State),
     takeReadyRun ((s.core c.toNat).tag tag.toNat).runs = some (n, rs) →
     ∃ t, exec (.piecePerformed c tag) s = .next t ∧ t = { s with cores := t.cores, regs := t.regs } ∧
       t.reg (Reg.CORE_MV_BYTES c.toNat) = s.reg (Reg.CORE_MV_BYTES c.toNat) + BitVec.ofNat 64 n ∧
       stPieces.get ((t.core c.toNat).tag tag.toNat).word = min (2 ^ 32 - 1) (stPieces.get ((s.core c.toNat).tag tag.toNat).word + 1) ∧
       ((t.core c.toNat).tag tag.toNat).runs = rs) ∧
   (∀ (c : CoreId) (tag code : BitVec 8) (s : State),
     let x := (s.core c.toNat).tag tag.toNat
     x.final = some code → s.tagWaits c.toNat tag.toNat = false → (s.core c.toNat).sourcesIn tag.toNat = true → x.evt = false → x.poisonOut = false → code ≠ 5 → code ≠ 6 →
     ∃ t, exec (.moverFinalStatus c tag) s = .next t ∧ t = { s with cores := t.cores, regs := t.regs } ∧
       (let y := (t.core c.toNat).tag tag.toNat
        y.out = false ∧ y.runs = [] ∧ stCode.get y.word = code.toNat ∧ stPieces.get y.word = stPieces.get x.word) ∧
       t.get (Reg.CORE_MV_STATE c.toNat) Fld.CORE_MV_STATE_last_tag = tag.toNat ∧
       t.get (Reg.CORE_MV_STATE c.toNat) Fld.CORE_MV_STATE_last_status = code.toNat ∧
       (t.core c.toNat).wf = (if x.wakeEn then (s.core c.toNat).wf ||| BitVec.ofNat 16 (2 ^ x.wake.toNat) else (s.core c.toNat).wf)) ∧
   (∀ (c : CoreId) (tag : BitVec 8) (s : State),
     let x := (s.core c.toNat).tag tag.toNat
     x.abort = 1 → x.out = true →
     ∃ t, exec (.moverAbortReceive c tag) s = .next t ∧ t.mem = s.mem ∧ t.net = s.net ∧
       ((t.core c.toNat).tag tag.toNat).abort = if x.committed then 3 else 2))

/-- R174, R176, R177, R184: while no earlier tag of the rotation is outstanding, a piece that copies a row of the own scratchpad into one line of the partition's stacked memory leaves as one MWR (MWRS where
the descriptor streams) to the line's home: its byte mask names exactly the bytes written and its data holds the source bytes. The piece is in flight and
the descriptor is issued. What the mover's reads found wrong takes its effect after the piece. -/
def Obligations.MoverPieceToMemory : Prop :=
  ∀ (c : CoreId) (tag : BitVec 8) (r : DescRun) (o m now : Nat) (s : State),
    let x := (s.core c.toNat).tag tag.toNat
    let d : Desc := r.words
    x.out = true → x.abort = 0 → x.ended = none → (s.core c.toNat).moverStopped = false →
    (∀ u, u ∈ (s.core c.toNat).before tag.toNat → ((s.core c.toNat).tag u).out = false) → x.runs = [r] → r.issued = false →
    r.row = 0 → r.col = 0 → r.flight = [] → d.xform = 0 → d.srcSpace = 0 → d.dstSpace = 0 → d.n1 = 1 → d.n2 = 1 → d.n3 = 1 → 0 < d.len0 →
    s.OwnBytes c (BitVec.ofNat 64 (d.word 1)) o d.len0 → m % 128 + d.len0 ≤ 128 →
    (∀ j, j < d.len0 → s.place c.toNat ((d.word 2 + j) % 2 ^ 64) = .mem (m + j)) → d.word 2 % 128 = m % 128 →
    s.place c.toNat (d.word 2 / 128 * 128) = .mem (m / 128 * 128) → s.coreReach c.toNat (m / 128 * 128) true = true → m < 2 ^ 52 →
    ∃ t data, exec (.pieceIssue c tag [] now) s = .next t ∧ t.mem = s.mem ∧
      (∀ found, found ≠ [] → exec (.pieceIssue c tag found now) s = .next (abortsGo (coherent (forEach found t hwError)))) ∧
      t.net = s.net ++ [⟨epCore c.toNat, epSlice (s.home (lineOf m)), lineOf m,
        if d.stream then .mwrs (reqNum c.toNat) (s.keyOf c.toNat true) data (byteMask (m % 128) d.len0) false
        else .mwr (reqNum c.toNat) (s.keyOf c.toNat false) data (byteMask (m % 128) d.len0) false⟩] ∧
      (∀ j, j < d.len0 → data.extractLsb' (8 * (m % 128 + j)) 8 = s.byte (scrBase c.toNat + o + j)) ∧
      (t.core c.toNat).mvLast = tag.toNat ∧ ((t.core c.toNat).tag tag.toNat).runs = [{ r with row := 1, col := 0, index := none, issued := true, flight := [⟨d.len0, .line (lineOf m)⟩] }]

/-! ### Coherence (chapters 7 and 8) -/

/-- R228, R229: a request that reaches its home enters the line order behind the earlier ones with its sender, requester number, key and arrival
cycle. One that arrives in the same cycle as the last one is ordered with it by its distance above the rotation pointer of the slice, which becomes one
above the first; the tie is counted. A core's SWR or RADD is then no longer unordered. Nothing else changes. -/
def Obligations.RequestsEnterTheLineOrder : Prop :=
  ∀ (i : Instr) (l : LineNo) (r : Req) (b : MsgBody) (s : State),
    ((∃ src sl num key ifetch cyc, i = .gets src sl l num key ifetch cyc ∧ s.home l = sl.val ∧
        r = ⟨src, num, key, .gets ifetch (epIsSlice src), some cyc⟩ ∧ b = .gets num key ifetch) ∨
      (∃ src num key cyc, i = .getx src l num key cyc ∧ r = ⟨src, num, key, .getx, some cyc⟩ ∧ b = .getx num key) ∨
      (∃ src num key cyc, i = .upg src l num key cyc ∧ r = ⟨src, num, key, .upg, some cyc⟩ ∧ b = .upg num key) ∨
      (∃ src num key cyc, i = .mrd src l num key cyc ∧ r = ⟨src, num, key, .mrd, some cyc⟩ ∧ b = .mrd num key) ∨
      (∃ src num key d be p cyc, i = .mwr src l num key d be p cyc ∧ r = ⟨src, num, key, .mwr d be p, some cyc⟩ ∧ b = .mwr num key d be p) ∨
      (∃ src num key d be p cyc, i = .mwrs src l num key d be p cyc ∧ r = ⟨src, num, key, .mwrs d be p, some cyc⟩ ∧ b = .mwrs num key d be p) ∨
      (∃ src num key off op w x y cyc, i = .amoH src l num key off op w x y cyc ∧ r = ⟨src, num, key, .amoH off op w x y, some cyc⟩ ∧
        b = .amoH num key off op w x y) ∨
      (∃ c d be p cyc, i = .swr c l d be p cyc ∧ s.lineRefuses (lineBase l) = false ∧
        r = ⟨epCore c.toNat, reqNum c.toNat, s.keyOf c.toNat false, .swr d be p, some cyc⟩ ∧ b = .swr d be p) ∨
      (∃ src num key typ d p cyc, i = .raddMsg src l num key typ d p cyc ∧ s.lineRefuses (lineBase l) = false ∧ src.toNat < 0x1000 ∧
        r = ⟨src, num, key, .radd typ d p, some cyc⟩ ∧ b = .radd num key typ d p)) →
    s.Quiet → s.isNext ⟨r.src, epSlice (s.home l), l, b⟩ = true →
    let q := s.lineq l
    let u := (s.recv ⟨r.src, epSlice (s.home l), l, b⟩).entering i
    ((∀ x, q.wait.getLast? = some x → x.cyc ≠ r.cyc) →
      ∃ t, exec i s = .next t ∧ t = { u with llc := { u.llc with lineq := t.llc.lineq } } ∧ t.lineq l = ⟨q.act, q.wait ++ [r], none⟩ ∧
        (∀ k, k ≠ l → t.lineq k = s.lineq k)) ∧
    (∀ front x, q.wait = front ++ [x] → x.cyc = r.cyc → (∀ y, y ∈ front → y.cyc ≠ r.cyc) → q.tie = none →
      let tie := sliceReg Reg.DIR_SLICE_TIE (s.home l)
      let p := s.get tie Fld.DIR_SLICE_TIE_next
      let before := decide ((r.num.toNat + 8192 - p) % 8192 < (x.num.toNat + 8192 - p) % 8192)
      ∃ t, exec i s = .next t ∧ t = { u with llc := { u.llc with lineq := t.llc.lineq }, regs := t.regs } ∧
        t.lineq l = ⟨q.act, front ++ (if before then [r, x] else [x, r]), some p⟩ ∧ (∀ k, k ≠ l → t.lineq k = s.lineq k) ∧
        t.get tie Fld.DIR_SLICE_TIE_next = ((if before then r else x).num.toNat + 1) % 8192 ∧
        (∀ g, g ≠ tie → g ≠ sliceReg Reg.DIR_CNT_TIE (s.home l) → t.reg g = s.reg g) ∧
        t.reg (sliceReg Reg.DIR_CNT_TIE (s.home l)) = s.reg (sliceReg Reg.DIR_CNT_TIE (s.home l)) + 1)

/-- R230, R234, R235: the home takes the next request and counts it. Of a line it holds nothing of, it asks memory; a GETS of an owned line is forwarded to
the owner; a GETX or UPG of a shared line sends INV to every sharer but the requester and awaits their answers. -/
def Obligations.TransactionsBegin : Prop :=
  ∀ (l : LineNo) (r : Req) (s : State), s.Homes [(l.toNat, ⟨none, [r], none⟩)] → s.sched.abortQ = [] → s.armed (sliceDie (s.home l)) 2 0 = none →
    (s.HomeEmpty l → (r.op = .gets false none ∨ r.op = .gets true none ∨ r.op = .getx ∨ r.op = .mrd) →
      ∃ t, exec (.transactionBegin l false) s = .next t ∧ t.lineq l = ⟨some { Txn.of r with mem := true }, [], none⟩ ∧
        t.stk.fills = s.stk.fills ++ [l.toNat] ∧ t.net = s.net ∧ t.mem = s.mem ∧ t.cores = s.cores ∧
        t.reg (sliceReg Reg.DIR_CNT_TXN (s.home l)) = s.reg (sliceReg Reg.DIR_CNT_TXN (s.home l)) + 1) ∧
    (∀ k x d o ifetch via, s.HomeHolds l k x d → d.owner = some o → d.isFull r.core = false → r.op = .gets ifetch via →
      ∃ t, exec (.transactionBegin l false) s = .next t ∧ t.lineq l = ⟨some { Txn.of r with owner := some o }, [], none⟩ ∧
        t.net = s.net ++ [⟨epSlice (s.home l), epCore o, l, .fwdGets r.num ifetch⟩] ∧ t.mem = s.mem ∧ t.cores = s.cores ∧
        t.llc.ways = s.llc.ways ∧
        t.reg (sliceReg Reg.DIR_CNT_TXN (s.home l)) = s.reg (sliceReg Reg.DIR_CNT_TXN (s.home l)) + 1) ∧
    (∀ k x d, s.HomeHolds l k x d → d.owner = none → d.coarse = false → d.reps = 0 → (r.op = .getx ∨ r.op = .upg) →
      d.sharers.filter (fun c => some c != some r.core) ≠ [] →
      ∃ t tx, exec (.transactionBegin l false) s = .next t ∧ t.lineq l = ⟨some tx, [], none⟩ ∧ tx.req = r ∧
        tx.invs = d.sharers.filter (fun c => some c != some r.core) ∧ tx.owner = none ∧ tx.mem = false ∧
        t.net = s.net ++ (d.sharers.filter (fun c => some c != some r.core)).map (fun c => ⟨epSlice (s.home l), epCore c, l, .inv⟩) ∧
        t.mem = s.mem ∧ t.cores = s.cores ∧ t.llc.ways = s.llc.ways)

/-- R217, R236, R237: data or a grant for a waiting miss of an L1 installs the line in the state that the message names, ends the miss and, in E or M, starts
the hold; a granted store is performed in the line, which is then in M. No byte of memory changes. -/
def Obligations.FillsInstallLines : Prop :=
  (∀ (c : CoreId) (l : LineNo) (d : Line) (poison : Bool) (st : Moesi) (i : Instr) (b : MsgBody) (m : Miss) (u s : State),
    (i = .dataS c l d poison ∧ b = .dataS ⟨d, poison⟩ ∧ st = .s ∧ m.once = false ∨ i = .dataE c l d poison ∧ b = .dataE ⟨d, poison⟩ ∧ st = .e ∨
      i = .dataM c l d poison ∧ b = .dataM ⟨d, poison⟩ ∧ st = .m) →
    s.Homes [] → s.arriveTo (epCore c.toNat) l b = some u → (s.core c.toNat).missOf l = some m →
    (∀ a, a ∈ m.accs → ∃ id, a.kind = .load id) →
    ∃ t, exec i s = .next t ∧ t.mem = s.mem ∧ (t.core c.toNat).l1Line l = some ⟨l, st, ⟨d, poison⟩⟩ ∧ (t.core c.toNat).missOf l = none ∧
      (st ≠ .s → (t.core c.toNat).isHeld l = true)) ∧
  (∀ (c : CoreId) (l : LineNo) (m : Miss) (x : L1Line) (a : MemAcc) (v : Nat) (p : Bool) (u s : State),
    s.Homes [] → s.arriveTo (epCore c.toNat) l .grant = some u → (s.core c.toNat).missOf l = some m → (s.core c.toNat).l1Line l = some x →
    m.accs = [a] → a.kind = .store v p →
    ∃ t, exec (.grant c l) s = .next t ∧ t.mem = s.mem ∧
      (t.core c.toNat).l1Line l = some ⟨l, .m, ⟨linePut x.ld.d a.off a.len v, x.ld.poison || p⟩⟩ ∧ (t.core c.toNat).missOf l = none ∧
      (t.core c.toNat).isHeld l = true)

/-- Table 8-7, R231, R234, R237: an L1 that holds the line outside a hold, with no win of its own to come, answers at once. FWD_GETS: DATA_S or
DATA_I to a reader on its die, to the home in FWD_DONE for another; M and E become O and S; FWD_GETX: DATA_M the same way, the copy goes; FWD_RD: the data to the home, nothing changes; RECALL: the data to the home, the copy goes or stays in
S; INV: an S copy goes, INV_ACK. An L1 that holds and awaits nothing answers FWD_MISS. A hold that ends with nothing kept only ends. -/
def Obligations.OwnersAnswerForwards : Prop :=
  (∀ (c : CoreId) (l : LineNo) (i : Nat) (x : L1Line) (num : ReqNum) (u s : State), s.Homes [] → s.L1Holds c l i x →
    let home := epSlice (s.home l)
    let dirty := x.st == .m || x.st == .o
    let near := num.toNat < 0x1000 ∧ coreDie num.toNat = coreDie c.toNat
    let calm := (s.core c.toNat).winning l = false
    (∀ ifetch, calm → s.arriveTo (epCore c.toNat) l (.fwdGets num ifetch) = some u →
      ∃ t, exec (.fwdGets c l num ifetch) s = .next t ∧ t = { u with cores := t.cores, net := t.net } ∧
        t.net = u.net ++ (if near then [⟨epCore c.toNat, epCore num.toNat, l, if ifetch then .dataI x.ld else .dataS x.ld⟩] else []) ++
          [⟨epCore c.toNat, home, l, .fwdDone dirty (some (if dirty then .o else .s)) (if near then none else some x.ld)⟩] ∧
        (t.core c.toNat).l1At i = some { x with st := if dirty then .o else .s } ∧ (∀ d, d ≠ c.toNat → t.core d = s.core d)) ∧
    (calm → s.arriveTo (epCore c.toNat) l (.fwdGetx num) = some u →
      ∃ t, exec (.fwdGetx c l num) s = .next t ∧ t = { u with cores := t.cores, net := t.net } ∧
        t.net = u.net ++ (if near then [⟨epCore c.toNat, epCore num.toNat, l, .dataM x.ld⟩] else []) ++
          [⟨epCore c.toNat, home, l, .fwdDone dirty none (if near then none else some x.ld)⟩] ∧
        (t.core c.toNat).l1At i = none ∧ (∀ d, d ≠ c.toNat → t.core d = s.core d)) ∧
    (calm → s.arriveTo (epCore c.toNat) l .fwdRd = some u →
      exec (.fwdRd c l) s = .next (u.send (epCore c.toNat) home l (.fwdDone dirty (some x.st) (some x.ld)))) ∧
    (∀ keepS, calm → s.arriveTo (epCore c.toNat) l (.recall keepS) = some u →
      ∃ t, exec (.recall c l keepS) s = .next t ∧ t = { u with cores := t.cores, net := t.net } ∧
        t.net = u.net ++ [⟨epCore c.toNat, home, l, .recallData x.ld dirty⟩] ∧
        (t.core c.toNat).l1At i = (if keepS then some { x with st := .s } else none) ∧ (∀ d, d ≠ c.toNat → t.core d = s.core d)) ∧
    (∀ src, s.isNext ⟨src, epCore c.toNat, l, .inv⟩ = true →
      ∃ t, exec (.inv src c l) s = .next t ∧ t.net = (s.recv ⟨src, epCore c.toNat, l, .inv⟩).net ++ [⟨epCore c.toNat, src, l, .invAck⟩] ∧
        t.mem = s.mem ∧ (t.core c.toNat).l1At i = (if x.st = .s then none else some x))) ∧
  (∀ (c : CoreId) (l : LineNo) (num : ReqNum) (f : Bool) (i : Instr) (b : MsgBody) (u s : State),
    (i = .fwdGets c l num f ∧ b = .fwdGets num f ∨ i = .fwdGetx c l num ∧ b = .fwdGetx num ∨ i = .fwdRd c l ∧ b = .fwdRd ∨
      i = .recall c l f ∧ b = .recall f) →
    s.Homes [] → (s.core c.toNat).l1Line l = none → (s.core c.toNat).missOf l = none → (s.core c.toNat).isHeld l = false →
    (s.core c.toNat).kept = [] → s.arriveTo (epCore c.toNat) l b = some u →
    exec i s = .next (u.send (epCore c.toNat) (epSlice (s.home l)) l .fwdMiss)) ∧
  (∀ (c : CoreId) (l : LineNo) (s : State), s.Homes [] → (s.core c.toNat).kept = [] →
    ∃ t, exec (.holdExpire c l) s = .next t ∧ s.OnlyCore t c.toNat ∧ (t.core c.toNat).isHeld l = false ∧
      t.core c.toNat = { s.core c.toNat with hold := (t.core c.toNat).hold })

/-- R226, R232, R235, R255: what the answers of a transaction do at its home: INV_ACK and BINV_ACK end one wait (the next die's BINV follows), the last
one lets FWD_GETX go to the owner; RECALL_DATA brings the owner's data, FWD_MISS counts a retry; FWD_DONE of a GETX makes the requester the owner and
passes on data that came with it. The last INV_ACK of an UPG that still holds its copy makes the requester
the owner and sends GRANT. A BINV sends INV to every in-service L1 of its die. -/
def Obligations.AnswersReachTheirHome : Prop :=
  (∀ (l : LineNo) (tx : Txn) (w : List Req) (s : State), s.Homes [(l.toNat, ⟨some tx, w, none⟩)] →
    let home := epSlice (s.home l)
    (∀ c : CoreId, s.isNext ⟨epCore c.toNat, home, l, .invAck⟩ = true → tx.fwdNext = none → ({ tx with invs := tx.invs.erase c.toNat } : Txn).ready = false →
      exec (.invAck c home l) s = .next ((s.recv ⟨epCore c.toNat, home, l, .invAck⟩).putTxn l { tx with invs := tx.invs.erase c.toNat })) ∧
    (∀ (die : Fin 8) d rest, s.isNext ⟨epBroadcast die.val, home, l, .binvAck⟩ = true → tx.binv = some die.val → tx.binvNext = d :: rest →
      ∃ t, exec (.binvAck die l) s = .next t ∧ t.lineq l = ⟨some { tx with binv := some d, binvNext := rest }, w, none⟩ ∧
        t.net = (s.recv ⟨epBroadcast die.val, home, l, .binvAck⟩).net ++ [⟨home, epBroadcast d, l, .binv⟩] ∧ t.mem = s.mem ∧ t.cores = s.cores ∧
        t.reg (sliceReg Reg.DIR_CNT_BINV (s.home l)) = s.reg (sliceReg Reg.DIR_CNT_BINV (s.home l)) + 1) ∧
    (∀ (c : CoreId) o k x d, tx.fwdNext = some o → tx.invs = [c.toNat] → tx.binv = none → tx.binvNext = [] → tx.reps = [] → s.HomeHolds l k x d →
      d.owner = some o → s.isNext ⟨epCore c.toNat, home, l, .invAck⟩ = true →
      ∃ t, exec (.invAck c home l) s = .next t ∧ t.lineq l = ⟨some { tx with invs := [], fwdNext := none, owner := some o }, w, none⟩ ∧
        t.net = (s.recv ⟨epCore c.toNat, home, l, .invAck⟩).net ++ [⟨home, epCore o, l, .fwdGetx tx.req.num⟩] ∧ t.mem = s.mem ∧
        t.cores = s.cores) ∧
    (∀ c : CoreId, tx.owner = some c.toNat → tx.invs ≠ [] → (s.dirOf l).owner ≠ some c.toNat → s.isNext ⟨epCore c.toNat, home, l, .fwdMiss⟩ = true →
      exec (.fwdMiss c l) s = .next (((s.recv ⟨epCore c.toNat, home, l, .fwdMiss⟩).count (sliceReg Reg.DIR_CNT_RETRY (s.home l))).putTxn l
        { tx with owner := none })) ∧
    (∀ (c : CoreId) (d : Line) (poison dirty : Bool) k, tx.owner = some c.toNat → tx.invs ≠ [] → (∀ f v, tx.req.op ≠ .gets f v) → tx.req.op ≠ .upg → s.homeWay l = none →
      s.findShadow l = some k → s.isNext ⟨epCore c.toNat, home, l, .recallData ⟨d, poison⟩ dirty⟩ = true →
      ∃ t, exec (.recallData c l d poison dirty) s = .next t ∧ t.mem = s.mem ∧ t.cores = s.cores ∧
        t.lineq l = ⟨some { tx with owner := none, got := some (⟨d, poison⟩, dirty) }, w, none⟩ ∧
        t.net = (s.recv ⟨epCore c.toNat, home, l, .recallData ⟨d, poison⟩ dirty⟩).net)) ∧
  (∀ (c : CoreId) (l : LineNo) (r : Req) (k : Nat) (x : Way) (d : Dir) (s : State),
    s.Homes [(l.toNat, ⟨some { Txn.of r with invs := [c.toNat], upgHit := true }, [], none⟩)] → r.op = .upg → s.HomeHolds l k x d →
    d.list.any (fun p => p.2.2 == r.core) = true → s.isNext ⟨epCore c.toNat, epSlice (s.home l), l, .invAck⟩ = true →
    ∃ t, exec (.invAck c (epSlice (s.home l)) l) s = .next t ∧ t.lineq l = ⟨none, [], none⟩ ∧ t.dirOf l = Dir.ownedBy r.core ∧ t.mem = s.mem ∧
      t.net = (s.recv ⟨epCore c.toNat, epSlice (s.home l), l, .invAck⟩).net ++ [⟨epSlice (s.home l), epCore r.core, l, .grant⟩]) ∧
  (∀ (c : CoreId) (l : LineNo) (r : Req) (k : Nat) (x : Way) (d : Dir) (dirty : Bool) (st : Option Moesi) (dp : Option (Line × Bool)) (s : State),
    let m : Msg := ⟨epCore c.toNat, epSlice (s.home l), l, .fwdDone dirty st (dp.map (fun y => ⟨y.1, y.2⟩))⟩
    s.Homes [(l.toNat, ⟨some { Txn.of r with owner := some c.toNat }, [], none⟩)] → (r.op = .getx ∨ r.op = .upg) → s.HomeHolds l k x d →
    s.homeIsolated l = false → s.isNext m = true →
    ∃ t, exec (.fwdDone c l dirty st dp) s = .next t ∧ t.lineq l = ⟨none, [], none⟩ ∧ t.dirOf l = Dir.ownedBy r.core ∧ t.mem = s.mem ∧
      t.net = (s.recv m).net ++ (match dp with
        | some y => [⟨epSlice (s.home l), epCore r.core, l, .dataM ⟨y.1, y.2⟩⟩]
        | none => [])) ∧
  (∀ (die : Fin 8) (l : LineNo) (s : State), s.Homes [] → s.isNext ⟨epSlice (s.home l), epBroadcast die.val, l, .binv⟩ = true →
    ∃ t, exec (.binv die l) s = .next t ∧ t.mem = s.mem ∧ t.cores = s.cores ∧ t.regs = s.regs ∧
      (s.dieCores die.val ≠ [] → t.llc.binv = s.llc.binv ++ [(die.val, l.toNat, s.dieCores die.val)] ∧
        t.net = (s.recv ⟨epSlice (s.home l), epBroadcast die.val, l, .binv⟩).net ++
          (s.dieCores die.val).map (fun c => ⟨epBroadcast die.val, epCore c, l, .inv⟩)) ∧
      (s.dieCores die.val = [] →
        t.net = (s.recv ⟨epSlice (s.home l), epBroadcast die.val, l, .binv⟩).net ++ [⟨epBroadcast die.val, epSlice (s.home l), l, .binvAck⟩]))

/-- R211, R231, Table 8-6: a victim offered to a home that holds the line leaves the entry without the L1 and is accepted; VICT_D and CLEAN_D bring the dirty data
into the data way. WB_ACK settles the offer. A mover write's DONE makes its piece ready.

R233, R234, R238, R239: a GETS at a replica slice without a replica of the line goes on to the home, with a fill recorded under the die's epoch; a
replica slice that is told to invalidate a replica sends INV to the ten slots of every marked row, and without marked rows discards it and answers REP_ACK; REP_ACK and REP_DROP clear the
die's bit at the home; REP_FWD serves the reader from the replica and marks its row; data for a fill that is no longer wanted serves the reader
once. -/
def Obligations.VictimsAndReplicas : Prop :=
  ((∀ (c : CoreId) (l : LineNo) (k : Nat) (x : Way) (d : Dir) (s : State), s.Homes [] → s.HomeHolds l k x d →
     let home := epSlice (s.home l)
     (∀ (data : Line) (poison : Bool), s.isNext ⟨epCore c.toNat, home, l, .victD ⟨data, poison⟩⟩ = true →
       ∃ t, exec (.victD c l data poison) s = .next t ∧
         t.wayAt k = some { (x.withDir (d.without c.toNat).settle) with ld := ⟨data, poison⟩, dirty := true } ∧ t.mem = s.mem ∧ t.cores = s.cores ∧
         t.net = (s.recv ⟨epCore c.toNat, home, l, .victD ⟨data, poison⟩⟩).net ++ [⟨home, epCore c.toNat, l, .wbAck true⟩]) ∧
     (∀ (key : Key) e, s.isNext ⟨epCore c.toNat, home, l, .victC key⟩ = true → (s.core c.toNat).offered.find? (fun e => e.1 == l.toNat) = some e →
       ∃ t, exec (.victC c l key) s = .next t ∧ t.wayAt k = some (x.withDir (d.without c.toNat).settle) ∧ t.mem = s.mem ∧ t.cores = s.cores ∧
         t.net = (s.recv ⟨epCore c.toNat, home, l, .victC key⟩).net ++ [⟨home, epCore c.toNat, l, .wbAck true⟩]) ∧
     (∀ (data : Line) (poison : Bool), s.isNext ⟨epCore c.toNat, home, l, .cleanD ⟨data, poison⟩⟩ = true → d.owner ≠ some c.toNat →
       ∃ t, exec (.cleanD c l data poison) s = .next t ∧ t.wayAt k = some { x with ld := ⟨data, poison⟩, dirty := true } ∧ t.mem = s.mem ∧
         t.cores = s.cores ∧ t.net = (s.recv ⟨epCore c.toNat, home, l, .cleanD ⟨data, poison⟩⟩).net)) ∧
   (∀ (c : CoreId) (l : LineNo) (ok : Bool) (u s : State), s.Homes [] → s.arriveTo (epCore c.toNat) l (.wbAck ok) = some u →
     (s.core c.toNat).isOffered l = true → (s.core c.toNat).missOf l = none →
     exec (.wbAck c l ok) s = .next (u.modCore c.toNat (fun k => { k with offered := k.offered.filter (fun e => e.1 != l.toNat) }))) ∧
   (∀ (c : CoreId) (tag : BitVec 8) (l : LineNo) (r : DescRun) (f : Flight) (old : W64) (poison : Bool) (u s : State), s.Homes [] →
     s.arriveTo (epCore c.toNat) l (.done 0 old poison) = some u → ((s.core c.toNat).tag tag.toNat).runs = [r] → r.flight = [f] → f.wait = .line l →
     (s.core c.toNat).tags.filter (fun e => e.1 != tag.toNat) = [] →
     ∃ t, exec (.done (epCore c.toNat) l 0 ⟨old, poison⟩) s = .next t ∧ t.mem = s.mem ∧ t.net = u.net ∧
       ((t.core c.toNat).tag tag.toNat).runs = [{ r with flight := [{ f with wait := .ready }] }])) ∧
  ((∀ (src : Ep) (sl : SliceId) (l : LineNo) (num : ReqNum) (key : Key) (ifetch : Bool) (cyc : Nat) (s : State), s.Homes [] → s.home l ≠ sl.val →
     s.findWay sl.val l true = none → s.isNext ⟨src, epSlice sl.val, l, .gets num key ifetch⟩ = true →
     ∃ t, exec (.gets src sl l num key ifetch cyc) s = .next t ∧ t.mem = s.mem ∧ t.cores = s.cores ∧
       t.net = (s.recv ⟨src, epSlice sl.val, l, .gets num key ifetch⟩).net ++ [⟨epSlice sl.val, epSlice (s.home l), l, .gets num key ifetch⟩] ∧
       t.llc.fills = s.llc.fills ++ [⟨sl.val, l, num, ifetch, false, s.reg (Reg.DIR_ACQ_EPOCH (sliceDie sl.val)), none⟩] ∧
       t.reg (sliceReg Reg.LLC_CNT_LOOKUP sl.val) = s.reg (sliceReg Reg.LLC_CNT_LOOKUP sl.val) + 1) ∧
   (∀ (sl : SliceId) (l : LineNo) (k : Nat) (x : Way) (rows : BitVec 32) (e : W64) (s : State), s.Homes [] → s.findWay sl.val l true = some k →
     s.wayAt k = some x → x.use = .replica rows e → markedSlots (sliceDie sl.val) rows ≠ [] → s.removing sl.val l = false →
     s.isNext ⟨epSlice (s.home l), epSlice sl.val, l, .repInv⟩ = true →
     ∃ t, exec (.repInv sl l) s = .next t ∧ t.wayAt k = some x ∧ t.mem = s.mem ∧ t.cores = s.cores ∧
       t.llc.repInv = s.llc.repInv ++ [(sl.val, l.toNat, markedSlots (sliceDie sl.val) rows, true)] ∧
       t.net = (s.recv ⟨epSlice (s.home l), epSlice sl.val, l, .repInv⟩).net ++
         (markedSlots (sliceDie sl.val) rows).map (fun c => ⟨epSlice sl.val, epCore c, l, .inv⟩)) ∧
   (∀ (sl : SliceId) (l : LineNo) (k : Nat) (x : Way) (e : W64) (s : State), s.Homes [] → s.findWay sl.val l true = some k → s.wayAt k = some x →
     x.use = .replica 0 e → s.removing sl.val l = false → s.isNext ⟨epSlice (s.home l), epSlice sl.val, l, .repInv⟩ = true →
     ∃ t, exec (.repInv sl l) s = .next t ∧ t.wayAt k = none ∧ (∀ j, j ≠ k → t.wayAt j = s.wayAt j) ∧ t.mem = s.mem ∧ t.cores = s.cores ∧
       t.net = (s.recv ⟨epSlice (s.home l), epSlice sl.val, l, .repInv⟩).net ++ [⟨epSlice sl.val, epSlice (s.home l), l, .repAck⟩]) ∧
   (∀ (sl : SliceId) (l : LineNo) (k : Nat) (x : Way) (d : Dir) (tx : Txn) (w : List Req) (s : State),
     s.Homes [(l.toNat, ⟨some tx, w, none⟩)] → s.HomeHolds l k x d → tx.invs ≠ [] →
     s.isNext ⟨epSlice sl.val, epSlice (s.home l), l, .repAck⟩ = true →
     ∃ t, exec (.repAck sl l) s = .next t ∧ t.lineq l = ⟨some { tx with reps := tx.reps.erase (sliceDie sl.val) }, w, none⟩ ∧
       (t.dirOf l).reps.getLsbD (sliceDie sl.val) = false ∧ t.mem = s.mem ∧ t.cores = s.cores) ∧
   (∀ (sl : SliceId) (l : LineNo) (k : Nat) (x : Way) (d : Dir) (s : State), s.Homes [] → s.HomeHolds l k x d →
     s.isNext ⟨epSlice sl.val, epSlice (s.home l), l, .repDrop⟩ = true →
     ∃ t, exec (.repDrop sl l) s = .next t ∧ (t.dirOf l).reps.getLsbD (sliceDie sl.val) = false ∧ t.mem = s.mem ∧ t.cores = s.cores ∧
       t.net = (s.recv ⟨epSlice sl.val, epSlice (s.home l), l, .repDrop⟩).net) ∧
   (∀ (sl : SliceId) (l : LineNo) (k : Nat) (x : Way) (rows : BitVec 32) (e : W64) (num : ReqNum) (key : Key) (u s : State), s.Homes [] →
     s.findWay sl.val l true = some k → s.wayAt k = some x → x.use = .replica rows e → s.removing sl.val l = false → coreDie (num.toNat % 4096) = sliceDie sl.val →
     s.arriveTo (epSlice sl.val) l (.repFwd num key false none) = some u →
     ∃ t, exec (.repFwd sl l num key false none) s = .next t ∧
       t.wayAt k = some { x with use := .replica (rows ||| BitVec.ofNat 32 (2 ^ (num.toNat % 4096 / 16 % 32))) e } ∧ t.mem = s.mem ∧
       t.cores = s.cores ∧ t.net = u.net ++ [⟨epSlice sl.val, epCore (num.toNat % 4096), l, .dataS x.ld⟩] ∧
       t.reg (sliceReg Reg.LLC_CNT_REPL_HIT sl.val) = s.reg (sliceReg Reg.LLC_CNT_REPL_HIT sl.val) + 1) ∧
   (∀ (sl : SliceId) (l : LineNo) (d : Line) (poison ifetch : Bool) (num : ReqNum) (key : Key) (u s : State), s.Homes [] → s.llc.fills = [] →
     s.arriveTo (epSlice sl.val) l (.repData ⟨d, poison⟩ num key ifetch) = some u →
     exec (.repData sl l d poison num key ifetch) s = .next ((u.modCore (num.toNat % 4096) (fun k =>
       if ifetch then { k with fetchOnce := setIns k.fetchOnce l.toNat }
       else { k with miss := k.miss.map (fun m => if m.line = l then { m with once := true } else m) })).send
         (epSlice sl.val) (epCore (num.toNat % 4096)) l (if ifetch then .dataI ⟨d, poison⟩ else .dataS ⟨d, poison⟩))))

/-! ### Memory (chapter 12) -/

/-- R327, R224: a line read from an ACTIVE channel without error goes to its home, which places it clean and gives the reader of an UNCACHED line
DATA_E and its ownership; a buffer entry issues its write once; a completed write stores exactly the line's 128 bytes.

R337 to R341: the scrubber moves to the next line, and after the last one to line 0 with one more pass; a temperature reading is kept with its maximum and
sets the refresh band, up at once and down only 3 °C below; a counting window ends at zero; a claimed map-out entry is stored in flash. -/
def Obligations.MemoryControllers : Prop :=
  ((∀ (l : LineNo) (r : Req) (w : Nat) (now : Nat) (s : State),
     let g := s.home l
     s.Homes [(l.toNat, ⟨some { Txn.of r with mem := true }, [], none⟩)] → r.op = .gets false none → l.toNat ∈ s.stk.fills → s.HomeEmpty l →
     s.sched.abortQ = [] → s.stk.wr = [] → s.chanGone (s.chanOf (lineBase l)) = false → s.lineBad (lineBase l) = .clean →
     s.homeIsolated l = false → s.chanWaits (lineBase l) = false → s.llc.promises = [] → s.noAlloc g (setOf l) (s.homeMask g r.key) r.key = false → s.freeWay g (setOf l) (s.homeMask g r.key) = some w →
     s.armed (sliceDie (wayKey g (setOf l) w / 131072)) 2 0 = none →
     ∃ t, exec (.memoryReadReturn l [] [] [] now) s = .next t ∧ t.lineq l = ⟨none, [], none⟩ ∧ t.mem = s.mem ∧ t.cores = s.cores ∧
       t.wayAt (wayKey g (setOf l) w) = some ⟨l, s.memLine l, false, none, .home (Dir.ownedBy r.core) none false⟩ ∧
       t.net = s.net ++ [⟨epSlice g, epCore r.core, l, .dataE (s.memLine l)⟩]) ∧
   (∀ (sl : SliceId) (l : LineNo) (e : VbEnt) (s : State), s.Homes [] → s.vbuf sl.val = [e] → s.rbuf sl.val = [] → e.line = l → e.issued = false →
     s.mirrored (lineBase l) = false →
     ∃ t, exec (.victimBufferWrite sl l) s = .next t ∧ t.vbuf sl.val = [{ e with issued := true }] ∧ t.stk.wr = s.stk.wr ++ [(l.toNat, e.ld)] ∧
       t.reg (sliceReg Reg.LLC_CNT_WB (s.home l)) = s.reg (sliceReg Reg.LLC_CNT_WB (s.home l)) + 1 ∧ t.mem = s.mem ∧ t.net = s.net) ∧
   (∀ (l : LineNo) (ld : LineData) (rest : List (Nat × LineData)) (s : State), s.Homes [] → s.stk.wr = (l.toNat, ld) :: rest →
     s.gmap (lineBase l / 2 ^ 30) Fld.PRT_GMAP_mirrored ≠ 1 → s.chanGone (s.chanOf (lineBase l)) = false →
     s.chanState (s.chanOf (lineBase l)) ≠ 0 → s.armed (s.chanOf (lineBase l) / 128) 1 0 = none →
     ∃ t, exec (.memoryWriteComplete l) s = .next t ∧ (∀ j, j < 128 → t.byte (lineBase l + j) = ld.d.extractLsb' (8 * j) 8) ∧
       (∀ a, a < lineBase l ∨ lineBase l + 128 ≤ a → t.byte a = s.byte a) ∧ t.poisoned (lineBase l) = ld.poison ∧ t.stk.wr = rest ∧ t.net = s.net ∧
       t.cores = s.cores)) ∧
  ((∀ (stack : StackId) (now : Nat) (s : State),
     let r := Reg.MEM_STK_SCRUB (stack.val / 4) (stack.val % 4)
     let p := s.get r Fld.MEM_STK_SCRUB_position
     s.flag (Reg.MEM_DIE_CTL (stack.val / 4)) Fld.MEM_DIE_CTL_scrub_en = true →
     ∃ t, exec (.patrolScrubRead stack [] [] now) s = .next t ∧
       t.get r Fld.MEM_STK_SCRUB_position = (if p + 1 < 32 * 3072 * 2048 * 4 then p + 1 else 0) ∧
       ((s.chanState (32 * stack.val + p / 25165824) = 0 ∨ 4 ≤ s.chanState (32 * stack.val + p / 25165824)) →
         t.mem = s.mem ∧ t.cores = s.cores ∧ (∀ q, q ≠ r → t.reg q = s.reg q) ∧
         (p + 1 < 32 * 3072 * 2048 * 4 → t.get r Fld.MEM_STK_SCRUB_passes = s.get r Fld.MEM_STK_SCRUB_passes))) ∧
   (∀ (stack : StackId) (temp : BitVec 8) (s : State), temp.toNat ≤ 105 →
     let r := Reg.MEM_STK_STATUS (stack.val / 4) (stack.val % 4)
     let old := if s.flag r Fld.MEM_STK_STATUS_throttled then 3 else s.get r Fld.MEM_STK_STATUS_refresh
     let band := if temp.toNat < 85 then 0 else if temp.toNat < 95 then 1 else 2
     ∃ t, exec (.stackTemperatureRead stack temp) s = .next t ∧ t.mem = s.mem ∧ t.get r Fld.MEM_STK_STATUS_temp_c = temp.toNat ∧
       t.get r Fld.MEM_STK_STATUS_temp_max = max temp.toNat (s.get r Fld.MEM_STK_STATUS_temp_max) ∧
       (old ≤ band → t.get r Fld.MEM_STK_STATUS_refresh = band ∧ t.flag r Fld.MEM_STK_STATUS_throttled = false) ∧
       (old = 1 → band = 0 → t.get r Fld.MEM_STK_STATUS_refresh = if temp.toNat ≤ 82 then 0 else 1) ∧
       (old = 2 → band = 1 → t.get r Fld.MEM_STK_STATUS_refresh = if temp.toNat ≤ 92 then 1 else 2) ∧
       (old = 3 → band = 2 → t.flag r Fld.MEM_STK_STATUS_throttled = decide (103 ≤ temp.toNat))) ∧
   (∀ (ch : ChanId) (s : State), s.chanState ch.val ≠ 2 →
     ∃ t, exec (.ceWindowEnd ch) s = .next t ∧ mapGet (fun _ => 0) t.stk.win ch.val = 0 ∧ t.regs = s.regs ∧ t.mem = s.mem ∧ t.cores = s.cores) ∧
   (∀ (ch : ChanId) (s : State), s.chanState ch.val = 2 → ch.val ∉ s.stk.skipWin →
     mapGet (fun _ => 0) s.stk.win ch.val < s.get (Reg.MEM_CE (ch.val / 128)) Fld.MEM_CE_thresh → mapGet (fun _ => 0) s.stk.good ch.val = 15 →
     ∃ t, exec (.ceWindowEnd ch) s = .next t ∧ t.chanState ch.val = 1) ∧
   (∀ (ch : ChanId) (s : State), ch.val ∈ s.stk.claims →
     ∃ t, exec (.mapoutRecordWrite ch) s = .next t ∧ setHas t.flash.mapout ch.val = true ∧ t.stk.claims = s.stk.claims.erase ch.val ∧
       t.regs = s.regs ∧ t.mem = s.mem))

/-! ### Frames and caravans (chapter 10) -/

/-- R270, R271: FRM_COUNT_LOAD waits for the next tick. Free-running, the generator ignores FRAME_REF_IN. Locked to it, an edge within 1 µs of one frame after the
previous one is good, four good ones end a loss; the second bad edge in a row, or missing edges, set ref_lost and let the generator run free. The
nanosecond at which `locked` is set is the model's reading (log 62).

R269, R270, R271, R272, R285: a tick advances FRM_COUNT by one, or to the loaded value, and fixes the length of the frame that it opens, slewed by at
most 0.5 µs; while the generator stands still nothing happens. The running LC caravan that has not ended is held, marked OVERRUN and counted. -/
def Obligations.FramesAndTheirReference : Prop :=
  ((∀ (v : W64) (s : State), exec (.frmCountLoad v) s = .next { s with sched := { s.sched with load := some v } }) ∧
   (∀ (t : Nat) (s : State), s.refMode = false →
     exec (.frameRefEdge t) s = .next (s.at t) ∧ exec (.frameRefLost t) s = .next (s.at t)) ∧
   (∀ (t : Nat) (s : State), s.refMode = true → s.sched.lastEdge = none →
     exec (.frameRefEdge t) s = .next { s.at t with sched := { s.sched with lastEdge := some t } }) ∧
   (∀ (t e : Nat) (s : State), s.refMode = true → s.sched.lastEdge = some e →
     (e + s.sched.len * 1000 ≤ t + 1000 → t ≤ e + s.sched.len * 1000 + 1000 →
       exec (.frameRefEdge t) s = .next { s.at t with sched := { s.sched with
         lastEdge := some t, goodEdges := min 4 (s.sched.goodEdges + 1),
         badEdges := if 2 ≤ s.sched.badEdges ∧ s.sched.goodEdges < 3 then 2 else 0 } }) ∧
     ((t + 1000 < e + s.sched.len * 1000 ∨ e + s.sched.len * 1000 + 1000 < t) → s.sched.badEdges = 0 →
       exec (.frameRefEdge t) s = .next { s.at t with sched := { s.sched with lastEdge := some t, goodEdges := 0, badEdges := 1 } }) ∧
     ((t + 1000 < e + s.sched.len * 1000 ∨ e + s.sched.len * 1000 + 1000 < t) → s.sched.badEdges = 1 →
       ∃ u, exec (.frameRefEdge t) s = .next u ∧ u.sched = { s.sched with lastEdge := some t, goodEdges := 0, badEdges := 2 } ∧
         u.flag Reg.FRM_REF Fld.FRM_REF_ref_lost = true ∧ u.flag Reg.FRM_REF Fld.FRM_REF_locked = false ∧ u.mem = s.mem ∧ u.net = s.net)) ∧
   (∀ (t : Nat) (s : State), s.refMode = true → s.sched.badEdges < 2 →
     ∃ u, exec (.frameRefLost t) s = .next u ∧ u.sched = { s.sched with goodEdges := 0, badEdges := 2 } ∧
       u.flag Reg.FRM_REF Fld.FRM_REF_ref_lost = true ∧ u.flag Reg.FRM_REF Fld.FRM_REF_locked = false ∧ u.mem = s.mem ∧ u.net = s.net)) ∧
  ((∀ (now : Nat) (s : State), s.sched.run = false → exec (.frameTick now) s = .next (s.at now)) ∧
   (∀ (now : Nat) (s : State), s.sched.run = true → s.sched.abort = none → s.sched.abortQ = [] → s.opt.newRoute = [] → s.opt.newWin = [] →
     s.opt.routeHold = [] → s.pwr.held = [] → s.pwr.newMax = [] → s.cutOff = [] →
     (∀ i l b, i < 10 → l < 3 → b < 64 → s.get (Reg.CRL_BUN_STATUS i l b) Fld.CRL_BUN_STATUS_pending = 0) →
     (s.sched.cars = [] →
       ∃ t, exec (.frameTick now) s = .next t ∧ t.sched.cars = [] ∧ t.sched.load = none ∧ t.sched.t0 = now ∧
         t.sched.len = s.get Reg.FRM_PERIOD Fld.FRM_PERIOD_period_us ∧ t.sched.slew = s.slewAt now ∧ -500 ≤ t.sched.slew ∧ t.sched.slew ≤ 500 ∧
         (s.refMode = false → t.sched.slew = 0) ∧ t.mem = s.mem ∧ t.net = s.net ∧ t.llc = s.llc ∧
         t.reg Reg.FRM_COUNT = (match s.sched.load with
           | some v => v
           | none => if s.reg Reg.FRM_COUNT = BitVec.allOnes 64 then BitVec.allOnes 64 else s.reg Reg.FRM_COUNT + 1)) ∧
     (∀ v : Caravan, s.sched.cars = [v] → v.lc = true → v.phase = .running → v.ending = none → s.committed v = false →
       v.overruns < s.get Reg.FRM_CTL Fld.FRM_CTL_overrun_max →
       ∃ t, exec (.frameTick now) s = .next t ∧ t.mem = s.mem ∧ t.reg Reg.FRM_CNT_OVERRUN = s.reg Reg.FRM_CNT_OVERRUN + 1 ∧
         t.sched.cars = [{ v with phase := .held, overruns := v.overruns + 1, ovCause := (s.at now).overCause v,
                                  elapsed := (s.at now).elapsedNow v, slow := false }])))

/-- R265, R273-R276, R279, R380: what each read of the waybill reader does when it returns: the first read of a slot consumes nothing; the generation word
has changed or not; a slot's list is taken, finds no room or is refused for a reserved encoding; a header is no caravan. A failed slot read consumes
nothing. A read of host memory returns only while its request is outstanding at the port. -/
def Obligations.WaybillReadsAdvanceTheReader : Prop :=
  ∀ (i : InstId) (d : List Byte) (ok poison good : Bool) (s : State),
    let sp := s.get (Reg.FRM_SLOT i.val) Fld.FRM_SLOT_space
    let a := s.get (Reg.FRM_SLOT i.val) Fld.FRM_SLOT_addr * 256
    let last := s.get (Reg.FRM_INST_STATE i.val) Fld.FRM_INST_STATE_last_gen
    (∀ x, s.wayPort i.val = some x → (s.instRd i.val).req = none →
      ∃ t, exec (.waybillRead i d ok poison) s = .next t ∧ s.WayFrame t i ∧ t.regs = s.regs ∧
        (t.instRd i.val).stage = (s.instRd i.val).stage ∧ (s.portRoom x.1 1 = true → (t.instRd i.val).req.isSome = true)) ∧
    (s.wayReturns i.val ok good →
      ((s.instRd i.val).stage = .idle →
        ∃ t, exec (.waybillRead i d ok poison) s = .next t ∧ s.WayFrame t i ∧ t.regs = s.regs ∧
          t.instRd i.val = { s.instRd i.val with req := none }) ∧
      (∀ b, (s.instRd i.val).stage = .first → s.wayRead i.val sp a 4 d good poison = some (b, false) →
        ∃ t, exec (.waybillRead i d ok poison) s = .next t ∧ s.WayFrame t i ∧
          t.instRd i.val = { s.instRd i.val with stage := .idle, fresh := false, req := none } ∧
          t.get (Reg.FRM_INST_STATE i.val) Fld.FRM_INST_STATE_last_gen = ofBytes b % 2 ^ 32 ∧
          ∀ r, r ≠ Reg.FRM_INST_STATE i.val → t.reg r = s.reg r) ∧
      (∀ b, (s.instRd i.val).stage = .gen → s.wayRead i.val sp a 4 d good poison = some (b, false) →
        ∃ t, exec (.waybillRead i d ok poison) s = .next t ∧ s.WayFrame t i ∧ t.regs = s.regs ∧
          (t.instRd i.val).stage = (if ofBytes b = last then .idle else .slot (BitVec.ofNat 32 (ofBytes b)))) ∧
      ((s.instRd i.val).stage = .gen → s.wayRead i.val sp a 4 d good poison = none →
        ∃ t, exec (.waybillRead i d ok poison) s = .next t ∧ s.WayFrame t i ∧
          t.instRd i.val = { s.instRd i.val with stage := .idle, req := none } ∧ (∀ r, r ≠ Reg.MBX_STATUS i.val → t.reg r = s.reg r) ∧
          (sp ≠ 0 → t.flag (Reg.MBX_STATUS i.val) Fld.MBX_STATUS_slot_fault = true) ∧ (sp = 0 → t.regs = s.regs)) ∧
      (∀ gen b, (s.instRd i.val).stage = .slot gen → s.wayRead i.val sp (a + 4) 28 d good poison = some (b, false) →
        let at' (o n : Nat) := numAt b (o - 4) n
        let count := at' 7 1
        let used := (s.get (Reg.FRM_INST_STATE i.val) Fld.FRM_INST_STATE_produced + 2 ^ 32 - (BitVec.ofNat 32 (at' 0x1C 4)).toNat) % 2 ^ 32 +
          (s.instRd i.val).owed
        let ring := bits (at' 6 1) 4 3 ≠ 3 ∧ 4 ≤ at' 0x18 1 ∧ at' 0x18 1 ≤ 16 ∧ (BitVec.ofNat 64 (at' 0x10 8)).toNat % 4096 = 0
        let plain := at' 4 1 ≤ 1 ∧ bits (at' 6 1) 2 1 ≠ 3 ∧ count ≤ 64 ∧ ring ∧ (bit (at' 6 1) 0 = true → at' 0x1A 2 < 2048)
        (2 ^ at' 0x18 1 < used + count →
          ∃ t, exec (.waybillRead i d ok poison) s = .next t ∧ s.WayFrame t i ∧
            t.instRd i.val = { s.instRd i.val with stage := .idle, req := none } ∧ t.flag (Reg.FRM_SLOT i.val) Fld.FRM_SLOT_ring_wait = true ∧
            t.reg Reg.FRM_CNT_RING_WAIT = s.reg Reg.FRM_CNT_RING_WAIT + 1 ∧ t.reg (Reg.FRM_INST_STATE i.val) = s.reg (Reg.FRM_INST_STATE i.val)) ∧
        (used + count ≤ 2 ^ at' 0x18 1 → 0 < count → at' 5 1 / 16 = 1 → ¬plain →
          ∃ t, exec (.waybillRead i d ok poison) s = .next t ∧ t.sched.cars = s.sched.cars ∧ t.mem = s.mem ∧ t.net = s.net ∧
            t.instRd i.val = { s.instRd i.val with
              stage := .idle, req := none, slot := (t.instRd i.val).slot, owed := (s.instRd i.val).owed + count,
              due := (s.instRd i.val).due ++ (List.range count).map (fun j =>
                ⟨bareTag gen j, 2, 5, 0, at' 4 1 == 0, true, 0, 0, 0, s.frame % 2 ^ 32, 0, 0⟩) } ∧
            t.get (Reg.FRM_INST_STATE i.val) Fld.FRM_INST_STATE_last_gen = gen.toNat) ∧
        (used + count ≤ 2 ^ at' 0x18 1 → 0 < count → at' 5 1 / 16 = 1 → plain → (BitVec.ofNat 64 (at' 8 8)).toNat % 8 = 0 →
          ∃ t, exec (.waybillRead i d ok poison) s = .next t ∧ s.WayFrame t i ∧
            (t.instRd i.val).stage = .list gen ∧ (t.instRd i.val).owed = (s.instRd i.val).owed + count ∧
            (t.instRd i.val).slot.count = count ∧ (t.instRd i.val).slot.lc = (at' 4 1 == 0) ∧
            t.flag (Reg.FRM_SLOT i.val) Fld.FRM_SLOT_ring_wait = false ∧
            t.get (Reg.FRM_INST_STATE i.val) Fld.FRM_INST_STATE_last_gen = gen.toNat)) ∧
      (∀ gen j x addrs h, (s.instRd i.val).stage = .header gen j addrs → addrs[j]? = some (some x) → addrs.length = j + 1 →
        s.wayClean i.val (s.instRd i.val).slot.listSpace x.toNat 64 d good poison = some h → (s.instRd i.val).slot.lc = true →
        (numAt h 8 4 = 0 ∨ numAt h 0x20 1 = 0 ∨ 16 < numAt h 0x20 1) →
        ∃ t, exec (.waybillRead i d ok poison) s = .next t ∧ s.WayFrame t i ∧ t.regs = s.regs ∧ t.instRd i.val = { s.instRd i.val with
          stage := .idle, req := none, taken := (s.instRd i.val).taken ++ [.refused (BitVec.ofNat 64 (numAt h 0 8)) false 5] }))

/-- R281, Table 10-5: a candidate that fits the frame's remaining budgets is admitted, queued, counted and charged; one that does not fit gets a REFUSED
receipt with cause BUDGET. FRM_ROT moves on. Admission that is not due changes nothing.

R79, R282, R283, R288: a caravan whose turn it is starts on every core of its leg at the leg's entry, with the registers of R79; before its turn nothing
happens. It ends once every core has ended its part, and its receipt falls due. -/
def Obligations.CaravansAreAdmittedAndRun : Prop :=
  ((∀ (p : PartId) (ta : Nat) (s : State), s.admitReady p.val = false → exec (.admitCaravans p ta) s = .next (s.at ta)) ∧
   (∀ (p : PartId) (ta i : Nat) (v : Caravan) (s : State), s.admitReady p.val = true → s.visitOrder p.val = [i] → s.sched.cars = [] →
     (s.instRd i).taken = [.car v] → v.part = p →
     let b := s.budgetAt p.val ta
     ∃ t, exec (.admitCaravans p ta) s = .next t ∧ t.mem = s.mem ∧ t.cores = s.cores ∧ t.net = s.net ∧ (t.instRd i).taken = [] ∧
       t.get (Reg.FRM_BUDGET_T p.val) Fld.FRM_BUDGET_T_rot = (s.get (Reg.FRM_BUDGET_T p.val) Fld.FRM_BUDGET_T_rot + 1) % 1024 ∧
       (b.fits v = true → t.sched.cars = [{ v with id := s.sched.nextCar, phase := .admitted }] ∧
         (t.part p.val).lcq = (s.part p.val).lcq ++ [s.sched.nextCar] ∧ (t.instRd i).due = (s.instRd i).due ∧
         t.get (Reg.FRM_BUDGET_C p.val) Fld.FRM_BUDGET_C_remain = min (2 ^ 32 - 1) (b.c - v.cycles.toNat) ∧
         t.reg (Reg.FRM_BUDGET_D p.val) = BitVec.ofNat 64 (b.d - v.dram.toNat) ∧
         t.reg (Reg.FRM_BUDGET_L p.val) = BitVec.ofNat 64 (b.l - v.link.toNat) ∧
         t.reg (Reg.FRM_TOLLS p.val) = BitVec.ofNat 64 (b.t - v.tolls.toNat) ∧ t.reg Reg.FRM_CNT_ADMIT = s.reg Reg.FRM_CNT_ADMIT + 1) ∧
       (b.fits v = false → t.sched.cars = [] ∧ (t.part p.val).lcq = (s.part p.val).lcq ∧
         (t.instRd i).due = (s.instRd i).due ++ [⟨v.tag, 2, 1, 0, true, false, 0, 0, 0, s.frame % 2 ^ 32, 0, 0⟩] ∧
         t.reg Reg.FRM_CNT_REFUSE = s.reg Reg.FRM_CNT_REFUSE + 1))) ∧
  ((∀ (k now d : Nat) (v : Caravan) (x : LegRec) (s : State), (s.at now).carOf k = some v → v.legs = [x] →
     (v.lc = true ∧ v.phase = .admitted ∧ (s.at now).lcTurn v = true ∨ v.lc = false ∧ v.phase = .queued ∧ (s.at now).queueTurn v = true) →
     (s.at now).canStart v = true → (s.at now).freeLevel v = some d →
     ∃ t w, exec (.caravanStart k now) s = .next t ∧ t.carOf k = some w ∧ w = { v with
         phase := .running, level := some d, since := max s.now now, elapsed := 0, slow := w.slow } ∧
       t.get Reg.PWR_STATE Fld.PWR_STATE_state = 0 ∧ (t.part v.part.val).beq = (s.part v.part.val).beq.erase k ∧
       ∀ n c, (s.legCores x.rows)[n]? = some c →
         let g := t.core c
         g.phase = .run ∧ g.ended = false ∧ g.pc = (x.entry.setWidth 52 &&& ~~~7#52) ∧ g.sr 1 = x.binding ∧ g.sr 2 = BitVec.ofNat 64 n ∧
         g.sr 3 = BitVec.ofNat 64 (s.legCores x.rows).length ∧ (∀ m, 4 ≤ m → m < 32 → g.sr m = 0) ∧ (∀ m, m < 8 → g.mr m = BitVec.allOnes 64) ∧
         g.toks = [] ∧ g.bars = [] ∧ g.leg = some ⟨k, 0, n, (s.legCores x.rows).length, v.part, v.inst, v.lc⟩) ∧
   (∀ (k now : Nat) (v : Caravan) (s : State), s.carOf k = some v → s.canStart v = false →
     exec (.caravanStart k now) s = .next (s.at now)) ∧
   (∀ (k now : Nat) (v : Caravan) (s : State), (s.at now).carOf k = some v → s.sched.abort = none → s.sched.abortQ = [] → v.started = true →
     (v.phase = .running ∨ v.phase = .held) →
     (s.committed v = false → exec (.caravanEnd k now) s = .next (s.at now)) ∧
     (s.committed v = true →
       ∃ t r, exec (.caravanEnd k now) s = .next t ∧ t.carOf k = none ∧ t.mem = s.mem ∧
         (t.instRd v.inst.val).due = (s.instRd v.inst.val).due ++ [r] ∧ r.tag = v.tag ∧ (r.status, r.cause) = (s.at now).carStatus v ∧
         r.overruns = min 255 v.overruns ∧ r.lc = v.lc ∧ r.untagged = false ∧ r.frame = s.frame % 2 ^ 32 ∧
         r.cycles = min (2 ^ 32 - 1) ((s.at now).cyclesNow v) ∧
         (∀ c, c ∈ (s.carCores v).map (·.2) → s.inCar k c = true → (t.core c).leg = none))))

/-- R287, R289, Table 10-4: the device's oldest receipt goes to its instance's ring, in stacked memory through the home of its line, and produced counts
it; with none due, or one that is not the oldest, nothing happens. An abort ends the admitted caravan whose tag matches, ABORTED where nothing comes
before that; one that matches none reports so; a second request is dropped. -/
def Obligations.ReceiptsAndAborts : Prop :=
  (∀ (i : InstId) (now : Nat) (s : State), ((s.instRd i.val).due = [] ∨ s.dlogPending i.val = true ∨ s.sched.dueq.head? ≠ some i.val) →
    exec (.receiptWrite i now) s = .next (s.at now)) ∧
  (∀ (i : InstId) (now m : Nat) (r : Receipt) (rest : List Receipt) (s : State), (s.instRd i.val).due = r :: rest → s.dlogPending i.val = false →
    s.sched.dueq.head? = some i.val →
    let x := (s.instRd i.val).slot
    let seq := s.get (Reg.FRM_INST_STATE i.val) Fld.FRM_INST_STATE_produced
    x.ringFits = true → x.ringSpace = 0 → x.irq = false → s.flag (Reg.PRT_INST i.val) Fld.PRT_INST_unbinding = false →
    s.ownMem (x.ring.toNat + 32 * (seq % 2 ^ x.ringLog2)) 32 = some m →
    ∃ t, exec (.receiptWrite i now) s = .next t ∧ t.mem = s.mem ∧ t.cores = s.cores ∧ t.outbox = s.outbox ∧
      t.net = s.net ++ [⟨epDieCtl primaryDie, epSlice (s.home (lineOf m)), lineOf m, .mwr (BitVec.ofNat 13 (0x1000 + primaryDie))
        ⟨s.gibOwner (m / 2 ^ 30), false, false⟩ (linePut 0 (m % 128) 32 (ofBytes (receiptBytes r seq x.ringLog2))) (byteMask (m % 128) 32) false⟩] ∧
      t.instRd i.val = { s.instRd i.val with
        due := rest, owed := (s.instRd i.val).owed - 1, writes := (s.instRd i.val).writes ++ [((lineOf m).toNat, none)] } ∧
      t.sched.dueq = s.sched.dueq.drop 1 ∧
      t.get (Reg.FRM_INST_STATE i.val) Fld.FRM_INST_STATE_produced = (seq + 1) % 2 ^ 32) ∧
  (∀ (i : InstId) (all : Bool) (s : State), s.sched.abort.isSome = true →
    exec (.frmAbort i all) s = .next (s.setFlag Reg.FRM_ABORT_STATUS Fld.FRM_ABORT_STATUS_busy_drop true)) ∧
  (∀ (i : InstId) (all : Bool) (s : State), s.sched.abort = none → (s.instRd i.val).taken = [] →
    (s.abortNames i.val all (s.reg Reg.FRM_ABORT_TAG) = [] →
      ∃ t, exec (.frmAbort i all) s = .next t ∧ t.sched.cars = s.sched.cars ∧ t.cores = s.cores ∧ t.mem = s.mem ∧
        t.get Reg.FRM_ABORT_STATUS Fld.FRM_ABORT_STATUS_result = 2 ∧ t.get Reg.FRM_ABORT_STATUS Fld.FRM_ABORT_STATUS_matched = 0 ∧
        t.flag Reg.FRM_ABORT_STATUS Fld.FRM_ABORT_STATUS_done = true) ∧
    (∀ v : Caravan, s.sched.cars = [v] → v.inst = i → (all = true ∨ v.tag = s.reg Reg.FRM_ABORT_TAG) → v.level = none →
      ∃ t r, exec (.frmAbort i all) s = .next t ∧ t.sched.cars = [] ∧ t.mem = s.mem ∧ (t.instRd i.val).due = (s.instRd i.val).due ++ [r] ∧
        r.tag = v.tag ∧ (r.status, r.cause) = s.carStatus { v with ending := some (v.dueWith 4 1) } ∧
        (v.ending = none → v.leaves = [] → (∀ c, s.inCar v.id c = false) → r.status = 4 ∧ r.cause = 1) ∧
        t.get Reg.FRM_ABORT_STATUS Fld.FRM_ABORT_STATUS_result = (if r.status = 4 then 0 else 1) ∧
        t.get Reg.FRM_ABORT_STATUS Fld.FRM_ABORT_STATUS_matched = 1 ∧ t.flag Reg.FRM_ABORT_STATUS Fld.FRM_ABORT_STATUS_done = true))

/-! ### Partitions, instances and pre-emption (chapter 11) -/

/-- R303: an instance that is not bound is bound to its port, PASID and partition, its mailbox, reader and cost ratio starting over; a refused binding sets
bind_err and binds nothing; a bound one takes no other binding.

R304: unbinding an instance with nothing under way makes its slot inactive, drops its cached translations and unbinds it; of an instance that is not
bound, or already unbinding, it changes nothing. -/
def Obligations.BindingAndUnbinding : Prop :=
  (∀ (i : InstId) (port : BitVec 2) (pasid : BitVec 20) (p : PartId) (s : State),
     (s.instBound i.val = true → exec (.instanceBind i port pasid p) s = .next s) ∧
     (s.instBound i.val = false → s.bindRefused i.val port.toNat pasid p.val = true →
       ∃ t, exec (.instanceBind i port pasid p) s = .next t ∧ t = { s with regs := t.regs } ∧ t.instBound i.val = false ∧
         t.flag (Reg.PRT_INST i.val) Fld.PRT_INST_bind_err = true ∧ (∀ r, r ≠ Reg.PRT_INST i.val → t.reg r = s.reg r)) ∧
     (s.instBound i.val = false → s.bindRefused i.val port.toNat pasid p.val = false →
       ∃ t, exec (.instanceBind i port pasid p) s = .next t ∧ t = { s with
           regs := t.regs, sched := t.sched, pwr := { s.pwr with hist := setDel s.pwr.hist i.val } } ∧ t.instBound i.val = true ∧
         t.instPort i.val = port.toNat ∧ t.instPasid i.val = pasid ∧ t.instPart i.val = p.val ∧
         t.get (Reg.PWR_RATIO i.val) Fld.PWR_RATIO_r = 256 ∧ t.get (Reg.PWR_RATIO i.val) Fld.PWR_RATIO_warm = 0 ∧
         t.reg (Reg.MBX_T2M i.val) = 0 ∧ t.reg (Reg.MBX_M2T i.val) = 0 ∧ t.reg (Reg.MBX_STATUS i.val) = 0 ∧
         (∀ n w, n < 16 → w < 8 → t.reg (Reg.MBX_T2M_SLOT i.val n w) = 0 ∧ t.reg (Reg.MBX_M2T_SLOT i.val n w) = 0) ∧
         t.instRd i.val = { InstRd.empty with fresh := (s.instRd i.val).fresh } ∧ t.sched.cars = s.sched.cars ∧ t.sched.parts = s.sched.parts)) ∧
  ((∀ (i : InstId) (s : State), (s.instBound i.val = false ∨ s.flag (Reg.PRT_INST i.val) Fld.PRT_INST_unbinding = true) →
     exec (.instanceUnbind i) s = .next s) ∧
   (∀ (i : InstId) (s : State), s.instBound i.val = true → s.flag (Reg.PRT_INST i.val) Fld.PRT_INST_unbinding = false →
     s.tdiLocked i.val = false → s.host.zeroing = [] → s.carsOf i.val = [] → (s.instRd i.val).taken = [] → (s.instRd i.val).due = [] →
     (s.instRd i.val).owed = 0 → (s.instRd i.val).writes = [] → (s.instRd i.val).flush = false → (s.instRd i.val).slot.ringSpace = 0 →
     s.owning (s.instPart i.val) i.val = false →
     ∃ t, exec (.instanceUnbind i) s = .next t ∧ t = { s with regs := t.regs, sched := t.sched, host := t.host } ∧ t.instBound i.val = false ∧
       t.flag (Reg.PRT_INST i.val) Fld.PRT_INST_unbinding = false ∧ t.flag (Reg.FRM_SLOT i.val) Fld.FRM_SLOT_active = false ∧
       t.sched.cars = s.sched.cars ∧ (∀ x, x ∈ t.sched.abortQ → x.1 ≠ i) ∧
       (t.port (s.instPort i.val)).ats = (s.port (s.instPort i.val)).ats.filter (fun e => e.pasid != s.instPasid i.val)))

/-- R306, R307, R319: an accepted ownership request is pending, a refused one sets `refused`, the owner's own changes nothing; ending it clears all of it. Hold and
release write PRT_DESC.hold; a partition that a contained error holds stays held (R470). -/
def Obligations.OwnershipAndHold : Prop :=
  ∀ (p : PartId) (i : InstId) (s : State),
    let r := Reg.PRT_OWN p.val
    let n := s.get r Fld.PRT_OWN_instance
    (s.ownRefused p.val i.val = true → exec (.ownRequest p i) s = .next (s.setFlag r Fld.PRT_OWN_refused true)) ∧
    (s.ownRefused p.val i.val = false → s.flag r Fld.PRT_OWN_owned = false →
      exec (.ownRequest p i) s = .next ((s.put r Fld.PRT_OWN_instance i.val).setFlag r Fld.PRT_OWN_pending true)) ∧
    (s.ownRefused p.val i.val = false → s.flag r Fld.PRT_OWN_owned = true → exec (.ownRequest p i) s = .next s) ∧
    (∃ t, exec (.ownEnd p) s = .next t ∧ t = { s with regs := t.regs, sched := t.sched } ∧ t.flag r Fld.PRT_OWN_owned = false ∧
      t.flag r Fld.PRT_OWN_pending = false ∧ t.flag (Reg.PRT_INST n) Fld.PRT_INST_owns = false ∧
      t.part p.val = { s.part p.val with ownEff := false } ∧ t.sched.cars = s.sched.cars ∧ t.sched.insts = s.sched.insts ∧
      ∀ x, x ≠ r → x ≠ Reg.PRT_INST n → t.reg x = s.reg x) ∧
    exec (.partitionHold p) s = .next (s.setFlag (Reg.PRT_DESC p.val) Fld.PRT_DESC_hold true) ∧
    exec (.partitionRelease p) s = .next (if (s.part p.val).stuck then s else s.setFlag (Reg.PRT_DESC p.val) Fld.PRT_DESC_hold false)

/-- R308, R311, R315, R316, R318: a caravan that is to be saved begins its save on every core; what stays unacknowledged after the remote wait goes to the ledger; a saved
caravan whose rows are free begins its restore on every core, or ends FAULT with cause REMOTE_LOST where the ledger has lost a request of it.

R311, R316, R321: a core with nothing outstanding writes its scratchpad, its registers and its pc to its save area, no line of which a failed channel has
lost, reports SAVED and holds no leg; it changes no byte outside the area. The restore brings them back from the area and resumes issue where it stood. -/
def Obligations.SavesAndRestores : Prop :=
  ((∀ (k : Nat) (v : Caravan) (s : State), s.carOf k = some v →
     (s.preempts v = false → exec (.caravanSave k) s = .next s) ∧
     (s.preempts v = true →
       ∃ t, exec (.caravanSave k) s = .next t ∧ t.mem = s.mem ∧ t.carOf k = some { v with
           phase := .saving, resume := .running, done := [], leaves := ((s.carCores v).map (·.2)).map s.keepOf, ledWait := false,
           elapsed := if v.lc then v.elapsed else s.elapsedNow v, since := s.now } ∧
         ∀ c, c ∈ (s.carCores v).map (·.2) → (t.core c).phase = .save ∧ (t.core c).held = false ∧
           t.get (Reg.CORE_PREEMPT c) Fld.CORE_PREEMPT_state = 1 ∧ (t.core c).sr = (s.core c).sr ∧ (t.core c).pc = (s.core c).pc)) ∧
   (∀ (c : CoreId) (s : State), ((s.core c.toNat).leg = none ∨ (s.core c.toNat).phase ≠ .save) → exec (.remoteWaitExpire c) s = .next s) ∧
   (∀ (c : CoreId) (g : Leg) (r : RemReq) (s : State), (s.core c.toNat).leg = some g → (s.core c.toNat).phase = .save →
     (s.core c.toNat).remote = [r] → r.isRead = false → s.sched.ledger.length < 4096 →
     ∃ t, exec (.remoteWaitExpire c) s = .next t ∧ t = { s with sched := t.sched, regs := t.regs, cores := t.cores } ∧
       t.sched = { s.sched with ledger := s.sched.ledger ++ [ledgerOf (s.core c.toNat) g c.toNat r] } ∧
       t.core c.toNat = { s.core c.toNat with remote := [] } ∧ (∀ d, d ≠ c.toNat → t.core d = s.core d) ∧
       t.get Reg.PRT_LEDGER Fld.PRT_LEDGER_high = max (s.get Reg.PRT_LEDGER Fld.PRT_LEDGER_high) (s.sched.ledger.length + 1) ∧
       ∀ x, x ≠ Reg.PRT_LEDGER → t.reg x = s.reg x) ∧
   (∀ (k now : Nat) (v : Caravan) (s : State), (s.at now).carOf k = some v → s.sched.abort = none → s.sched.abortQ = [] →
     ((s.at now).restorable v = false → exec (.caravanRestore k now) s = .next (s.at now)) ∧
     ((s.at now).restorable v = true → s.carLost k = false →
       ∃ t, exec (.caravanRestore k now) s = .next t ∧ t.mem = s.mem ∧ t.carOf k = some { v with
           phase := .restoring, done := [], since := max s.now now, elapsed := if v.lc then v.elapsed else (s.at now).elapsedNow v } ∧
         ∀ x, x ∈ s.carLegs v → ∃ g, (t.core x.1).leg = some g ∧ g.car = v.id ∧ (t.core x.1).phase = .restore ∧
           (t.core x.1).ended = v.last.contains x.1 ∧ t.get (Reg.CORE_PREEMPT x.1) Fld.CORE_PREEMPT_state = 3) ∧
     ((s.at now).restorable v = true → s.carLost k = true →
       ∃ t r, exec (.caravanRestore k now) s = .next t ∧ t.mem = s.mem ∧ t.carOf k = none ∧
         (t.instRd v.inst.val).due = (s.instRd v.inst.val).due ++ [r] ∧ r.tag = v.tag ∧ r.status = 6 ∧ r.cause = 2))) ∧
  (∀ (c : CoreId) (g : Leg) (v : Caravan) (y : CoreKeep) (s : State), (s.core c.toNat).leg = some g → s.carOf g.car = some v →
     v.leaves.find? (fun z => z.core == c.toNat) = some y → s.StillCore c → Memory.wf s.mem = true →
     let a := s.saveArea v.part.val (v.level.getD 0) c.toNat
     a + 0x111000 ≤ 0x100000000000 → s.areaGone a = [] →
     ((s.core c.toNat).phase = .save → v.phase = .saving → s.saveReady c.toNat = true → y.bar = none →
       ∃ t, exec (.coreSaved c) s = .next t ∧ (∀ o, o < 0x100000 → t.byte (a + o) = s.byte (scrBase c.toNat + o)) ∧
         (∀ n, n < 32 → t.num (a + 0x110100 + 8 * n) 8 = ((s.core c.toNat).sr n).toNat) ∧ t.num (a + 0x110008) 8 = (s.core c.toNat).pc.toNat ∧
         (∀ x, x < a ∨ a + 0x111000 ≤ x → t.byte x = s.byte x) ∧ (t.core c.toNat).leg = none ∧ (t.core c.toNat).phase = .idle ∧
         t.get (Reg.CORE_PREEMPT c.toNat) Fld.CORE_PREEMPT_state = 2) ∧
     ((s.core c.toNat).phase = .restore → v.phase = .restoring → s.sched.ledger = [] → y.bar = none → y.phase = .run →
       (∀ n, n < 32 → s.num (a + 0x110080 + n) 1 = 0) → bits (s.num (a + 0x110058) 8) 63 60 = 0xF → bits (s.num (a + 0x110060) 8) 63 60 = 0xF →
       ∃ t, exec (.coreRestored c) s = .next t ∧ (∀ o, o < 0x100000 → t.byte (scrBase c.toNat + o) = s.byte (a + o)) ∧
         (∀ n, 0 < n → n < 32 → ((t.core c.toNat).sr n).toNat = s.num (a + 0x110100 + 8 * n) 8) ∧
         (t.core c.toNat).pc = BitVec.ofNat 52 (s.num (a + 0x110008) 8) ∧ (t.core c.toNat).phase = .run ∧
         (∀ x, x < scrBase c.toNat ∨ scrBase c.toNat + 0x100000 ≤ x → t.byte x = s.byte x) ∧
         t.get (Reg.CORE_PREEMPT c.toNat) Fld.CORE_PREEMPT_state = 0))

/-! ### Die links (chapter 13) -/

/-- R352, R353: a flit of the far end is accepted only with a good CRC and the expected seq: its messages and its line are handed on, it frees what it
acknowledges and is acknowledged at every 32nd; a bad one is answered by NAK. A NAK sends every flit from its seq on again, or retires the bundle when
replay is exhausted; the ack timer acknowledges.

R354-R357, R361: a link that trains with no failing lane comes UP at full width with fresh records at both ends, or is HELD where no common version
exists; one that is not due trains no more. The end of a window forgets its counts and marks a bundle with too many unattributed replays. A quiesce that
ends puts the new width into effect at both ends and sends what is unacknowledged again. -/
def Obligations.DieLinks : Prop :=
  (∀ (i : DieIx) (l : Fin 3) (b : Fin 64) (j k : Nat) (s : State), peerOf i.val l.val = some (j, k) →
     let e := s.bun i.val l.val b.val
     let far := s.bun j k b.val
     let up := s.linkUp i.val l.val = true ∧ s.bunState i.val l.val b.val ≠ 0
     let sends (f : BitVec 1536) := far.sends (s.bunQuiet j k b.val) f = true
     let ctrl (kind exp : Nat) : Out := .crlCtrl i.val l.val b.val (kind == 3) (BitVec.ofNat 64 (linkHeader kind 0 exp false))
     (∀ sent err, ¬(up ∧ sends sent) → exec (.crlFlitReceive i l b sent err) s = .next s) ∧
     (∀ sent err, up → sends sent →
       let x := sent ^^^ err
       let e1 := { e with buf := ackTrim flitSeq 4096 (flitAck x) e.buf }
       let r := Reg.CRL_BUN_ERR i.val l.val b.val
       (crcGood 192 x.toNat = false →
         ∃ t, exec (.crlFlitReceive i l b sent err) s = .next t ∧ t = { s with regs := t.regs, ceral := t.ceral, outbox := t.outbox } ∧
           t.outbox = s.outbox ++ [ctrl 3 e.rxExp] ∧ t.bun j k b.val = far.sent sent ∧
           t.bun i.val l.val b.val = { e with disc := e.disc.filter (fun g => flitSeq g != flitSeq x) ++ [x], replays := e.replays + 1 } ∧
           t.get r Fld.CRL_BUN_ERR_crc = satInc Fld.CRL_BUN_ERR_crc.width (s.get r Fld.CRL_BUN_ERR_crc) ∧
           t.get r Fld.CRL_BUN_ERR_replays = satInc Fld.CRL_BUN_ERR_replays.width (s.get r Fld.CRL_BUN_ERR_replays)) ∧
       (crcGood 192 x.toNat = true → e.moved = [] → flitNumbered x = true → flitSeq x = e.rxExp →
         (flitReplay x = false ∨ ∀ g, g ∈ e.disc → flitSeq g ≠ flitSeq x) →
         ∃ t, exec (.crlFlitReceive i l b sent err) s = .next t ∧ t = { s with ceral := t.ceral, outbox := t.outbox } ∧
           t.bun j k b.val = far.sent sent ∧ t.bun i.val l.val b.val = { e1.credit x with
             rxExp := (e.rxExp + 1) % 4096, sinceAck := (if e.sinceAck + 1 < 32 then e.sinceAck + 1 else 0),
             disc := e.disc.filter (fun g => flitSeq g != flitSeq x) } ∧
           t.outbox = s.outbox ++ [.crlTaken i.val l.val b.val (flitClass x) (flitMsgs x) (flitLine x) (flitPoison x)] ++
             (if e.sinceAck + 1 < 32 then [] else [ctrl 0 ((e.rxExp + 1) % 4096)])) ∧
       (crcGood 192 x.toNat = true → e.moved = [] → ¬(flitNumbered x = true ∧ flitSeq x = e.rxExp) →
         ∃ t, exec (.crlFlitReceive i l b sent err) s = .next t ∧ t = { s with ceral := t.ceral } ∧ t.bun j k b.val = far.sent sent ∧
           t.bun i.val l.val b.val = (if flitNumbered x then e1 else e1.credit x))) ∧
     (∀ seq : BitVec 12, s.cutOff = [] →
       let may := up ∧ ackMay 4096 far.rxExp seq.toNat = true
       let buf := ackTrim flitSeq 4096 seq.toNat e.buf
       let many := ∃ q, q ∈ ackTrim flitSeq 4096 far.rxExp buf ∧ s.get (Reg.CRL_CTL i.val) Fld.CRL_CTL_replay_max < q.2
       (¬may → exec (.crlNak i l b seq) s = .next s) ∧
       (may → ¬many → e.moved = [] →
         ∃ t, exec (.crlNak i l b seq) s = .next t ∧ t = { s with ceral := t.ceral, outbox := t.outbox } ∧
           t.bun i.val l.val b.val = { e with buf := buf.map (fun x => (x.1, x.2 + 1)) } ∧
           t.outbox = s.outbox ++ buf.map (fun x => .crlFlit i.val l.val b.val (flitAs x.1 (flitSeq x.1) e.rxExp true))) ∧
       (may → many → (retire (s.setBun i.val l.val b.val { e with buf := buf }) i.val l.val b.val 3).cutOff = [] →
         ∃ t, exec (.crlNak i l b seq) s = .next t ∧ t.mem = s.mem ∧ t.bunState i.val l.val b.val = 0 ∧ t.bunState j k b.val = 0 ∧
           t.get (Reg.CRL_BUN_STATUS i.val l.val b.val) Fld.CRL_BUN_STATUS_cause = 3 ∧
           t.get (Reg.CRL_BUN_STATUS j k b.val) Fld.CRL_BUN_STATUS_cause = 3)) ∧
     (up → exec (.crlAckTimer i l b) s = .next ((s.setBun i.val l.val b.val { e with sinceAck := 0 }).out (ctrl 0 e.rxExp))) ∧
     (¬up → exec (.crlAckTimer i l b) s = .next s)) ∧
  (∀ (i : DieIx) (l : Fin 3) (j k : Nat) (s : State), peerOf i.val l.val = some (j, k) →
     (∀ tests peer, (s.linkDue i.val l.val = false ∨ s.dieRuns i.val = false ∨ s.dieRuns j = false ∨ s.ceral.isolated.contains i.val = true ∨
         s.ceral.isolated.contains j = true) → exec (.crlLinkTraining i l tests peer) s = .next s) ∧
     (∀ tests peer, s.linkDue i.val l.val = true → s.dieRuns i.val = true → s.dieRuns j = true → s.ceral.isolated = [] → s.ceral.keep = [] →
       (∀ b, b < linkBundles i.val l.val → tests[b]? = some ⟨0, 0, false⟩) → (readyCheck (linkTrain s i.val l.val tests peer)).cutOff = [] →
       ∃ t, exec (.crlLinkTraining i l tests peer) s = .next t ∧ t.mem = s.mem ∧ t.cores = s.cores ∧ t.linkDue i.val l.val = false ∧
         t.get (Reg.CRL_LINK i.val l.val) Fld.CRL_LINK_state = (if versionFits peer then 2 else 4) ∧
         t.get (Reg.CRL_LINK j k) Fld.CRL_LINK_state = (if versionFits peer then 2 else 4) ∧
         ∀ b, b < linkBundles i.val l.val → t.bunState i.val l.val b = 1 ∧ t.bunState j k b = 1 ∧ t.bun i.val l.val b = BunEnd.reset ∧
           t.bun j k b = BunEnd.reset) ∧
     (∃ t, exec (.crlWindowEnd i l) s = .next t ∧ t = { s with regs := t.regs, ceral := t.ceral } ∧ ∀ b, b < linkBundles i.val l.val →
       let e := s.bun i.val l.val b
       let many := decide (s.get (Reg.CRL_CTL i.val) Fld.CRL_CTL_bundle_thresh < e.replays) && !e.attributed && s.bunState i.val l.val b != 0
       t.bun i.val l.val b = { e with laneErr := [], replays := 0, attributed := false, excess := e.excess || many } ∧
       t.bunState i.val l.val b = s.bunState i.val l.val b ∧
       t.get (Reg.CRL_BUN_STATUS i.val l.val b) Fld.CRL_BUN_STATUS_pending =
         (if many then 3 else s.get (Reg.CRL_BUN_STATUS i.val l.val b) Fld.CRL_BUN_STATUS_pending)) ∧
     (∀ b : Fin 64, b.val < linkBundles i.val l.val → s.cutOff = [] →
       (s.bunQuiet i.val l.val b.val = false → exec (.bundleQuiesceComplete i l b) s = .next s) ∧
       (s.bunQuiet i.val l.val b.val = true → ((s.bun i.val l.val b.val).target = 2 ∨ (s.bun i.val l.val b.val).target = 3) →
         s.exhausted i.val l.val b.val = false → s.exhausted j k b.val = false →
         (s.bun i.val l.val b.val).moved = [] → (s.bun j k b.val).moved = [] →
         let ended (e : BunEnd) : BunEnd := { e with target := 0, swap := [], buf := e.buf.map (fun x => (x.1, x.2 + 1)) }
         ∃ t, exec (.bundleQuiesceComplete i l b) s = .next t ∧ t.mem = s.mem ∧
           t.bunState i.val l.val b.val = (s.bun i.val l.val b.val).target ∧ t.bunState j k b.val = (s.bun i.val l.val b.val).target ∧
           t.bunQuiet i.val l.val b.val = false ∧ t.bunQuiet j k b.val = false ∧
           t.bun i.val l.val b.val = ended (s.bun i.val l.val b.val) ∧ t.bun j k b.val = ended (s.bun j k b.val))))

/-! ### Events (chapter 16) -/

/-- R421-R424, R430, R431: each of the three routes of an edge on its own: the pending bit or the merge count, the MSI-X message or host_again, the wake flag or the drop
count. A level source keeps `asserted`, and the pending bit while it is delivered to the die controller. What names no such source, or a source of a die held
in reset, changes nothing. -/
def Obligations.EventsTakeTheirRoutes : Prop :=
  (∀ (die : DieIx) (n : SrcId) (s : State), (sourceListed die.val n.val = false ∨ s.isLevel die.val n.val = true ∨ s.dieHeld die.val = true) →
    exec (.eventRaise die n) s = .next s) ∧
  (∀ (die : DieIx) (n : SrcId) (s : State), sourceListed die.val n.val = true → s.isLevel die.val n.val = false → s.dieHeld die.val = false →
    (die.val < 8 ∨ s.watchEntry die.val n.val = none) →
    let r := evSrc die.val n.val
    let dc := s.flag r Fld.EVC_SRC_dc_en
    let host := s.flag r Fld.EVC_SRC_host_en
    let core := s.flag r Fld.EVC_SRC_core_en
    let p := s.get r Fld.EVC_SRC_host_port
    let v := s.get r Fld.EVC_SRC_vector
    let c := s.get r Fld.EVC_SRC_core
    (dc = false → host = false → core = false → exec (.eventRaise die n) s = .next s) ∧
    (dc = true → host = false → core = false → s.flag r Fld.EVC_SRC_pending = false →
      exec (.eventRaise die n) s = .next (s.setFlag r Fld.EVC_SRC_pending true)) ∧
    (dc = true → host = false → core = false → s.flag r Fld.EVC_SRC_pending = true →
      exec (.eventRaise die n) s = .next (s.addWrap (Reg.EVC_CNT_MERGED die.val) Fld.EVC_CNT_MERGED_count 1)) ∧
    (dc = false → host = true → core = false → s.flag r Fld.EVC_SRC_host_wait = true →
      exec (.eventRaise die n) s = .next (s.setFlag r Fld.EVC_SRC_host_again true)) ∧
    (dc = false → host = true → core = false → s.flag r Fld.EVC_SRC_host_wait = false → s.vecOwned p v none = true → (s.port p).msixEn = true →
      ((s.port p).vec v).mask = false → (s.port p).fmask = false →
      exec (.eventRaise die n) s = .next ((s.out (.msix p v (s.msixTlp p v))).setFlag r Fld.EVC_SRC_host_wait true)) ∧
    (dc = false → host = false → core = true → s.inService c = true →
      exec (.eventRaise die n) s = .next (s.modCore c (fun k => { k with wf := k.wf ||| BitVec.ofNat 16 (2 ^ s.get r Fld.EVC_SRC_wake) }))) ∧
    (dc = false → host = false → core = true → s.inService c = false →
      exec (.eventRaise die n) s = .next (s.addWrap (Reg.EVC_CNT_DROPPED die.val) Fld.EVC_CNT_DROPPED_count 1))) ∧
  (∀ (die : DieIx) (k : Fin 32) (n : SrcId) (s : State), n.val = 0x1E0 + k.val →
    exec (.evcSwSet die k) s = if s.copyDark die.val then .next s else exec (.eventRaise die n) s) ∧
  (∀ (die : DieIx) (n : SrcId) (v : Bool) (s : State), sourceListed die.val n.val = true → s.isLevel die.val n.val = true →
    (die.val < 8 ∨ s.watchEntry die.val n.val = none) →
    let r := evSrc die.val n.val
    s.flag r Fld.EVC_SRC_host_en = false → s.flag r Fld.EVC_SRC_core_en = false →
    ((s.flag r Fld.EVC_SRC_asserted = v ∨ s.dieHeld die.val = true) → exec (.levelChange die n v) s = .next s) ∧
    (s.flag r Fld.EVC_SRC_asserted = !v → s.dieHeld die.val = false →
      ∃ t, exec (.levelChange die n v) s = .next t ∧ t = { s with regs := t.regs } ∧ t.flag r Fld.EVC_SRC_asserted = v ∧
        (∀ x, x ≠ r → t.reg x = s.reg x) ∧ t.flag r Fld.EVC_SRC_pending =
          (v && (s.flag r Fld.EVC_SRC_pending || (s.flag r Fld.EVC_SRC_dc_en && !s.evcAsleep die.val)))))

/-- R425, R426: the pending normal source of highest priority, ties to the lower number, is delivered where its priority lies above the stack's top and no fast
event is in service; the lowest pending fast source where none is in service. Its pending bit clears and it is in service.

R427, R428, R430, R432, R434: a completion that names the top of the stack, or the fast event in service, removes the entry; any other is an order fault. The host's
acknowledgement ends host_wait and sends the message that host_again asks for. EVC_SRC takes the fields that its writer may write. The timer that
runs out raises WATCH_TIMER. -/
def Obligations.EventsAreDeliveredAndCompleted : Prop :=
  (∀ (die : DieIx) (c : Fin 4) (n : SrcId) (s : State),
     let r := evSrc die.val n.val
     let k := s.cpu die.val c.val
     let prio (m : Nat) := s.get (evSrc die.val m) Fld.EVC_SRC_prio
     (s.pendingFor die.val c.val false n.val = true →
       (∀ m, m < 1024 → m ≠ n.val → s.pendingFor die.val c.val false m = true → prio m < prio n.val ∨ (prio m = prio n.val ∧ n.val < m)) →
       ((k.fast = none ∧ (∀ top, k.stack.head? = some top → top.2 < prio n.val) ∧ s.evcAsleep die.val = false) →
         ∃ t, exec (.eventDeliver die c) s = .next t ∧ t = { s with regs := t.regs, evc := t.evc, outbox := t.outbox } ∧
           t.flag r Fld.EVC_SRC_pending = false ∧ t.flag r Fld.EVC_SRC_in_service = true ∧ (∀ x, x ≠ r → t.reg x = s.reg x) ∧
           t.cpu die.val c.val = { k with stack := (n.val, prio n.val) :: k.stack } ∧ t.outbox = s.outbox ++ [.wake die.val c.val false n.val]) ∧
       ((k.fast ≠ none ∨ (∃ top, k.stack.head? = some top ∧ prio n.val ≤ top.2) ∨ s.evcAsleep die.val = true) →
         exec (.eventDeliver die c) s = .next s)) ∧
     (s.pendingFor die.val c.val true n.val = true → (∀ m, m < n.val → s.pendingFor die.val c.val true m = false) →
       ((k.fast = none ∧ s.evcAsleep die.val = false) →
         ∃ t, exec (.fastEventDeliver die c) s = .next t ∧ t = { s with regs := t.regs, evc := t.evc, outbox := t.outbox } ∧
           t.flag r Fld.EVC_SRC_pending = false ∧ t.flag r Fld.EVC_SRC_in_service = true ∧ (∀ x, x ≠ r → t.reg x = s.reg x) ∧
           t.cpu die.val c.val = { k with fast := some n.val } ∧ t.outbox = s.outbox ++ [.wake die.val c.val true n.val]) ∧
       ((k.fast ≠ none ∨ s.evcAsleep die.val = true) → exec (.fastEventDeliver die c) s = .next s)) ∧
     ((∀ m, m < 1024 → s.pendingFor die.val c.val false m = false) → exec (.eventDeliver die c) s = .next s) ∧
     ((∀ m, m < 1024 → s.pendingFor die.val c.val true m = false) → exec (.fastEventDeliver die c) s = .next s)) ∧
  ((∀ (die : DieIx) (c : Fin 4) (n : SrcId) (s : State),
     let r := evSrc die.val n.val
     let k := s.cpu die.val c.val
     let ended (t : State) := t = { s with regs := t.regs, evc := t.evc } ∧ t.flag r Fld.EVC_SRC_in_service = false ∧
       (∀ x, x ≠ r → t.reg x = s.reg x) ∧ t.flag r Fld.EVC_SRC_pending = (s.flag r Fld.EVC_SRC_pending ||
         (s.isLevel die.val n.val && s.flag r Fld.EVC_SRC_asserted && s.flag r Fld.EVC_SRC_dc_en && !s.evcAsleep die.val))
     let o := Reg.EVC_ORDER die.val
     let fault (i : Instr) (top : Option Nat) : Prop := ∃ u, exec i s = exec (.eventRaise die 0x148) u ∧ u = { s with regs := u.regs } ∧
       (∀ x, x ≠ o → u.reg x = s.reg x) ∧ u.get o Fld.EVC_ORDER_count = satInc 32 (s.get o Fld.EVC_ORDER_count) ∧
       u.get o Fld.EVC_ORDER_cpu = c.val ∧ u.get o Fld.EVC_ORDER_written = n.val ∧ u.flag o Fld.EVC_ORDER_empty = top.isNone ∧
       (∀ m, top = some m → m < 1024 → u.get o Fld.EVC_ORDER_top = m)
     (∀ pr rest, k.stack = (n.val, pr) :: rest →
       ∃ t, exec (.evcDone die c n) s = .next t ∧ ended t ∧ t.cpu die.val c.val = { k with stack := rest }) ∧
     ((∀ pr, k.stack.head? ≠ some (n.val, pr)) → fault (.evcDone die c n) (k.stack.head?.map (·.1))) ∧
     (k.fast = some n.val → ∃ t, exec (.evcFastDone die c n) s = .next t ∧ ended t ∧ t.cpu die.val c.val = { k with fast := none }) ∧
     (k.fast ≠ some n.val → fault (.evcFastDone die c n) k.fast)) ∧
   (∀ (die : DieIx) (n : SrcId) (s : State),
     let r := evSrc die.val n.val
     let p := s.get r Fld.EVC_SRC_host_port
     let v := s.get r Fld.EVC_SRC_vector
     ((s.copyDark die.val = true ∨ s.flag r Fld.EVC_SRC_host_wait = false) → exec (.evcHostAck die n) s = .next s) ∧
     (s.copyDark die.val = false → s.flag r Fld.EVC_SRC_host_wait = true → s.isLevel die.val n.val = false →
       s.flag r Fld.EVC_SRC_host_again = false →
       exec (.evcHostAck die n) s =
         .next ((s.setFlag r Fld.EVC_SRC_host_wait false).setFlag r Fld.EVC_SRC_host_again false)) ∧
     (s.copyDark die.val = false → s.flag r Fld.EVC_SRC_host_wait = true → s.flag r Fld.EVC_SRC_host_again = true → s.flag r Fld.EVC_SRC_host_en = true →
       s.vecOwned p v none = true → (s.port p).msixEn = true → ((s.port p).vec v).mask = false → (s.port p).fmask = false →
       ∃ t, exec (.evcHostAck die n) s = .next t ∧ t = { s with regs := t.regs, outbox := t.outbox } ∧ t.outbox = s.outbox ++ [.msix p v (s.msixTlp p v)] ∧
         t.flag r Fld.EVC_SRC_host_wait = true ∧ t.flag r Fld.EVC_SRC_host_again = false ∧ ∀ x, x ≠ r → t.reg x = s.reg x)) ∧
   (∀ (die : DieIx) (n : SrcId) (v : W64) (fw : Bool) (s : State), s.srcDark die.val fw = true → exec (.evcSrc die n v fw) s = .next s) ∧
   (∀ (die : DieIx) (n : SrcId) (v : W64) (fw : Bool) (s : State), s.srcDark die.val fw = false →
     let r := evSrc die.val n.val
     let m := if fw then 0x00FFFFFFFFFC0000#64 else 0x0000FFFFFFFC0000#64
     let x := (s.reg r &&& ~~~m) ||| (v &&& m)
     ((Fld.EVC_SRC_dc_en.get x = 0 ∨ s.isLevel die.val n.val = false) →
       ∃ t, exec (.evcSrc die n v fw) s = .next t ∧ t = { s with regs := t.regs } ∧ (∀ y, y ≠ r → t.reg y = s.reg y) ∧
         t.reg r = (if Fld.EVC_SRC_dc_en.get x = 0 then Fld.EVC_SRC_pending.put x 0 else x))) ∧
   (∀ s : State, (s.pwr.entry = none ∧ s.get Reg.PWR_STATE Fld.PWR_STATE_state < 2 ∨ s.get Reg.EVC_WATCH_TIMER Fld.EVC_WATCH_TIMER_ms = 0) →
     exec .watchTimer s = .next s) ∧
   (∀ s : State, 2 ≤ s.get Reg.PWR_STATE Fld.PWR_STATE_state → s.get Reg.EVC_WATCH_TIMER Fld.EVC_WATCH_TIMER_ms ≠ 0 →
     exec .watchTimer s = exec (.eventRaise ⟨primaryDie, by simp only [primaryDie]; omega⟩ 0x205) (s.put Reg.EVC_WATCH_TIMER Fld.EVC_WATCH_TIMER_ms 0)))

/-! ### Host ports (chapter 14) -/

/-- R260, R375, R377, R379: an inbound request at a port that is up, with no posted write of the port in flight: what lies outside the BARs is unsupported, what its class does
not reach reads zero, is dropped and counted; a BAR2 request within a line goes to the line's home as MWRS, MRD or AMO_H; BAR0 reads and writes the registers.
At a port that is down no request arrives. -/
def Obligations.InboundRequestsAreServedOrDenied : Prop :=
  ∀ (p : PortId) (rq : InReq) (bar : BitVec 3) (off : BitVec 42) (s : State),
    let den := s.incSat (Reg.HIF_STAT p.val) Fld.HIF_STAT_denied
    let zero (u : State) (n : Nat) := u.out (.completion p.val (List.replicate n 0) false)
    let a := s.bar2Addr p.val off.toNat
    let opened (op : BitVec 8) (n : Nat) : InbReq := ⟨s.opt.nextInb, epHost p.val, op, hostHdr, a, n, [a / 128], [], false, false, 0⟩
    let logged (ep : Bool) := if ep then aerLog s p.val .poisoned else s
    let sent (t : State) (ep : Bool) (op : BitVec 8) (n : Nat) (b : MsgBody) := t = { logged ep with opt := t.opt, net := t.net } ∧
      t.opt = { s.opt with inb := s.opt.inb ++ [opened op n], nextInb := s.opt.nextInb + 1 } ∧
      t.net = s.net ++ [⟨epHost p.val, epSlice (s.home (lineOf a)), lineOf a, b⟩]
    (s.portUp p.val = false → (∀ d ep, exec (.inboundWrite p rq bar off d ep) s = .next s) ∧
      (∀ n, exec (.inboundRead p rq bar off n) s = .next s) ∧ (∀ op w x y ep, exec (.inboundAtomicop p rq bar off op w x y ep) s = .next s)) ∧
    (s.portUp p.val = true → s.sched.abort = none → s.sched.abortQ = [] → (∀ m, m ∈ s.net → m.src ≠ epHost p.val) →
      (∀ d ep, s.barHolds p.val bar.toNat off.toNat d.length = false → exec (.inboundWrite p rq bar off d ep) s = .next s) ∧
      (∀ n, s.barHolds p.val bar.toNat off.toNat n = false → exec (.inboundRead p rq bar off n) s = .next (s.out (.unsupported p.val))) ∧
      (∀ op w x y ep, 2 ≤ w.toNat → exec (.inboundAtomicop p rq bar off op w x y ep) s = .next (s.out (.unsupported p.val))) ∧
      (∀ n, bar = 0 → s.barHolds p.val 0 off.toNat n = true → exec (.inboundRead p rq bar off n) s = .next (
        if s.bar0Serves p.val rq off.toNat then
          (regRead s p.val off.toNat n).1.out (.completion p.val (bytesOf n (regRead s p.val off.toNat n).2) false)
        else zero den n)) ∧
      (∀ d, bar = 0 → s.barHolds p.val 0 off.toNat d.length = true →
        (s.bar0Serves p.val rq off.toNat = true → exec (.inboundWrite p rq bar off d false) s =
          .next (abortsGo (regWrite s .manager p.val off.toNat d.length (ofBytes d)))) ∧
        (s.bar0Serves p.val rq off.toNat = false → exec (.inboundWrite p rq bar off d false) s = .next den)) ∧
      (∀ op w x y ep, bar ≠ 2 → w.toNat < 2 → op.toNat < 3 → s.barHolds p.val bar.toNat off.toNat (if w = 0 then 4 else 8) = true →
        exec (.inboundAtomicop p rq bar off op w x y ep) s = .next (zero den (if w = 0 then 4 else 8))) ∧
      (∀ n, bar = 2 → s.barHolds p.val 2 off.toNat n = true → s.bar2Serves p.val rq a n false = false →
        exec (.inboundRead p rq bar off n) s = .next (zero den n)) ∧
      (∀ d ep, bar = 2 → s.barHolds p.val 2 off.toNat d.length = true → s.bar2Serves p.val rq a d.length true = false →
        exec (.inboundWrite p rq bar off d ep) s = .next den) ∧
      (∀ n, bar = 2 → s.barHolds p.val 2 off.toNat n = true → s.bar2Serves p.val rq a n false = true → 0 < n → a % 128 + n ≤ 128 →
        ∃ t, exec (.inboundRead p rq bar off n) s = .next t ∧ sent t false 0x01 n (.mrd (hostNum p.val) (s.regionKey (a / 128 * 128) false))) ∧
      (∀ d ep, bar = 2 → s.barHolds p.val 2 off.toNat d.length = true → s.bar2Serves p.val rq a d.length true = true → 0 < d.length →
        a % 128 + d.length ≤ 128 →
        ∃ t, exec (.inboundWrite p rq bar off d ep) s = .next t ∧ sent t ep 0x03 d.length (.mwrs (hostNum p.val) (s.regionKey (a / 128 * 128) true)
          (linePut 0 (a % 128) d.length (ofBytes d)) (byteMask (a % 128) d.length) ep)) ∧
      (∀ op w x y, bar = 2 → w.toNat < 2 → op.toNat < 3 → let n := if w = 0 then 4 else 8
        s.barHolds p.val 2 off.toNat n = true → a % n = 0 → s.bar2Serves p.val rq a n true = true →
        ∃ t, exec (.inboundAtomicop p rq bar off op w x y false) s = .next t ∧ sent t false 0x04 n (.amoH (hostNum p.val) (s.regionKey a false)
          (BitVec.ofNat 7 a) (if op = 0 then 0 else if op = 1 then 8 else 9) (n == 8) x y)))

/-- R380-R383, R414, R548: a completion ends the request it names: its data reach the window load, the waybill reader or the mover that asked, a failed
window load reads zero and a failed flush read is a failed write; one that nothing waits for is logged, and one that fails its integrity check ends its
stream. An invalidation drops the translations and is answered once what it waits for has completed. A link comes up as trained and programmed; one that
goes down returns its port to reset. -/
def Obligations.HostCompletionsTranslationsAndLinks : Prop :=
  (∀ (p : PortId) (id : Nat) (st : HostCpl) (ep : Bool) (d : List Byte) (s : State), s.sched.abort = none → s.sched.abortQ = [] →
    (∀ k, st ≠ .ide k) →
    ((s.port p.val).reqs.find? (fun r => r.id == id) = none → exec (.hostCompletion p id st d ep) s = .next (aerLog s p.val .unexpected)) ∧
    (∀ r, (s.port p.val).reqs.find? (fun r => r.id == id) = some r →
      let u := dropReq (cplLog s p.val st ep) p.val id
      let good := st = .ok ∧ r.dead = false
      let out (x : State) : Prop := exec (.hostCompletion p id st d ep) s = .next (if s.portRoom p.val 1 then x else unbindsGo x)
      (∀ c, r.what = .flush c → good → out u) ∧
      (∀ c, r.what = .flush c → ¬good → out ((writeFailed u c 3).setFlag (Reg.CORE_REMOTE c) Fld.CORE_REMOTE_lost true)) ∧
      (∀ c n pos len, r.what = .winLoad c n pos len → good → len ≤ d.length → out (loadPart u c n pos len (ofBytes (d.take len)) ep)) ∧
      (∀ c n pos len, r.what = .winLoad c n pos len → (¬good ∨ d.length < len) →
        out (loadDead (u.setFlag (Reg.CORE_REMOTE c) Fld.CORE_REMOTE_lost true) c n len)) ∧
      (∀ i, r.what = .waybill i → (s.instRd i.val).req = some r.id → out (wayReturn u i.val d (st == .ok && !r.dead) ep)) ∧
      (∀ c t key, r.what = .source c t key → good → 128 ≤ d.length →
        out (moverSource u c t.toNat key (some ⟨lineOfBytes (d.take 128), ep⟩))) ∧
      (∀ c t key, r.what = .source c t key → (¬good ∨ d.length < 128) → out (moverSource u c t.toNat key none)))) ∧
  (∀ (p : PortId) (id : Nat) (k : Fin 9) (ep : Bool) (d : List Byte) (s : State), s.sched.abort = none → s.sched.abortQ = [] →
    (∀ i, s.carsOf i = []) →
    ∃ t, exec (.hostCompletion p id (.ide k) d ep) s = .next t ∧ t.mem = s.mem ∧ t.net = s.net ∧
      (t.port p.val).streams = setDel (s.port p.val).streams k.val ∧ (t.port p.val).reqs = (s.port p.val).reqs ∧
      AerErr.ideCheck ∈ (t.port p.val).aer ∧ t.flag (Reg.HIF_PORT p.val) Fld.HIF_PORT_ide_link = setHas (t.port p.val).streams 0 ∧
      ∀ i n, i < 1024 → s.instBound i = true → s.instPort i = p.val → (i, n) ∈ s.host.tdiStream → n + 1 = k.val →
        (s.tdiState i = 1 ∨ s.tdiState i = 2) → t.tdiState i = 3) ∧
  (∀ (p : PortId) (itag : BitVec 5) (pasid : BitVec 20) (va : W64) (len : Nat) (s : State),
    (32 ≤ (s.port p.val).inval.length → exec (.invalidateRequest p itag pasid va len) s = .next s) ∧
    ((s.port p.val).inval.length < 32 →
      ∃ t, exec (.invalidateRequest p itag pasid va len) s = .next t ∧ t = { s with host := t.host } ∧
        (t.port p.val).ats = (s.port p.val).ats.filter (fun e => !(e.pasid == pasid && e.va < va.toNat + len && va.toNat < e.va + e.len)) ∧
        (t.port p.val).inval = (s.port p.val).inval ++ [⟨itag, ((s.port p.val).reqs.filter (fun r =>
          r.pasid == some pasid && va.toNat < r.addr + max 1 r.len && r.addr < va.toNat + len)).map (·.id)⟩])) ∧
  (∀ (p : PortId) (itag : BitVec 5) (s : State),
    (∀ x, (s.port p.val).inval.find? (fun x => x.itag == itag && x.wait.isEmpty) = some x →
      exec (.invalidateCompletion p itag) s =
        .next ((s.setPort p.val { s.port p.val with inval := (s.port p.val).inval.erase x }).out (.invalidated p.val itag))) ∧
    ((s.port p.val).inval.find? (fun x => x.itag == itag && x.wait.isEmpty) = none → exec (.invalidateCompletion p itag) s = .next s)) ∧
  (∀ (p : PortId) (rate width : BitVec 4) (flit ats msix : Bool) (cfg : PortCfg) (s : State),
    let widths := width = 1 ∨ width = 3 ∨ width = 4 ∨ width = 5
    ((s.portUp p.val = true ∨ s.portTrains p.val = false ∨ rate.toNat < 5 ∨ (if s.stage = 8 then 5 else 7) < rate.toNat ∨ ¬widths) →
      exec (.hostLinkUp p rate width flit ats msix cfg) s = .next s) ∧
    (s.portUp p.val = false → s.portTrains p.val = true → 5 ≤ rate.toNat → rate.toNat ≤ (if s.stage = 8 then 5 else 7) → widths →
      ∃ t, exec (.hostLinkUp p rate width flit ats msix cfg) s = .next t ∧ t = { s with regs := t.regs, host := t.host } ∧
        t.portUp p.val = true ∧
        t.get (Reg.HIF_PORT p.val) Fld.HIF_PORT_rate = rate.toNat ∧ t.get (Reg.HIF_PORT p.val) Fld.HIF_PORT_width = width.toNat ∧
        t.flag (Reg.HIF_PORT p.val) Fld.HIF_PORT_flit = (flit || decide (6 ≤ rate.toNat)) ∧
        t.flag (Reg.HIF_PORT p.val) Fld.HIF_PORT_ats_en = ats ∧ t.flag Reg.BOOT_READY0 (readyPort p.val) = true ∧
        t.port p.val = { s.port p.val with
          msixEn := msix, fmask := cfg.fmask, mps := min cfg.mps.toNat 2, mrrs := min cfg.mrrs.toNat 5,
          bar2 := if 30 ≤ cfg.bar2 ∧ cfg.bar2 ≤ 42 then cfg.bar2 else 42 })) ∧
  (∀ (p : PortId) (s : State), s.sched.abort = none → s.sched.abortQ = [] → (s.port p.val).reqs = [] →
    (s.portUp p.val = false → exec (.hostLinkDown p) s = .next (s.setPort p.val { HostPort.reset with nextReq := (s.port p.val).nextReq })) ∧
    (s.portUp p.val = true → s.host.dlog = [] → (∀ i, i < 1024 → s.instBound i = false) →
      ∃ t, exec (.hostLinkDown p) s = .next t ∧ t.mem = s.mem ∧ t.net = s.net ∧ t.portUp p.val = false ∧
        t.flag (Reg.HIF_PORT p.val) Fld.HIF_PORT_down_seen = true ∧ t.flag Reg.BOOT_READY0 (readyPort p.val) = false ∧
        t.port p.val = { HostPort.reset with nextReq := (s.port p.val).nextReq })) ∧
  (∀ s : State, exec (.perstN false) s = .next { s with host := { s.host with perst := false } }) ∧
  (∀ s : State, s.sched.abort = none → s.sched.abortQ = [] → s.portUp 0 = false → s.portUp 1 = false → (s.port 0).reqs = [] → (s.port 1).reqs = [] →
    ∃ t, exec (.perstN true) s = .next t ∧ t = { s with host := t.host } ∧ t.host.perst = true ∧
      t.port 0 = { HostPort.reset with nextReq := (s.port 0).nextReq } ∧ t.port 1 = { HostPort.reset with nextReq := (s.port 1).nextReq })

/-- R384, R395, R396: an unmasked vector sends the message held pending for it and no other; gathered dirty bits leave as one CAS of their bitmap word, whose return brings the
last-known value up to date, or counts as a failed update. -/
def Obligations.PendingVectorsAndDirtyBits : Prop :=
  (∀ (p : PortId) (v : Fin 2048) (s : State), (s.port p.val).msixEn = true → (s.port p.val).fmask = false →
    ((s.port p.val).pba = [v.val] → ∃ t, exec (.msixUnmask p (some v)) s = .next t ∧ t = { s with host := t.host, outbox := t.outbox } ∧
      t.outbox = s.outbox ++ [.msix p.val v.val (s.msixTlp p.val v.val)] ∧ (t.port p.val).pba = [] ∧ ((t.port p.val).vec v.val).mask = false) ∧
    ((s.port p.val).pba = [] → ∃ t, exec (.msixUnmask p (some v)) s = .next t ∧ t = { s with host := t.host } ∧
      ((t.port p.val).vec v.val) = { (s.port p.val).vec v.val with mask := false } ∧
      ∀ n, n ≠ v.val → (t.port p.val).vec n = (s.port p.val).vec n)) ∧
  (∀ (i : InstId) (x : DlogWord) (s : State), s.host.dlog = [x] → x.inst = i.val →
    (x.bits ≠ 0 → x.out = none → s.portUp (s.instPort i.val) = true →
      ∃ t, exec (.dirtyBitmapUpdate i) s = .next t ∧ t.mem = s.mem ∧ t.net = s.net ∧ t.host.dlog = [{ x with bits := 0, out := some x.bits }] ∧
        t.outbox = s.outbox ++ [.hostCas (s.instPort i.val) (s.dlogAddr x) x.last (x.last ||| x.bits)] ∧
        t.flag (Reg.HIF_DLOG_CTL i.val) Fld.HIF_DLOG_CTL_busy = true) ∧
    (∀ (r : Fin 16) (b : W64) (old : W64), x.range = r.val → x.out = some b → old = x.last → x.bits = 0 →
      ∃ t, exec (.dlogCasComplete i r x.word true old) s = .next t ∧ t.mem = s.mem ∧ t.outbox = s.outbox ∧
        t.host.dlog = [{ x with last := x.last ||| b, out := none }] ∧ t.flag (Reg.HIF_DLOG_CTL i.val) Fld.HIF_DLOG_CTL_busy = false) ∧
    (∀ (r : Fin 16) (b : W64) (old : W64), x.range = r.val → x.out = some b → old ≠ x.last → s.portUp (s.instPort i.val) = true →
      ∃ t, exec (.dlogCasComplete i r x.word true old) s = .next t ∧ t.mem = s.mem ∧
        t.host.dlog = [{ x with last := old, bits := 0, out := some (x.bits ||| b) }] ∧
        t.outbox = s.outbox ++ [.hostCas (s.instPort i.val) (s.dlogAddr x) old (old ||| (x.bits ||| b))]) ∧
    (∀ (r : Fin 16) (b : W64) (old : W64), x.range = r.val → x.out = some b →
      ∃ t, exec (.dlogCasComplete i r x.word false old) s = .next t ∧ t.mem = s.mem ∧ t.outbox = s.outbox ∧ t.host.dlog = [{ x with out := none }] ∧
        t.flag (Reg.HIF_DLOG_CTL i.val) Fld.HIF_DLOG_CTL_map_fault = true ∧
        t.flag (Reg.HIF_DLOG_CTL i.val) Fld.HIF_DLOG_CTL_unranged = true)) ∧
  (∀ (i : InstId) (r : Fin 16) (n : Nat) (ok : Bool) (old : W64) (s : State), s.host.dlog = [] → exec (.dlogCasComplete i r n ok old) s = .next s)

/-- R387-R390: a post whose seq is next, in its slot, within the window, under a negotiated major and with a legal length, writes word 0 and moves next on; any other is dropped and
counted. acked and consumed move within what was posted. MBX_VER negotiates. The tenant's requests are its ownership, its release and its aborts. -/
def Obligations.MailboxesAndTenantRequests : Prop :=
  ∀ (i : InstId) (s : State),
    (∀ (m2t : Bool) (n : Fin 16) (w : W64),
      let seq := w.toNat % 65536
      let q := s.mbxSeq i.val m2t
      let good := seq = q.1 ∧ seq % 16 = n.val ∧ seqGap q.2 q.1 < 16 ∧ s.get (Reg.MBX_VER i.val) Fld.MBX_VER_major ≠ 0 ∧ w.toNat / 65536 % 256 ≤ 56
      (¬good → exec (.mailboxPost i m2t n w) s = .next (s.incSat (Reg.MBX_STATUS i.val) Fld.MBX_STATUS_drops)) ∧
      (good → s.flag (Reg.MBX_IRQ i.val) (if m2t then Fld.MBX_IRQ_m2t_en else Fld.MBX_IRQ_t2m_en) = false →
        ∃ t, exec (.mailboxPost i m2t n w) s = .next t ∧ t = { s with regs := t.regs } ∧ t.reg (mbxSlotReg i.val m2t n.val 0) = w ∧
          t.mbxSeq i.val m2t = ((seq + 1) % 65536, q.2) ∧ t.mbxSeq i.val (!m2t) = s.mbxSeq i.val (!m2t))) ∧
    (∀ (m2t : Bool) (v : BitVec 16) (c : Instr), (m2t = false ∧ c = .mailboxAck i v ∨ m2t = true ∧ c = .mailboxConsume i v) →
      let q := s.mbxSeq i.val m2t
      (seqGap q.2 q.1 < seqGap q.2 v.toNat → exec c s = .next s) ∧
      (seqGap q.2 v.toNat ≤ seqGap q.2 q.1 → ∃ t, exec c s = .next t ∧ t = { s with regs := t.regs } ∧ t.mbxSeq i.val m2t = (q.1, v.toNat) ∧
        t.mbxSeq i.val (!m2t) = s.mbxSeq i.val (!m2t))) ∧
    (∀ hi lo : BitVec 4, ∃ t, exec (.mbxVer i hi lo) s = .next t ∧ t = { s with regs := t.regs } ∧ (∀ r, r ≠ Reg.MBX_VER i.val → t.reg r = s.reg r) ∧
      t.get (Reg.MBX_VER i.val) Fld.MBX_VER_ten_max = hi.toNat ∧ t.get (Reg.MBX_VER i.val) Fld.MBX_VER_ten_min = lo.toNat ∧
      t.get (Reg.MBX_VER i.val) Fld.MBX_VER_major = (if lo.toNat ≤ 1 ∧ 1 ≤ hi.toNat then 1 else 0) ∧
      t.get (Reg.MBX_VER i.val) Fld.MBX_VER_minor = 0) ∧
    (s.ownRefused (s.instPart i.val) i.val = true → exec (.mbxOwn i) s = .next ((s.setFlag (Reg.PRT_OWN (s.instPart i.val)) Fld.PRT_OWN_refused
      true).setFlag (Reg.MBX_STATUS i.val) Fld.MBX_STATUS_own_refused true)) ∧
    (∀ p : PartId, p.val = s.instPart i.val → s.ownRefused p.val i.val = false → exec (.mbxOwn i) s = exec (.ownRequest p i) s) ∧
    (∀ p : PartId, p.val = s.instPart i.val →
      exec (.mbxRelease i) s = if s.owning p.val i.val then exec (.ownEnd p) s else .next s) ∧
    (∀ (all : Bool) (c : Instr), c = (if all then .mbxAbortAll i else .mbxAbortTag i) →
      (s.abortOpen i.val = true → exec c s = .next (s.setFlag (Reg.MBX_STATUS i.val) Fld.MBX_STATUS_abort_busy_drop true)) ∧
      (s.sched.abort = none → s.sched.abortQ = [] → (s.instRd i.val).taken = [] →
        s.abortNames i.val all (s.reg (Reg.MBX_ABORT_TAG i.val)) = [] →
        ∃ t, exec c s = .next t ∧ t.mem = s.mem ∧ t.cores = s.cores ∧ t.sched.cars = s.sched.cars ∧ t.sched.abortQ = [] ∧
          t.get (Reg.MBX_STATUS i.val) Fld.MBX_STATUS_abort_result = 2 ∧ t.get (Reg.MBX_STATUS i.val) Fld.MBX_STATUS_matched = 0 ∧
          t.flag (Reg.MBX_STATUS i.val) Fld.MBX_STATUS_abort_done = true))

/-! ### Device interfaces, sessions and measurements (chapters 14 and 21) -/

/-- R391-R393: LOCK_INTERFACE succeeds only as R391 allows and binds the stream; START_INTERFACE takes a locked TDI to RUN; STOP_INTERFACE begins the clearing; each fails with
an error response and no change. Once every caravan has ended the clearing zeroes the partition's scratchpads and its normal memory. -/
def Obligations.DeviceInterfaceStates : Prop :=
  ∀ (i : InstId) (s : State),
    let p := s.instPort i.val
    let err := s.out (.tdisp p false [])
    (∀ stream : Fin 8, s.mayLock i.val stream.val = false → exec (.lockInterface i stream) s = .next err) ∧
    (∀ stream : Fin 8, s.mayLock i.val stream.val = true →
      ∃ t, exec (.lockInterface i stream) s = .next t ∧ t = { s with regs := t.regs, host := t.host, outbox := s.outbox ++ [.tdisp p true []] } ∧
        t.tdiState i.val = 1 ∧ (i.val, stream.val) ∈ t.host.tdiStream ∧ t.host.zeroing = s.host.zeroing) ∧
    (s.tdiState i.val = 1 → exec (.startInterface i) s = .next ((setTdi s i.val 2).out (.tdisp p true []))) ∧
    (s.tdiState i.val ≠ 1 → exec (.startInterface i) s = .next err) ∧
    (s.tdiState i.val = 0 → exec (.stopInterface i) s = .next err) ∧
    (s.tdiState i.val ≠ 0 → s.sched.abort = none → s.sched.abortQ = [] → s.carsOf i.val = [] → (s.instRd i.val).taken = [] → s.host.zeroing = [] →
      ∃ t, exec (.stopInterface i) s = .next t ∧ t.mem = s.mem ∧ t.tdiState i.val = 3 ∧ t.host.zeroing = [(i.val, true)] ∧
        t.outbox = s.outbox ++ [.tdisp p true []]) ∧
    ((s.host.zeroing.find? (fun z => z.1 == i.val) = none ∨ s.carsOf i.val ≠ []) → exec (.tdiZeroingComplete i) s = .next s) ∧
    (∀ unlock, s.host.zeroing = [(i.val, unlock)] → s.carsOf i.val = [] → s.flag (Reg.PRT_INST i.val) Fld.PRT_INST_unbinding = false →
      ∃ t, exec (.tdiZeroingComplete i) s = .next t ∧ t.host.zeroing = [] ∧
        (unlock = true → t.tdiState i.val = 0) ∧ (unlock = false → t.tdiState i.val = s.tdiState i.val) ∧
        (∀ c o, c ∈ s.partCores (s.instPart i.val) → o < 0x100000 → t.byte (scrBase c + o) = 0) ∧
        (∀ g o, g ∈ s.normalGibs (s.instPart i.val) → o < 2 ^ 30 → t.byte (g * 2 ^ 30 + o) = 0) ∧
        (∀ a, s.byte a = 0 → t.byte a = 0))

/-- R521, R522, R528: on a port whose link is up, from stage 1, every SPDM request is answered with what it asks for, signed by the alias key where it is signed, and changes nothing but
the session it opens, completes or ends. A session opens, completes and ends in that order; interface reports and IDE keys need a complete one. A port
that serves none answers nothing. -/
def Obligations.SpdmAnswers : Prop :=
  ∀ (p : PortId) (s : State),
    (s.spdmServed p.val = false → ∀ (i : Instr), (i = .getVersion p ∨ i = .getCapabilities p ∨ (∃ a b c d, i = .negotiateAlgorithms p a b c d) ∨
        i = .getDigests p ∨ (∃ a b c, i = .getCertificate p a b c) ∨ (∃ a b, i = .challenge p a b) ∨ (∃ a b c, i = .getMeasurements p a b c) ∨
        (∃ a b, i = .keyExchange p a b) ∨ (∃ a, i = .finish p a) ∨ i = .endSession p ∨ (∃ a, i = .getDeviceInterfaceReport p a) ∨
        (∃ a b, i = .ideKm p a b)) → exec i s = .next s) ∧
    (s.spdmServed p.val = true →
      let say (what : String) (d : List Byte) := s.out (.spdm p.val what d)
      let sign (d : List Byte) := bytesOf 64 (Config.sign s.aliasSeed d).toNat
      exec (.getVersion p) s = .next (say "VERSION" [0x12, 0x13]) ∧
      exec (.getCapabilities p) s = .next (say "CAPABILITIES" []) ∧
      (∀ asym hash dhe aead, exec (.negotiateAlgorithms p asym hash dhe aead) s =
        .next (say "ALGORITHMS" [BitVec.ofNat 8 (b2n asym + 2 * b2n hash + 4 * b2n dhe + 8 * b2n aead)])) ∧
      exec (.getDigests p) s = .next (say "DIGESTS" (bytesOf 64 (Config.sha512 s.chain).toNat)) ∧
      (∀ off len, exec (.getCertificate p 0 off len) s = .next (say "CERTIFICATE" ((s.chain.drop off.toNat).take len.toNat))) ∧
      (∀ slot off len, slot ≠ 0 → exec (.getCertificate p slot off len) s = .next (say "ERROR" [])) ∧
      (∀ nonce, exec (.challenge p 0 nonce) s = .next (say "CHALLENGE_AUTH" (sign (bytesOf 32 nonce.toNat)))) ∧
      (∀ nonce, exec (.getMeasurements p 0xFF nonce false) s =
        .next (say "MEASUREMENTS" (s.measurement 1 ++ s.measurement 2 ++ s.measurement 3 ++ s.measurement 4 ++ s.measurement 5))) ∧
      (∀ (n : BitVec 8) nonce, 1 ≤ n.toNat → n.toNat ≤ 5 → exec (.getMeasurements p n nonce true) s =
        .next (say "MEASUREMENTS" (s.measurement n.toNat ++ sign (bytesOf 32 nonce.toNat ++ s.measurement n.toNat)))) ∧
      (∀ key, ∃ r : List Byte, exec (.keyExchange p 0 key) s =
        .next ((setSession s.drawn p.val 1).out (.spdm p.val "KEY_EXCHANGE_RSP" (r ++ sign (key ++ r))))) ∧
      (∀ mac, (s.port p.val).session = 1 → Config.spdmMac mac = true →
        exec (.finish p mac) s = .next ((setSession s p.val 2).out (.spdm p.val "FINISH_RSP" []))) ∧
      (∀ mac, ((s.port p.val).session ≠ 1 ∨ Config.spdmMac mac = false) → exec (.finish p mac) s = .next (say "ERROR" [])) ∧
      ((s.port p.val).session = 2 → exec (.endSession p) s = .next ((setSession s p.val 0).out (.spdm p.val "END_SESSION_ACK" []))) ∧
      ((s.port p.val).session ≠ 2 → exec (.endSession p) s = .next (say "ERROR" []) ∧
        (∀ i, exec (.getDeviceInterfaceReport p i) s = .next s) ∧ (∀ n b, exec (.ideKm p n b) s = .next s)) ∧
      ((s.port p.val).session = 2 →
        (∀ i : InstId, exec (.getDeviceInterfaceReport p i) s = .next (s.out (.tdisp p.val true (s.instBytes i.val)))) ∧
        (∀ (n : Fin 9) (b : Bool), ∃ t, exec (.ideKm p n b) s = .next t ∧ t = { s with regs := t.regs, host := t.host } ∧
          (t.port p.val).streams = (if b then setIns (s.port p.val).streams n.val else setDel (s.port p.val).streams n.val) ∧
          t.flag (Reg.HIF_PORT p.val) Fld.HIF_PORT_ide_link = setHas (t.port p.val).streams 0)))

/-! ### Optical links and remote memory (chapter 15) -/

/-- R401, R403, R405, R406: on a port that is UP a flit with a corrected codeword, a good CRC and the expected seq is accepted and acknowledged at every
64th, its units owed to their channel as credits; any other is answered by NAK. A NAK sends every flit from its seq on again. What waits for a channel
leaves with credits for it and room in the replay buffer, not otherwise. Heartbeats are sent and name the partner. A port that is not UP does none of
this. Training sends the version and a heartbeat and ends UP, or HELD with its cause.

R415-R417: loss of signal on a trained lane, a missing heartbeat and replay exhaustion lose an UP port: LOST with its cause, replay buffer gone, the port in no live set, loss
count and epoch advanced, LOSS sent. A notice not processed before advances the epoch and goes on to every other UP port. No request being
outstanding, nothing else happens. -/
def Obligations.OpticalLinks : Prop :=
  ((∀ (o : OptId) (s : State), s.optUp o.val = false →
     (∀ f e ok n, exec (.optFlitReceive o f e ok n) s = .next s) ∧ (∀ q, exec (.optNak o q) s = .next s) ∧
     exec (.optAckTimer o) s = .next s ∧ exec (.heartbeatSend o) s = .next s ∧ (∀ i p, exec (.heartbeat o i p) s = .next s)) ∧
   (∀ (o : OptId) (s : State), s.optUp o.val = true →
     let e := s.optEnd o.val
     let r := Reg.OPT_PORT_ERR o.val
     let owes (x : BitVec 2048) (e : OptEnd) : OptEnd := { e with
       rxExp := (e.rxExp + 1) % 65536, sinceAck := e.sinceAck + 1,
       owed := mapSet (fun _ => 0) e.owed (optVc x) (mapGet (fun _ => 0) e.owed (optVc x) + 15) }
     let acked (e : OptEnd) : OptEnd := { e.returns.2 with sinceAck := 0 }
     let ack (nak : Bool) (e : OptEnd) : Out := .optCtrl o.val nak e.rxExp e.returns.1.1 e.returns.1.2
     (∀ sent err ok n, let x := sent ^^^ err
       let e1 := ({ e with buf := ackTrim optSeq 65536 (optAck x) e.buf } : OptEnd).credit x
       ((ok = false ∨ crcGood 256 x.toNat = false ∨ (optNumbered x = true ∧ optSeq x ≠ e.rxExp)) →
         ∃ t, exec (.optFlitReceive o sent err ok n) s = .next t ∧ t = { s with regs := t.regs, opt := t.opt, outbox := s.outbox ++ [ack true e] } ∧
           t.optEnd o.val = acked e ∧ t.get r Fld.OPT_PORT_ERR_naks = satInc 16 (s.get r Fld.OPT_PORT_ERR_naks) ∧
           t.get r Fld.OPT_PORT_ERR_fec_bad = (if ok then s.get r Fld.OPT_PORT_ERR_fec_bad else satInc 16 (s.get r Fld.OPT_PORT_ERR_fec_bad)) ∧
           (∀ y, y ≠ r → t.reg y = s.reg y)) ∧
       (ok = true → crcGood 256 x.toNat = true → optNumbered x = true → optSeq x = e.rxExp →
         ∃ u, exec (.optFlitReceive o sent err ok n) s = .next (optFlow u o.val) ∧ u = { s with regs := u.regs, opt := u.opt, outbox := u.outbox } ∧
           (∀ y, y ≠ r → u.reg y = s.reg y) ∧ u.optEnd o.val = (if e.sinceAck + 1 < 64 then owes x e1 else acked (owes x e1)) ∧
           u.outbox = s.outbox ++ (if e.sinceAck + 1 < 64 then [] else [ack false (owes x e1)])) ∧
       (ok = true → crcGood 256 x.toNat = true → optNumbered x = false →
         ∃ u, exec (.optFlitReceive o sent err ok n) s = .next (optFlow u o.val) ∧ u = { s with regs := u.regs, opt := u.opt } ∧
           (∀ y, y ≠ r → u.reg y = s.reg y) ∧ u.optEnd o.val = e1)) ∧
     (∀ seq : BitVec 16, let buf := ackTrim optSeq 65536 seq.toNat e.buf
       (∀ q, buf.head? = some q → ¬(s.get Reg.OPT_CTL Fld.OPT_CTL_replay_max < q.2 ∧ optSeq q.1 = seq.toNat)) →
       ∃ u, exec (.optNak o seq) s = .next (optFlow u o.val) ∧
         u = { s with opt := u.opt, outbox := s.outbox ++ buf.map (fun x => .optFlit o.val (optAgain x.1 e.rxExp)) } ∧
         u.optEnd o.val = { e with buf := buf.map (fun x => (x.1, x.2 + 1)) }) ∧
     (e.queue = [] → optFlow s o.val = s) ∧
     (∀ vc us, e.queue = [(vc, us)] → 0 < us.length → us.length ≤ 15 →
       (15 ≤ mapGet (fun _ => 0) e.credits vc → e.buf.length < 4096 →
         let f := optBody vc e.txNext e.rxExp e.returns.1.1 e.returns.1.2 us
         ∃ t, optFlow s o.val = t ∧ t = { s with opt := t.opt, outbox := s.outbox ++ [.optFlit o.val f] } ∧ t.optEnd o.val = { e.returns.2 with
           txNext := (e.txNext + 1) % 65536, buf := e.buf ++ [(f, 1)], sinceAck := 0, queue := [],
           credits := mapSet (fun _ => 0) e.credits vc (mapGet (fun _ => 0) e.credits vc - 15) }) ∧
       ((mapGet (fun _ => 0) e.credits vc < 15 ∨ 4096 ≤ e.buf.length) → optFlow s o.val = s)) ∧
     exec (.optAckTimer o) s = .next ((s.setOptEnd o.val (acked e)).out (ack false e)) ∧
     exec (.heartbeatSend o) s = .next (s.out (.heartbeat o.val (BitVec.ofNat 12 s.moduleId))) ∧
     (∀ (i : BitVec 12) (p : BitVec 4), ∃ t, exec (.heartbeat o i p) s = .next t ∧ t = { s with regs := t.regs } ∧
       t.get (Reg.OPT_PORT o.val) Fld.OPT_PORT_peer_id = i.toNat ∧ t.get (Reg.OPT_PORT o.val) Fld.OPT_PORT_peer_port = p.toNat ∧
       ∀ y, y ≠ Reg.OPT_PORT o.val → t.reg y = s.reg y)) ∧
   (∀ (o : OptId) (lanes : BitVec 8) (peer : Version) (id : BitVec 12) (port : BitVec 4) (s : State), s.pwr.trip = false → s.ceral.isolated = [] →
     8 ≤ o.val →
     ((s.flag Reg.OPT_ID Fld.OPT_ID_valid = false ∨ s.optUp o.val = true) → exec (.optPortTraining o lanes peer id port) s = .next s) ∧
     (s.flag Reg.OPT_ID Fld.OPT_ID_valid = true → s.optUp o.val = false →
       ∃ t, exec (.optPortTraining o lanes peer id port) s = .next t ∧ t.mem = s.mem ∧ t.net = s.net ∧
         (lanes &&& 0x0F ≠ 0x0F → lanes &&& 0xF0 ≠ 0xF0 → t.optState o.val = 3 ∧ t.get (Reg.OPT_PORT o.val) Fld.OPT_PORT_cause = 3) ∧
         (lanes = 0xFF → versionFits peer = false → t.optState o.val = 3 ∧ t.get (Reg.OPT_PORT o.val) Fld.OPT_PORT_cause = 1) ∧
         (lanes = 0xFF → versionFits peer = true → id.toNat = s.moduleId →
           t.optState o.val = 3 ∧ t.get (Reg.OPT_PORT o.val) Fld.OPT_PORT_cause = 2) ∧
         (lanes &&& 0x0F = 0x0F → versionFits peer = true → id.toNat ≠ s.moduleId → t.optState o.val = 2 ∧
           t.flag (Reg.OPT_PORT o.val) Fld.OPT_PORT_half = (lanes != 0xFF) ∧ t.get (Reg.OPT_PORT o.val) Fld.OPT_PORT_peer_id = id.toNat ∧
           t.optEnd o.val = { OptEnd.reset with lanes := if lanes = 0xFF then 0xFF else 0x0F } ∧
           Out.version o.val ⟨1, 1, 0⟩ ∈ t.outbox ∧ Out.heartbeat o.val (BitVec.ofNat 12 s.moduleId) ∈ t.outbox)))) ∧
  ((∀ (o : OptId) (s : State), s.optUp o.val = true → s.sched.abort = none → s.sched.abortQ = [] → s.sched.ledger = [] →
     (∀ c, (s.core c).remote = []) →
     (∀ (i : Instr) (cause : Nat), (i = .heartbeatTimeout o ∧ cause = 6 ∨
         (∃ lane : Fin 8, i = .optLossOfSignal o lane ∧ (s.optEnd o.val).lanes.getLsbD lane.val = true) ∧ cause = 4 ∨
         (∃ (seq : BitVec 16) (f : BitVec 2048) (n : Nat) (rest : List (BitVec 2048 × Nat)), i = .optNak o seq ∧
           ackTrim optSeq 65536 seq.toNat (s.optEnd o.val).buf = (f, n) :: rest ∧ optSeq f = seq.toNat ∧ s.get Reg.OPT_CTL Fld.OPT_CTL_replay_max < n) ∧ cause = 5) →
       ∃ t, exec i s = .next t ∧ t.mem = s.mem ∧ t.net = s.net ∧ t.optState o.val = 4 ∧ t.get (Reg.OPT_PORT o.val) Fld.OPT_PORT_cause = cause ∧
         t.optEnd o.val = OptEnd.reset ∧ (∀ e, e < 32 → o.val ∉ t.livePorts e) ∧
         t.get Reg.OPT_DOMAIN Fld.OPT_DOMAIN_epoch = (s.get Reg.OPT_DOMAIN Fld.OPT_DOMAIN_epoch + 1) % 65536 ∧
         t.get Reg.OPT_DOMAIN Fld.OPT_DOMAIN_loss_count = (s.get Reg.OPT_DOMAIN Fld.OPT_DOMAIN_loss_count + 1) % 65536 ∧
         ∀ p, p < 16 → p ≠ o.val → s.optUp p = true → ∃ n : LossNotice, .loss p n ∈ t.outbox ∧ n.port.toNat = o.val) ∧
     (∀ lane : Fin 8, (s.optEnd o.val).lanes.getLsbD lane.val = false → exec (.optLossOfSignal o lane) s = .next s) ∧
     (∀ n : LossNotice, s.noticeSeen n = true → exec (.loss o n) s = .next s) ∧
     (∀ n : LossNotice, s.noticeSeen n = false →
       ∃ t, exec (.loss o n) s = .next t ∧ t.mem = s.mem ∧ t.net = s.net ∧ t.noticeSeen n = true ∧
         t.get Reg.OPT_DOMAIN Fld.OPT_DOMAIN_epoch = (s.get Reg.OPT_DOMAIN Fld.OPT_DOMAIN_epoch + 1) % 65536 ∧
         t.outbox = s.outbox ++ ((List.range 16).filter (fun p => s.optUp p && some p != some o.val)).map (fun p => .loss p n))) ∧
   (∀ (o : OptId) (n : LossNotice) (lane : Fin 8) (s : State), s.optUp o.val = false →
     exec (.heartbeatTimeout o) s = .next s ∧ exec (.optLossOfSignal o lane) s = .next s ∧ exec (.loss o n) s = .next s))

/-- R404, R407, R411: a request of another module that arrives for this one and passes the check goes to the home of its line with the requester number of the port; one that fails it
is answered REFUSED, counted, and applied nowhere; a request for a third module goes on. A write to a scratchpad is performed at once.

R314, R315, R411, R412, R418: an answer completes the request that holds its tag: read data reach the load, an old value reaches the register of an AMO, a refusal is an address
error, a lost request a failed write. An answer of another epoch, or that names no request, is dropped; one that a save has put into the ledger marks its
entry ACKED, with the old value. -/
def Obligations.RemoteOperations : Prop :=
  (∀ (o : OptId) (h : RemHdr) (s : State), s.optUp o.val = true →
     let a := h.mpa.toNat
     let l := lineOf a
     let num : ReqNum := BitVec.ofNat 13 (0x1010 + o.val)
     let refused := (remoteRespond s h [] 0x12 1 false 0).addWrap Reg.OPT_CNT_REFUSED Fld.OPT_CNT_REFUSED_count 1
     let sent (t : State) (op : BitVec 8) (b : MsgBody) := t = { s with opt := t.opt, net := t.net } ∧
       t.opt = { s.opt with inb := s.opt.inb ++ [⟨s.opt.nextInb, epOptical o.val, op, h, a, 128, [a / 128], [], false, false, 0⟩],
                            nextInb := s.opt.nextInb + 1 } ∧
       t.net = s.net ++ [⟨epOptical o.val, epSlice (s.home l), l, b⟩]
     (h.dst.toNat ≠ s.moduleId → exec (.rd o h) s = .next (forward s 0x01 h none [] 0)) ∧
     (h.dst.toNat = s.moduleId → ∀ (i : Instr) (op : Nat) (len : Nat) (b : MsgBody),
       (i = .rd o h ∧ h.lines = 0 ∧ op = 1 ∧ len = 128 ∧ b = .mrd num (s.regionKey (a / 128 * 128) false) ∨
         (∃ mask d, i = .wr o h mask [d] ∧ op = 2 ∧ len = 128 ∧
           b = .mwr num (s.regionKey (a / 128 * 128) false) d (mask.getD (BitVec.allOnes 128)) h.poison) ∨
         (∃ mask d, i = .wrs o h mask [d] ∧ op = 3 ∧ len = 128 ∧
           b = .mwrs num (s.regionKey (a / 128 * 128) true) d (mask.getD (BitVec.allOnes 128)) h.poison) ∨
         (∃ cmp, i = .remoteAmo o h cmp ∧ h.arg.toNat % 16 < 10 ∧ op = 4 ∧ len = (if h.arg.getLsbD 4 then 8 else 4) ∧
           b = .amoH num (s.regionKey (a / 128 * 128) false) (BitVec.ofNat 7 a) (h.arg.extractLsb' 0 4) (h.arg.getLsbD 4) h.value cmp) ∨
         (∃ d, i = .remoteRadd o h d ∧ op = 5 ∧ len = 128 ∧
           b = .radd num (s.regionKey (a / 128 * 128) false) (h.arg.extractLsb' 0 2) d h.poison)) →
       ((a % len ≠ 0 ∨ s.remoteServes op h a len = false) → exec i s = .next refused) ∧
       (a % len = 0 → s.remoteServes op h a len = true → a < 0x100000000000 → ∃ t, exec i s = .next t ∧ sent t (BitVec.ofNat 8 op) b)) ∧
     (h.dst.toNat = s.moduleId → ∀ d : Line, a % 128 = 0 → 0x100000000000 ≤ a → s.remoteServes 2 h a 128 = true → s.stk.bad = [] → s.errs.inj = [] →
       ∃ t, exec (.wr o h none [d]) s = .next t ∧ (∀ j, j < 128 → t.byte (a + j) = byteAt d.toNat j) ∧
         (∀ x, (x < a ∨ a + 128 ≤ x) → t.byte x = s.byte x) ∧ t.net = s.net ∧ t.cores = s.cores)) ∧
  (∀ (o : OptId) (h : RemHdr) (s : State), s.optUp o.val = true → h.dst.toNat = s.moduleId → s.opt.routeHold = [] →
     let c := h.core.toNat
     let st := h.epoch.toNat = s.get Reg.OPT_DOMAIN Fld.OPT_DOMAIN_epoch
     (∀ d n, ¬st → exec (.rdData o h d) s = .next s ∧ exec (.remoteDone o h n) s = .next s) ∧
     (st → (s.core c).remote = [] → s.sched.ledger = [] → ∀ d n, exec (.rdData o h d) s = .next s ∧ exec (.remoteDone o h n) s = .next s) ∧
     (∀ r, st → (s.core c).remote = [r] → r.tag = h.tag.toNat → r.gen = h.gen → s.staleRead c r = false →
       let u := s.modCore c (fun k => { k with remote := [] })
       (∀ id pos len addr d, r.kind = .read id pos len addr →
         exec (.rdData o h [d]) s = .next (loadPart u c id pos len (lineNum d (addr.toNat % 128) len) h.poison)) ∧
       (∀ n w wid, r.kind = .amo n w wid →
         let v := u.modCore c (fun k => k.lateSr n wid (if w then h.value else BitVec.ofNat 64 (h.value.toNat % 2 ^ 32)))
         exec (.remoteDone o h 0) s = .next (if h.poison then seqPoison v c else v)) ∧
       (∀ id addr, r.kind = .write id addr none false → exec (.remoteDone o h 0) s = .next u ∧
         exec (.remoteDone o h 1) s = .next (addrErr u c addr.toNat) ∧
         exec (.remoteDone o h 2) s = .next (writeFailed ((u.addWrap Reg.OPT_CNT_LOST Fld.OPT_CNT_LOST_count 1).setFlag (Reg.CORE_REMOTE c)
           Fld.CORE_REMOTE_lost true) c 2)) ∧
       (∀ id addr bad, r.kind = .write id addr (some bad) false → exec (.remoteDone o h 0) s = .next (addrErr u c bad.toNat)) ∧
       (∀ id addr bad, r.kind = .write id addr bad true → exec (.remoteDone o h 0) s = .next u ∧ exec (.remoteDone o h 1) s = .next u)) ∧
     (∀ e, st → (s.core c).remote = [] → s.sched.ledger = [e] → e.core = c → e.tag = h.tag.toNat → e.gen = h.gen → e.st = .waiting → e.orphan = false →
       s.ledgerRuns e = false →
       exec (.remoteDone o h 0) s = .next { s with sched := { s.sched with ledger := [{ e with
         st := .acked, val := h.value, poison := if e.reg.isSome then h.poison else e.poison }] } }))

/-! ### Power states, clocks and protection (chapter 17) -/

/-- R440-R442, Tables 17-2 and 17-3: a request that the state does not allow is refused and changes nothing else; an allowed one starts an entry that
holds every partition, or a return, in which the channels show TRAINING where it comes from STANDBY. An entry ends in its state with every row's L1 empty once all partitions are quiet; a return ends in RUN with
set rates at their start.

R453: an assertion of less than 0.5 µs does nothing, one of 1 µs or more starts the coolant halt, and between the two either may happen (R547). The halt
empties every queue, ends every caravan, takes over a transition and goes on to STANDBY. The deassertion clears COOLANT_FAULT on both I/O dies, of those not held in reset. -/
def Obligations.PowerStatesAndCoolantHalt : Prop :=
  (let ref (s : State) := s.setFlag Reg.PWR_STATE Fld.PWR_STATE_req_refused true
   let calm (s : State) := s.pwr.entry = none ∧ s.pwr.ret = none
   (∀ s : State, s.copyDark primaryDie = true →
     exec .pwrReqRun s = .next s ∧ exec .pwrReqGated s = .next s ∧ exec .pwrReqStandby s = .next s) ∧
   (∀ s : State, s.copyDark primaryDie = false →
     (¬calm s → exec .pwrReqRun s = .next (ref s) ∧ exec .pwrReqGated s = .next (ref s) ∧ exec .pwrReqStandby s = .next (ref s)) ∧
     ((s.pwrState < 2 ∨ (s.pwr.halt = true ∧ s.pwr.coolant = true)) → exec .pwrReqRun s = .next (ref s)) ∧
     (s.pwrState = 2 → exec .pwrReqGated s = .next (ref s)) ∧
     (s.pwrState = 3 → exec .pwrReqGated s = .next (ref s) ∧ exec .pwrReqStandby s = .next (ref s)) ∧
     (calm s → 2 ≤ s.pwrState → (s.pwr.halt = false ∨ s.pwr.coolant = false) →
       ∃ t, exec .pwrReqRun s = .next t ∧ t = { s with regs := t.regs, pwr := { s.pwr with ret := some s.pwrState, woke := none } } ∧
         t.flag Reg.PWR_STATE Fld.PWR_STATE_busy = true ∧ t.pwrState = s.pwrState ∧
         (s.pwrState = 3 → ∀ c, c < 1024 → s.retrains c = true → t.chanState c = 0) ∧
         (∀ r, r ≠ Reg.PWR_STATE → (s.pwrState = 3 → ∀ c, c < 1024 → s.retrains c = true → r ≠ chanReg Reg.MEM_CH_STATUS c) →
           t.reg r = s.reg r)) ∧
     (calm s → s.pwrState < 2 → ∀ i target, (i = .pwrReqGated ∧ target = 2 ∨ i = .pwrReqStandby ∧ target = 3) →
       ∃ t, exec i s = .next t ∧ t = { s with regs := t.regs, pwr := { s.pwr with entry := some ⟨target, 2, false⟩, held := t.pwr.held } } ∧
         t.flag Reg.PWR_STATE Fld.PWR_STATE_busy = true ∧ t.pwrState = s.pwrState ∧
         (∀ p, p < 32 → s.partState p ≠ 4 → t.partHeld p = true) ∧
         (∀ p, p < 32 → s.partState p ≠ 4 → s.partHeld p = false → p ∈ t.pwr.held) ∧ (∀ p, p ∈ t.pwr.held → p ∈ s.pwr.held ∨ s.partHeld p = false) ∧
         (∀ r, r ≠ Reg.PWR_STATE → (∀ p, p < 32 → r ≠ Reg.PRT_DESC p) → t.reg r = s.reg r)) ∧
     (calm s → s.pwrState = 2 → exec .pwrReqStandby s =
       .next ({ s with pwr := { s.pwr with entry := some ⟨3, 3, false⟩ } }.setFlag Reg.PWR_STATE Fld.PWR_STATE_busy true))) ∧
   (∀ s : State, s.pwr.entry = none → exec .powerEntryContinue s = .next s) ∧
   (∀ (s : State) (e : PwrEntry), s.pwr.entry = some e → (e.target = 2 ∨ e.target = 3) →
     (e.coolant = false → e.step < 3 → (∃ p, p < 32 ∧ s.partState p ≠ 0 ∧ s.partState p ≠ 3) →
       ∃ t, exec .powerEntryContinue s = .next t ∧ t.pwr.entry = some e ∧ t.pwrState = s.pwrState ∧ t.cores = s.cores ∧ t.mem = s.mem ∧
         ∀ p, p < 32 → s.partState p ≠ 4 → t.partHeld p = true) ∧
     ((e.coolant = true ∨ 3 ≤ e.step ∨ (s.reloading = false ∧ ∀ p, p < 32 → s.partState p = 0 ∨ s.partState p = 3)) →
       s.net = [] → s.llc.ways = [] → s.llc.shadows = [] → s.llc.vbuf = [] → s.llc.rbuf = [] → (∀ c, (s.core c).l1 = [] ∧ (s.core c).kept = []) →
       (∀ w, w < 64 → s.flag (Reg.EVC_WATCH w) Fld.EVC_WATCH_en = false) → s.pwr.wakeNext = none →
       ∃ t, exec .powerEntryContinue s = .next t ∧ t.pwrState = e.target ∧ t.get Reg.PWR_STATE Fld.PWR_STATE_cause = (if e.coolant then 2 else 1) ∧
         t.flag Reg.PWR_STATE Fld.PWR_STATE_busy = false ∧ t.pwr.entry = none ∧ t.sched.run = false ∧ t.mem = s.mem ∧
         (e.target = 3 → ∀ d m, d < 8 → m < 4 → t.flag (Reg.MEM_STK_STATUS d m) Fld.MEM_STK_STATUS_self_refresh = true))) ∧
   (∀ (s : State) (data : List (ChanId × Fin 64)) (check : List (ChanId × Fin 8)),
     (s.pwr.ret = none → exec (.powerReturnComplete data check) s = .next s) ∧
     (∀ w, (w = 2 ∨ w = 3) → s.pwr.ret = some w → s.pwr.woke = none → s.pwr.entry = none →
       ∃ t, exec (.powerReturnComplete data check) s = .next t ∧ t.pwrState = 0 ∧ t.flag Reg.PWR_STATE Fld.PWR_STATE_busy = false ∧
         t.pwr.ret = none ∧ t.pwr.halt = false ∧ t.sched.run = s.img.applied ∧ t.mem = s.mem ∧ t.net = s.net ∧
         (∀ c, t.setRateOf c = min 1800 (t.fmax c)) ∧
         (w = 3 → ∀ d m, d < 8 → m < 4 → t.flag (Reg.MEM_STK_STATUS d m) Fld.MEM_STK_STATUS_self_refresh = false)))) ∧
  ((∀ (s : State) (ns : Nat),
     (ns < 500 → exec (.coolantFaultAssert ns) s = .next s) ∧
     (500 ≤ ns → ns < 1000 →
       exec (.coolantFaultAssert ns) s = .next s.drawn ∨ exec (.coolantFaultAssert ns) s = exec (.coolantFaultAssert 1000) s.drawn) ∧
     (1000 ≤ ns → s.pwr.coolant = true → exec (.coolantFaultAssert ns) s = .next s) ∧
     (1000 ≤ ns → s.pwr.coolant = false → s.reloading = false → s.sched.cars = [] → s.sched.abort = none → s.sched.abortQ = [] →
       ∃ t, exec (.coolantFaultAssert ns) s = .next t ∧ t.pwr.coolant = true ∧ t.mem = s.mem ∧ t.net = s.net ∧
       (∀ d, d = 8 ∨ d = 9 → s.isLevel d 0x204 = true → s.dieHeld d = false → t.flag (evSrc d 0x204) Fld.EVC_SRC_asserted = true) ∧
       (2 ≤ s.stage → s.stage ≠ 8 → s.pwr.halt = false →
         t.pwr.halt = true ∧ t.pwr.ret = none ∧
         t.pwr.entry = (if s.pwrState = 3 then none else some ⟨3, 3, true⟩) ∧
         t.flag Reg.PWR_STATE Fld.PWR_STATE_busy = decide (s.pwrState ≠ 3) ∧
         ∀ c, (t.core c).meq = [] ∧ (t.core c).veq = [] ∧ (t.core c).mvq = [] ∧ (t.core c).tags = []))) ∧
   (∀ s : State, ∃ t, exec .coolantFaultDeassert s = .next t ∧ t = { s with regs := t.regs, pwr := { s.pwr with coolant := false } } ∧
     ∀ d, d = 8 ∨ d = 9 → s.isLevel d 0x204 = true → s.dieHeld d = false → t.flag (evSrc d 0x204) Fld.EVC_SRC_asserted = false))

/-- R447, R448: the loop reports the metered input power and meters each row; above the cap it lowers BE cores by 50 MHz to 450, or else boosted LC cores to fg, or
else LC cores to 450; below 95 % of the cap it raises every in-service core to its revised maximum; between, and with BE power within 90 to 100 % of its
limit, it changes no rate. At or below the cap the reserved cores of a partition that runs LC work stay at fg or above (R297). -/
def Obligations.PowerLoopSetsRates : Prop :=
  ∀ (s : State) (watts be : Nat),
    let cap := s.get Reg.PWR_CAP Fld.PWR_CAP_cap_w
    let keeps (p c : Nat) : Prop := p < 32 ∧ c ∈ s.reservedCores p ∧ ∃ v, v ∈ s.sched.cars ∧ v.lc = true ∧ v.phase = .running ∧ v.part.val = p
    (∀ rows, watts < 2 ^ 32 → ∃ t, exec (.powerLoopTick watts be rows) s = .next t ∧ t.get Reg.PWR_INPUT Fld.PWR_INPUT_watts = watts ∧
      t.mem = s.mem ∧ t.net = s.net ∧
      (∀ (j : Fin 256) e, rows = [(j, e)] →
        let r := Reg.PWR_ROW (j.val / 32) (j.val / 16 % 2) (j.val % 16)
        t.get r Fld.PWR_ROW_energy_uj = (s.get r Fld.PWR_ROW_energy_uj + e) % 2 ^ 48)) ∧
    (be ≤ s.beLimit → s.pwr.ebe * 9000 ≤ be * 10 * max 1 s.sched.len → ∃ t, exec (.powerLoopTick watts be []) s = .next t ∧
      (cap < watts → (∃ c, c < 4096 ∧ s.inService c = true ∧ s.runsBe c = true ∧ 450 < s.setRateOf c) → ∀ c, s.inService c = true → c < 4096 →
        t.setRateOf c = if s.runsBe c = true ∧ 450 < s.setRateOf c then max 450 (s.setRateOf c - 50) else s.setRateOf c) ∧
      (cap < watts → (∀ c, c < 4096 → s.inService c = true → s.runsBe c = true → s.setRateOf c ≤ 450) →
        ∀ c, c < 4096 → s.inService c = true → s.runsLc c = true → s.fgOf c < s.setRateOf c →
          t.setRateOf c = max (s.fgOf c) (s.setRateOf c - 50) ∧
          (s.isLevel primaryDie 0x160 = true → s.dieHeld primaryDie = false → t.flag (evSrc primaryDie 0x160) Fld.EVC_SRC_asserted = true)) ∧
      (cap < watts → (∀ c, c < 4096 → s.inService c = true → s.runsBe c = true → s.setRateOf c ≤ 450) →
        (∀ c, c < 4096 → s.inService c = true → s.runsLc c = true → s.setRateOf c ≤ s.fgOf c) →
        ∀ c, c < 4096 → s.inService c = true → s.runsLc c = true → 450 < s.setRateOf c → t.setRateOf c = max 450 (s.setRateOf c - 50)) ∧
      (watts * 100 < cap * 95 → ∀ c, c < 4096 → s.inService c = true →
        (∀ p, keeps p c → s.fgNow p ≤ min (s.fmax c) (s.setRateOf c + 50)) → t.setRateOf c = min (s.fmax c) (s.setRateOf c + 50)) ∧
      (cap * 95 ≤ watts * 100 → watts ≤ cap → ∀ c, (∀ p, keeps p c → s.fgNow p ≤ s.setRateOf c) → t.setRateOf c = s.setRateOf c) ∧
      (watts ≤ cap → ∀ p c, keeps p c → s.runsBe c = false → c ∉ t.pwr.capLow → min (s.fmax c) (s.fgNow p) ≤ t.setRateOf c))

/-- R449-R451: a current sample shows its values and stretches every clock above the limit, until it falls below; an ageing reading only lowers a revised maximum,
in steps of 10 MHz, from the next tick; the flash takes the revised maxima; a droop onset of a half that is not gated is counted and stretches its row until recovery.

R452, R454, R499: at throttle_c and above the thermal limit of the half falls by 50 MHz, cores without LC work first; 3 °C below it rises again by 50 MHz at the tenth
reading, LC work first; at 110 °C the half's clock falls to 450 MHz and is restored at 105 °C; at 115 °C the module trips, recorded in flash, with
every rail but the first off and MOD_ALIVE low; the end of the hold is a module reset. -/
def Obligations.StretchAgeingAndJunctions : Prop :=
  ((∀ (v a : BitVec 16) (s : State), ∃ t, exec (.currentSample v a) s = .next t ∧ t.mem = s.mem ∧ t.net = s.net ∧
     t.get Reg.PWR_INPUT Fld.PWR_INPUT_volts = v.toNat ∧ t.get Reg.PWR_INPUT Fld.PWR_INPUT_amps = a.toNat ∧
     (s.get Reg.PWR_CAP Fld.PWR_CAP_amp_lim < a.toNat → t.pwr.stretch = true) ∧
     (a.toNat < s.get Reg.PWR_CAP Fld.PWR_CAP_amp_lim → t.pwr.stretch = false) ∧
     (a.toNat = s.get Reg.PWR_CAP Fld.PWR_CAP_amp_lim → t.pwr.stretch = s.pwr.stretch)) ∧
   (∀ (c : CoreId) (mhz : BitVec 12) (s : State),
     let cur := mapGet s.fmax s.pwr.newMax c.toNat
     (s.inService c.toNat = false → exec (.ageingReading c mhz) s = .next s) ∧
     (s.inService c.toNat = true → ∃ t, exec (.ageingReading c mhz) s = .next t ∧
       t = { s with regs := t.regs, pwr := { s.pwr with newMax := t.pwr.newMax } } ∧
       t.flag (Reg.CORE_FMAX c.toNat) Fld.CORE_FMAX_read_valid = true ∧ t.fmax c.toNat = s.fmax c.toNat ∧
       mapGet s.fmax t.pwr.newMax c.toNat = min cur (mhz.toNat / 10 * 10) ∧
       (∀ d, d ≠ c.toNat → mapGet s.fmax t.pwr.newMax d = mapGet s.fmax s.pwr.newMax d) ∧
       (∀ r, r ≠ Reg.CORE_FMAX c.toNat → t.reg r = s.reg r))) ∧
   (∀ s : State, ∃ t, exec .fmaxFlashWrite s = .next t ∧ t = { s with flash := { s.flash with fmax := t.flash.fmax } } ∧
     ∀ c, c ∈ allCores → mapGet Config.fmaxRevised t.flash.fmax c = s.fmax c) ∧
   (∀ (d : Fin 8) (h : Bool) (row : Fin 16) (s : State),
     let r := Reg.PWR_ROW d.val (b2n h) row.val
     let k := d.val * 32 + b2n h * 16 + row.val
     (s.flag (Reg.PWR_HALF d.val (b2n h)) Fld.PWR_HALF_gated = true → exec (.droopOnset d h row) s = .next s) ∧
     (s.flag (Reg.PWR_HALF d.val (b2n h)) Fld.PWR_HALF_gated = false →
       ∃ t, exec (.droopOnset d h row) s = .next t ∧ t.get r Fld.PWR_ROW_droops = min 8191 (s.get r Fld.PWR_ROW_droops + 1) ∧ k ∈ t.pwr.droop ∧
       (∀ j, j ∈ s.pwr.droop → j ∈ t.pwr.droop) ∧ t.mem = s.mem ∧ t.net = s.net ∧
       t.get r Fld.PWR_ROW_energy_uj = s.get r Fld.PWR_ROW_energy_uj) ∧
     (∃ t, exec (.droopRecover d h row) s = .next t ∧ t = { s with pwr := { s.pwr with droop := t.pwr.droop } } ∧
       ∀ j, j ∈ t.pwr.droop ↔ j ∈ s.pwr.droop ∧ j ≠ k))) ∧
  ((∀ (d : DieIx) (h : Bool) (t : BitVec 8) (x : BitVec 12) (s : State), s.pwr.trip = true → exec (.junctionRead d h t x) s = .next s) ∧
   (∀ (d : DieIx) (h : Bool) (t : BitVec 8) (x : BitVec 12) (s : State), s.pwr.trip = false → 115 ≤ t.toNat →
     ∃ u, exec (.junctionRead d h t x) s = .next u ∧ u.flash.tripCount.toNat = min (2 ^ 32 - 1) (s.flash.tripCount.toNat + 1) ∧
       u.flash.tripDie = BitVec.ofNat 4 d.val ∧ u.flash.tripSensor = x ∧ u.modAlive = false ∧
       { s with flash := { s.flash with tripCount := u.flash.tripCount, tripDie := u.flash.tripDie, tripSensor := x } }.WasReset u [1] s.boot.inputOk true) ∧
   (∀ s : State, (s.pwr.trip = false → exec .tripHoldEnd s = .next s) ∧
     (s.pwr.trip = true → ∃ u, exec .tripHoldEnd s = .next u ∧ s.WasReset u (s.boot.rails.filter (· ≤ 2)) s.boot.inputOk false)) ∧
   (∀ (d : Fin 8) (h : Bool) (t : BitVec 8) (x : BitVec 12) (s : State), s.pwr.trip = false → t.toNat < 115 → s.sched.cars = [] →
     let r := Reg.PWR_HALF d.val (b2n h)
     let k := 2 * d.val + b2n h
     let thr := s.get Reg.PWR_THERM Fld.PWR_THERM_throttle_c
     let lim := s.get r Fld.PWR_HALF_therm_mhz
     let lc := mapGet (fun _ => 2100) s.pwr.thermLc k
     let cool := mapGet (fun _ => 0) s.pwr.cool k
     ∃ u, exec (.junctionRead ⟨d.val, by omega⟩ h t x) s = .next u ∧ u.mem = s.mem ∧ u.net = s.net ∧
       u.get (Reg.PWR_DIE d.val) Fld.PWR_DIE_temp_c = max t.toNat (mapGet (fun _ => 0) s.pwr.temps (2 * d.val + (1 - b2n h))) ∧
       (thr ≤ t.toNat → 450 < lim → u.get r Fld.PWR_HALF_therm_mhz = max 450 (lim - 50) ∧ u.pwr.thermLc = s.pwr.thermLc) ∧
       (thr ≤ t.toNat → lim ≤ 450 → u.get r Fld.PWR_HALF_therm_mhz = lim ∧ mapGet (fun _ => 2100) u.pwr.thermLc k = max 450 (lc - 50)) ∧
       (thr < t.toNat + 3 → t.toNat < thr → u.get r Fld.PWR_HALF_therm_mhz = lim ∧ u.pwr.thermLc = s.pwr.thermLc) ∧
       (t.toNat + 3 ≤ thr → cool < 9 → u.get r Fld.PWR_HALF_therm_mhz = lim ∧ u.pwr.thermLc = s.pwr.thermLc ∧
         mapGet (fun _ => 0) u.pwr.cool k = cool + 1) ∧
       (t.toNat + 3 ≤ thr → 9 ≤ cool → lc < 2100 → mapGet (fun _ => 2100) u.pwr.thermLc k = min 2100 (lc + 50)) ∧
       (t.toNat + 3 ≤ thr → 9 ≤ cool → 2100 ≤ lc → lim ≤ 2100 → u.get r Fld.PWR_HALF_therm_mhz = min 2100 (lim + 50)) ∧
       (110 ≤ t.toNat → k ∉ s.pwr.alarm → u.get r Fld.PWR_HALF_set_mhz = 450 ∧ k ∈ u.pwr.alarm) ∧
       (t.toNat ≤ 105 → k ∈ s.pwr.alarm → k ∉ u.pwr.alarm ∧
         u.get r Fld.PWR_HALF_set_mhz = if s.get Reg.PWR_STATE Fld.PWR_STATE_state = 2 then 450 else s.get r Fld.PWR_HALF_ceil_mhz) ∧
       (105 < t.toNat → t.toNat < 110 → u.get r Fld.PWR_HALF_set_mhz = s.get r Fld.PWR_HALF_set_mhz ∧ u.pwr.alarm = s.pwr.alarm)))

/-! ### Bring-up and resets (chapter 19) -/

/-- R485-R487, R540: the rise of the input, a loss of 100 µs, an overvoltage of 10 µs and a reset request with the key leave the module right after module reset, with
the rails that each leaves; anything shorter, another key, or a module that a trip or a missing rail holds leaves it as it is. Rails come up one step
after the other. -/
def Obligations.InputRailsAndModuleReset : Prop :=
  ∀ s : State,
    (s.boot.inputOk = true → exec .inputRise s = .next s) ∧
    (s.boot.inputOk = false → ∃ t, exec .inputRise s = .next t ∧ s.WasReset t [] true false) ∧
    (∀ us, us < 100 → exec (.inputLoss us) s = .next s) ∧
    (∀ us, 100 ≤ us → ∃ t, exec (.inputLoss us) s = .next t ∧ s.WasReset t [] false false) ∧
    (∀ us, us < 10 → exec (.inputOvervoltage us) s = .next s) ∧
    (∀ us, 10 ≤ us → ∃ t, exec (.inputOvervoltage us) s = .next t ∧ s.WasReset t [] false false) ∧
    (∀ (i : BitVec 16 → Instr) (key : BitVec 16), (i = Instr.bootModuleReset ∨ i = Instr.shedyModuleReset) →
      ((key ≠ 0x5A17 ∨ s.boot.inputOk = false ∨ 1 ∉ s.boot.rails ∨ s.pwr.trip = true) → exec (i key) s = .next s) ∧
      (key = 0x5A17 → s.boot.inputOk = true → 1 ∈ s.boot.rails → s.pwr.trip = false →
        ∃ t, exec (i key) s = .next t ∧ s.WasReset t (s.boot.rails.filter (· ≤ 2)) true false)) ∧
    (∀ (d : Option (Fin 8)) (k : Fin 5),
      let good : Prop := s.boot.inputOk = true ∧ (s.pwr.trip = true → k.val = 1) ∧
        match d with
        | none => k.val = 1 ∨ k.val = 2 ∧ 1 ∈ s.boot.rails
        | some d => k.val = 3 ∧ 2 ∈ s.boot.rails ∧ d.val ∈ s.boot.released ∨ k.val = 4 ∧ 8 * (d.val + 1) + 3 ∈ s.boot.rails
      let key := match d with | none => k.val | some d => 8 * (d.val + 1) + k.val
      (¬good → exec (.railPowerGood d k) s = .next s) ∧
      (good → ∃ t, exec (.railPowerGood d k) s = .next t ∧ t = { s with regs := t.regs, boot := { s.boot with rails := t.boot.rails } } ∧
        (∀ r, r ∈ t.boot.rails ↔ r ∈ s.boot.rails ∨ r = key) ∧
        (∀ r, r ≠ Reg.BOOT_READY0 → (∀ i l, i < 10 → l < 3 → r ≠ Reg.CRL_LINK i l) → t.reg r = s.reg r)))

/-- R488, R489, R492, R514, Table 19-2: a released die reports its straps, a compute die once one of its links is up; failed parity, role 0b11, an I/O ID above 1,
another position or a second report holds it. A die is released only in its stage, after those before it and with die-controller firmware found good, and
held where that firmware speaks another major version. Stages advance one at a time, to RECOVERY, IMAGE_WAIT or FAILED_DIE where their conditions
fail. -/
def Obligations.StrapsReleasesAndStages : Prop :=
  (∀ (d : DieIx) (role : BitVec 2) (id : BitVec 3) (par : Bool) (s : State),
    let r := Reg.BOOT_STRAP d.val
    let out := (if d.val = primaryDie then s.boot.rails.contains 1 else s.boot.released.contains d.val) && !s.dieHeld d.val
    let bad : Prop := (popCount 2 role.toNat + popCount 3 id.toNat + b2n par) % 2 = 0 ∨ role = 3 ∨ (role ≠ 0 ∧ 1 < id.toNat)
    let pos := if role = 0 then some id.toNat else if role = 1 ∧ id = 0 then some 8 else if role = 2 ∧ id = 1 then some 9 else none
    (out = false → exec (.strapReport d role id par) s = .next s) ∧
    (out = true → ∃ t, exec (.strapReport d role id par) s = .next t ∧ t = { s with regs := t.regs, boot := t.boot, ceral := t.ceral } ∧
      t.get r Fld.BOOT_STRAP_die_role = role.toNat ∧ t.get r Fld.BOOT_STRAP_die_id = id.toNat ∧ t.flag r Fld.BOOT_STRAP_die_par = par ∧
      (bad → t.flag r Fld.BOOT_STRAP_par_err = true ∧ t.dieHeld d.val = true ∧ d.val ∈ t.ceral.isolated ∧ t.boot = s.boot) ∧
      (¬bad → d.val < 8 → (∀ l, l < 3 → s.linkUp d.val l = false) → t.ceral = s.ceral ∧ t.boot = s.boot ∧
        (∀ q, q ≠ r → t.reg q = s.reg q) ∧ t.flag r Fld.BOOT_STRAP_valid = s.flag r Fld.BOOT_STRAP_valid ∧ t.dieHeld d.val = false) ∧
      (¬bad → (d.val < 8 → ∃ l, l < 3 ∧ s.linkUp d.val l = true) → (pos ≠ some d.val ∨ d.val ∈ s.boot.reported) →
        t.flag r Fld.BOOT_STRAP_dup = true ∧ t.dieHeld d.val = true ∧ d.val ∈ t.ceral.isolated ∧ t.boot = s.boot) ∧
      (¬bad → (d.val < 8 → ∃ l, l < 3 ∧ s.linkUp d.val l = true) → pos = some d.val → d.val ∉ s.boot.reported →
        t.flag r Fld.BOOT_STRAP_valid = true ∧ t.dieHeld d.val = false ∧ t.ceral = s.ceral ∧ d.val ∈ t.boot.reported))) ∧
  (∀ (d : DieIx) (s : State),
    let may : Prop := s.dcGood = true ∧ s.dieOut d.val = false ∧ d.val ∉ s.boot.released ∧ d.val ≠ primaryDie ∧
      (8 ≤ d.val → 1 ≤ s.stage ∧ s.stage ≠ 8) ∧
      (d.val < 8 → s.stage = 2 ∧ s.pwr.coolant = false ∧ ∀ e, e < d.val → e ∈ s.boot.released ∨ s.dieHeld e = true)
    (¬may → exec (.dieRelease d) s = .next s) ∧
    (may → s.dcSpeaks = false → ∃ t, exec (.dieRelease d) s = .next t ∧ t = { s with regs := t.regs, ceral := t.ceral } ∧
      t.dieHeld d.val = true ∧ d.val ∈ t.ceral.isolated) ∧
    (may → s.dcSpeaks = true → ∃ t, exec (.dieRelease d) s = .next t ∧
      t = { s with regs := t.regs, boot := { s.boot with released := t.boot.released } } ∧
      (∀ e, e ∈ t.boot.released ↔ e ∈ s.boot.released ∨ e = d.val) ∧
      (∀ r, r ≠ Reg.BOOT_READY0 → (∀ i l, i < 10 → l < 3 → r ≠ Reg.CRL_LINK i l) → t.reg r = s.reg r))) ∧
  (∀ (ms : Nat) (s : State),
    ((s.pwr.trip = true ∨ s.boot.inputOk = false) → exec (.bootStageAdvance ms) s = .next s) ∧
    (s.pwr.trip = false → s.boot.inputOk = true → s.pwrState < 2 → s.pwr.entry = none → s.pwr.ret = none →
      ∃ t, exec (.bootStageAdvance ms) s = .next t ∧
        (s.stage ≠ 3 → t.get Reg.BOOT_STAGE Fld.BOOT_STAGE_ms = max (s.get Reg.BOOT_STAGE Fld.BOOT_STAGE_ms) (min (2 ^ 32 - 1) ms) ∧
          t.mem = s.mem ∧ t.net = s.net ∧ t.cores = s.cores ∧ t.flash = s.flash) ∧
        (s.stage = 0 → (1 ∉ s.boot.rails ∨ 2 ∉ s.boot.rails ∨ s.dieHeld primaryDie = true) → t.stage = 0) ∧
        (s.stage = 0 → 1 ∈ s.boot.rails → 2 ∈ s.boot.rails → s.dieHeld primaryDie = false →
          (s.fwGood 0 = false → s.fwGood 1 = false → t.stage = 8) ∧
          (∀ k, k < 2 → s.fwGood k = true → (s.fwGood (1 - k) = true → s.fwSvnOf (1 - k) < s.fwSvnOf k ∨ s.fwSvnOf (1 - k) = s.fwSvnOf k ∧ k = 0) →
            t.stage = 1 ∧ t.modAlive = true ∧ t.sec.fwRuns = s.flash.fwCopy k ∧ t.get Reg.SEC_FW Fld.SEC_FW_booted = k ∧ (primaryDie = 9 → t.dieHeld 8 = true))) ∧
        (s.stage = 1 → t.stage =
          if (17 - primaryDie ∈ s.boot.released ∨ s.dieHeld (17 - primaryDie) = true) ∧ s.pwr.coolant = false then 2 else 1) ∧
        (s.stage = 2 →
          let done : Prop := ∀ d, d < 8 → s.dieOut d = true ∨ s.dieReady d = true ∧ ∀ m, m < 4 → 4 * d + m ∈ s.boot.trained
          (¬done → t.stage = 2) ∧ (done → (∃ d, d < 8 ∧ s.dieOut d = true) → t.stage = 10) ∧
          (done → (∀ d, d < 8 → s.dieOut d = false) → t.stage = 3)) ∧
        (s.stage = 3 →
          let u := s.put Reg.BOOT_STAGE Fld.BOOT_STAGE_ms (max (s.get Reg.BOOT_STAGE Fld.BOOT_STAGE_ms) (min (2 ^ 32 - 1) ms))
          (u.copyGood 0 = false → u.copyGood 1 = false → t.stage = 9) ∧
          ((u.copyGood 0 = true ∨ u.copyGood 1 = true) → (t.stage = 3 ∧ t.img = s.img) ∨
            (t.stage = 4 ∧ t.img.applied = true ∧ t.sched.run = true ∧ t.flag Reg.BOOT_READY0 Fld.BOOT_READY0_mailbox = true ∧
              t.flash.booted = (if s.copySerial 0 < s.copySerial 1 then (if u.copyGood 1 = true then 1 else 0)
                else (if u.copyGood 0 = true then 0 else 1))))) ∧
        (4 ≤ s.stage → t.stage = s.stage)))

/-- R331, R334, R335, R496: a stack of a running die ends training once: its ready bit is set and its channels are ACTIVE, with a
spare for each of up to two failing lanes, mapped out, or newly mapped out where three lanes or more failed. A partition whose conditions all hold becomes ACTIVE with its ready bit; no other changes.

R497, R498, Table 19-5: a die reset is refused in the cases of R497; an accepted one leaves every core of the die at reset with its registers at their reset values but the
revised maximum, its scratchpads and directory registers reset, its stacks in self-refresh and its ready bits clear. It completes once its links have
settled. -/
def Obligations.ReadinessAndDieReset : Prop :=
  ((∀ (n : StackId) (data : List (Fin 32 × Fin 64)) (check : List (Fin 32 × Fin 8)) (s : State),
     let bad (k : Fin 32) (x : Nat) : Bool := (data.any fun e => e.1 == k && e.2.val == x) || check.any fun e => e.1 == k && 64 + e.2.val == x
     let failing (k : Fin 32) : Nat := ((List.range 72).filter (bad k)).length
     ((n.val ∈ s.boot.trained ∨ s.dieRuns (n.val / 4) = false ∨ s.boot.dieReset = some (n.val / 4)) →
       exec (.stackTrainingComplete n data check) s = .next s) ∧
     (n.val ∉ s.boot.trained → s.dieRuns (n.val / 4) = true → s.boot.dieReset ≠ some (n.val / 4) →
       ∃ t, exec (.stackTrainingComplete n data check) s = .next t ∧ t.mem = s.mem ∧ t.net = s.net ∧ n.val ∈ t.boot.trained ∧
         (t.reg Reg.BOOT_READY_STK).getLsbD n.val = true ∧
         (∀ m, m ≠ n.val → (t.reg Reg.BOOT_READY_STK).getLsbD m = (s.reg Reg.BOOT_READY_STK).getLsbD m) ∧
         (∀ k : Fin 32, 32 * n.val + k.val ∈ s.stk.mapped → t.chanState (32 * n.val + k.val) = 5) ∧
         (∀ k : Fin 32, 32 * n.val + k.val ∉ s.stk.mapped → failing k < 3 → t.chanState (32 * n.val + k.val) = 1 ∧
           ∀ x, x < 72 → (bad k x = true ↔
             (t.get (chanReg Reg.MEM_CH_STATUS (32 * n.val + k.val)) Fld.MEM_CH_STATUS_spare0 = x ∨
              t.get (chanReg Reg.MEM_CH_STATUS (32 * n.val + k.val)) Fld.MEM_CH_STATUS_spare1 = x))) ∧
         (∀ k : Fin 32, 32 * n.val + k.val ∉ s.stk.mapped → 3 ≤ failing k → (∀ j, j ≠ k → failing j < 3) → s.stk.mapped.length < 64 →
           t.chanState (32 * n.val + k.val) = 5 ∧ 32 * n.val + k.val ∈ t.stk.mapped) ∧
         (∀ k : Fin 32, 32 * n.val + k.val ∉ s.stk.mapped → 3 ≤ failing k → 64 ≤ s.stk.mapped.length → t.chanState (32 * n.val + k.val) = 4))) ∧
   (∀ (p : PartId) (s : State),
     let may : Prop := s.img.applied = true ∧ s.partState p.val = 4 ∧ (s.part p.val).reloaded = false ∧
       s.get Reg.BOOT_READY0 Fld.BOOT_READY0_slices = 0xFFFF ∧
       ∀ n, n ∈ s.partStacks p.val → (s.reg Reg.BOOT_READY_STK).getLsbD n = true
     (¬may → exec (.partitionReady p) s = .next s) ∧
     (may → ∃ t, exec (.partitionReady p) s = .next t ∧ t = { s with regs := t.regs } ∧ t.partState p.val = 1 ∧
       (t.reg Reg.BOOT_READY_PRT).getLsbD p.val = true ∧
       (∀ q, q ≠ p.val → (t.reg Reg.BOOT_READY_PRT).getLsbD q = (s.reg Reg.BOOT_READY_PRT).getLsbD q) ∧
       (∀ r, r ≠ Reg.PRT_DESC p.val → r ≠ Reg.BOOT_READY_PRT → t.reg r = s.reg r)))) ∧
  ((∀ (d : BitVec 4) (s : State), 8 ≤ d.toNat → exec (.bootDieReset d) s = .next s) ∧
   (∀ (d : BitVec 4) (s : State), d.toNat < 8 →
     let n := d.toNat
     let no : Prop := s.boot.dieReset ≠ none ∨ (∃ p, p < 32 ∧ s.partState p ≠ 0 ∧ s.partState p ≠ 3) ∨ s.dieHeld n = true ∨ n ∈ s.ceral.isolated ∨
       2 ≤ s.pwrState ∨ s.pwr.entry ≠ none ∨ s.pwr.ret ≠ none ∨ s.reloading = true
     (no → exec (.bootDieReset d) s = .next (s.setFlag Reg.BOOT_DIE_RESET Fld.BOOT_DIE_RESET_refused true)) ∧
     (¬no → ∃ t, exec (.bootDieReset d) s = .next t ∧ t.boot.dieReset = some n ∧ t.flag Reg.BOOT_DIE_RESET Fld.BOOT_DIE_RESET_busy = true ∧
       t.dieReady n = false ∧ (∀ c, coreDie c = n → t.core c = Core.reset) ∧
       (∀ r, 0x1000000 + n * 0x400000 ≤ r → r < 0x1000000 + (n + 1) * 0x400000 → (∀ c, r ≠ Reg.CORE_FMAX c) → t.reg r = Reg.resetVal r) ∧
       (∀ r, 0x5000000 + n * 0x100000 ≤ r → r < 0x5000000 + (n + 1) * 0x100000 → t.reg r = Reg.resetVal r) ∧
       (∀ m, m < 4 → t.flag (Reg.MEM_STK_STATUS n m) Fld.MEM_STK_STATUS_self_refresh = true ∧
         (t.reg Reg.BOOT_READY_STK).getLsbD (4 * n + m) = false) ∧
       (∀ a, 0x100000000000 + n * 0x20000000 ≤ a → a < 0x100000000000 + (n + 1) * 0x20000000 → t.byte a = 0))) ∧
   (∀ (data : List (ChanId × Fin 64)) (check : List (ChanId × Fin 8)) (s : State),
     (s.boot.dieReset = none → exec (.dieResetComplete data check) s = .next s) ∧
     (∀ d, d < 8 → s.boot.dieReset = some d →
       ((∃ l, l < 3 ∧ s.linkSettled d l = false) → exec (.dieResetComplete data check) s = .next s) ∧
       ((∀ l, l < 3 → s.linkSettled d l = true) → s.img.applied = false → s.img.parts = [] →
         ∃ t, exec (.dieResetComplete data check) s = .next t ∧ t.boot.dieReset = none ∧
           t.flag Reg.BOOT_DIE_RESET Fld.BOOT_DIE_RESET_busy = false ∧ t.mem = s.mem ∧
           (s.dieRuns d = true → t.dieReady d = true) ∧
           ∀ m, m < 4 → t.flag (Reg.MEM_STK_STATUS d m) Fld.MEM_STK_STATUS_self_refresh = false ∧
             (t.reg Reg.BOOT_READY_STK).getLsbD (4 * d + m) = true))))

/-! ### Image operations and security commands (chapters 20 and 21) -/

/-- R509-R513, R523: an image operation while another is busy is dropped, and has no effect before its turn; one that the state does not allow ends STATE,
an unreadable image, or one on a port that is down, FETCH, an image that fails a check with its result, and none of these changes anything. CHECK changes nothing. STORE writes the copy not applied at the last boot. APPLY and RELOAD apply what
passed, and wait where a pin must wait. -/
def Obligations.ImageOperations : Prop :=
  ∀ (s : State), s.sec.attest = none →
    let busy (n : Nat) : Prop := s.flag Reg.BOOT_IMG_STATUS Fld.BOOT_IMG_STATUS_busy = true ∧ s.img.op ≠ some n
    let turn : Prop := s.sec.turns = [] ∨ s.sec.turns.head? = some 0
    let up : Prop := s.flag (Reg.HIF_PORT (s.get Reg.BOOT_IMG_CTL Fld.BOOT_IMG_CTL_port)) Fld.HIF_PORT_up = true
    let dropped := s.setFlag Reg.BOOT_IMG_STATUS Fld.BOOT_IMG_STATUS_busy_drop true
    let only (i : Instr) (r : ImgResult) : Prop := ∃ t, exec i s = .next t ∧ t.ShowsImage r ∧
      t = { s with regs := t.regs, img := { s.img with op := none }, sec := { s.sec with turns := s.sec.turns.erase 0 } } ∧ ∀ x, x ≠ Reg.BOOT_IMG_STATUS → t.reg x = s.reg x
    (∀ d, (busy 1 → exec (.imgCheck d) s = .next dropped) ∧ (busy 2 → exec (.imgStore d) s = .next dropped) ∧
      (busy 3 → exec (.imgApply d) s = .next dropped) ∧ (∀ p, busy 4 → exec (.imgReload p d) s = .next dropped) ∧
      (¬turn → (¬busy 1 → exec (.imgCheck d) s = .next s) ∧ (¬busy 2 → exec (.imgStore d) s = .next s) ∧
        (¬busy 3 → exec (.imgApply d) s = .next s) ∧ (∀ p, ¬busy 4 → exec (.imgReload p d) s = .next s))) ∧
    (turn → ¬busy 1 → (s.stageOne = false → ∀ d, only (.imgCheck d) (ImgResult.of 9)) ∧
      (s.stageOne = true → (∀ d, (d = none ∨ ¬up) → only (.imgCheck d) (ImgResult.of 1)) ∧ (up → ∀ bs, only (.imgCheck (some bs)) (s.verifyImage bs)))) ∧
    (turn → ¬busy 2 → (s.stageOne = false → ∀ d, only (.imgStore d) (ImgResult.of 9)) ∧
      (s.stageOne = true → (∀ d, (d = none ∨ ¬up) → only (.imgStore d) (ImgResult.of 1)) ∧
        (up → ∀ bs, (s.verifyImage bs).result ≠ 0 → only (.imgStore (some bs)) (s.verifyImage bs)) ∧
        (up → ∀ bs, (s.verifyImage bs).result = 0 → s.flash.booted < 2 → ∃ t, exec (.imgStore (some bs)) s = .next t ∧ t.ShowsImage (s.verifyImage bs) ∧
          t = { s with
            regs := t.regs, flash := { s.flash with img := t.flash.img }
            img := { s.img with op := none }, sec := { s.sec with turns := s.sec.turns.erase 0 } } ∧
          t.flash.imgCopy (1 - s.flash.booted) = some bs ∧ t.flash.imgCopy s.flash.booted = s.flash.imgCopy s.flash.booted ∧
          t.get (Reg.BOOT_IMG_COPY (1 - s.flash.booted)) Fld.BOOT_IMG_COPY_serial = imgSerial bs % 2 ^ 32 ∧
          t.flag (Reg.BOOT_IMG_COPY (1 - s.flash.booted)) Fld.BOOT_IMG_COPY_valid = true))) ∧
    (turn → ¬busy 3 → (s.stage ≠ 9 → ∀ d, only (.imgApply d) (ImgResult.of 9)) ∧
      (s.stage = 9 → (∀ d, (d = none ∨ ¬up) → only (.imgApply d) (ImgResult.of 1)) ∧
        (up → ∀ bs, (s.verifyImage bs).result ≠ 0 → only (.imgApply (some bs)) (s.verifyImage bs)) ∧
        (up → ∀ bs, (s.verifyImage bs).result = 0 → applyImage s bs = none → exec (.imgApply (some bs)) s = .next s) ∧
        (up → ∀ bs u r, (s.verifyImage bs).result = 0 → applyImage s bs = some (u, r) → u.sec.attest = none →
          ∃ t, exec (.imgApply (some bs)) s = .next t ∧ t.ShowsImage r ∧ (r.result = 0 ∨ r.result = 10) ∧ t.stage = 4 ∧
            t.img.applied = true ∧ t.img.digest = imgDigest bs ∧ t.sched.run = true ∧ t.flash.floor = BitVec.ofNat 32 (imgSerial bs) ∧
            t.flash.imgCopy (1 - u.flash.booted) = some bs ∧ t.flag Reg.BOOT_READY0 Fld.BOOT_READY0_mailbox = true))) ∧
    (∀ p : PartId, turn → ¬busy 4 → (s.reloadAllowed p.val = false → ∀ d, only (.imgReload p d) (ImgResult.of 9)) ∧
      (s.reloadAllowed p.val = true → (∀ d, (d = none ∨ ¬up) → only (.imgReload p d) (ImgResult.of 1)) ∧
        (up → ∀ bs, (s.verifyReload bs p.val).result ≠ 0 → only (.imgReload p (some bs)) (s.verifyReload bs p.val)) ∧
        (up → ∀ bs, (s.verifyReload bs p.val).result = 0 → reloadPart s p.val bs = none → exec (.imgReload p (some bs)) s = .next s) ∧
        (up → ∀ bs u r, (s.verifyReload bs p.val).result = 0 → reloadPart s p.val bs = some (u, r) → u.sched.abortQ = [] → u.sec.attest = none →
          ∃ t, exec (.imgReload p (some bs)) s = .next t ∧ t.ShowsImage r ∧ (r.result = 0 ∨ r.result = 10) ∧
            (imgSection bs 0x10 p.val = none → r.result = 0 ∧ t.partState p.val = 0 ∧ t.rowsOf p.val = 0) ∧
            (imgSection bs 0x10 p.val ≠ none → r.result = 10 → t.partState p.val = 0) ∧
            (imgSection bs 0x10 p.val ≠ none → r.result = 0 → (t.part p.val).reloaded = true))))

/-- R518, R520, R523-R525: a security command while another is busy is dropped, and has no effect before its turn; one the stage does not allow ends
with result 6, an unreadable one, or one on a port that is down, with 1, a refused one with the result of its first failing check, with nothing written; an accepted one has its effect on flash and fuses. Each end changes SEC_NONCE.

R520, R527, R529: a report request while one waits is dropped; it waits while a command or an image operation is busy; else it ends NOT_BOUND for an unbound
instance with no report, or places the signed report in SEC_REPORT. Debug is unlocked only in stage 0 with DEBUG_KILL unblown, by an answer signed
with the vendor's key. Shedy writes a firmware copy. -/
def Obligations.SecurityCommandsAndReports : Prop :=
  (∀ (s : State), s.sec.attest = none →
     let busy (n : Nat) : Prop := s.flag Reg.SEC_CMD_STATUS Fld.SEC_CMD_STATUS_busy = true ∧ s.sec.op ≠ some n
     let dropped := s.setFlag Reg.SEC_CMD_STATUS Fld.SEC_CMD_STATUS_busy_drop true
     let turn : Prop := s.sec.turns = [] ∨ s.sec.turns.head? = some 1
     let up : Prop := s.flag (Reg.HIF_PORT (s.get Reg.SEC_CMD_CTL Fld.SEC_CMD_CTL_port)) Fld.HIF_PORT_up = true
     let refused (i : Instr) (r : Nat) : Prop := ∃ t, exec i s = .next t ∧ s.CommandEnded t r ∧ t.flash = s.flash
     (∀ d, (busy 1 → exec (.fwStore d) s = .next dropped) ∧ (¬busy 1 → ¬turn → exec (.fwStore d) s = .next s)) ∧
     (turn → ¬busy 1 →
       (s.stage = 0 → ∀ d, refused (.fwStore d) 6) ∧
       (1 ≤ s.stage → (∀ d, (d = none ∨ ¬up) → refused (.fwStore d) 1) ∧
         (up → ∀ bs, fwCheck bs s.flash.arb ≠ 0 → refused (.fwStore (some bs)) (fwCheck bs s.flash.arb)) ∧
         (up → ∀ bs, fwCheck bs s.flash.arb = 0 → ∃ t, exec (.fwStore (some bs)) s = .next t ∧ s.CommandEnded t 0 ∧
           t.flash = { s.flash with fw := t.flash.fw } ∧
           (s.stage = 8 → t.flash.fwCopy 0 = some bs ∧ t.flash.fwCopy 1 = some bs) ∧
           (s.stage ≠ 8 → ∀ k, k < 2 → t.flash.fwCopy k =
             if k = s.get Reg.SEC_FW Fld.SEC_FW_booted then s.flash.fwCopy k else some bs)))) ∧
     (∀ (n : Nat) (i : Option (List Byte) → Instr),
       (n = 2 ∧ i = Instr.keyEnroll ∨ n = 3 ∧ i = Instr.keyRevoke ∨ n = 4 ∧ i = Instr.arbAdvance ∨ n = 5 ∧ i = Instr.debugKill) →
       (∀ d, (busy n → exec (i d) s = .next dropped) ∧ (¬busy n → ¬turn → exec (i d) s = .next s)) ∧
       (turn → ¬busy n →
         (n ≠ 5 → s.stageOne = false → ∀ d, refused (i d) 6) ∧
         ((n = 5 ∨ s.stageOne = true) → (∀ d, (d = none ∨ ¬up) → refused (i d) 1) ∧
           (up → ∀ bs,
             let form : Prop := bs.length = 128 ∧ numAt bs 0 4 = 0x444D4353 ∧ numAt bs 4 1 = n ∧ zeroAt bs 7 1 = true ∧ zeroAt bs 0x1C 4 = true
             let fresh : Prop := numAt bs 8 8 = (s.reg Reg.SEC_NONCE).toNat
             let ours : Prop := slice bs 0x10 12 = s.serial
             let signed : Prop := s.signerGood bs n = true
             (¬form → refused (i (some bs)) 2) ∧ (form → ¬fresh → refused (i (some bs)) 4) ∧ (form → fresh → ¬ours → refused (i (some bs)) 5) ∧
             (form → fresh → ours → ¬signed → refused (i (some bs)) 3) ∧
             (form → fresh → ours → signed → s.targetGood n (numAt bs 5 1) = false → refused (i (some bs)) 5) ∧
             (form → fresh → ours → signed → s.targetGood n (numAt bs 5 1) = true →
               ∃ t, exec (i (some bs)) s = .next t ∧ s.CommandEnded t 0 ∧
                 (n = 2 → t.flash = { s.flash with keys := t.flash.keys } ∧
                   t.flash.key (numAt bs 5 1) = some (BitVec.ofNat 256 (numAt bs 0x20 32)) ∧
                   ∀ k, k ≠ numAt bs 5 1 → t.flash.key k = s.flash.key k) ∧
                 (n = 3 → t.flash = { s.flash with revoked := t.flash.revoked } ∧
                   ∀ k, t.flash.revoked.getLsbD k = (s.flash.revoked.getLsbD k || decide (k = numAt bs 5 1))) ∧
                 (n = 4 → t.flash = { s.flash with arb := max s.flash.arb (numAt bs 5 1) }) ∧
                 (n = 5 → t.flash = { s.flash with debugKill := true } ∧ t.flag Reg.SEC_FUSE Fld.SEC_FUSE_debug_kill = true))))))) ∧
  ((∀ (i : Option InstId) (s : State),
     let r := Reg.SEC_ATTEST_STATUS
     let bound : Prop := ∀ x, i = some x → s.flag (Reg.PRT_INST x.val) Fld.PRT_INST_bound = true
     (s.flag r Fld.SEC_ATTEST_STATUS_busy = true → exec (.secAttest i) s = .next (s.setFlag r Fld.SEC_ATTEST_STATUS_busy_drop true)) ∧
     (s.flag r Fld.SEC_ATTEST_STATUS_busy = false → s.sec.turns ≠ [] →
       ∃ t, exec (.secAttest i) s = .next t ∧ t = { s with regs := t.regs, sec := { s.sec with attest := some (i.map (·.val)), turns := s.sec.turns ++ [2] } } ∧
         t.flag r Fld.SEC_ATTEST_STATUS_busy = true ∧ t.flag r Fld.SEC_ATTEST_STATUS_done = false ∧ (∀ x, x ≠ r → t.reg x = s.reg x)) ∧
     (s.flag r Fld.SEC_ATTEST_STATUS_busy = false → s.sec.turns = [] →
       ∃ t, exec (.secAttest i) s = .next t ∧ t = { s with regs := t.regs, sec := { s.sec with attest := none } } ∧
         t.flag r Fld.SEC_ATTEST_STATUS_busy = false ∧ t.flag r Fld.SEC_ATTEST_STATUS_done = true ∧
         (¬bound → t.get r Fld.SEC_ATTEST_STATUS_result = 1 ∧ ∀ x, x ≠ r → t.reg x = s.reg x) ∧
         (bound → t.get r Fld.SEC_ATTEST_STATUS_result = 0 ∧
           ∀ n, n < 64 → t.reg (Reg.SEC_REPORT n) = BitVec.ofNat 64 (numAt (s.report (i.map (·.val))) (8 * n) 8)))) ∧
   (∀ (a : List Byte) (s : State),
     let ok : Prop := s.stage = 0 ∧ s.flash.debugKill = false ∧
       Config.verify Config.vendorDebugKey (Config.debugChallenge s.sec.nonces) (BitVec.ofNat 512 (numAt a 0 64)) = true
     (¬ok → exec (.debugUnlock a) s = .next s) ∧
     (ok → ∃ t, exec (.debugUnlock a) s = .next t ∧ t = { s with regs := t.regs, sec := { s.sec with unlocked := true, keySeed := t.sec.keySeed } } ∧
       t.sec.keySeed = s.sec.keySeed.map (fun _ => ({ s with sec := { s.sec with unlocked := true } } : State).aliasDerived) ∧
       t.flag Reg.SEC_FUSE Fld.SEC_FUSE_debug_unlocked = true ∧ ∀ x, x ≠ Reg.SEC_FUSE → t.reg x = s.reg x)) ∧
   (∀ (k : Fin 2) (d : List Byte) (s : State), ∃ t, exec (.pldmFirmwareUpdate k d) s = .next t ∧
     t = { s with regs := t.regs, flash := { s.flash with fw := t.flash.fw } } ∧ t.flash.fwCopy k.val = some d ∧
     (∀ j, j ≠ k.val → t.flash.fwCopy j = s.flash.fwCopy j) ∧ ∀ x, x ≠ Reg.SEC_FW → t.reg x = s.reg x))

/-! ### Registers (chapter 0 and the register tables) -/

/-- R12-R18, R49, Table 0-3: an access of another size or alignment, to no register, or to a copy that is not served, changes nothing. Elsewhere a write changes one register, and of
it only the half it addresses: RW bits take the value unless it is a reserved encoding or only an image changes them, each 1 clears a W1C bit, RO and
reserved bits stay. A write that triggers an action does what its command does.

R250, R481, R483: a probe shows the entry of a line homed on its die, at once or when the line's transaction ends, and not_home for another; consumed advances within the records held;
an injection is armed for a kind and a unit that are not reserved. A copy that is not served drops the write.

R480-R482, Table 18-6: an error counts in ERR_STAT by its class, and its record takes entry produced mod 512 with class, cause, block, die, seq, location, address,
FRM_COUNT, a count of 1, partition and instance. A corrected one that merges only adds to the count of the latest record; with the ring full a corrected one is
dropped and counted, and any other overwrites the oldest. -/
def Obligations.RegistersAndProbes : Prop :=
  (∀ (off : BitVec 28) (wide fw : Bool) (v : W64) (s : State), s.sched.abortQ = [] →
     let word := off.toNat / 8 * 8
     let i := Instr.registerWrite off wide v fw
     let aligned : Prop := off.toNat % (if wide then 8 else 4) = 0
     let table : Prop := 0x10000 ≤ word ∧ word < 0x18100
     let be : W64 := if wide then BitVec.allOnes 64 else BitVec.ofNat 64 (0xFFFFFFFF * 2 ^ (8 * (off.toNat % 8)))
     let vv : W64 := if wide then v else BitVec.ofNat 64 (v.toNat % 2 ^ 32 * 2 ^ (8 * (off.toNat % 8)))
     let whole : W64 := (s.reg word &&& ~~~ be) ||| (vv &&& be)
     (¬aligned → exec i s = .next s) ∧
     (aligned → ¬table → s.writeDark (if fw then .firmware else .manager) word = true → exec i s = .next s) ∧
     (aligned → ¬table → regFamily (keptAt word) = none → exec i s = .next s) ∧
     (aligned → 0x18000 ≤ word → word < 0x18100 → exec i s = .next s) ∧
     (wide = true → aligned → 0x10000 ≤ word → word < 0x18000 → ∃ t, exec i s = .next t ∧ t.mem = s.mem ∧ t.net = s.net ∧ t.cores = s.cores ∧
       let n := (word - 0x10000) / 16
       (word % 16 = 0 → ((t.port 0).vec n).addr = v ∧ ((t.port 0).vec n).data = ((s.port 0).vec n).data ∧
         ((t.port 0).vec n).mask = ((s.port 0).vec n).mask) ∧
       (word % 16 = 8 → ((t.port 0).vec n).addr = ((s.port 0).vec n).addr ∧ ((t.port 0).vec n).data = v.setWidth 32 ∧
         ((t.port 0).vec n).mask = v.getLsbD 32) ∧
       ∀ m, m ≠ n → (t.port 0).vec m = (s.port 0).vec m) ∧
     (∀ f ix, aligned → s.regDark word = false → regFamily word = some (f, ix) →
       (0x1000000 ≤ word ∧ word < 0x4000000 ∨ 0x6000000 ≤ word ∧ word < 0x8800000) →
       (∀ x, x ∈ f.fields → x.lo ≤ x.hi ∧ x.hi < 64) → f.fields.Pairwise (fun a b => a.hi < b.lo ∨ b.hi < a.lo) →
       ∃ t, exec i s = .next t ∧ t = { s with regs := t.regs } ∧ (∀ r, r ≠ word → t.reg r = s.reg r) ∧
         ∀ j, j < 64 →
           (be.getLsbD j = false → (t.reg word).getLsbD j = (s.reg word).getLsbD j) ∧
           ((∀ x, x ∈ f.fields → ¬(x.lo ≤ j ∧ j ≤ x.hi)) → (t.reg word).getLsbD j = (s.reg word).getLsbD j) ∧
           (∀ x, x ∈ f.fields → x.lo ≤ j → j ≤ x.hi → be.getLsbD j = true →
             ((x.acc = .ro ∨ x.acc = .wo) → (t.reg word).getLsbD j = (s.reg word).getLsbD j) ∧
             (x.acc = .w1c → (t.reg word).getLsbD j = ((s.reg word).getLsbD j && !vv.getLsbD j)) ∧
             (x.acc = .rw → (t.reg word).getLsbD j =
               if x.img || x.resv (bits whole.toNat x.hi x.lo) whole.toNat then (s.reg word).getLsbD j else vv.getLsbD j))) ∧
     (wide = true → fw = false →
       (off.toNat = Reg.PWR_REQ + (primaryDie - 8) * 0x100000 →
         (v.toNat % 4 = 0 → exec i s = exec .pwrReqRun s) ∧ (v.toNat % 4 = 2 → exec i s = exec .pwrReqGated s) ∧
         (v.toNat % 4 = 3 → exec i s = exec .pwrReqStandby s) ∧
         (v.toNat % 4 = 1 → s.copyDark primaryDie = false → exec i s = .next (s.setFlag Reg.PWR_STATE Fld.PWR_STATE_req_refused true))) ∧
       (off.toNat = Reg.BOOT_MODULE_RESET → exec i s = exec (.bootModuleReset (v.extractLsb' 48 16)) s) ∧
       (∀ d : DieIx, off.toNat = Reg.ERR_RING d.val → exec i s = exec (.errRingConsume d (v.extractLsb' 32 32)) s) ∧
       (∀ d : DieIx, off.toNat = Reg.ERR_INJECT d.val →
         exec i s = exec (.errInject d (v.extractLsb' 16 12) (v.extractLsb' 4 2) (v.extractLsb' 0 4)) s) ∧
       (∀ d : Fin 8, off.toNat = Reg.DIR_PROBE_ADDR d.val → exec i s = exec (.dirProbe d (v.extractLsb' 7 45)) s))) ∧
  ((∀ (d : Fin 8) (l : LineNo) (s : State),
     let st := Reg.DIR_PROBE_STATUS d.val
     let en := Reg.DIR_PROBE_ENTRY d.val
     (s.regDark (Reg.DIR_PROBE_ADDR d.val) = true → exec (.dirProbe d l) s = .next s) ∧
     (s.regDark (Reg.DIR_PROBE_ADDR d.val) = false →
       ∃ t, exec (.dirProbe d l) s = .next t ∧ t = { s with regs := t.regs, llc := { s.llc with probes := t.llc.probes } } ∧
         (∀ r, r ≠ st → r ≠ en → t.reg r = s.reg r) ∧
         (sliceDie (s.home l) ≠ d.val → t.flag st Fld.DIR_PROBE_STATUS_done = true ∧ t.flag st Fld.DIR_PROBE_STATUS_not_home = true ∧ t.reg en = 0) ∧
         (sliceDie (s.home l) = d.val → s.lineBusy l = true → t.flag st Fld.DIR_PROBE_STATUS_done = false ∧ (d.val, l.toNat) ∈ t.llc.probes) ∧
         (sliceDie (s.home l) = d.val → s.lineBusy l = false →
           t.flag st Fld.DIR_PROBE_STATUS_done = true ∧ t.flag st Fld.DIR_PROBE_STATUS_not_home = false ∧
           t.get en Fld.DIR_PROBE_ENTRY_rep_dies = (s.dirOf l).reps.toNat ∧ t.get en Fld.DIR_PROBE_ENTRY_ptrs = (s.dirOf l).ptrs.toNat ∧
           t.get st Fld.DIR_PROBE_STATUS_state = (s.dirOf l).state.code ∧ t.flag st Fld.DIR_PROBE_STATUS_coarse = (s.dirOf l).coarse ∧
           t.get st Fld.DIR_PROBE_STATUS_where = (if (s.homeWay l).isSome then 1 else if (s.findShadow l).isSome then 2
             else if (s.vbuf (s.home l)).any (fun x => x.line == l) then 3 else 0)))) ∧
   (∀ (d : DieIx) (v : BitVec 32) (s : State),
     let r := Reg.ERR_RING d.val
     let held := (s.get r Fld.ERR_RING_produced + 2 ^ 32 - s.get r Fld.ERR_RING_consumed) % 2 ^ 32
     let inside : Prop := (v.toNat + 2 ^ 32 - s.get r Fld.ERR_RING_consumed) % 2 ^ 32 ≤ held
     ((s.copyDark d.val = true ∨ ¬inside) → exec (.errRingConsume d v) s = .next s) ∧
     (s.copyDark d.val = false → inside → ∃ t, exec (.errRingConsume d v) s = .next t ∧ t = { s with regs := t.regs } ∧
       t.get r Fld.ERR_RING_consumed = v.toNat ∧ t.get r Fld.ERR_RING_produced = s.get r Fld.ERR_RING_produced ∧ ∀ x, x ≠ r → t.reg x = s.reg x)) ∧
   (∀ (d : DieIx) (c : CoreId) (kind : BitVec 2) (unit : BitVec 4) (s : State),
     ((s.copyDark d.val = true ∨ kind = 0 ∨ unit = 0 ∨ 3 < unit.toNat) → exec (.errInject d c kind unit) s = .next s) ∧
     (s.copyDark d.val = false → kind ≠ 0 → unit ≠ 0 → unit.toNat ≤ 3 → ∃ t, exec (.errInject d c kind unit) s = .next t ∧
       t = { s with errs := { s.errs with inj := t.errs.inj } } ∧ mapGet (fun _ => none) t.errs.inj d.val = some ⟨c, kind, unit⟩ ∧
       ∀ e, e ≠ d.val → mapGet (fun _ => none) t.errs.inj e = mapGet (fun _ => none) s.errs.inj e))) ∧
  (∀ (d : DieIx) (r : ErrRec) (s : State), r.cls < 4 →
     let q := Reg.ERR_RING d.val
     let o := Reg.ERR_OVF d.val
     let n := s.get q Fld.ERR_RING_produced
     let c := s.get q Fld.ERR_RING_consumed
     let held := (n + 2 ^ 32 - c) % 2 ^ 32
     let last := Reg.ERR_REC d.val ((n + 2 ^ 32 - 1) % 2 ^ 32 % 512) 4
     let t := errRecord s d.val r
     let word (k : Nat) : W64 := t.reg (Reg.ERR_REC d.val (n % 512) k)
     t.get (Reg.ERR_STAT d.val) (errStatField r.cls) = min 65535 (s.get (Reg.ERR_STAT d.val) (errStatField r.cls) + 1) ∧
     (s.errMerges d.val r = true → t.reg q = s.reg q ∧ (t.reg last).toNat % 2 ^ 32 = min (2 ^ 32 - 1) ((s.reg last).toNat % 2 ^ 32 + 1) ∧
       t.reg o = s.reg o) ∧
     (s.errMerges d.val r = false → held = 512 → r.cls = 0 → t.reg q = s.reg q ∧
       t.get o Fld.ERR_OVF_dropped = min (2 ^ 32 - 1) (s.get o Fld.ERR_OVF_dropped + 1) ∧
       ∀ e k, e < 512 → k < 8 → t.reg (Reg.ERR_REC d.val e k) = s.reg (Reg.ERR_REC d.val e k)) ∧
     (s.errMerges d.val r = false → (held ≠ 512 ∨ r.cls ≠ 0) →
       t.get q Fld.ERR_RING_produced = (n + 1) % 2 ^ 32 ∧
       (held ≠ 512 → t.get q Fld.ERR_RING_consumed = c ∧ t.reg o = s.reg o) ∧
       (held = 512 → t.get q Fld.ERR_RING_consumed = (c + 1) % 2 ^ 32 ∧ t.flag o Fld.ERR_OVF_overflow = true ∧
         t.get o Fld.ERR_OVF_overwritten = min 65535 (s.get o Fld.ERR_OVF_overwritten + 1)) ∧
       word 0 = BitVec.ofNat 64 (2 ^ 63 + r.cls * 2 ^ 60 + r.cause * 2 ^ 48 + r.block * 2 ^ 40 + d.val * 2 ^ 36 + n) ∧
       word 1 = BitVec.ofNat 64 r.loc ∧ word 2 = BitVec.ofNat 64 r.addr ∧ word 3 = s.reg Reg.FRM_COUNT ∧
       word 4 = BitVec.ofNat 64 (1 + (match r.part with | some p => 2 ^ 47 + p * 2 ^ 32 | none => 0) +
         (match r.inst with | some i => 2 ^ 63 + i * 2 ^ 48 | none => 0)) ∧
       (wordCause r.cause = false → word 5 = BitVec.ofNat 64 r.detail) ∧ word 6 = 0 ∧ word 7 = 0 ∧
       ∀ e k, e < 512 → k < 8 → e ≠ n % 512 → t.reg (Reg.ERR_REC d.val e k) = s.reg (Reg.ERR_REC d.val e k)))
end

