-- ==== Sys2Proof/Laws/Data.lean ====
section
/-!
SUPPORT. Laws of the sparse maps and sets of numbers in which the state holds registers, memory, cores and ways, and of bit fields: a
read after a write, the canonical form kept, fields of one word.
-/
namespace Sys2Proof.Machine

/-! ### Maps -/

theorem mapFind_mapDrop_self {α : Type} (m : List (Nat × α)) (k : Nat) : mapFind (mapDrop m k) k = none := by
  induction m with
  | nil => rfl
  | cons e m ih =>
    obtain ⟨k', v⟩ := e
    by_cases h : k' = k
    · simpa [mapDrop, h] using ih
    · simpa [mapDrop, h, mapFind] using ih

theorem mapFind_mapDrop_ne {α : Type} (m : List (Nat × α)) {k j : Nat} (h : k ≠ j) : mapFind (mapDrop m k) j = mapFind m j := by
  induction m with
  | nil => rfl
  | cons e m ih =>
    obtain ⟨k', v⟩ := e
    by_cases hk : k' = k
    · have hj : ¬ k' = j := fun e => h (hk ▸ e)
      have hj' : ¬ k = j := h
      simpa [mapDrop, hk, mapFind, hj'] using ih
    · by_cases hj : k' = j
      · simp [mapDrop, mapFind, hj, Ne.symm h]
      · simpa [mapDrop, hk, mapFind, hj] using ih

theorem mapFind_mapIns_self {α : Type} (m : List (Nat × α)) (k : Nat) (v : α) (h : mapFind m k = none) : mapFind (mapIns m k v) k = some v := by
  induction m with
  | nil => simp [mapIns, mapFind]
  | cons e m ih =>
    obtain ⟨k', v'⟩ := e
    by_cases hk : k' = k
    · simp [mapFind, hk] at h
    · have h' : mapFind m k = none := by simpa [mapFind, hk] using h
      by_cases hl : k < k'
      · simp [mapIns, hl, mapFind]
      · simpa [mapIns, hl, mapFind, hk] using ih h'

theorem mapFind_mapIns_ne {α : Type} (m : List (Nat × α)) {k j : Nat} (v : α) (h : k ≠ j) : mapFind (mapIns m k v) j = mapFind m j := by
  induction m with
  | nil => simp [mapIns, mapFind, h]
  | cons e m ih =>
    obtain ⟨k', v'⟩ := e
    by_cases hl : k < k'
    · simp [mapIns, hl, mapFind, h]
    · have e : mapIns ((k', v') :: m) k v = (k', v') :: mapIns m k v := by simp [mapIns, hl]
      rw [e]
      by_cases hj : k' = j
      · simp [mapFind, hj]
      · simpa [mapFind, hj] using ih

/-- A read after a write. -/
@[simp] theorem mapGet_mapSet_self {α : Type} [DecidableEq α] (d : Nat → α) (m : List (Nat × α)) (k : Nat) (v : α) :
    mapGet d (mapSet d m k v) k = v := by
  by_cases h : v = d k
  · simp [mapSet, mapGet, h, mapFind_mapDrop_self]
  · simp [mapSet, mapGet, h, mapFind_mapIns_self _ _ _ (mapFind_mapDrop_self m k)]

/-- A write leaves every other key alone. -/
theorem mapGet_mapSet_ne {α : Type} [DecidableEq α] (d : Nat → α) (m : List (Nat × α)) {k j : Nat} (v : α) (h : k ≠ j) :
    mapGet d (mapSet d m k v) j = mapGet d m j := by
  by_cases hv : v = d k
  · simp [mapSet, mapGet, hv, mapFind_mapDrop_ne _ h]
  · simp [mapSet, mapGet, hv, mapFind_mapIns_ne _ _ h, mapFind_mapDrop_ne _ h]

theorem mapGet_mapSet {α : Type} [DecidableEq α] (d : Nat → α) (m : List (Nat × α)) (k j : Nat) (v : α) :
    mapGet d (mapSet d m k v) j = if k = j then v else mapGet d m j := by
  by_cases h : k = j
  · subst h; simp
  · simp [h, mapGet_mapSet_ne d m v h]

@[simp] theorem mapGet_nil {α : Type} (d : Nat → α) (k : Nat) : mapGet d [] k = d k := rfl

/-- The keys of a map rise strictly above `k`. -/
def mapAbove {α : Type} (k : Nat) (m : List (Nat × α)) : Prop := ∀ e ∈ m, k < e.1

theorem mapSorted_cons {α : Type} (k : Nat) (v : α) (m : List (Nat × α)) :
    mapSorted ((k, v) :: m) = true ↔ mapAbove k m ∧ mapSorted m = true := by
  induction m generalizing k v with
  | nil => simp [mapSorted, mapAbove]
  | cons e m ih =>
    obtain ⟨k', v'⟩ := e
    have ih' := ih k' v'
    simp only [mapSorted, Bool.and_eq_true, decide_eq_true_eq, ih', mapAbove, List.mem_cons, forall_eq_or_imp]
    constructor
    · rintro ⟨h1, h2, h3⟩
      exact ⟨⟨h1, fun e he => Nat.lt_trans h1 (h2 e he)⟩, h2, h3⟩
    · rintro ⟨⟨h1, _⟩, h2, h3⟩
      exact ⟨h1, h2, h3⟩

theorem mapSorted_mapDrop {α : Type} (m : List (Nat × α)) (k : Nat) (h : mapSorted m = true) : mapSorted (mapDrop m k) = true := by
  induction m with
  | nil => rfl
  | cons e m ih =>
    obtain ⟨k', v⟩ := e
    obtain ⟨h1, h2⟩ := (mapSorted_cons k' v m).mp h
    by_cases hk : k' = k
    · simpa [mapDrop, hk] using ih h2
    · have : mapDrop ((k', v) :: m) k = (k', v) :: mapDrop m k := by simp [mapDrop, hk]
      rw [this]
      exact (mapSorted_cons _ _ _).mpr ⟨fun e he => h1 e ((List.mem_filter.mp he).1), ih h2⟩

theorem mem_mapIns {α : Type} (m : List (Nat × α)) (k : Nat) (v : α) (e : Nat × α) : e ∈ mapIns m k v → e = (k, v) ∨ e ∈ m := by
  induction m with
  | nil => intro h; simpa [mapIns] using h
  | cons x m ih =>
    obtain ⟨k', v'⟩ := x
    intro h
    unfold mapIns at h
    split at h
    · simpa using h
    · rcases List.mem_cons.mp h with h | h
      · exact .inr (h ▸ List.mem_cons_self ..)
      · exact (ih h).imp id (List.mem_cons_of_mem _)

theorem mapSorted_mapIns {α : Type} (m : List (Nat × α)) (k : Nat) (v : α) (h : mapSorted m = true) (hk : ∀ e ∈ m, e.1 ≠ k) :
    mapSorted (mapIns m k v) = true := by
  induction m with
  | nil => rfl
  | cons x m ih =>
    obtain ⟨k', v'⟩ := x
    obtain ⟨h1, h2⟩ := (mapSorted_cons k' v' m).mp h
    unfold mapIns
    split
    · rename_i hl
      refine (mapSorted_cons _ _ _).mpr ⟨?_, h⟩
      intro e he
      rcases List.mem_cons.mp he with he | he
      · exact he ▸ hl
      · exact Nat.lt_trans hl (h1 e he)
    · rename_i hl
      have hne : k' ≠ k := hk (k', v') (List.mem_cons_self ..)
      refine (mapSorted_cons _ _ _).mpr ⟨?_, ih h2 (fun e he => hk e (List.mem_cons_of_mem _ he))⟩
      intro e he
      rcases mem_mapIns m k v e he with he | he
      · subst he; show k' < k; omega
      · exact h1 e he

/-- A write keeps the canonical form. -/
theorem mapWf_mapSet {α : Type} [DecidableEq α] (d : Nat → α) (m : List (Nat × α)) (k : Nat) (v : α) (h : mapWf d m = true) :
    mapWf d (mapSet d m k v) = true := by
  simp only [mapWf, Bool.and_eq_true, List.all_eq_true, decide_eq_true_eq] at h ⊢
  obtain ⟨hs, hv⟩ := h
  unfold mapSet
  split
  · exact ⟨mapSorted_mapDrop m k hs, fun e he => hv e ((List.mem_filter.mp he).1)⟩
  · rename_i hne
    refine ⟨mapSorted_mapIns _ _ _ (mapSorted_mapDrop m k hs) (fun e he => ?_), fun e he => ?_⟩
    · have := (List.mem_filter.mp he).2
      simpa using this
    · rcases mem_mapIns _ _ _ _ he with he | he
      · exact he ▸ hne
      · exact hv e ((List.mem_filter.mp he).1)

@[simp] theorem mapWf_nil {α : Type} [DecidableEq α] (d : Nat → α) : mapWf d [] = true := rfl

/-! ### Sets of numbers -/

theorem setSorted_cons (x : Nat) (l : List Nat) : setSorted (x :: l) = true ↔ (∀ y ∈ l, x < y) ∧ setSorted l = true := by
  induction l generalizing x with
  | nil => simp [setSorted]
  | cons y l ih =>
    simp only [setSorted, Bool.and_eq_true, decide_eq_true_eq, ih y, List.mem_cons, forall_eq_or_imp]
    constructor
    · rintro ⟨h1, h2, h3⟩
      exact ⟨⟨h1, fun z hz => Nat.lt_trans h1 (h2 z hz)⟩, h2, h3⟩
    · rintro ⟨⟨h1, _⟩, h2, h3⟩
      exact ⟨h1, h2, h3⟩

theorem mem_setIns (l : List Nat) (k x : Nat) : x ∈ setIns l k ↔ x = k ∨ x ∈ l := by
  induction l with
  | nil => simp [setIns]
  | cons y l ih =>
    unfold setIns
    split
    · simp
    · split
      · rename_i h; subst h; simp
      · simp only [List.mem_cons, ih]; exact or_left_comm

theorem setSorted_setIns (l : List Nat) (k : Nat) (h : setSorted l = true) : setSorted (setIns l k) = true := by
  induction l with
  | nil => rfl
  | cons x l ih =>
    obtain ⟨h1, h2⟩ := (setSorted_cons x l).mp h
    unfold setIns
    split
    · rename_i hl
      refine (setSorted_cons _ _).mpr ⟨?_, h⟩
      intro y hy
      rcases List.mem_cons.mp hy with hy | hy
      · exact hy ▸ hl
      · exact Nat.lt_trans hl (h1 y hy)
    · split
      · exact h
      · rename_i hl hne
        refine (setSorted_cons _ _).mpr ⟨?_, ih h2⟩
        intro y hy
        rcases (mem_setIns l k y).mp hy with hy | hy
        · subst hy; omega
        · exact h1 y hy

theorem setSorted_setDel (l : List Nat) (k : Nat) (h : setSorted l = true) : setSorted (setDel l k) = true := by
  induction l with
  | nil => rfl
  | cons x l ih =>
    obtain ⟨h1, h2⟩ := (setSorted_cons x l).mp h
    by_cases hx : x = k
    · simpa [setDel, hx] using ih h2
    · have : setDel (x :: l) k = x :: setDel l k := by simp [setDel, hx]
      rw [this]
      exact (setSorted_cons _ _).mpr ⟨fun y hy => h1 y ((List.mem_filter.mp hy).1), ih h2⟩

@[simp] theorem setHas_setIns (l : List Nat) (k x : Nat) : setHas (setIns l k) x = (x == k || setHas l x) := by
  rw [Bool.eq_iff_iff]
  simp [setHas, mem_setIns]

@[simp] theorem setHas_setDel (l : List Nat) (k x : Nat) : setHas (setDel l k) x = (setHas l x && x != k) := by
  rw [Bool.eq_iff_iff]
  simp [setHas, setDel]

theorem mapSorted_filter {α : Type} (p : Nat × α → Bool) (m : List (Nat × α)) (h : mapSorted m = true) : mapSorted (m.filter p) = true := by
  induction m with
  | nil => rfl
  | cons e m ih =>
    have hc := (mapSorted_cons e.1 e.2 m).1 h
    simp only [List.filter_cons]
    split
    · exact (mapSorted_cons e.1 e.2 _).2 ⟨fun x hx => hc.1 x (List.mem_filter.1 hx).1, ih hc.2⟩
    · exact ih hc.2

/-- A part of a map in canonical form is in canonical form. -/
theorem mapWf_filter {α : Type} [DecidableEq α] (d : Nat → α) (p : Nat × α → Bool) (m : List (Nat × α)) (h : mapWf d m = true) :
    mapWf d (m.filter p) = true := by
  simp only [mapWf, Bool.and_eq_true, List.all_eq_true] at h ⊢
  exact ⟨mapSorted_filter p m h.1, fun e he => h.2 e (List.mem_filter.1 he).1⟩

theorem setSorted_filter (p : Nat → Bool) (l : List Nat) (h : setSorted l = true) : setSorted (l.filter p) = true := by
  induction l with
  | nil => rfl
  | cons x l ih =>
    have hc := (setSorted_cons x l).1 h
    simp only [List.filter_cons]
    split
    · exact (setSorted_cons x _).2 ⟨fun y hy => hc.1 y (List.mem_filter.1 hy).1, ih hc.2⟩
    · exact ih hc.2

/-! ### Bit fields -/

/-- A bit of a word after a field was written. -/
theorem Fld.getLsbD_put (f : Fld) (w : W64) (v i : Nat) (hi : i < 64) :
    (f.put w v).getLsbD i = if f.lo ≤ i ∧ i < f.lo + f.width then v.testBit (i - f.lo) else w.getLsbD i := by
  have hm : (((2 ^ f.width - 1) * 2 ^ f.lo).testBit i) = decide (f.lo ≤ i ∧ i < f.lo + f.width) := by
    rw [Nat.testBit_mul_two_pow, Nat.testBit_two_pow_sub_one]
    by_cases h : f.lo ≤ i
    · simp [h]; omega
    · simp [h]
  have hv : ((v * 2 ^ f.lo).testBit i) = (decide (f.lo ≤ i) && v.testBit (i - f.lo)) := Nat.testBit_mul_two_pow ..
  simp only [Fld.put, BitVec.getLsbD_or, BitVec.getLsbD_and, BitVec.getLsbD_not, BitVec.getLsbD_ofNat, hi, decide_true, Bool.true_and, hm, hv]
  by_cases h : f.lo ≤ i ∧ i < f.lo + f.width
  · simp [h]
  · simp [h]

/-- A bit of a field's value. -/
theorem Fld.testBit_get (f : Fld) (w : W64) (j : Nat) : (f.get w).testBit j = (decide (j < f.width) && w.getLsbD (f.lo + j)) := by
  simp [Fld.get, Nat.testBit_mod_two_pow, Nat.testBit_div_two_pow, BitVec.testBit_toNat, Nat.add_comm]

/-- A field reads as what was written to it. -/
theorem Fld.get_put (f : Fld) (w : W64) (v : Nat) (h : f.lo + f.width ≤ 64) : f.get (f.put w v) = v % 2 ^ f.width := by
  refine Nat.eq_of_testBit_eq fun j => ?_
  rw [Fld.testBit_get, Nat.testBit_mod_two_pow]
  by_cases hj : j < f.width
  · rw [Fld.getLsbD_put f w v _ (by omega)]
    simp [hj]
  · simp [hj]

/-- A write of one field leaves a field beside it alone. -/
theorem Fld.get_put_ne (f g : Fld) (w : W64) (v : Nat) (h : g.lo + g.width ≤ 64) (hd : f.lo + f.width ≤ g.lo ∨ g.lo + g.width ≤ f.lo) :
    g.get (f.put w v) = g.get w := by
  refine Nat.eq_of_testBit_eq fun j => ?_
  rw [Fld.testBit_get, Fld.testBit_get]
  by_cases hj : j < g.width
  · rw [Fld.getLsbD_put f w v _ (by omega)]
    have : ¬ (f.lo ≤ g.lo + j ∧ g.lo + j < f.lo + f.width) := by omega
    simp [hj, this]
  · simp [hj]

/-- A field holds less than two to its width. -/
theorem Fld.get_lt (f : Fld) (w : W64) : f.get w < 2 ^ f.width := Nat.mod_lt _ (Nat.two_pow_pos _)

end Sys2Proof.Machine
end

