-- ==== Sys2Proof/Laws/State.lean ====
section
/-!
SUPPORT. Laws of the state: what each update operation leaves alone, one lemma per field per update, and what a read gives after a write.
-/
namespace Sys2Proof.Machine

/-! ### State.setReg -/

@[simp] theorem State.setReg_pending (s : State) (a : Nat) (v : W64) : (s.setReg a v).pending = s.pending := rfl
@[simp] theorem State.setReg_mem (s : State) (a : Nat) (v : W64) : (s.setReg a v).mem = s.mem := rfl
@[simp] theorem State.setReg_poison (s : State) (a : Nat) (v : W64) : (s.setReg a v).poison = s.poison := rfl
@[simp] theorem State.setReg_cores (s : State) (a : Nat) (v : W64) : (s.setReg a v).cores = s.cores := rfl
@[simp] theorem State.setReg_llc (s : State) (a : Nat) (v : W64) : (s.setReg a v).llc = s.llc := rfl
@[simp] theorem State.setReg_net (s : State) (a : Nat) (v : W64) : (s.setReg a v).net = s.net := rfl
@[simp] theorem State.setReg_sched (s : State) (a : Nat) (v : W64) : (s.setReg a v).sched = s.sched := rfl
@[simp] theorem State.setReg_stk (s : State) (a : Nat) (v : W64) : (s.setReg a v).stk = s.stk := rfl
@[simp] theorem State.setReg_errs (s : State) (a : Nat) (v : W64) : (s.setReg a v).errs = s.errs := rfl
@[simp] theorem State.setReg_ceral (s : State) (a : Nat) (v : W64) : (s.setReg a v).ceral = s.ceral := rfl
@[simp] theorem State.setReg_host (s : State) (a : Nat) (v : W64) : (s.setReg a v).host = s.host := rfl
@[simp] theorem State.setReg_opt (s : State) (a : Nat) (v : W64) : (s.setReg a v).opt = s.opt := rfl
@[simp] theorem State.setReg_evc (s : State) (a : Nat) (v : W64) : (s.setReg a v).evc = s.evc := rfl
@[simp] theorem State.setReg_pwr (s : State) (a : Nat) (v : W64) : (s.setReg a v).pwr = s.pwr := rfl
@[simp] theorem State.setReg_boot (s : State) (a : Nat) (v : W64) : (s.setReg a v).boot = s.boot := rfl
@[simp] theorem State.setReg_img (s : State) (a : Nat) (v : W64) : (s.setReg a v).img = s.img := rfl
@[simp] theorem State.setReg_flash (s : State) (a : Nat) (v : W64) : (s.setReg a v).flash = s.flash := rfl
@[simp] theorem State.setReg_sec (s : State) (a : Nat) (v : W64) : (s.setReg a v).sec = s.sec := rfl
@[simp] theorem State.setReg_outbox (s : State) (a : Nat) (v : W64) : (s.setReg a v).outbox = s.outbox := rfl
@[simp] theorem State.setReg_now (s : State) (a : Nat) (v : W64) : (s.setReg a v).now = s.now := rfl
@[simp] theorem State.setReg_free (s : State) (a : Nat) (v : W64) : (s.setReg a v).free = s.free := rfl

/-! ### State.put -/

@[simp] theorem State.put_pending (s : State) (a : Nat) (f : Fld) (v : Nat) : (s.put a f v).pending = s.pending := rfl
@[simp] theorem State.put_mem (s : State) (a : Nat) (f : Fld) (v : Nat) : (s.put a f v).mem = s.mem := rfl
@[simp] theorem State.put_poison (s : State) (a : Nat) (f : Fld) (v : Nat) : (s.put a f v).poison = s.poison := rfl
@[simp] theorem State.put_cores (s : State) (a : Nat) (f : Fld) (v : Nat) : (s.put a f v).cores = s.cores := rfl
@[simp] theorem State.put_llc (s : State) (a : Nat) (f : Fld) (v : Nat) : (s.put a f v).llc = s.llc := rfl
@[simp] theorem State.put_net (s : State) (a : Nat) (f : Fld) (v : Nat) : (s.put a f v).net = s.net := rfl
@[simp] theorem State.put_sched (s : State) (a : Nat) (f : Fld) (v : Nat) : (s.put a f v).sched = s.sched := rfl
@[simp] theorem State.put_stk (s : State) (a : Nat) (f : Fld) (v : Nat) : (s.put a f v).stk = s.stk := rfl
@[simp] theorem State.put_errs (s : State) (a : Nat) (f : Fld) (v : Nat) : (s.put a f v).errs = s.errs := rfl
@[simp] theorem State.put_ceral (s : State) (a : Nat) (f : Fld) (v : Nat) : (s.put a f v).ceral = s.ceral := rfl
@[simp] theorem State.put_host (s : State) (a : Nat) (f : Fld) (v : Nat) : (s.put a f v).host = s.host := rfl
@[simp] theorem State.put_opt (s : State) (a : Nat) (f : Fld) (v : Nat) : (s.put a f v).opt = s.opt := rfl
@[simp] theorem State.put_evc (s : State) (a : Nat) (f : Fld) (v : Nat) : (s.put a f v).evc = s.evc := rfl
@[simp] theorem State.put_pwr (s : State) (a : Nat) (f : Fld) (v : Nat) : (s.put a f v).pwr = s.pwr := rfl
@[simp] theorem State.put_boot (s : State) (a : Nat) (f : Fld) (v : Nat) : (s.put a f v).boot = s.boot := rfl
@[simp] theorem State.put_img (s : State) (a : Nat) (f : Fld) (v : Nat) : (s.put a f v).img = s.img := rfl
@[simp] theorem State.put_flash (s : State) (a : Nat) (f : Fld) (v : Nat) : (s.put a f v).flash = s.flash := rfl
@[simp] theorem State.put_sec (s : State) (a : Nat) (f : Fld) (v : Nat) : (s.put a f v).sec = s.sec := rfl
@[simp] theorem State.put_outbox (s : State) (a : Nat) (f : Fld) (v : Nat) : (s.put a f v).outbox = s.outbox := rfl
@[simp] theorem State.put_now (s : State) (a : Nat) (f : Fld) (v : Nat) : (s.put a f v).now = s.now := rfl
@[simp] theorem State.put_free (s : State) (a : Nat) (f : Fld) (v : Nat) : (s.put a f v).free = s.free := rfl

/-! ### State.setFlag -/

@[simp] theorem State.setFlag_pending (s : State) (a : Nat) (f : Fld) (b : Bool) : (s.setFlag a f b).pending = s.pending := rfl
@[simp] theorem State.setFlag_mem (s : State) (a : Nat) (f : Fld) (b : Bool) : (s.setFlag a f b).mem = s.mem := rfl
@[simp] theorem State.setFlag_poison (s : State) (a : Nat) (f : Fld) (b : Bool) : (s.setFlag a f b).poison = s.poison := rfl
@[simp] theorem State.setFlag_cores (s : State) (a : Nat) (f : Fld) (b : Bool) : (s.setFlag a f b).cores = s.cores := rfl
@[simp] theorem State.setFlag_llc (s : State) (a : Nat) (f : Fld) (b : Bool) : (s.setFlag a f b).llc = s.llc := rfl
@[simp] theorem State.setFlag_net (s : State) (a : Nat) (f : Fld) (b : Bool) : (s.setFlag a f b).net = s.net := rfl
@[simp] theorem State.setFlag_sched (s : State) (a : Nat) (f : Fld) (b : Bool) : (s.setFlag a f b).sched = s.sched := rfl
@[simp] theorem State.setFlag_stk (s : State) (a : Nat) (f : Fld) (b : Bool) : (s.setFlag a f b).stk = s.stk := rfl
@[simp] theorem State.setFlag_errs (s : State) (a : Nat) (f : Fld) (b : Bool) : (s.setFlag a f b).errs = s.errs := rfl
@[simp] theorem State.setFlag_ceral (s : State) (a : Nat) (f : Fld) (b : Bool) : (s.setFlag a f b).ceral = s.ceral := rfl
@[simp] theorem State.setFlag_host (s : State) (a : Nat) (f : Fld) (b : Bool) : (s.setFlag a f b).host = s.host := rfl
@[simp] theorem State.setFlag_opt (s : State) (a : Nat) (f : Fld) (b : Bool) : (s.setFlag a f b).opt = s.opt := rfl
@[simp] theorem State.setFlag_evc (s : State) (a : Nat) (f : Fld) (b : Bool) : (s.setFlag a f b).evc = s.evc := rfl
@[simp] theorem State.setFlag_pwr (s : State) (a : Nat) (f : Fld) (b : Bool) : (s.setFlag a f b).pwr = s.pwr := rfl
@[simp] theorem State.setFlag_boot (s : State) (a : Nat) (f : Fld) (b : Bool) : (s.setFlag a f b).boot = s.boot := rfl
@[simp] theorem State.setFlag_img (s : State) (a : Nat) (f : Fld) (b : Bool) : (s.setFlag a f b).img = s.img := rfl
@[simp] theorem State.setFlag_flash (s : State) (a : Nat) (f : Fld) (b : Bool) : (s.setFlag a f b).flash = s.flash := rfl
@[simp] theorem State.setFlag_sec (s : State) (a : Nat) (f : Fld) (b : Bool) : (s.setFlag a f b).sec = s.sec := rfl
@[simp] theorem State.setFlag_outbox (s : State) (a : Nat) (f : Fld) (b : Bool) : (s.setFlag a f b).outbox = s.outbox := rfl
@[simp] theorem State.setFlag_now (s : State) (a : Nat) (f : Fld) (b : Bool) : (s.setFlag a f b).now = s.now := rfl
@[simp] theorem State.setFlag_free (s : State) (a : Nat) (f : Fld) (b : Bool) : (s.setFlag a f b).free = s.free := rfl

/-! ### State.incSat -/

@[simp] theorem State.incSat_pending (s : State) (a : Nat) (f : Fld) : (s.incSat a f).pending = s.pending := rfl
@[simp] theorem State.incSat_mem (s : State) (a : Nat) (f : Fld) : (s.incSat a f).mem = s.mem := rfl
@[simp] theorem State.incSat_poison (s : State) (a : Nat) (f : Fld) : (s.incSat a f).poison = s.poison := rfl
@[simp] theorem State.incSat_cores (s : State) (a : Nat) (f : Fld) : (s.incSat a f).cores = s.cores := rfl
@[simp] theorem State.incSat_llc (s : State) (a : Nat) (f : Fld) : (s.incSat a f).llc = s.llc := rfl
@[simp] theorem State.incSat_net (s : State) (a : Nat) (f : Fld) : (s.incSat a f).net = s.net := rfl
@[simp] theorem State.incSat_sched (s : State) (a : Nat) (f : Fld) : (s.incSat a f).sched = s.sched := rfl
@[simp] theorem State.incSat_stk (s : State) (a : Nat) (f : Fld) : (s.incSat a f).stk = s.stk := rfl
@[simp] theorem State.incSat_errs (s : State) (a : Nat) (f : Fld) : (s.incSat a f).errs = s.errs := rfl
@[simp] theorem State.incSat_ceral (s : State) (a : Nat) (f : Fld) : (s.incSat a f).ceral = s.ceral := rfl
@[simp] theorem State.incSat_host (s : State) (a : Nat) (f : Fld) : (s.incSat a f).host = s.host := rfl
@[simp] theorem State.incSat_opt (s : State) (a : Nat) (f : Fld) : (s.incSat a f).opt = s.opt := rfl
@[simp] theorem State.incSat_evc (s : State) (a : Nat) (f : Fld) : (s.incSat a f).evc = s.evc := rfl
@[simp] theorem State.incSat_pwr (s : State) (a : Nat) (f : Fld) : (s.incSat a f).pwr = s.pwr := rfl
@[simp] theorem State.incSat_boot (s : State) (a : Nat) (f : Fld) : (s.incSat a f).boot = s.boot := rfl
@[simp] theorem State.incSat_img (s : State) (a : Nat) (f : Fld) : (s.incSat a f).img = s.img := rfl
@[simp] theorem State.incSat_flash (s : State) (a : Nat) (f : Fld) : (s.incSat a f).flash = s.flash := rfl
@[simp] theorem State.incSat_sec (s : State) (a : Nat) (f : Fld) : (s.incSat a f).sec = s.sec := rfl
@[simp] theorem State.incSat_outbox (s : State) (a : Nat) (f : Fld) : (s.incSat a f).outbox = s.outbox := rfl
@[simp] theorem State.incSat_now (s : State) (a : Nat) (f : Fld) : (s.incSat a f).now = s.now := rfl
@[simp] theorem State.incSat_free (s : State) (a : Nat) (f : Fld) : (s.incSat a f).free = s.free := rfl

/-! ### State.addSat -/

@[simp] theorem State.addSat_pending (s : State) (a : Nat) (f : Fld) (n : Nat) : (s.addSat a f n).pending = s.pending := rfl
@[simp] theorem State.addSat_mem (s : State) (a : Nat) (f : Fld) (n : Nat) : (s.addSat a f n).mem = s.mem := rfl
@[simp] theorem State.addSat_poison (s : State) (a : Nat) (f : Fld) (n : Nat) : (s.addSat a f n).poison = s.poison := rfl
@[simp] theorem State.addSat_cores (s : State) (a : Nat) (f : Fld) (n : Nat) : (s.addSat a f n).cores = s.cores := rfl
@[simp] theorem State.addSat_llc (s : State) (a : Nat) (f : Fld) (n : Nat) : (s.addSat a f n).llc = s.llc := rfl
@[simp] theorem State.addSat_net (s : State) (a : Nat) (f : Fld) (n : Nat) : (s.addSat a f n).net = s.net := rfl
@[simp] theorem State.addSat_sched (s : State) (a : Nat) (f : Fld) (n : Nat) : (s.addSat a f n).sched = s.sched := rfl
@[simp] theorem State.addSat_stk (s : State) (a : Nat) (f : Fld) (n : Nat) : (s.addSat a f n).stk = s.stk := rfl
@[simp] theorem State.addSat_errs (s : State) (a : Nat) (f : Fld) (n : Nat) : (s.addSat a f n).errs = s.errs := rfl
@[simp] theorem State.addSat_ceral (s : State) (a : Nat) (f : Fld) (n : Nat) : (s.addSat a f n).ceral = s.ceral := rfl
@[simp] theorem State.addSat_host (s : State) (a : Nat) (f : Fld) (n : Nat) : (s.addSat a f n).host = s.host := rfl
@[simp] theorem State.addSat_opt (s : State) (a : Nat) (f : Fld) (n : Nat) : (s.addSat a f n).opt = s.opt := rfl
@[simp] theorem State.addSat_evc (s : State) (a : Nat) (f : Fld) (n : Nat) : (s.addSat a f n).evc = s.evc := rfl
@[simp] theorem State.addSat_pwr (s : State) (a : Nat) (f : Fld) (n : Nat) : (s.addSat a f n).pwr = s.pwr := rfl
@[simp] theorem State.addSat_boot (s : State) (a : Nat) (f : Fld) (n : Nat) : (s.addSat a f n).boot = s.boot := rfl
@[simp] theorem State.addSat_img (s : State) (a : Nat) (f : Fld) (n : Nat) : (s.addSat a f n).img = s.img := rfl
@[simp] theorem State.addSat_flash (s : State) (a : Nat) (f : Fld) (n : Nat) : (s.addSat a f n).flash = s.flash := rfl
@[simp] theorem State.addSat_sec (s : State) (a : Nat) (f : Fld) (n : Nat) : (s.addSat a f n).sec = s.sec := rfl
@[simp] theorem State.addSat_outbox (s : State) (a : Nat) (f : Fld) (n : Nat) : (s.addSat a f n).outbox = s.outbox := rfl
@[simp] theorem State.addSat_now (s : State) (a : Nat) (f : Fld) (n : Nat) : (s.addSat a f n).now = s.now := rfl
@[simp] theorem State.addSat_free (s : State) (a : Nat) (f : Fld) (n : Nat) : (s.addSat a f n).free = s.free := rfl

/-! ### State.addWrap -/

@[simp] theorem State.addWrap_pending (s : State) (a : Nat) (f : Fld) (n : Nat) : (s.addWrap a f n).pending = s.pending := rfl
@[simp] theorem State.addWrap_mem (s : State) (a : Nat) (f : Fld) (n : Nat) : (s.addWrap a f n).mem = s.mem := rfl
@[simp] theorem State.addWrap_poison (s : State) (a : Nat) (f : Fld) (n : Nat) : (s.addWrap a f n).poison = s.poison := rfl
@[simp] theorem State.addWrap_cores (s : State) (a : Nat) (f : Fld) (n : Nat) : (s.addWrap a f n).cores = s.cores := rfl
@[simp] theorem State.addWrap_llc (s : State) (a : Nat) (f : Fld) (n : Nat) : (s.addWrap a f n).llc = s.llc := rfl
@[simp] theorem State.addWrap_net (s : State) (a : Nat) (f : Fld) (n : Nat) : (s.addWrap a f n).net = s.net := rfl
@[simp] theorem State.addWrap_sched (s : State) (a : Nat) (f : Fld) (n : Nat) : (s.addWrap a f n).sched = s.sched := rfl
@[simp] theorem State.addWrap_stk (s : State) (a : Nat) (f : Fld) (n : Nat) : (s.addWrap a f n).stk = s.stk := rfl
@[simp] theorem State.addWrap_errs (s : State) (a : Nat) (f : Fld) (n : Nat) : (s.addWrap a f n).errs = s.errs := rfl
@[simp] theorem State.addWrap_ceral (s : State) (a : Nat) (f : Fld) (n : Nat) : (s.addWrap a f n).ceral = s.ceral := rfl
@[simp] theorem State.addWrap_host (s : State) (a : Nat) (f : Fld) (n : Nat) : (s.addWrap a f n).host = s.host := rfl
@[simp] theorem State.addWrap_opt (s : State) (a : Nat) (f : Fld) (n : Nat) : (s.addWrap a f n).opt = s.opt := rfl
@[simp] theorem State.addWrap_evc (s : State) (a : Nat) (f : Fld) (n : Nat) : (s.addWrap a f n).evc = s.evc := rfl
@[simp] theorem State.addWrap_pwr (s : State) (a : Nat) (f : Fld) (n : Nat) : (s.addWrap a f n).pwr = s.pwr := rfl
@[simp] theorem State.addWrap_boot (s : State) (a : Nat) (f : Fld) (n : Nat) : (s.addWrap a f n).boot = s.boot := rfl
@[simp] theorem State.addWrap_img (s : State) (a : Nat) (f : Fld) (n : Nat) : (s.addWrap a f n).img = s.img := rfl
@[simp] theorem State.addWrap_flash (s : State) (a : Nat) (f : Fld) (n : Nat) : (s.addWrap a f n).flash = s.flash := rfl
@[simp] theorem State.addWrap_sec (s : State) (a : Nat) (f : Fld) (n : Nat) : (s.addWrap a f n).sec = s.sec := rfl
@[simp] theorem State.addWrap_outbox (s : State) (a : Nat) (f : Fld) (n : Nat) : (s.addWrap a f n).outbox = s.outbox := rfl
@[simp] theorem State.addWrap_now (s : State) (a : Nat) (f : Fld) (n : Nat) : (s.addWrap a f n).now = s.now := rfl
@[simp] theorem State.addWrap_free (s : State) (a : Nat) (f : Fld) (n : Nat) : (s.addWrap a f n).free = s.free := rfl

/-! ### State.setGmap -/

@[simp] theorem State.setGmap_pending (s : State) (g : Nat) (f : Nat → Fld) (v : Nat) : (s.setGmap g f v).pending = s.pending := rfl
@[simp] theorem State.setGmap_mem (s : State) (g : Nat) (f : Nat → Fld) (v : Nat) : (s.setGmap g f v).mem = s.mem := rfl
@[simp] theorem State.setGmap_poison (s : State) (g : Nat) (f : Nat → Fld) (v : Nat) : (s.setGmap g f v).poison = s.poison := rfl
@[simp] theorem State.setGmap_cores (s : State) (g : Nat) (f : Nat → Fld) (v : Nat) : (s.setGmap g f v).cores = s.cores := rfl
@[simp] theorem State.setGmap_llc (s : State) (g : Nat) (f : Nat → Fld) (v : Nat) : (s.setGmap g f v).llc = s.llc := rfl
@[simp] theorem State.setGmap_net (s : State) (g : Nat) (f : Nat → Fld) (v : Nat) : (s.setGmap g f v).net = s.net := rfl
@[simp] theorem State.setGmap_sched (s : State) (g : Nat) (f : Nat → Fld) (v : Nat) : (s.setGmap g f v).sched = s.sched := rfl
@[simp] theorem State.setGmap_stk (s : State) (g : Nat) (f : Nat → Fld) (v : Nat) : (s.setGmap g f v).stk = s.stk := rfl
@[simp] theorem State.setGmap_errs (s : State) (g : Nat) (f : Nat → Fld) (v : Nat) : (s.setGmap g f v).errs = s.errs := rfl
@[simp] theorem State.setGmap_ceral (s : State) (g : Nat) (f : Nat → Fld) (v : Nat) : (s.setGmap g f v).ceral = s.ceral := rfl
@[simp] theorem State.setGmap_host (s : State) (g : Nat) (f : Nat → Fld) (v : Nat) : (s.setGmap g f v).host = s.host := rfl
@[simp] theorem State.setGmap_opt (s : State) (g : Nat) (f : Nat → Fld) (v : Nat) : (s.setGmap g f v).opt = s.opt := rfl
@[simp] theorem State.setGmap_evc (s : State) (g : Nat) (f : Nat → Fld) (v : Nat) : (s.setGmap g f v).evc = s.evc := rfl
@[simp] theorem State.setGmap_pwr (s : State) (g : Nat) (f : Nat → Fld) (v : Nat) : (s.setGmap g f v).pwr = s.pwr := rfl
@[simp] theorem State.setGmap_boot (s : State) (g : Nat) (f : Nat → Fld) (v : Nat) : (s.setGmap g f v).boot = s.boot := rfl
@[simp] theorem State.setGmap_img (s : State) (g : Nat) (f : Nat → Fld) (v : Nat) : (s.setGmap g f v).img = s.img := rfl
@[simp] theorem State.setGmap_flash (s : State) (g : Nat) (f : Nat → Fld) (v : Nat) : (s.setGmap g f v).flash = s.flash := rfl
@[simp] theorem State.setGmap_sec (s : State) (g : Nat) (f : Nat → Fld) (v : Nat) : (s.setGmap g f v).sec = s.sec := rfl
@[simp] theorem State.setGmap_outbox (s : State) (g : Nat) (f : Nat → Fld) (v : Nat) : (s.setGmap g f v).outbox = s.outbox := rfl
@[simp] theorem State.setGmap_now (s : State) (g : Nat) (f : Nat → Fld) (v : Nat) : (s.setGmap g f v).now = s.now := rfl
@[simp] theorem State.setGmap_free (s : State) (g : Nat) (f : Nat → Fld) (v : Nat) : (s.setGmap g f v).free = s.free := rfl

/-! ### State.setByte -/

@[simp] theorem State.setByte_pending (s : State) (a : Nat) (v : Byte) : (s.setByte a v).pending = s.pending := rfl
@[simp] theorem State.setByte_regs (s : State) (a : Nat) (v : Byte) : (s.setByte a v).regs = s.regs := rfl
@[simp] theorem State.setByte_poison (s : State) (a : Nat) (v : Byte) : (s.setByte a v).poison = s.poison := rfl
@[simp] theorem State.setByte_cores (s : State) (a : Nat) (v : Byte) : (s.setByte a v).cores = s.cores := rfl
@[simp] theorem State.setByte_llc (s : State) (a : Nat) (v : Byte) : (s.setByte a v).llc = s.llc := rfl
@[simp] theorem State.setByte_net (s : State) (a : Nat) (v : Byte) : (s.setByte a v).net = s.net := rfl
@[simp] theorem State.setByte_sched (s : State) (a : Nat) (v : Byte) : (s.setByte a v).sched = s.sched := rfl
@[simp] theorem State.setByte_stk (s : State) (a : Nat) (v : Byte) : (s.setByte a v).stk = s.stk := rfl
@[simp] theorem State.setByte_errs (s : State) (a : Nat) (v : Byte) : (s.setByte a v).errs = s.errs := rfl
@[simp] theorem State.setByte_ceral (s : State) (a : Nat) (v : Byte) : (s.setByte a v).ceral = s.ceral := rfl
@[simp] theorem State.setByte_host (s : State) (a : Nat) (v : Byte) : (s.setByte a v).host = s.host := rfl
@[simp] theorem State.setByte_opt (s : State) (a : Nat) (v : Byte) : (s.setByte a v).opt = s.opt := rfl
@[simp] theorem State.setByte_evc (s : State) (a : Nat) (v : Byte) : (s.setByte a v).evc = s.evc := rfl
@[simp] theorem State.setByte_pwr (s : State) (a : Nat) (v : Byte) : (s.setByte a v).pwr = s.pwr := rfl
@[simp] theorem State.setByte_boot (s : State) (a : Nat) (v : Byte) : (s.setByte a v).boot = s.boot := rfl
@[simp] theorem State.setByte_img (s : State) (a : Nat) (v : Byte) : (s.setByte a v).img = s.img := rfl
@[simp] theorem State.setByte_flash (s : State) (a : Nat) (v : Byte) : (s.setByte a v).flash = s.flash := rfl
@[simp] theorem State.setByte_sec (s : State) (a : Nat) (v : Byte) : (s.setByte a v).sec = s.sec := rfl
@[simp] theorem State.setByte_outbox (s : State) (a : Nat) (v : Byte) : (s.setByte a v).outbox = s.outbox := rfl
@[simp] theorem State.setByte_now (s : State) (a : Nat) (v : Byte) : (s.setByte a v).now = s.now := rfl
@[simp] theorem State.setByte_free (s : State) (a : Nat) (v : Byte) : (s.setByte a v).free = s.free := rfl

/-! ### State.setPoison -/

@[simp] theorem State.setPoison_pending (s : State) (a : Nat) (b : Bool) : (s.setPoison a b).pending = s.pending := rfl
@[simp] theorem State.setPoison_regs (s : State) (a : Nat) (b : Bool) : (s.setPoison a b).regs = s.regs := rfl
@[simp] theorem State.setPoison_mem (s : State) (a : Nat) (b : Bool) : (s.setPoison a b).mem = s.mem := rfl
@[simp] theorem State.setPoison_cores (s : State) (a : Nat) (b : Bool) : (s.setPoison a b).cores = s.cores := rfl
@[simp] theorem State.setPoison_llc (s : State) (a : Nat) (b : Bool) : (s.setPoison a b).llc = s.llc := rfl
@[simp] theorem State.setPoison_net (s : State) (a : Nat) (b : Bool) : (s.setPoison a b).net = s.net := rfl
@[simp] theorem State.setPoison_sched (s : State) (a : Nat) (b : Bool) : (s.setPoison a b).sched = s.sched := rfl
@[simp] theorem State.setPoison_stk (s : State) (a : Nat) (b : Bool) : (s.setPoison a b).stk = s.stk := rfl
@[simp] theorem State.setPoison_errs (s : State) (a : Nat) (b : Bool) : (s.setPoison a b).errs = s.errs := rfl
@[simp] theorem State.setPoison_ceral (s : State) (a : Nat) (b : Bool) : (s.setPoison a b).ceral = s.ceral := rfl
@[simp] theorem State.setPoison_host (s : State) (a : Nat) (b : Bool) : (s.setPoison a b).host = s.host := rfl
@[simp] theorem State.setPoison_opt (s : State) (a : Nat) (b : Bool) : (s.setPoison a b).opt = s.opt := rfl
@[simp] theorem State.setPoison_evc (s : State) (a : Nat) (b : Bool) : (s.setPoison a b).evc = s.evc := rfl
@[simp] theorem State.setPoison_pwr (s : State) (a : Nat) (b : Bool) : (s.setPoison a b).pwr = s.pwr := rfl
@[simp] theorem State.setPoison_boot (s : State) (a : Nat) (b : Bool) : (s.setPoison a b).boot = s.boot := rfl
@[simp] theorem State.setPoison_img (s : State) (a : Nat) (b : Bool) : (s.setPoison a b).img = s.img := rfl
@[simp] theorem State.setPoison_flash (s : State) (a : Nat) (b : Bool) : (s.setPoison a b).flash = s.flash := rfl
@[simp] theorem State.setPoison_sec (s : State) (a : Nat) (b : Bool) : (s.setPoison a b).sec = s.sec := rfl
@[simp] theorem State.setPoison_outbox (s : State) (a : Nat) (b : Bool) : (s.setPoison a b).outbox = s.outbox := rfl
@[simp] theorem State.setPoison_now (s : State) (a : Nat) (b : Bool) : (s.setPoison a b).now = s.now := rfl
@[simp] theorem State.setPoison_free (s : State) (a : Nat) (b : Bool) : (s.setPoison a b).free = s.free := rfl

/-! ### State.setCore -/

@[simp] theorem State.setCore_pending (s : State) (c : Nat) (k : Core) : (s.setCore c k).pending = s.pending := rfl
@[simp] theorem State.setCore_regs (s : State) (c : Nat) (k : Core) : (s.setCore c k).regs = s.regs := rfl
@[simp] theorem State.setCore_mem (s : State) (c : Nat) (k : Core) : (s.setCore c k).mem = s.mem := rfl
@[simp] theorem State.setCore_poison (s : State) (c : Nat) (k : Core) : (s.setCore c k).poison = s.poison := rfl
@[simp] theorem State.setCore_llc (s : State) (c : Nat) (k : Core) : (s.setCore c k).llc = s.llc := rfl
@[simp] theorem State.setCore_net (s : State) (c : Nat) (k : Core) : (s.setCore c k).net = s.net := rfl
@[simp] theorem State.setCore_sched (s : State) (c : Nat) (k : Core) : (s.setCore c k).sched = s.sched := rfl
@[simp] theorem State.setCore_stk (s : State) (c : Nat) (k : Core) : (s.setCore c k).stk = s.stk := rfl
@[simp] theorem State.setCore_errs (s : State) (c : Nat) (k : Core) : (s.setCore c k).errs = s.errs := rfl
@[simp] theorem State.setCore_ceral (s : State) (c : Nat) (k : Core) : (s.setCore c k).ceral = s.ceral := rfl
@[simp] theorem State.setCore_host (s : State) (c : Nat) (k : Core) : (s.setCore c k).host = s.host := rfl
@[simp] theorem State.setCore_opt (s : State) (c : Nat) (k : Core) : (s.setCore c k).opt = s.opt := rfl
@[simp] theorem State.setCore_evc (s : State) (c : Nat) (k : Core) : (s.setCore c k).evc = s.evc := rfl
@[simp] theorem State.setCore_pwr (s : State) (c : Nat) (k : Core) : (s.setCore c k).pwr = s.pwr := rfl
@[simp] theorem State.setCore_boot (s : State) (c : Nat) (k : Core) : (s.setCore c k).boot = s.boot := rfl
@[simp] theorem State.setCore_img (s : State) (c : Nat) (k : Core) : (s.setCore c k).img = s.img := rfl
@[simp] theorem State.setCore_flash (s : State) (c : Nat) (k : Core) : (s.setCore c k).flash = s.flash := rfl
@[simp] theorem State.setCore_sec (s : State) (c : Nat) (k : Core) : (s.setCore c k).sec = s.sec := rfl
@[simp] theorem State.setCore_outbox (s : State) (c : Nat) (k : Core) : (s.setCore c k).outbox = s.outbox := rfl
@[simp] theorem State.setCore_now (s : State) (c : Nat) (k : Core) : (s.setCore c k).now = s.now := rfl
@[simp] theorem State.setCore_free (s : State) (c : Nat) (k : Core) : (s.setCore c k).free = s.free := rfl

/-! ### State.modCore -/

@[simp] theorem State.modCore_pending (s : State) (c : Nat) (f : Core → Core) : (s.modCore c f).pending = s.pending := rfl
@[simp] theorem State.modCore_regs (s : State) (c : Nat) (f : Core → Core) : (s.modCore c f).regs = s.regs := rfl
@[simp] theorem State.modCore_mem (s : State) (c : Nat) (f : Core → Core) : (s.modCore c f).mem = s.mem := rfl
@[simp] theorem State.modCore_poison (s : State) (c : Nat) (f : Core → Core) : (s.modCore c f).poison = s.poison := rfl
@[simp] theorem State.modCore_llc (s : State) (c : Nat) (f : Core → Core) : (s.modCore c f).llc = s.llc := rfl
@[simp] theorem State.modCore_net (s : State) (c : Nat) (f : Core → Core) : (s.modCore c f).net = s.net := rfl
@[simp] theorem State.modCore_sched (s : State) (c : Nat) (f : Core → Core) : (s.modCore c f).sched = s.sched := rfl
@[simp] theorem State.modCore_stk (s : State) (c : Nat) (f : Core → Core) : (s.modCore c f).stk = s.stk := rfl
@[simp] theorem State.modCore_errs (s : State) (c : Nat) (f : Core → Core) : (s.modCore c f).errs = s.errs := rfl
@[simp] theorem State.modCore_ceral (s : State) (c : Nat) (f : Core → Core) : (s.modCore c f).ceral = s.ceral := rfl
@[simp] theorem State.modCore_host (s : State) (c : Nat) (f : Core → Core) : (s.modCore c f).host = s.host := rfl
@[simp] theorem State.modCore_opt (s : State) (c : Nat) (f : Core → Core) : (s.modCore c f).opt = s.opt := rfl
@[simp] theorem State.modCore_evc (s : State) (c : Nat) (f : Core → Core) : (s.modCore c f).evc = s.evc := rfl
@[simp] theorem State.modCore_pwr (s : State) (c : Nat) (f : Core → Core) : (s.modCore c f).pwr = s.pwr := rfl
@[simp] theorem State.modCore_boot (s : State) (c : Nat) (f : Core → Core) : (s.modCore c f).boot = s.boot := rfl
@[simp] theorem State.modCore_img (s : State) (c : Nat) (f : Core → Core) : (s.modCore c f).img = s.img := rfl
@[simp] theorem State.modCore_flash (s : State) (c : Nat) (f : Core → Core) : (s.modCore c f).flash = s.flash := rfl
@[simp] theorem State.modCore_sec (s : State) (c : Nat) (f : Core → Core) : (s.modCore c f).sec = s.sec := rfl
@[simp] theorem State.modCore_outbox (s : State) (c : Nat) (f : Core → Core) : (s.modCore c f).outbox = s.outbox := rfl
@[simp] theorem State.modCore_now (s : State) (c : Nat) (f : Core → Core) : (s.modCore c f).now = s.now := rfl
@[simp] theorem State.modCore_free (s : State) (c : Nat) (f : Core → Core) : (s.modCore c f).free = s.free := rfl

/-! ### State.send -/

@[simp] theorem State.send_pending (s : State) (x y : Ep) (l : LineNo) (b : MsgBody) : (s.send x y l b).pending = s.pending := rfl
@[simp] theorem State.send_regs (s : State) (x y : Ep) (l : LineNo) (b : MsgBody) : (s.send x y l b).regs = s.regs := rfl
@[simp] theorem State.send_mem (s : State) (x y : Ep) (l : LineNo) (b : MsgBody) : (s.send x y l b).mem = s.mem := rfl
@[simp] theorem State.send_poison (s : State) (x y : Ep) (l : LineNo) (b : MsgBody) : (s.send x y l b).poison = s.poison := rfl
@[simp] theorem State.send_cores (s : State) (x y : Ep) (l : LineNo) (b : MsgBody) : (s.send x y l b).cores = s.cores := rfl
@[simp] theorem State.send_llc (s : State) (x y : Ep) (l : LineNo) (b : MsgBody) : (s.send x y l b).llc = s.llc := rfl
@[simp] theorem State.send_sched (s : State) (x y : Ep) (l : LineNo) (b : MsgBody) : (s.send x y l b).sched = s.sched := rfl
@[simp] theorem State.send_stk (s : State) (x y : Ep) (l : LineNo) (b : MsgBody) : (s.send x y l b).stk = s.stk := rfl
@[simp] theorem State.send_errs (s : State) (x y : Ep) (l : LineNo) (b : MsgBody) : (s.send x y l b).errs = s.errs := rfl
@[simp] theorem State.send_ceral (s : State) (x y : Ep) (l : LineNo) (b : MsgBody) : (s.send x y l b).ceral = s.ceral := rfl
@[simp] theorem State.send_host (s : State) (x y : Ep) (l : LineNo) (b : MsgBody) : (s.send x y l b).host = s.host := rfl
@[simp] theorem State.send_opt (s : State) (x y : Ep) (l : LineNo) (b : MsgBody) : (s.send x y l b).opt = s.opt := rfl
@[simp] theorem State.send_evc (s : State) (x y : Ep) (l : LineNo) (b : MsgBody) : (s.send x y l b).evc = s.evc := rfl
@[simp] theorem State.send_pwr (s : State) (x y : Ep) (l : LineNo) (b : MsgBody) : (s.send x y l b).pwr = s.pwr := rfl
@[simp] theorem State.send_boot (s : State) (x y : Ep) (l : LineNo) (b : MsgBody) : (s.send x y l b).boot = s.boot := rfl
@[simp] theorem State.send_img (s : State) (x y : Ep) (l : LineNo) (b : MsgBody) : (s.send x y l b).img = s.img := rfl
@[simp] theorem State.send_flash (s : State) (x y : Ep) (l : LineNo) (b : MsgBody) : (s.send x y l b).flash = s.flash := rfl
@[simp] theorem State.send_sec (s : State) (x y : Ep) (l : LineNo) (b : MsgBody) : (s.send x y l b).sec = s.sec := rfl
@[simp] theorem State.send_outbox (s : State) (x y : Ep) (l : LineNo) (b : MsgBody) : (s.send x y l b).outbox = s.outbox := rfl
@[simp] theorem State.send_now (s : State) (x y : Ep) (l : LineNo) (b : MsgBody) : (s.send x y l b).now = s.now := rfl
@[simp] theorem State.send_free (s : State) (x y : Ep) (l : LineNo) (b : MsgBody) : (s.send x y l b).free = s.free := rfl

/-! ### State.recv -/

@[simp] theorem State.recv_pending (s : State) (m : Msg) : (s.recv m).pending = s.pending := rfl
@[simp] theorem State.recv_regs (s : State) (m : Msg) : (s.recv m).regs = s.regs := rfl
@[simp] theorem State.recv_mem (s : State) (m : Msg) : (s.recv m).mem = s.mem := rfl
@[simp] theorem State.recv_poison (s : State) (m : Msg) : (s.recv m).poison = s.poison := rfl
@[simp] theorem State.recv_cores (s : State) (m : Msg) : (s.recv m).cores = s.cores := rfl
@[simp] theorem State.recv_llc (s : State) (m : Msg) : (s.recv m).llc = s.llc := rfl
@[simp] theorem State.recv_sched (s : State) (m : Msg) : (s.recv m).sched = s.sched := rfl
@[simp] theorem State.recv_stk (s : State) (m : Msg) : (s.recv m).stk = s.stk := rfl
@[simp] theorem State.recv_errs (s : State) (m : Msg) : (s.recv m).errs = s.errs := rfl
@[simp] theorem State.recv_host (s : State) (m : Msg) : (s.recv m).host = s.host := rfl
@[simp] theorem State.recv_opt (s : State) (m : Msg) : (s.recv m).opt = s.opt := rfl
@[simp] theorem State.recv_evc (s : State) (m : Msg) : (s.recv m).evc = s.evc := rfl
@[simp] theorem State.recv_pwr (s : State) (m : Msg) : (s.recv m).pwr = s.pwr := rfl
@[simp] theorem State.recv_boot (s : State) (m : Msg) : (s.recv m).boot = s.boot := rfl
@[simp] theorem State.recv_img (s : State) (m : Msg) : (s.recv m).img = s.img := rfl
@[simp] theorem State.recv_flash (s : State) (m : Msg) : (s.recv m).flash = s.flash := rfl
@[simp] theorem State.recv_sec (s : State) (m : Msg) : (s.recv m).sec = s.sec := rfl
@[simp] theorem State.recv_outbox (s : State) (m : Msg) : (s.recv m).outbox = s.outbox := rfl
@[simp] theorem State.recv_now (s : State) (m : Msg) : (s.recv m).now = s.now := rfl
@[simp] theorem State.recv_free (s : State) (m : Msg) : (s.recv m).free = s.free := rfl

/-! ### State.out -/

@[simp] theorem State.out_pending (s : State) (o : Out) : (s.out o).pending = s.pending := rfl
@[simp] theorem State.out_regs (s : State) (o : Out) : (s.out o).regs = s.regs := rfl
@[simp] theorem State.out_mem (s : State) (o : Out) : (s.out o).mem = s.mem := rfl
@[simp] theorem State.out_poison (s : State) (o : Out) : (s.out o).poison = s.poison := rfl
@[simp] theorem State.out_cores (s : State) (o : Out) : (s.out o).cores = s.cores := rfl
@[simp] theorem State.out_llc (s : State) (o : Out) : (s.out o).llc = s.llc := rfl
@[simp] theorem State.out_net (s : State) (o : Out) : (s.out o).net = s.net := rfl
@[simp] theorem State.out_sched (s : State) (o : Out) : (s.out o).sched = s.sched := rfl
@[simp] theorem State.out_stk (s : State) (o : Out) : (s.out o).stk = s.stk := rfl
@[simp] theorem State.out_errs (s : State) (o : Out) : (s.out o).errs = s.errs := rfl
@[simp] theorem State.out_ceral (s : State) (o : Out) : (s.out o).ceral = s.ceral := rfl
@[simp] theorem State.out_host (s : State) (o : Out) : (s.out o).host = s.host := rfl
@[simp] theorem State.out_opt (s : State) (o : Out) : (s.out o).opt = s.opt := rfl
@[simp] theorem State.out_evc (s : State) (o : Out) : (s.out o).evc = s.evc := rfl
@[simp] theorem State.out_pwr (s : State) (o : Out) : (s.out o).pwr = s.pwr := rfl
@[simp] theorem State.out_boot (s : State) (o : Out) : (s.out o).boot = s.boot := rfl
@[simp] theorem State.out_img (s : State) (o : Out) : (s.out o).img = s.img := rfl
@[simp] theorem State.out_flash (s : State) (o : Out) : (s.out o).flash = s.flash := rfl
@[simp] theorem State.out_sec (s : State) (o : Out) : (s.out o).sec = s.sec := rfl
@[simp] theorem State.out_now (s : State) (o : Out) : (s.out o).now = s.now := rfl
@[simp] theorem State.out_free (s : State) (o : Out) : (s.out o).free = s.free := rfl

/-! ### State.drawn -/

@[simp] theorem State.drawn_pending (s : State) : (s.drawn).pending = s.pending := rfl
@[simp] theorem State.drawn_regs (s : State) : (s.drawn).regs = s.regs := rfl
@[simp] theorem State.drawn_mem (s : State) : (s.drawn).mem = s.mem := rfl
@[simp] theorem State.drawn_poison (s : State) : (s.drawn).poison = s.poison := rfl
@[simp] theorem State.drawn_cores (s : State) : (s.drawn).cores = s.cores := rfl
@[simp] theorem State.drawn_llc (s : State) : (s.drawn).llc = s.llc := rfl
@[simp] theorem State.drawn_net (s : State) : (s.drawn).net = s.net := rfl
@[simp] theorem State.drawn_sched (s : State) : (s.drawn).sched = s.sched := rfl
@[simp] theorem State.drawn_stk (s : State) : (s.drawn).stk = s.stk := rfl
@[simp] theorem State.drawn_errs (s : State) : (s.drawn).errs = s.errs := rfl
@[simp] theorem State.drawn_ceral (s : State) : (s.drawn).ceral = s.ceral := rfl
@[simp] theorem State.drawn_host (s : State) : (s.drawn).host = s.host := rfl
@[simp] theorem State.drawn_opt (s : State) : (s.drawn).opt = s.opt := rfl
@[simp] theorem State.drawn_evc (s : State) : (s.drawn).evc = s.evc := rfl
@[simp] theorem State.drawn_pwr (s : State) : (s.drawn).pwr = s.pwr := rfl
@[simp] theorem State.drawn_boot (s : State) : (s.drawn).boot = s.boot := rfl
@[simp] theorem State.drawn_img (s : State) : (s.drawn).img = s.img := rfl
@[simp] theorem State.drawn_flash (s : State) : (s.drawn).flash = s.flash := rfl
@[simp] theorem State.drawn_sec (s : State) : (s.drawn).sec = s.sec := rfl
@[simp] theorem State.drawn_outbox (s : State) : (s.drawn).outbox = s.outbox := rfl
@[simp] theorem State.drawn_now (s : State) : (s.drawn).now = s.now := rfl

/-! ### State.at -/

@[simp] theorem State.at_pending (s : State) (n : Nat) : (s.at n).pending = s.pending := rfl
@[simp] theorem State.at_regs (s : State) (n : Nat) : (s.at n).regs = s.regs := rfl
@[simp] theorem State.at_mem (s : State) (n : Nat) : (s.at n).mem = s.mem := rfl
@[simp] theorem State.at_poison (s : State) (n : Nat) : (s.at n).poison = s.poison := rfl
@[simp] theorem State.at_cores (s : State) (n : Nat) : (s.at n).cores = s.cores := rfl
@[simp] theorem State.at_llc (s : State) (n : Nat) : (s.at n).llc = s.llc := rfl
@[simp] theorem State.at_net (s : State) (n : Nat) : (s.at n).net = s.net := rfl
@[simp] theorem State.at_sched (s : State) (n : Nat) : (s.at n).sched = s.sched := rfl
@[simp] theorem State.at_stk (s : State) (n : Nat) : (s.at n).stk = s.stk := rfl
@[simp] theorem State.at_errs (s : State) (n : Nat) : (s.at n).errs = s.errs := rfl
@[simp] theorem State.at_ceral (s : State) (n : Nat) : (s.at n).ceral = s.ceral := rfl
@[simp] theorem State.at_host (s : State) (n : Nat) : (s.at n).host = s.host := rfl
@[simp] theorem State.at_opt (s : State) (n : Nat) : (s.at n).opt = s.opt := rfl
@[simp] theorem State.at_evc (s : State) (n : Nat) : (s.at n).evc = s.evc := rfl
@[simp] theorem State.at_pwr (s : State) (n : Nat) : (s.at n).pwr = s.pwr := rfl
@[simp] theorem State.at_boot (s : State) (n : Nat) : (s.at n).boot = s.boot := rfl
@[simp] theorem State.at_img (s : State) (n : Nat) : (s.at n).img = s.img := rfl
@[simp] theorem State.at_flash (s : State) (n : Nat) : (s.at n).flash = s.flash := rfl
@[simp] theorem State.at_sec (s : State) (n : Nat) : (s.at n).sec = s.sec := rfl
@[simp] theorem State.at_outbox (s : State) (n : Nat) : (s.at n).outbox = s.outbox := rfl
@[simp] theorem State.at_free (s : State) (n : Nat) : (s.at n).free = s.free := rfl

/-! ### State.setBytes -/

theorem State.setBytes_eq (s : State) (a : Nat) (bs : List Byte) : s.setBytes a bs = { s with mem := (s.setBytes a bs).mem } := by
  induction bs generalizing s a with
  | nil => rfl
  | cons b bs ih => exact ih (s.setByte a b) (a + 1)

@[simp] theorem State.setBytes_pending (s : State) (a : Nat) (bs : List Byte) : (s.setBytes a bs).pending = s.pending := by rw [State.setBytes_eq]
@[simp] theorem State.setBytes_regs (s : State) (a : Nat) (bs : List Byte) : (s.setBytes a bs).regs = s.regs := by rw [State.setBytes_eq]
@[simp] theorem State.setBytes_poison (s : State) (a : Nat) (bs : List Byte) : (s.setBytes a bs).poison = s.poison := by rw [State.setBytes_eq]
@[simp] theorem State.setBytes_cores (s : State) (a : Nat) (bs : List Byte) : (s.setBytes a bs).cores = s.cores := by rw [State.setBytes_eq]
@[simp] theorem State.setBytes_llc (s : State) (a : Nat) (bs : List Byte) : (s.setBytes a bs).llc = s.llc := by rw [State.setBytes_eq]
@[simp] theorem State.setBytes_net (s : State) (a : Nat) (bs : List Byte) : (s.setBytes a bs).net = s.net := by rw [State.setBytes_eq]
@[simp] theorem State.setBytes_sched (s : State) (a : Nat) (bs : List Byte) : (s.setBytes a bs).sched = s.sched := by rw [State.setBytes_eq]
@[simp] theorem State.setBytes_stk (s : State) (a : Nat) (bs : List Byte) : (s.setBytes a bs).stk = s.stk := by rw [State.setBytes_eq]
@[simp] theorem State.setBytes_errs (s : State) (a : Nat) (bs : List Byte) : (s.setBytes a bs).errs = s.errs := by rw [State.setBytes_eq]
@[simp] theorem State.setBytes_ceral (s : State) (a : Nat) (bs : List Byte) : (s.setBytes a bs).ceral = s.ceral := by rw [State.setBytes_eq]
@[simp] theorem State.setBytes_host (s : State) (a : Nat) (bs : List Byte) : (s.setBytes a bs).host = s.host := by rw [State.setBytes_eq]
@[simp] theorem State.setBytes_opt (s : State) (a : Nat) (bs : List Byte) : (s.setBytes a bs).opt = s.opt := by rw [State.setBytes_eq]
@[simp] theorem State.setBytes_evc (s : State) (a : Nat) (bs : List Byte) : (s.setBytes a bs).evc = s.evc := by rw [State.setBytes_eq]
@[simp] theorem State.setBytes_pwr (s : State) (a : Nat) (bs : List Byte) : (s.setBytes a bs).pwr = s.pwr := by rw [State.setBytes_eq]
@[simp] theorem State.setBytes_boot (s : State) (a : Nat) (bs : List Byte) : (s.setBytes a bs).boot = s.boot := by rw [State.setBytes_eq]
@[simp] theorem State.setBytes_img (s : State) (a : Nat) (bs : List Byte) : (s.setBytes a bs).img = s.img := by rw [State.setBytes_eq]
@[simp] theorem State.setBytes_flash (s : State) (a : Nat) (bs : List Byte) : (s.setBytes a bs).flash = s.flash := by rw [State.setBytes_eq]
@[simp] theorem State.setBytes_sec (s : State) (a : Nat) (bs : List Byte) : (s.setBytes a bs).sec = s.sec := by rw [State.setBytes_eq]
@[simp] theorem State.setBytes_outbox (s : State) (a : Nat) (bs : List Byte) : (s.setBytes a bs).outbox = s.outbox := by rw [State.setBytes_eq]
@[simp] theorem State.setBytes_now (s : State) (a : Nat) (bs : List Byte) : (s.setBytes a bs).now = s.now := by rw [State.setBytes_eq]
@[simp] theorem State.setBytes_free (s : State) (a : Nat) (bs : List Byte) : (s.setBytes a bs).free = s.free := by rw [State.setBytes_eq]

/-! ### Reads after writes -/

@[simp] theorem State.reg_setReg (s : State) (a : Nat) (v : W64) : (s.setReg a v).reg a = v := mapGet_mapSet_self ..

theorem State.reg_setReg_ne (s : State) {a b : Nat} (v : W64) (h : a ≠ b) : (s.setReg a v).reg b = s.reg b := mapGet_mapSet_ne _ _ _ h

@[simp] theorem State.reg_put (s : State) (a : Nat) (f : Fld) (v : Nat) : (s.put a f v).reg a = f.put (s.reg a) v := mapGet_mapSet_self ..

theorem State.reg_put_ne (s : State) {a b : Nat} (f : Fld) (v : Nat) (h : a ≠ b) : (s.put a f v).reg b = s.reg b := State.reg_setReg_ne _ _ h

theorem State.get_put (s : State) (a : Nat) (f : Fld) (v : Nat) (h : f.lo + f.width ≤ 64) : (s.put a f v).get a f = v % 2 ^ f.width := by
  simp [State.get, Fld.get_put _ _ _ h]

theorem State.get_put_fld (s : State) (a : Nat) (f g : Fld) (v : Nat) (h : g.lo + g.width ≤ 64)
    (hd : f.lo + f.width ≤ g.lo ∨ g.lo + g.width ≤ f.lo) : (s.put a f v).get a g = s.get a g := by
  simp [State.get, Fld.get_put_ne _ _ _ _ h hd]

theorem State.get_put_ne (s : State) {a b : Nat} (f g : Fld) (v : Nat) (h : a ≠ b) : (s.put a f v).get b g = s.get b g := by
  simp [State.get, State.reg_put_ne _ _ _ h]

@[simp] theorem State.core_setCore (s : State) (c : Nat) (k : Core) : (s.setCore c k).core c = k := mapGet_mapSet_self ..

theorem State.core_setCore_ne (s : State) {c d : Nat} (k : Core) (h : c ≠ d) : (s.setCore c k).core d = s.core d := mapGet_mapSet_ne _ _ _ h

@[simp] theorem State.core_modCore (s : State) (c : Nat) (f : Core → Core) : (s.modCore c f).core c = f (s.core c) := mapGet_mapSet_self ..

theorem State.core_modCore_ne (s : State) {c d : Nat} (f : Core → Core) (h : c ≠ d) : (s.modCore c f).core d = s.core d :=
  mapGet_mapSet_ne _ _ _ h

@[simp] theorem State.byte_setByte (s : State) (a : Nat) (v : Byte) : (s.setByte a v).byte a = v := mapGet_mapSet_self ..

theorem State.byte_setByte_ne (s : State) {a b : Nat} (v : Byte) (h : a ≠ b) : (s.setByte a v).byte b = s.byte b := mapGet_mapSet_ne _ _ _ h

/-- Storing bytes leaves the bytes beside them alone. -/
theorem State.byte_setBytes_ne (s : State) (a : Nat) (bs : List Byte) {x : Nat} (h : x < a ∨ a + bs.length ≤ x) :
    (s.setBytes a bs).byte x = s.byte x := by
  induction bs generalizing s a with
  | nil => rfl
  | cons b bs ih =>
    have hl : (b :: bs).length = bs.length + 1 := rfl
    show ((s.setByte a b).setBytes (a + 1) bs).byte x = s.byte x
    rw [ih (s.setByte a b) (a + 1) (by omega), State.byte_setByte_ne _ _ (by omega)]

/-- A stored byte reads back. -/
theorem State.byte_setBytes (s : State) (a : Nat) (bs : List Byte) (i : Nat) (h : i < bs.length) : (s.setBytes a bs).byte (a + i) = bs[i] := by
  induction bs generalizing s a i with
  | nil => exact absurd h (by simp)
  | cons b bs ih =>
    show ((s.setByte a b).setBytes (a + 1) bs).byte (a + i) = (b :: bs)[i]
    cases i with
    | zero => rw [State.byte_setBytes_ne _ _ _ (by omega)]; simp
    | succ i =>
      have := ih (s.setByte a b) (a + 1) i (by simpa using h)
      rw [show a + (i + 1) = a + 1 + i by omega, this]
      rfl

/-- Reads through another component see no difference. -/
@[simp] theorem State.reg_setCore (s : State) (c : Nat) (k : Core) (a : Nat) : (s.setCore c k).reg a = s.reg a := rfl
@[simp] theorem State.reg_modCore (s : State) (c : Nat) (f : Core → Core) (a : Nat) : (s.modCore c f).reg a = s.reg a := rfl
@[simp] theorem State.get_setCore (s : State) (c : Nat) (k : Core) (a : Nat) (f : Fld) : (s.setCore c k).get a f = s.get a f := rfl
@[simp] theorem State.get_modCore (s : State) (c : Nat) (g : Core → Core) (a : Nat) (f : Fld) : (s.modCore c g).get a f = s.get a f := rfl
@[simp] theorem State.core_setReg (s : State) (a : Nat) (v : W64) (c : Nat) : (s.setReg a v).core c = s.core c := rfl
@[simp] theorem State.core_put (s : State) (a : Nat) (f : Fld) (v : Nat) (c : Nat) : (s.put a f v).core c = s.core c := rfl
@[simp] theorem State.core_setFlag (s : State) (a : Nat) (f : Fld) (b : Bool) (c : Nat) : (s.setFlag a f b).core c = s.core c := rfl
@[simp] theorem State.core_incSat (s : State) (a : Nat) (f : Fld) (c : Nat) : (s.incSat a f).core c = s.core c := rfl
@[simp] theorem State.core_setByte (s : State) (a : Nat) (v : Byte) (c : Nat) : (s.setByte a v).core c = s.core c := rfl
@[simp] theorem State.core_send (s : State) (x y : Ep) (l : LineNo) (b : MsgBody) (c : Nat) : (s.send x y l b).core c = s.core c := rfl
@[simp] theorem State.core_drawn (s : State) (c : Nat) : s.drawn.core c = s.core c := rfl
@[simp] theorem State.reg_drawn (s : State) (a : Nat) : s.drawn.reg a = s.reg a := rfl
@[simp] theorem State.byte_setCore (s : State) (c : Nat) (k : Core) (a : Nat) : (s.setCore c k).byte a = s.byte a := rfl
@[simp] theorem State.byte_modCore (s : State) (c : Nat) (f : Core → Core) (a : Nat) : (s.modCore c f).byte a = s.byte a := rfl
@[simp] theorem State.byte_setReg (s : State) (b : Nat) (v : W64) (a : Nat) : (s.setReg b v).byte a = s.byte a := rfl
@[simp] theorem State.byte_put (s : State) (b : Nat) (f : Fld) (v : Nat) (a : Nat) : (s.put b f v).byte a = s.byte a := rfl


/-! ### Core.setSr -/

@[simp] theorem Core.setSr_phase (k : Core) (n : Nat) (v : W64) : (k.setSr n v).phase = k.phase := by unfold Core.setSr; split <;> rfl
@[simp] theorem Core.setSr_ended (k : Core) (n : Nat) (v : W64) : (k.setSr n v).ended = k.ended := by unfold Core.setSr; split <;> rfl
@[simp] theorem Core.setSr_held (k : Core) (n : Nat) (v : W64) : (k.setSr n v).held = k.held := by unfold Core.setSr; split <;> rfl
@[simp] theorem Core.setSr_pc (k : Core) (n : Nat) (v : W64) : (k.setSr n v).pc = k.pc := by unfold Core.setSr; split <;> rfl
@[simp] theorem Core.setSr_p (k : Core) (n : Nat) (v : W64) : (k.setSr n v).p = k.p := by unfold Core.setSr; split <;> rfl
@[simp] theorem Core.setSr_m (k : Core) (n : Nat) (v : W64) : (k.setSr n v).m = k.m := by unfold Core.setSr; split <;> rfl
@[simp] theorem Core.setSr_toks (k : Core) (n : Nat) (v : W64) : (k.setSr n v).toks = k.toks := by unfold Core.setSr; split <;> rfl
@[simp] theorem Core.setSr_wf (k : Core) (n : Nat) (v : W64) : (k.setSr n v).wf = k.wf := by unfold Core.setSr; split <;> rfl
@[simp] theorem Core.setSr_bars (k : Core) (n : Nat) (v : W64) : (k.setSr n v).bars = k.bars := by unfold Core.setSr; split <;> rfl
@[simp] theorem Core.setSr_barWait (k : Core) (n : Nat) (v : W64) : (k.setSr n v).barWait = k.barWait := by unfold Core.setSr; split <;> rfl
@[simp] theorem Core.setSr_pend (k : Core) (n : Nat) (v : W64) : (k.setSr n v).pend = k.pend := by unfold Core.setSr; split <;> rfl
@[simp] theorem Core.setSr_nextId (k : Core) (n : Nat) (v : W64) : (k.setSr n v).nextId = k.nextId := by unfold Core.setSr; split <;> rfl
@[simp] theorem Core.setSr_leg (k : Core) (n : Nat) (v : W64) : (k.setSr n v).leg = k.leg := by unfold Core.setSr; split <;> rfl
@[simp] theorem Core.setSr_lastInst (k : Core) (n : Nat) (v : W64) : (k.setSr n v).lastInst = k.lastInst := by unfold Core.setSr; split <;> rfl
@[simp] theorem Core.setSr_fails (k : Core) (n : Nat) (v : W64) : (k.setSr n v).fails = k.fails := by unfold Core.setSr; split <;> rfl
@[simp] theorem Core.setSr_meq (k : Core) (n : Nat) (v : W64) : (k.setSr n v).meq = k.meq := by unfold Core.setSr; split <;> rfl
@[simp] theorem Core.setSr_veq (k : Core) (n : Nat) (v : W64) : (k.setSr n v).veq = k.veq := by unfold Core.setSr; split <;> rfl
@[simp] theorem Core.setSr_mvq (k : Core) (n : Nat) (v : W64) : (k.setSr n v).mvq = k.mvq := by unfold Core.setSr; split <;> rfl
@[simp] theorem Core.setSr_meRun (k : Core) (n : Nat) (v : W64) : (k.setSr n v).meRun = k.meRun := by unfold Core.setSr; split <;> rfl
@[simp] theorem Core.setSr_veRun (k : Core) (n : Nat) (v : W64) : (k.setSr n v).veRun = k.veRun := by unfold Core.setSr; split <;> rfl
@[simp] theorem Core.setSr_icache (k : Core) (n : Nat) (v : W64) : (k.setSr n v).icache = k.icache := by unfold Core.setSr; split <;> rfl
@[simp] theorem Core.setSr_fetch (k : Core) (n : Nat) (v : W64) : (k.setSr n v).fetch = k.fetch := by unfold Core.setSr; split <;> rfl
@[simp] theorem Core.setSr_fetchOnce (k : Core) (n : Nat) (v : W64) : (k.setSr n v).fetchOnce = k.fetchOnce := by unfold Core.setSr; split <;> rfl
@[simp] theorem Core.setSr_oc (k : Core) (n : Nat) (v : W64) : (k.setSr n v).oc = k.oc := by unfold Core.setSr; split <;> rfl
@[simp] theorem Core.setSr_ocMark (k : Core) (n : Nat) (v : W64) : (k.setSr n v).ocMark = k.ocMark := by unfold Core.setSr; split <;> rfl
@[simp] theorem Core.setSr_bufA (k : Core) (n : Nat) (v : W64) : (k.setSr n v).bufA = k.bufA := by unfold Core.setSr; split <;> rfl
@[simp] theorem Core.setSr_bufB (k : Core) (n : Nat) (v : W64) : (k.setSr n v).bufB = k.bufB := by unfold Core.setSr; split <;> rfl
@[simp] theorem Core.setSr_acc0 (k : Core) (n : Nat) (v : W64) : (k.setSr n v).acc0 = k.acc0 := by unfold Core.setSr; split <;> rfl
@[simp] theorem Core.setSr_acc1 (k : Core) (n : Nat) (v : W64) : (k.setSr n v).acc1 = k.acc1 := by unfold Core.setSr; split <;> rfl
@[simp] theorem Core.setSr_l1 (k : Core) (n : Nat) (v : W64) : (k.setSr n v).l1 = k.l1 := by unfold Core.setSr; split <;> rfl
@[simp] theorem Core.setSr_plru (k : Core) (n : Nat) (v : W64) : (k.setSr n v).plru = k.plru := by unfold Core.setSr; split <;> rfl
@[simp] theorem Core.setSr_hold (k : Core) (n : Nat) (v : W64) : (k.setSr n v).hold = k.hold := by unfold Core.setSr; split <;> rfl
@[simp] theorem Core.setSr_kept (k : Core) (n : Nat) (v : W64) : (k.setSr n v).kept = k.kept := by unfold Core.setSr; split <;> rfl
@[simp] theorem Core.setSr_offered (k : Core) (n : Nat) (v : W64) : (k.setSr n v).offered = k.offered := by unfold Core.setSr; split <;> rfl
@[simp] theorem Core.setSr_miss (k : Core) (n : Nat) (v : W64) : (k.setSr n v).miss = k.miss := by unfold Core.setSr; split <;> rfl
@[simp] theorem Core.setSr_loads (k : Core) (n : Nat) (v : W64) : (k.setSr n v).loads = k.loads := by unfold Core.setSr; split <;> rfl
@[simp] theorem Core.setSr_swrOut (k : Core) (n : Nat) (v : W64) : (k.setSr n v).swrOut = k.swrOut := by unfold Core.setSr; split <;> rfl
@[simp] theorem Core.setSr_raddOut (k : Core) (n : Nat) (v : W64) : (k.setSr n v).raddOut = k.raddOut := by unfold Core.setSr; split <;> rfl
@[simp] theorem Core.setSr_wsd (k : Core) (n : Nat) (v : W64) : (k.setSr n v).wsd = k.wsd := by unfold Core.setSr; split <;> rfl
@[simp] theorem Core.setSr_tags (k : Core) (n : Nat) (v : W64) : (k.setSr n v).tags = k.tags := by unfold Core.setSr; split <;> rfl
@[simp] theorem Core.setSr_mvBuf (k : Core) (n : Nat) (v : W64) : (k.setSr n v).mvBuf = k.mvBuf := by unfold Core.setSr; split <;> rfl
@[simp] theorem Core.setSr_remote (k : Core) (n : Nat) (v : W64) : (k.setSr n v).remote = k.remote := by unfold Core.setSr; split <;> rfl
@[simp] theorem Core.setSr_ledReg (k : Core) (n : Nat) (v : W64) : (k.setSr n v).ledReg = k.ledReg := by unfold Core.setSr; split <;> rfl
@[simp] theorem Core.setSr_remRead (k : Core) (n : Nat) (v : W64) : (k.setSr n v).remRead = k.remRead := by unfold Core.setSr; split <;> rfl
@[simp] theorem Core.setSr_winPorts (k : Core) (n : Nat) (v : W64) : (k.setSr n v).winPorts = k.winPorts := by unfold Core.setSr; split <;> rfl
@[simp] theorem Core.setSr_winLines (k : Core) (n : Nat) (v : W64) : (k.setSr n v).winLines = k.winLines := by unfold Core.setSr; split <;> rfl
@[simp] theorem Core.setSr_mvLast (k : Core) (n : Nat) (v : W64) : (k.setSr n v).mvLast = k.mvLast := by unfold Core.setSr; split <;> rfl
@[simp] theorem Core.setSr_escaped (k : Core) (n : Nat) (v : W64) : (k.setSr n v).escaped = k.escaped := by unfold Core.setSr; split <;> rfl
@[simp] theorem Core.setSr_barFail (k : Core) (n : Nat) (v : W64) : (k.setSr n v).barFail = k.barFail := by unfold Core.setSr; split <;> rfl
@[simp] theorem Core.setSr_ann (k : Core) (n : Nat) (v : W64) : (k.setSr n v).ann = k.ann := by unfold Core.setSr; split <;> rfl

/-! ### Core.setPr -/

@[simp] theorem Core.setPr_phase (k : Core) (n : Nat) (b : Bool) : (k.setPr n b).phase = k.phase := by unfold Core.setPr; split <;> rfl
@[simp] theorem Core.setPr_ended (k : Core) (n : Nat) (b : Bool) : (k.setPr n b).ended = k.ended := by unfold Core.setPr; split <;> rfl
@[simp] theorem Core.setPr_held (k : Core) (n : Nat) (b : Bool) : (k.setPr n b).held = k.held := by unfold Core.setPr; split <;> rfl
@[simp] theorem Core.setPr_pc (k : Core) (n : Nat) (b : Bool) : (k.setPr n b).pc = k.pc := by unfold Core.setPr; split <;> rfl
@[simp] theorem Core.setPr_s (k : Core) (n : Nat) (b : Bool) : (k.setPr n b).s = k.s := by unfold Core.setPr; split <;> rfl
@[simp] theorem Core.setPr_m (k : Core) (n : Nat) (b : Bool) : (k.setPr n b).m = k.m := by unfold Core.setPr; split <;> rfl
@[simp] theorem Core.setPr_toks (k : Core) (n : Nat) (b : Bool) : (k.setPr n b).toks = k.toks := by unfold Core.setPr; split <;> rfl
@[simp] theorem Core.setPr_wf (k : Core) (n : Nat) (b : Bool) : (k.setPr n b).wf = k.wf := by unfold Core.setPr; split <;> rfl
@[simp] theorem Core.setPr_bars (k : Core) (n : Nat) (b : Bool) : (k.setPr n b).bars = k.bars := by unfold Core.setPr; split <;> rfl
@[simp] theorem Core.setPr_barWait (k : Core) (n : Nat) (b : Bool) : (k.setPr n b).barWait = k.barWait := by unfold Core.setPr; split <;> rfl
@[simp] theorem Core.setPr_pend (k : Core) (n : Nat) (b : Bool) : (k.setPr n b).pend = k.pend := by unfold Core.setPr; split <;> rfl
@[simp] theorem Core.setPr_nextId (k : Core) (n : Nat) (b : Bool) : (k.setPr n b).nextId = k.nextId := by unfold Core.setPr; split <;> rfl
@[simp] theorem Core.setPr_leg (k : Core) (n : Nat) (b : Bool) : (k.setPr n b).leg = k.leg := by unfold Core.setPr; split <;> rfl
@[simp] theorem Core.setPr_lastInst (k : Core) (n : Nat) (b : Bool) : (k.setPr n b).lastInst = k.lastInst := by unfold Core.setPr; split <;> rfl
@[simp] theorem Core.setPr_fails (k : Core) (n : Nat) (b : Bool) : (k.setPr n b).fails = k.fails := by unfold Core.setPr; split <;> rfl
@[simp] theorem Core.setPr_meq (k : Core) (n : Nat) (b : Bool) : (k.setPr n b).meq = k.meq := by unfold Core.setPr; split <;> rfl
@[simp] theorem Core.setPr_veq (k : Core) (n : Nat) (b : Bool) : (k.setPr n b).veq = k.veq := by unfold Core.setPr; split <;> rfl
@[simp] theorem Core.setPr_mvq (k : Core) (n : Nat) (b : Bool) : (k.setPr n b).mvq = k.mvq := by unfold Core.setPr; split <;> rfl
@[simp] theorem Core.setPr_meRun (k : Core) (n : Nat) (b : Bool) : (k.setPr n b).meRun = k.meRun := by unfold Core.setPr; split <;> rfl
@[simp] theorem Core.setPr_veRun (k : Core) (n : Nat) (b : Bool) : (k.setPr n b).veRun = k.veRun := by unfold Core.setPr; split <;> rfl
@[simp] theorem Core.setPr_icache (k : Core) (n : Nat) (b : Bool) : (k.setPr n b).icache = k.icache := by unfold Core.setPr; split <;> rfl
@[simp] theorem Core.setPr_fetch (k : Core) (n : Nat) (b : Bool) : (k.setPr n b).fetch = k.fetch := by unfold Core.setPr; split <;> rfl
@[simp] theorem Core.setPr_fetchOnce (k : Core) (n : Nat) (b : Bool) : (k.setPr n b).fetchOnce = k.fetchOnce := by unfold Core.setPr; split <;> rfl
@[simp] theorem Core.setPr_oc (k : Core) (n : Nat) (b : Bool) : (k.setPr n b).oc = k.oc := by unfold Core.setPr; split <;> rfl
@[simp] theorem Core.setPr_ocMark (k : Core) (n : Nat) (b : Bool) : (k.setPr n b).ocMark = k.ocMark := by unfold Core.setPr; split <;> rfl
@[simp] theorem Core.setPr_bufA (k : Core) (n : Nat) (b : Bool) : (k.setPr n b).bufA = k.bufA := by unfold Core.setPr; split <;> rfl
@[simp] theorem Core.setPr_bufB (k : Core) (n : Nat) (b : Bool) : (k.setPr n b).bufB = k.bufB := by unfold Core.setPr; split <;> rfl
@[simp] theorem Core.setPr_acc0 (k : Core) (n : Nat) (b : Bool) : (k.setPr n b).acc0 = k.acc0 := by unfold Core.setPr; split <;> rfl
@[simp] theorem Core.setPr_acc1 (k : Core) (n : Nat) (b : Bool) : (k.setPr n b).acc1 = k.acc1 := by unfold Core.setPr; split <;> rfl
@[simp] theorem Core.setPr_l1 (k : Core) (n : Nat) (b : Bool) : (k.setPr n b).l1 = k.l1 := by unfold Core.setPr; split <;> rfl
@[simp] theorem Core.setPr_plru (k : Core) (n : Nat) (b : Bool) : (k.setPr n b).plru = k.plru := by unfold Core.setPr; split <;> rfl
@[simp] theorem Core.setPr_hold (k : Core) (n : Nat) (b : Bool) : (k.setPr n b).hold = k.hold := by unfold Core.setPr; split <;> rfl
@[simp] theorem Core.setPr_kept (k : Core) (n : Nat) (b : Bool) : (k.setPr n b).kept = k.kept := by unfold Core.setPr; split <;> rfl
@[simp] theorem Core.setPr_offered (k : Core) (n : Nat) (b : Bool) : (k.setPr n b).offered = k.offered := by unfold Core.setPr; split <;> rfl
@[simp] theorem Core.setPr_miss (k : Core) (n : Nat) (b : Bool) : (k.setPr n b).miss = k.miss := by unfold Core.setPr; split <;> rfl
@[simp] theorem Core.setPr_loads (k : Core) (n : Nat) (b : Bool) : (k.setPr n b).loads = k.loads := by unfold Core.setPr; split <;> rfl
@[simp] theorem Core.setPr_swrOut (k : Core) (n : Nat) (b : Bool) : (k.setPr n b).swrOut = k.swrOut := by unfold Core.setPr; split <;> rfl
@[simp] theorem Core.setPr_raddOut (k : Core) (n : Nat) (b : Bool) : (k.setPr n b).raddOut = k.raddOut := by unfold Core.setPr; split <;> rfl
@[simp] theorem Core.setPr_wsd (k : Core) (n : Nat) (b : Bool) : (k.setPr n b).wsd = k.wsd := by unfold Core.setPr; split <;> rfl
@[simp] theorem Core.setPr_tags (k : Core) (n : Nat) (b : Bool) : (k.setPr n b).tags = k.tags := by unfold Core.setPr; split <;> rfl
@[simp] theorem Core.setPr_mvBuf (k : Core) (n : Nat) (b : Bool) : (k.setPr n b).mvBuf = k.mvBuf := by unfold Core.setPr; split <;> rfl
@[simp] theorem Core.setPr_remote (k : Core) (n : Nat) (b : Bool) : (k.setPr n b).remote = k.remote := by unfold Core.setPr; split <;> rfl
@[simp] theorem Core.setPr_ledReg (k : Core) (n : Nat) (b : Bool) : (k.setPr n b).ledReg = k.ledReg := by unfold Core.setPr; split <;> rfl
@[simp] theorem Core.setPr_remRead (k : Core) (n : Nat) (b : Bool) : (k.setPr n b).remRead = k.remRead := by unfold Core.setPr; split <;> rfl
@[simp] theorem Core.setPr_winPorts (k : Core) (n : Nat) (b : Bool) : (k.setPr n b).winPorts = k.winPorts := by unfold Core.setPr; split <;> rfl
@[simp] theorem Core.setPr_winLines (k : Core) (n : Nat) (b : Bool) : (k.setPr n b).winLines = k.winLines := by unfold Core.setPr; split <;> rfl
@[simp] theorem Core.setPr_mvLast (k : Core) (n : Nat) (b : Bool) : (k.setPr n b).mvLast = k.mvLast := by unfold Core.setPr; split <;> rfl
@[simp] theorem Core.setPr_escaped (k : Core) (n : Nat) (b : Bool) : (k.setPr n b).escaped = k.escaped := by unfold Core.setPr; split <;> rfl
@[simp] theorem Core.setPr_barFail (k : Core) (n : Nat) (b : Bool) : (k.setPr n b).barFail = k.barFail := by unfold Core.setPr; split <;> rfl
@[simp] theorem Core.setPr_ann (k : Core) (n : Nat) (b : Bool) : (k.setPr n b).ann = k.ann := by unfold Core.setPr; split <;> rfl

/-! ### Core.setMr -/

@[simp] theorem Core.setMr_phase (k : Core) (n : Nat) (v : W64) : (k.setMr n v).phase = k.phase := rfl
@[simp] theorem Core.setMr_ended (k : Core) (n : Nat) (v : W64) : (k.setMr n v).ended = k.ended := rfl
@[simp] theorem Core.setMr_held (k : Core) (n : Nat) (v : W64) : (k.setMr n v).held = k.held := rfl
@[simp] theorem Core.setMr_pc (k : Core) (n : Nat) (v : W64) : (k.setMr n v).pc = k.pc := rfl
@[simp] theorem Core.setMr_s (k : Core) (n : Nat) (v : W64) : (k.setMr n v).s = k.s := rfl
@[simp] theorem Core.setMr_p (k : Core) (n : Nat) (v : W64) : (k.setMr n v).p = k.p := rfl
@[simp] theorem Core.setMr_toks (k : Core) (n : Nat) (v : W64) : (k.setMr n v).toks = k.toks := rfl
@[simp] theorem Core.setMr_wf (k : Core) (n : Nat) (v : W64) : (k.setMr n v).wf = k.wf := rfl
@[simp] theorem Core.setMr_bars (k : Core) (n : Nat) (v : W64) : (k.setMr n v).bars = k.bars := rfl
@[simp] theorem Core.setMr_barWait (k : Core) (n : Nat) (v : W64) : (k.setMr n v).barWait = k.barWait := rfl
@[simp] theorem Core.setMr_pend (k : Core) (n : Nat) (v : W64) : (k.setMr n v).pend = k.pend := rfl
@[simp] theorem Core.setMr_nextId (k : Core) (n : Nat) (v : W64) : (k.setMr n v).nextId = k.nextId := rfl
@[simp] theorem Core.setMr_leg (k : Core) (n : Nat) (v : W64) : (k.setMr n v).leg = k.leg := rfl
@[simp] theorem Core.setMr_lastInst (k : Core) (n : Nat) (v : W64) : (k.setMr n v).lastInst = k.lastInst := rfl
@[simp] theorem Core.setMr_fails (k : Core) (n : Nat) (v : W64) : (k.setMr n v).fails = k.fails := rfl
@[simp] theorem Core.setMr_meq (k : Core) (n : Nat) (v : W64) : (k.setMr n v).meq = k.meq := rfl
@[simp] theorem Core.setMr_veq (k : Core) (n : Nat) (v : W64) : (k.setMr n v).veq = k.veq := rfl
@[simp] theorem Core.setMr_mvq (k : Core) (n : Nat) (v : W64) : (k.setMr n v).mvq = k.mvq := rfl
@[simp] theorem Core.setMr_meRun (k : Core) (n : Nat) (v : W64) : (k.setMr n v).meRun = k.meRun := rfl
@[simp] theorem Core.setMr_veRun (k : Core) (n : Nat) (v : W64) : (k.setMr n v).veRun = k.veRun := rfl
@[simp] theorem Core.setMr_icache (k : Core) (n : Nat) (v : W64) : (k.setMr n v).icache = k.icache := rfl
@[simp] theorem Core.setMr_fetch (k : Core) (n : Nat) (v : W64) : (k.setMr n v).fetch = k.fetch := rfl
@[simp] theorem Core.setMr_fetchOnce (k : Core) (n : Nat) (v : W64) : (k.setMr n v).fetchOnce = k.fetchOnce := rfl
@[simp] theorem Core.setMr_oc (k : Core) (n : Nat) (v : W64) : (k.setMr n v).oc = k.oc := rfl
@[simp] theorem Core.setMr_ocMark (k : Core) (n : Nat) (v : W64) : (k.setMr n v).ocMark = k.ocMark := rfl
@[simp] theorem Core.setMr_bufA (k : Core) (n : Nat) (v : W64) : (k.setMr n v).bufA = k.bufA := rfl
@[simp] theorem Core.setMr_bufB (k : Core) (n : Nat) (v : W64) : (k.setMr n v).bufB = k.bufB := rfl
@[simp] theorem Core.setMr_acc0 (k : Core) (n : Nat) (v : W64) : (k.setMr n v).acc0 = k.acc0 := rfl
@[simp] theorem Core.setMr_acc1 (k : Core) (n : Nat) (v : W64) : (k.setMr n v).acc1 = k.acc1 := rfl
@[simp] theorem Core.setMr_l1 (k : Core) (n : Nat) (v : W64) : (k.setMr n v).l1 = k.l1 := rfl
@[simp] theorem Core.setMr_plru (k : Core) (n : Nat) (v : W64) : (k.setMr n v).plru = k.plru := rfl
@[simp] theorem Core.setMr_hold (k : Core) (n : Nat) (v : W64) : (k.setMr n v).hold = k.hold := rfl
@[simp] theorem Core.setMr_kept (k : Core) (n : Nat) (v : W64) : (k.setMr n v).kept = k.kept := rfl
@[simp] theorem Core.setMr_offered (k : Core) (n : Nat) (v : W64) : (k.setMr n v).offered = k.offered := rfl
@[simp] theorem Core.setMr_miss (k : Core) (n : Nat) (v : W64) : (k.setMr n v).miss = k.miss := rfl
@[simp] theorem Core.setMr_loads (k : Core) (n : Nat) (v : W64) : (k.setMr n v).loads = k.loads := rfl
@[simp] theorem Core.setMr_swrOut (k : Core) (n : Nat) (v : W64) : (k.setMr n v).swrOut = k.swrOut := rfl
@[simp] theorem Core.setMr_raddOut (k : Core) (n : Nat) (v : W64) : (k.setMr n v).raddOut = k.raddOut := rfl
@[simp] theorem Core.setMr_wsd (k : Core) (n : Nat) (v : W64) : (k.setMr n v).wsd = k.wsd := rfl
@[simp] theorem Core.setMr_tags (k : Core) (n : Nat) (v : W64) : (k.setMr n v).tags = k.tags := rfl
@[simp] theorem Core.setMr_mvBuf (k : Core) (n : Nat) (v : W64) : (k.setMr n v).mvBuf = k.mvBuf := rfl
@[simp] theorem Core.setMr_remote (k : Core) (n : Nat) (v : W64) : (k.setMr n v).remote = k.remote := rfl
@[simp] theorem Core.setMr_ledReg (k : Core) (n : Nat) (v : W64) : (k.setMr n v).ledReg = k.ledReg := rfl
@[simp] theorem Core.setMr_remRead (k : Core) (n : Nat) (v : W64) : (k.setMr n v).remRead = k.remRead := rfl
@[simp] theorem Core.setMr_winPorts (k : Core) (n : Nat) (v : W64) : (k.setMr n v).winPorts = k.winPorts := rfl
@[simp] theorem Core.setMr_winLines (k : Core) (n : Nat) (v : W64) : (k.setMr n v).winLines = k.winLines := rfl
@[simp] theorem Core.setMr_mvLast (k : Core) (n : Nat) (v : W64) : (k.setMr n v).mvLast = k.mvLast := rfl
@[simp] theorem Core.setMr_escaped (k : Core) (n : Nat) (v : W64) : (k.setMr n v).escaped = k.escaped := rfl
@[simp] theorem Core.setMr_barFail (k : Core) (n : Nat) (v : W64) : (k.setMr n v).barFail = k.barFail := rfl
@[simp] theorem Core.setMr_ann (k : Core) (n : Nat) (v : W64) : (k.setMr n v).ann = k.ann := rfl

/-! ### Core.dropPend -/

@[simp] theorem Core.dropPend_phase (k : Core) (r : PendReg) : (k.dropPend r).phase = k.phase := rfl
@[simp] theorem Core.dropPend_ended (k : Core) (r : PendReg) : (k.dropPend r).ended = k.ended := rfl
@[simp] theorem Core.dropPend_held (k : Core) (r : PendReg) : (k.dropPend r).held = k.held := rfl
@[simp] theorem Core.dropPend_pc (k : Core) (r : PendReg) : (k.dropPend r).pc = k.pc := rfl
@[simp] theorem Core.dropPend_s (k : Core) (r : PendReg) : (k.dropPend r).s = k.s := rfl
@[simp] theorem Core.dropPend_p (k : Core) (r : PendReg) : (k.dropPend r).p = k.p := rfl
@[simp] theorem Core.dropPend_m (k : Core) (r : PendReg) : (k.dropPend r).m = k.m := rfl
@[simp] theorem Core.dropPend_toks (k : Core) (r : PendReg) : (k.dropPend r).toks = k.toks := rfl
@[simp] theorem Core.dropPend_wf (k : Core) (r : PendReg) : (k.dropPend r).wf = k.wf := rfl
@[simp] theorem Core.dropPend_bars (k : Core) (r : PendReg) : (k.dropPend r).bars = k.bars := rfl
@[simp] theorem Core.dropPend_barWait (k : Core) (r : PendReg) : (k.dropPend r).barWait = k.barWait := rfl
@[simp] theorem Core.dropPend_nextId (k : Core) (r : PendReg) : (k.dropPend r).nextId = k.nextId := rfl
@[simp] theorem Core.dropPend_leg (k : Core) (r : PendReg) : (k.dropPend r).leg = k.leg := rfl
@[simp] theorem Core.dropPend_lastInst (k : Core) (r : PendReg) : (k.dropPend r).lastInst = k.lastInst := rfl
@[simp] theorem Core.dropPend_fails (k : Core) (r : PendReg) : (k.dropPend r).fails = k.fails := rfl
@[simp] theorem Core.dropPend_meq (k : Core) (r : PendReg) : (k.dropPend r).meq = k.meq := rfl
@[simp] theorem Core.dropPend_veq (k : Core) (r : PendReg) : (k.dropPend r).veq = k.veq := rfl
@[simp] theorem Core.dropPend_mvq (k : Core) (r : PendReg) : (k.dropPend r).mvq = k.mvq := rfl
@[simp] theorem Core.dropPend_meRun (k : Core) (r : PendReg) : (k.dropPend r).meRun = k.meRun := rfl
@[simp] theorem Core.dropPend_veRun (k : Core) (r : PendReg) : (k.dropPend r).veRun = k.veRun := rfl
@[simp] theorem Core.dropPend_icache (k : Core) (r : PendReg) : (k.dropPend r).icache = k.icache := rfl
@[simp] theorem Core.dropPend_fetch (k : Core) (r : PendReg) : (k.dropPend r).fetch = k.fetch := rfl
@[simp] theorem Core.dropPend_fetchOnce (k : Core) (r : PendReg) : (k.dropPend r).fetchOnce = k.fetchOnce := rfl
@[simp] theorem Core.dropPend_oc (k : Core) (r : PendReg) : (k.dropPend r).oc = k.oc := rfl
@[simp] theorem Core.dropPend_ocMark (k : Core) (r : PendReg) : (k.dropPend r).ocMark = k.ocMark := rfl
@[simp] theorem Core.dropPend_bufA (k : Core) (r : PendReg) : (k.dropPend r).bufA = k.bufA := rfl
@[simp] theorem Core.dropPend_bufB (k : Core) (r : PendReg) : (k.dropPend r).bufB = k.bufB := rfl
@[simp] theorem Core.dropPend_acc0 (k : Core) (r : PendReg) : (k.dropPend r).acc0 = k.acc0 := rfl
@[simp] theorem Core.dropPend_acc1 (k : Core) (r : PendReg) : (k.dropPend r).acc1 = k.acc1 := rfl
@[simp] theorem Core.dropPend_l1 (k : Core) (r : PendReg) : (k.dropPend r).l1 = k.l1 := rfl
@[simp] theorem Core.dropPend_plru (k : Core) (r : PendReg) : (k.dropPend r).plru = k.plru := rfl
@[simp] theorem Core.dropPend_hold (k : Core) (r : PendReg) : (k.dropPend r).hold = k.hold := rfl
@[simp] theorem Core.dropPend_kept (k : Core) (r : PendReg) : (k.dropPend r).kept = k.kept := rfl
@[simp] theorem Core.dropPend_offered (k : Core) (r : PendReg) : (k.dropPend r).offered = k.offered := rfl
@[simp] theorem Core.dropPend_miss (k : Core) (r : PendReg) : (k.dropPend r).miss = k.miss := rfl
@[simp] theorem Core.dropPend_loads (k : Core) (r : PendReg) : (k.dropPend r).loads = k.loads := rfl
@[simp] theorem Core.dropPend_swrOut (k : Core) (r : PendReg) : (k.dropPend r).swrOut = k.swrOut := rfl
@[simp] theorem Core.dropPend_raddOut (k : Core) (r : PendReg) : (k.dropPend r).raddOut = k.raddOut := rfl
@[simp] theorem Core.dropPend_wsd (k : Core) (r : PendReg) : (k.dropPend r).wsd = k.wsd := rfl
@[simp] theorem Core.dropPend_tags (k : Core) (r : PendReg) : (k.dropPend r).tags = k.tags := rfl
@[simp] theorem Core.dropPend_mvBuf (k : Core) (r : PendReg) : (k.dropPend r).mvBuf = k.mvBuf := rfl
@[simp] theorem Core.dropPend_remote (k : Core) (r : PendReg) : (k.dropPend r).remote = k.remote := rfl
@[simp] theorem Core.dropPend_ledReg (k : Core) (r : PendReg) : (k.dropPend r).ledReg = k.ledReg := rfl
@[simp] theorem Core.dropPend_remRead (k : Core) (r : PendReg) : (k.dropPend r).remRead = k.remRead := rfl
@[simp] theorem Core.dropPend_winPorts (k : Core) (r : PendReg) : (k.dropPend r).winPorts = k.winPorts := rfl
@[simp] theorem Core.dropPend_winLines (k : Core) (r : PendReg) : (k.dropPend r).winLines = k.winLines := rfl
@[simp] theorem Core.dropPend_mvLast (k : Core) (r : PendReg) : (k.dropPend r).mvLast = k.mvLast := rfl
@[simp] theorem Core.dropPend_escaped (k : Core) (r : PendReg) : (k.dropPend r).escaped = k.escaped := rfl
@[simp] theorem Core.dropPend_barFail (k : Core) (r : PendReg) : (k.dropPend r).barFail = k.barFail := rfl
@[simp] theorem Core.dropPend_ann (k : Core) (r : PendReg) : (k.dropPend r).ann = k.ann := rfl

/-! ### Core.markPend -/

@[simp] theorem Core.markPend_phase (k : Core) (r : PendReg) (id : Nat) : (k.markPend r id).phase = k.phase := by unfold Core.markPend; split <;> rfl
@[simp] theorem Core.markPend_ended (k : Core) (r : PendReg) (id : Nat) : (k.markPend r id).ended = k.ended := by unfold Core.markPend; split <;> rfl
@[simp] theorem Core.markPend_held (k : Core) (r : PendReg) (id : Nat) : (k.markPend r id).held = k.held := by unfold Core.markPend; split <;> rfl
@[simp] theorem Core.markPend_pc (k : Core) (r : PendReg) (id : Nat) : (k.markPend r id).pc = k.pc := by unfold Core.markPend; split <;> rfl
@[simp] theorem Core.markPend_s (k : Core) (r : PendReg) (id : Nat) : (k.markPend r id).s = k.s := by unfold Core.markPend; split <;> rfl
@[simp] theorem Core.markPend_p (k : Core) (r : PendReg) (id : Nat) : (k.markPend r id).p = k.p := by unfold Core.markPend; split <;> rfl
@[simp] theorem Core.markPend_m (k : Core) (r : PendReg) (id : Nat) : (k.markPend r id).m = k.m := by unfold Core.markPend; split <;> rfl
@[simp] theorem Core.markPend_toks (k : Core) (r : PendReg) (id : Nat) : (k.markPend r id).toks = k.toks := by unfold Core.markPend; split <;> rfl
@[simp] theorem Core.markPend_wf (k : Core) (r : PendReg) (id : Nat) : (k.markPend r id).wf = k.wf := by unfold Core.markPend; split <;> rfl
@[simp] theorem Core.markPend_bars (k : Core) (r : PendReg) (id : Nat) : (k.markPend r id).bars = k.bars := by unfold Core.markPend; split <;> rfl
@[simp] theorem Core.markPend_barWait (k : Core) (r : PendReg) (id : Nat) : (k.markPend r id).barWait = k.barWait := by unfold Core.markPend; split <;> rfl
@[simp] theorem Core.markPend_nextId (k : Core) (r : PendReg) (id : Nat) : (k.markPend r id).nextId = k.nextId := by unfold Core.markPend; split <;> rfl
@[simp] theorem Core.markPend_leg (k : Core) (r : PendReg) (id : Nat) : (k.markPend r id).leg = k.leg := by unfold Core.markPend; split <;> rfl
@[simp] theorem Core.markPend_lastInst (k : Core) (r : PendReg) (id : Nat) : (k.markPend r id).lastInst = k.lastInst := by unfold Core.markPend; split <;> rfl
@[simp] theorem Core.markPend_fails (k : Core) (r : PendReg) (id : Nat) : (k.markPend r id).fails = k.fails := by unfold Core.markPend; split <;> rfl
@[simp] theorem Core.markPend_meq (k : Core) (r : PendReg) (id : Nat) : (k.markPend r id).meq = k.meq := by unfold Core.markPend; split <;> rfl
@[simp] theorem Core.markPend_veq (k : Core) (r : PendReg) (id : Nat) : (k.markPend r id).veq = k.veq := by unfold Core.markPend; split <;> rfl
@[simp] theorem Core.markPend_mvq (k : Core) (r : PendReg) (id : Nat) : (k.markPend r id).mvq = k.mvq := by unfold Core.markPend; split <;> rfl
@[simp] theorem Core.markPend_meRun (k : Core) (r : PendReg) (id : Nat) : (k.markPend r id).meRun = k.meRun := by unfold Core.markPend; split <;> rfl
@[simp] theorem Core.markPend_veRun (k : Core) (r : PendReg) (id : Nat) : (k.markPend r id).veRun = k.veRun := by unfold Core.markPend; split <;> rfl
@[simp] theorem Core.markPend_icache (k : Core) (r : PendReg) (id : Nat) : (k.markPend r id).icache = k.icache := by unfold Core.markPend; split <;> rfl
@[simp] theorem Core.markPend_fetch (k : Core) (r : PendReg) (id : Nat) : (k.markPend r id).fetch = k.fetch := by unfold Core.markPend; split <;> rfl
@[simp] theorem Core.markPend_fetchOnce (k : Core) (r : PendReg) (id : Nat) : (k.markPend r id).fetchOnce = k.fetchOnce := by unfold Core.markPend; split <;> rfl
@[simp] theorem Core.markPend_oc (k : Core) (r : PendReg) (id : Nat) : (k.markPend r id).oc = k.oc := by unfold Core.markPend; split <;> rfl
@[simp] theorem Core.markPend_ocMark (k : Core) (r : PendReg) (id : Nat) : (k.markPend r id).ocMark = k.ocMark := by unfold Core.markPend; split <;> rfl
@[simp] theorem Core.markPend_bufA (k : Core) (r : PendReg) (id : Nat) : (k.markPend r id).bufA = k.bufA := by unfold Core.markPend; split <;> rfl
@[simp] theorem Core.markPend_bufB (k : Core) (r : PendReg) (id : Nat) : (k.markPend r id).bufB = k.bufB := by unfold Core.markPend; split <;> rfl
@[simp] theorem Core.markPend_acc0 (k : Core) (r : PendReg) (id : Nat) : (k.markPend r id).acc0 = k.acc0 := by unfold Core.markPend; split <;> rfl
@[simp] theorem Core.markPend_acc1 (k : Core) (r : PendReg) (id : Nat) : (k.markPend r id).acc1 = k.acc1 := by unfold Core.markPend; split <;> rfl
@[simp] theorem Core.markPend_l1 (k : Core) (r : PendReg) (id : Nat) : (k.markPend r id).l1 = k.l1 := by unfold Core.markPend; split <;> rfl
@[simp] theorem Core.markPend_plru (k : Core) (r : PendReg) (id : Nat) : (k.markPend r id).plru = k.plru := by unfold Core.markPend; split <;> rfl
@[simp] theorem Core.markPend_hold (k : Core) (r : PendReg) (id : Nat) : (k.markPend r id).hold = k.hold := by unfold Core.markPend; split <;> rfl
@[simp] theorem Core.markPend_kept (k : Core) (r : PendReg) (id : Nat) : (k.markPend r id).kept = k.kept := by unfold Core.markPend; split <;> rfl
@[simp] theorem Core.markPend_offered (k : Core) (r : PendReg) (id : Nat) : (k.markPend r id).offered = k.offered := by unfold Core.markPend; split <;> rfl
@[simp] theorem Core.markPend_miss (k : Core) (r : PendReg) (id : Nat) : (k.markPend r id).miss = k.miss := by unfold Core.markPend; split <;> rfl
@[simp] theorem Core.markPend_loads (k : Core) (r : PendReg) (id : Nat) : (k.markPend r id).loads = k.loads := by unfold Core.markPend; split <;> rfl
@[simp] theorem Core.markPend_swrOut (k : Core) (r : PendReg) (id : Nat) : (k.markPend r id).swrOut = k.swrOut := by unfold Core.markPend; split <;> rfl
@[simp] theorem Core.markPend_raddOut (k : Core) (r : PendReg) (id : Nat) : (k.markPend r id).raddOut = k.raddOut := by unfold Core.markPend; split <;> rfl
@[simp] theorem Core.markPend_wsd (k : Core) (r : PendReg) (id : Nat) : (k.markPend r id).wsd = k.wsd := by unfold Core.markPend; split <;> rfl
@[simp] theorem Core.markPend_tags (k : Core) (r : PendReg) (id : Nat) : (k.markPend r id).tags = k.tags := by unfold Core.markPend; split <;> rfl
@[simp] theorem Core.markPend_mvBuf (k : Core) (r : PendReg) (id : Nat) : (k.markPend r id).mvBuf = k.mvBuf := by unfold Core.markPend; split <;> rfl
@[simp] theorem Core.markPend_remote (k : Core) (r : PendReg) (id : Nat) : (k.markPend r id).remote = k.remote := by unfold Core.markPend; split <;> rfl
@[simp] theorem Core.markPend_ledReg (k : Core) (r : PendReg) (id : Nat) : (k.markPend r id).ledReg = k.ledReg := by unfold Core.markPend; split <;> rfl
@[simp] theorem Core.markPend_remRead (k : Core) (r : PendReg) (id : Nat) : (k.markPend r id).remRead = k.remRead := by unfold Core.markPend; split <;> rfl
@[simp] theorem Core.markPend_winPorts (k : Core) (r : PendReg) (id : Nat) : (k.markPend r id).winPorts = k.winPorts := by unfold Core.markPend; split <;> rfl
@[simp] theorem Core.markPend_winLines (k : Core) (r : PendReg) (id : Nat) : (k.markPend r id).winLines = k.winLines := by unfold Core.markPend; split <;> rfl
@[simp] theorem Core.markPend_mvLast (k : Core) (r : PendReg) (id : Nat) : (k.markPend r id).mvLast = k.mvLast := by unfold Core.markPend; split <;> rfl
@[simp] theorem Core.markPend_escaped (k : Core) (r : PendReg) (id : Nat) : (k.markPend r id).escaped = k.escaped := by unfold Core.markPend; split <;> rfl
@[simp] theorem Core.markPend_barFail (k : Core) (r : PendReg) (id : Nat) : (k.markPend r id).barFail = k.barFail := by unfold Core.markPend; split <;> rfl
@[simp] theorem Core.markPend_ann (k : Core) (r : PendReg) (id : Nat) : (k.markPend r id).ann = k.ann := by unfold Core.markPend; split <;> rfl

/-! ### Core.unPend -/

@[simp] theorem Core.unPend_phase (k : Core) (id : Nat) : (k.unPend id).phase = k.phase := rfl
@[simp] theorem Core.unPend_ended (k : Core) (id : Nat) : (k.unPend id).ended = k.ended := rfl
@[simp] theorem Core.unPend_held (k : Core) (id : Nat) : (k.unPend id).held = k.held := rfl
@[simp] theorem Core.unPend_pc (k : Core) (id : Nat) : (k.unPend id).pc = k.pc := rfl
@[simp] theorem Core.unPend_s (k : Core) (id : Nat) : (k.unPend id).s = k.s := rfl
@[simp] theorem Core.unPend_p (k : Core) (id : Nat) : (k.unPend id).p = k.p := rfl
@[simp] theorem Core.unPend_m (k : Core) (id : Nat) : (k.unPend id).m = k.m := rfl
@[simp] theorem Core.unPend_toks (k : Core) (id : Nat) : (k.unPend id).toks = k.toks := rfl
@[simp] theorem Core.unPend_wf (k : Core) (id : Nat) : (k.unPend id).wf = k.wf := rfl
@[simp] theorem Core.unPend_bars (k : Core) (id : Nat) : (k.unPend id).bars = k.bars := rfl
@[simp] theorem Core.unPend_barWait (k : Core) (id : Nat) : (k.unPend id).barWait = k.barWait := rfl
@[simp] theorem Core.unPend_nextId (k : Core) (id : Nat) : (k.unPend id).nextId = k.nextId := rfl
@[simp] theorem Core.unPend_leg (k : Core) (id : Nat) : (k.unPend id).leg = k.leg := rfl
@[simp] theorem Core.unPend_lastInst (k : Core) (id : Nat) : (k.unPend id).lastInst = k.lastInst := rfl
@[simp] theorem Core.unPend_fails (k : Core) (id : Nat) : (k.unPend id).fails = k.fails := rfl
@[simp] theorem Core.unPend_meq (k : Core) (id : Nat) : (k.unPend id).meq = k.meq := rfl
@[simp] theorem Core.unPend_veq (k : Core) (id : Nat) : (k.unPend id).veq = k.veq := rfl
@[simp] theorem Core.unPend_mvq (k : Core) (id : Nat) : (k.unPend id).mvq = k.mvq := rfl
@[simp] theorem Core.unPend_meRun (k : Core) (id : Nat) : (k.unPend id).meRun = k.meRun := rfl
@[simp] theorem Core.unPend_veRun (k : Core) (id : Nat) : (k.unPend id).veRun = k.veRun := rfl
@[simp] theorem Core.unPend_icache (k : Core) (id : Nat) : (k.unPend id).icache = k.icache := rfl
@[simp] theorem Core.unPend_fetch (k : Core) (id : Nat) : (k.unPend id).fetch = k.fetch := rfl
@[simp] theorem Core.unPend_fetchOnce (k : Core) (id : Nat) : (k.unPend id).fetchOnce = k.fetchOnce := rfl
@[simp] theorem Core.unPend_oc (k : Core) (id : Nat) : (k.unPend id).oc = k.oc := rfl
@[simp] theorem Core.unPend_ocMark (k : Core) (id : Nat) : (k.unPend id).ocMark = k.ocMark := rfl
@[simp] theorem Core.unPend_bufA (k : Core) (id : Nat) : (k.unPend id).bufA = k.bufA := rfl
@[simp] theorem Core.unPend_bufB (k : Core) (id : Nat) : (k.unPend id).bufB = k.bufB := rfl
@[simp] theorem Core.unPend_acc0 (k : Core) (id : Nat) : (k.unPend id).acc0 = k.acc0 := rfl
@[simp] theorem Core.unPend_acc1 (k : Core) (id : Nat) : (k.unPend id).acc1 = k.acc1 := rfl
@[simp] theorem Core.unPend_l1 (k : Core) (id : Nat) : (k.unPend id).l1 = k.l1 := rfl
@[simp] theorem Core.unPend_plru (k : Core) (id : Nat) : (k.unPend id).plru = k.plru := rfl
@[simp] theorem Core.unPend_hold (k : Core) (id : Nat) : (k.unPend id).hold = k.hold := rfl
@[simp] theorem Core.unPend_kept (k : Core) (id : Nat) : (k.unPend id).kept = k.kept := rfl
@[simp] theorem Core.unPend_offered (k : Core) (id : Nat) : (k.unPend id).offered = k.offered := rfl
@[simp] theorem Core.unPend_miss (k : Core) (id : Nat) : (k.unPend id).miss = k.miss := rfl
@[simp] theorem Core.unPend_loads (k : Core) (id : Nat) : (k.unPend id).loads = k.loads := rfl
@[simp] theorem Core.unPend_swrOut (k : Core) (id : Nat) : (k.unPend id).swrOut = k.swrOut := rfl
@[simp] theorem Core.unPend_raddOut (k : Core) (id : Nat) : (k.unPend id).raddOut = k.raddOut := rfl
@[simp] theorem Core.unPend_wsd (k : Core) (id : Nat) : (k.unPend id).wsd = k.wsd := rfl
@[simp] theorem Core.unPend_tags (k : Core) (id : Nat) : (k.unPend id).tags = k.tags := rfl
@[simp] theorem Core.unPend_mvBuf (k : Core) (id : Nat) : (k.unPend id).mvBuf = k.mvBuf := rfl
@[simp] theorem Core.unPend_remote (k : Core) (id : Nat) : (k.unPend id).remote = k.remote := rfl
@[simp] theorem Core.unPend_ledReg (k : Core) (id : Nat) : (k.unPend id).ledReg = k.ledReg := rfl
@[simp] theorem Core.unPend_remRead (k : Core) (id : Nat) : (k.unPend id).remRead = k.remRead := rfl
@[simp] theorem Core.unPend_winPorts (k : Core) (id : Nat) : (k.unPend id).winPorts = k.winPorts := rfl
@[simp] theorem Core.unPend_winLines (k : Core) (id : Nat) : (k.unPend id).winLines = k.winLines := rfl
@[simp] theorem Core.unPend_mvLast (k : Core) (id : Nat) : (k.unPend id).mvLast = k.mvLast := rfl
@[simp] theorem Core.unPend_escaped (k : Core) (id : Nat) : (k.unPend id).escaped = k.escaped := rfl
@[simp] theorem Core.unPend_barFail (k : Core) (id : Nat) : (k.unPend id).barFail = k.barFail := rfl
@[simp] theorem Core.unPend_ann (k : Core) (id : Nat) : (k.unPend id).ann = k.ann := rfl

/-! ### Core.setTok -/

@[simp] theorem Core.setTok_phase (k : Core) (n : Nat) (x : Tok) : (k.setTok n x).phase = k.phase := rfl
@[simp] theorem Core.setTok_ended (k : Core) (n : Nat) (x : Tok) : (k.setTok n x).ended = k.ended := rfl
@[simp] theorem Core.setTok_held (k : Core) (n : Nat) (x : Tok) : (k.setTok n x).held = k.held := rfl
@[simp] theorem Core.setTok_pc (k : Core) (n : Nat) (x : Tok) : (k.setTok n x).pc = k.pc := rfl
@[simp] theorem Core.setTok_s (k : Core) (n : Nat) (x : Tok) : (k.setTok n x).s = k.s := rfl
@[simp] theorem Core.setTok_p (k : Core) (n : Nat) (x : Tok) : (k.setTok n x).p = k.p := rfl
@[simp] theorem Core.setTok_m (k : Core) (n : Nat) (x : Tok) : (k.setTok n x).m = k.m := rfl
@[simp] theorem Core.setTok_wf (k : Core) (n : Nat) (x : Tok) : (k.setTok n x).wf = k.wf := rfl
@[simp] theorem Core.setTok_bars (k : Core) (n : Nat) (x : Tok) : (k.setTok n x).bars = k.bars := rfl
@[simp] theorem Core.setTok_barWait (k : Core) (n : Nat) (x : Tok) : (k.setTok n x).barWait = k.barWait := rfl
@[simp] theorem Core.setTok_pend (k : Core) (n : Nat) (x : Tok) : (k.setTok n x).pend = k.pend := rfl
@[simp] theorem Core.setTok_nextId (k : Core) (n : Nat) (x : Tok) : (k.setTok n x).nextId = k.nextId := rfl
@[simp] theorem Core.setTok_leg (k : Core) (n : Nat) (x : Tok) : (k.setTok n x).leg = k.leg := rfl
@[simp] theorem Core.setTok_lastInst (k : Core) (n : Nat) (x : Tok) : (k.setTok n x).lastInst = k.lastInst := rfl
@[simp] theorem Core.setTok_fails (k : Core) (n : Nat) (x : Tok) : (k.setTok n x).fails = k.fails := rfl
@[simp] theorem Core.setTok_meq (k : Core) (n : Nat) (x : Tok) : (k.setTok n x).meq = k.meq := rfl
@[simp] theorem Core.setTok_veq (k : Core) (n : Nat) (x : Tok) : (k.setTok n x).veq = k.veq := rfl
@[simp] theorem Core.setTok_mvq (k : Core) (n : Nat) (x : Tok) : (k.setTok n x).mvq = k.mvq := rfl
@[simp] theorem Core.setTok_meRun (k : Core) (n : Nat) (x : Tok) : (k.setTok n x).meRun = k.meRun := rfl
@[simp] theorem Core.setTok_veRun (k : Core) (n : Nat) (x : Tok) : (k.setTok n x).veRun = k.veRun := rfl
@[simp] theorem Core.setTok_icache (k : Core) (n : Nat) (x : Tok) : (k.setTok n x).icache = k.icache := rfl
@[simp] theorem Core.setTok_fetch (k : Core) (n : Nat) (x : Tok) : (k.setTok n x).fetch = k.fetch := rfl
@[simp] theorem Core.setTok_fetchOnce (k : Core) (n : Nat) (x : Tok) : (k.setTok n x).fetchOnce = k.fetchOnce := rfl
@[simp] theorem Core.setTok_oc (k : Core) (n : Nat) (x : Tok) : (k.setTok n x).oc = k.oc := rfl
@[simp] theorem Core.setTok_ocMark (k : Core) (n : Nat) (x : Tok) : (k.setTok n x).ocMark = k.ocMark := rfl
@[simp] theorem Core.setTok_bufA (k : Core) (n : Nat) (x : Tok) : (k.setTok n x).bufA = k.bufA := rfl
@[simp] theorem Core.setTok_bufB (k : Core) (n : Nat) (x : Tok) : (k.setTok n x).bufB = k.bufB := rfl
@[simp] theorem Core.setTok_acc0 (k : Core) (n : Nat) (x : Tok) : (k.setTok n x).acc0 = k.acc0 := rfl
@[simp] theorem Core.setTok_acc1 (k : Core) (n : Nat) (x : Tok) : (k.setTok n x).acc1 = k.acc1 := rfl
@[simp] theorem Core.setTok_l1 (k : Core) (n : Nat) (x : Tok) : (k.setTok n x).l1 = k.l1 := rfl
@[simp] theorem Core.setTok_plru (k : Core) (n : Nat) (x : Tok) : (k.setTok n x).plru = k.plru := rfl
@[simp] theorem Core.setTok_hold (k : Core) (n : Nat) (x : Tok) : (k.setTok n x).hold = k.hold := rfl
@[simp] theorem Core.setTok_kept (k : Core) (n : Nat) (x : Tok) : (k.setTok n x).kept = k.kept := rfl
@[simp] theorem Core.setTok_offered (k : Core) (n : Nat) (x : Tok) : (k.setTok n x).offered = k.offered := rfl
@[simp] theorem Core.setTok_miss (k : Core) (n : Nat) (x : Tok) : (k.setTok n x).miss = k.miss := rfl
@[simp] theorem Core.setTok_loads (k : Core) (n : Nat) (x : Tok) : (k.setTok n x).loads = k.loads := rfl
@[simp] theorem Core.setTok_swrOut (k : Core) (n : Nat) (x : Tok) : (k.setTok n x).swrOut = k.swrOut := rfl
@[simp] theorem Core.setTok_raddOut (k : Core) (n : Nat) (x : Tok) : (k.setTok n x).raddOut = k.raddOut := rfl
@[simp] theorem Core.setTok_wsd (k : Core) (n : Nat) (x : Tok) : (k.setTok n x).wsd = k.wsd := rfl
@[simp] theorem Core.setTok_tags (k : Core) (n : Nat) (x : Tok) : (k.setTok n x).tags = k.tags := rfl
@[simp] theorem Core.setTok_mvBuf (k : Core) (n : Nat) (x : Tok) : (k.setTok n x).mvBuf = k.mvBuf := rfl
@[simp] theorem Core.setTok_remote (k : Core) (n : Nat) (x : Tok) : (k.setTok n x).remote = k.remote := rfl
@[simp] theorem Core.setTok_ledReg (k : Core) (n : Nat) (x : Tok) : (k.setTok n x).ledReg = k.ledReg := rfl
@[simp] theorem Core.setTok_remRead (k : Core) (n : Nat) (x : Tok) : (k.setTok n x).remRead = k.remRead := rfl
@[simp] theorem Core.setTok_winPorts (k : Core) (n : Nat) (x : Tok) : (k.setTok n x).winPorts = k.winPorts := rfl
@[simp] theorem Core.setTok_winLines (k : Core) (n : Nat) (x : Tok) : (k.setTok n x).winLines = k.winLines := rfl
@[simp] theorem Core.setTok_mvLast (k : Core) (n : Nat) (x : Tok) : (k.setTok n x).mvLast = k.mvLast := rfl
@[simp] theorem Core.setTok_escaped (k : Core) (n : Nat) (x : Tok) : (k.setTok n x).escaped = k.escaped := rfl
@[simp] theorem Core.setTok_barFail (k : Core) (n : Nat) (x : Tok) : (k.setTok n x).barFail = k.barFail := rfl
@[simp] theorem Core.setTok_ann (k : Core) (n : Nat) (x : Tok) : (k.setTok n x).ann = k.ann := rfl

/-! ### Core.setEnt -/

@[simp] theorem Core.setEnt_phase (k : Core) (n : Nat) (v : Entry) : (k.setEnt n v).phase = k.phase := rfl
@[simp] theorem Core.setEnt_ended (k : Core) (n : Nat) (v : Entry) : (k.setEnt n v).ended = k.ended := rfl
@[simp] theorem Core.setEnt_held (k : Core) (n : Nat) (v : Entry) : (k.setEnt n v).held = k.held := rfl
@[simp] theorem Core.setEnt_pc (k : Core) (n : Nat) (v : Entry) : (k.setEnt n v).pc = k.pc := rfl
@[simp] theorem Core.setEnt_s (k : Core) (n : Nat) (v : Entry) : (k.setEnt n v).s = k.s := rfl
@[simp] theorem Core.setEnt_p (k : Core) (n : Nat) (v : Entry) : (k.setEnt n v).p = k.p := rfl
@[simp] theorem Core.setEnt_m (k : Core) (n : Nat) (v : Entry) : (k.setEnt n v).m = k.m := rfl
@[simp] theorem Core.setEnt_toks (k : Core) (n : Nat) (v : Entry) : (k.setEnt n v).toks = k.toks := rfl
@[simp] theorem Core.setEnt_wf (k : Core) (n : Nat) (v : Entry) : (k.setEnt n v).wf = k.wf := rfl
@[simp] theorem Core.setEnt_bars (k : Core) (n : Nat) (v : Entry) : (k.setEnt n v).bars = k.bars := rfl
@[simp] theorem Core.setEnt_barWait (k : Core) (n : Nat) (v : Entry) : (k.setEnt n v).barWait = k.barWait := rfl
@[simp] theorem Core.setEnt_pend (k : Core) (n : Nat) (v : Entry) : (k.setEnt n v).pend = k.pend := rfl
@[simp] theorem Core.setEnt_nextId (k : Core) (n : Nat) (v : Entry) : (k.setEnt n v).nextId = k.nextId := rfl
@[simp] theorem Core.setEnt_leg (k : Core) (n : Nat) (v : Entry) : (k.setEnt n v).leg = k.leg := rfl
@[simp] theorem Core.setEnt_lastInst (k : Core) (n : Nat) (v : Entry) : (k.setEnt n v).lastInst = k.lastInst := rfl
@[simp] theorem Core.setEnt_fails (k : Core) (n : Nat) (v : Entry) : (k.setEnt n v).fails = k.fails := rfl
@[simp] theorem Core.setEnt_meq (k : Core) (n : Nat) (v : Entry) : (k.setEnt n v).meq = k.meq := rfl
@[simp] theorem Core.setEnt_veq (k : Core) (n : Nat) (v : Entry) : (k.setEnt n v).veq = k.veq := rfl
@[simp] theorem Core.setEnt_mvq (k : Core) (n : Nat) (v : Entry) : (k.setEnt n v).mvq = k.mvq := rfl
@[simp] theorem Core.setEnt_meRun (k : Core) (n : Nat) (v : Entry) : (k.setEnt n v).meRun = k.meRun := rfl
@[simp] theorem Core.setEnt_veRun (k : Core) (n : Nat) (v : Entry) : (k.setEnt n v).veRun = k.veRun := rfl
@[simp] theorem Core.setEnt_icache (k : Core) (n : Nat) (v : Entry) : (k.setEnt n v).icache = k.icache := rfl
@[simp] theorem Core.setEnt_fetch (k : Core) (n : Nat) (v : Entry) : (k.setEnt n v).fetch = k.fetch := rfl
@[simp] theorem Core.setEnt_fetchOnce (k : Core) (n : Nat) (v : Entry) : (k.setEnt n v).fetchOnce = k.fetchOnce := rfl
@[simp] theorem Core.setEnt_ocMark (k : Core) (n : Nat) (v : Entry) : (k.setEnt n v).ocMark = k.ocMark := rfl
@[simp] theorem Core.setEnt_bufA (k : Core) (n : Nat) (v : Entry) : (k.setEnt n v).bufA = k.bufA := rfl
@[simp] theorem Core.setEnt_bufB (k : Core) (n : Nat) (v : Entry) : (k.setEnt n v).bufB = k.bufB := rfl
@[simp] theorem Core.setEnt_acc0 (k : Core) (n : Nat) (v : Entry) : (k.setEnt n v).acc0 = k.acc0 := rfl
@[simp] theorem Core.setEnt_acc1 (k : Core) (n : Nat) (v : Entry) : (k.setEnt n v).acc1 = k.acc1 := rfl
@[simp] theorem Core.setEnt_l1 (k : Core) (n : Nat) (v : Entry) : (k.setEnt n v).l1 = k.l1 := rfl
@[simp] theorem Core.setEnt_plru (k : Core) (n : Nat) (v : Entry) : (k.setEnt n v).plru = k.plru := rfl
@[simp] theorem Core.setEnt_hold (k : Core) (n : Nat) (v : Entry) : (k.setEnt n v).hold = k.hold := rfl
@[simp] theorem Core.setEnt_kept (k : Core) (n : Nat) (v : Entry) : (k.setEnt n v).kept = k.kept := rfl
@[simp] theorem Core.setEnt_offered (k : Core) (n : Nat) (v : Entry) : (k.setEnt n v).offered = k.offered := rfl
@[simp] theorem Core.setEnt_miss (k : Core) (n : Nat) (v : Entry) : (k.setEnt n v).miss = k.miss := rfl
@[simp] theorem Core.setEnt_loads (k : Core) (n : Nat) (v : Entry) : (k.setEnt n v).loads = k.loads := rfl
@[simp] theorem Core.setEnt_swrOut (k : Core) (n : Nat) (v : Entry) : (k.setEnt n v).swrOut = k.swrOut := rfl
@[simp] theorem Core.setEnt_raddOut (k : Core) (n : Nat) (v : Entry) : (k.setEnt n v).raddOut = k.raddOut := rfl
@[simp] theorem Core.setEnt_wsd (k : Core) (n : Nat) (v : Entry) : (k.setEnt n v).wsd = k.wsd := rfl
@[simp] theorem Core.setEnt_tags (k : Core) (n : Nat) (v : Entry) : (k.setEnt n v).tags = k.tags := rfl
@[simp] theorem Core.setEnt_mvBuf (k : Core) (n : Nat) (v : Entry) : (k.setEnt n v).mvBuf = k.mvBuf := rfl
@[simp] theorem Core.setEnt_remote (k : Core) (n : Nat) (v : Entry) : (k.setEnt n v).remote = k.remote := rfl
@[simp] theorem Core.setEnt_ledReg (k : Core) (n : Nat) (v : Entry) : (k.setEnt n v).ledReg = k.ledReg := rfl
@[simp] theorem Core.setEnt_remRead (k : Core) (n : Nat) (v : Entry) : (k.setEnt n v).remRead = k.remRead := rfl
@[simp] theorem Core.setEnt_winPorts (k : Core) (n : Nat) (v : Entry) : (k.setEnt n v).winPorts = k.winPorts := rfl
@[simp] theorem Core.setEnt_winLines (k : Core) (n : Nat) (v : Entry) : (k.setEnt n v).winLines = k.winLines := rfl
@[simp] theorem Core.setEnt_mvLast (k : Core) (n : Nat) (v : Entry) : (k.setEnt n v).mvLast = k.mvLast := rfl
@[simp] theorem Core.setEnt_escaped (k : Core) (n : Nat) (v : Entry) : (k.setEnt n v).escaped = k.escaped := rfl
@[simp] theorem Core.setEnt_barFail (k : Core) (n : Nat) (v : Entry) : (k.setEnt n v).barFail = k.barFail := rfl
@[simp] theorem Core.setEnt_ann (k : Core) (n : Nat) (v : Entry) : (k.setEnt n v).ann = k.ann := rfl

/-! ### Core.setMark -/

@[simp] theorem Core.setMark_phase (k : Core) (n : Nat) (v : W64) : (k.setMark n v).phase = k.phase := rfl
@[simp] theorem Core.setMark_ended (k : Core) (n : Nat) (v : W64) : (k.setMark n v).ended = k.ended := rfl
@[simp] theorem Core.setMark_held (k : Core) (n : Nat) (v : W64) : (k.setMark n v).held = k.held := rfl
@[simp] theorem Core.setMark_pc (k : Core) (n : Nat) (v : W64) : (k.setMark n v).pc = k.pc := rfl
@[simp] theorem Core.setMark_s (k : Core) (n : Nat) (v : W64) : (k.setMark n v).s = k.s := rfl
@[simp] theorem Core.setMark_p (k : Core) (n : Nat) (v : W64) : (k.setMark n v).p = k.p := rfl
@[simp] theorem Core.setMark_m (k : Core) (n : Nat) (v : W64) : (k.setMark n v).m = k.m := rfl
@[simp] theorem Core.setMark_toks (k : Core) (n : Nat) (v : W64) : (k.setMark n v).toks = k.toks := rfl
@[simp] theorem Core.setMark_wf (k : Core) (n : Nat) (v : W64) : (k.setMark n v).wf = k.wf := rfl
@[simp] theorem Core.setMark_bars (k : Core) (n : Nat) (v : W64) : (k.setMark n v).bars = k.bars := rfl
@[simp] theorem Core.setMark_barWait (k : Core) (n : Nat) (v : W64) : (k.setMark n v).barWait = k.barWait := rfl
@[simp] theorem Core.setMark_pend (k : Core) (n : Nat) (v : W64) : (k.setMark n v).pend = k.pend := rfl
@[simp] theorem Core.setMark_nextId (k : Core) (n : Nat) (v : W64) : (k.setMark n v).nextId = k.nextId := rfl
@[simp] theorem Core.setMark_leg (k : Core) (n : Nat) (v : W64) : (k.setMark n v).leg = k.leg := rfl
@[simp] theorem Core.setMark_lastInst (k : Core) (n : Nat) (v : W64) : (k.setMark n v).lastInst = k.lastInst := rfl
@[simp] theorem Core.setMark_fails (k : Core) (n : Nat) (v : W64) : (k.setMark n v).fails = k.fails := rfl
@[simp] theorem Core.setMark_meq (k : Core) (n : Nat) (v : W64) : (k.setMark n v).meq = k.meq := rfl
@[simp] theorem Core.setMark_veq (k : Core) (n : Nat) (v : W64) : (k.setMark n v).veq = k.veq := rfl
@[simp] theorem Core.setMark_mvq (k : Core) (n : Nat) (v : W64) : (k.setMark n v).mvq = k.mvq := rfl
@[simp] theorem Core.setMark_meRun (k : Core) (n : Nat) (v : W64) : (k.setMark n v).meRun = k.meRun := rfl
@[simp] theorem Core.setMark_veRun (k : Core) (n : Nat) (v : W64) : (k.setMark n v).veRun = k.veRun := rfl
@[simp] theorem Core.setMark_icache (k : Core) (n : Nat) (v : W64) : (k.setMark n v).icache = k.icache := rfl
@[simp] theorem Core.setMark_fetch (k : Core) (n : Nat) (v : W64) : (k.setMark n v).fetch = k.fetch := rfl
@[simp] theorem Core.setMark_fetchOnce (k : Core) (n : Nat) (v : W64) : (k.setMark n v).fetchOnce = k.fetchOnce := rfl
@[simp] theorem Core.setMark_oc (k : Core) (n : Nat) (v : W64) : (k.setMark n v).oc = k.oc := rfl
@[simp] theorem Core.setMark_bufA (k : Core) (n : Nat) (v : W64) : (k.setMark n v).bufA = k.bufA := rfl
@[simp] theorem Core.setMark_bufB (k : Core) (n : Nat) (v : W64) : (k.setMark n v).bufB = k.bufB := rfl
@[simp] theorem Core.setMark_acc0 (k : Core) (n : Nat) (v : W64) : (k.setMark n v).acc0 = k.acc0 := rfl
@[simp] theorem Core.setMark_acc1 (k : Core) (n : Nat) (v : W64) : (k.setMark n v).acc1 = k.acc1 := rfl
@[simp] theorem Core.setMark_l1 (k : Core) (n : Nat) (v : W64) : (k.setMark n v).l1 = k.l1 := rfl
@[simp] theorem Core.setMark_plru (k : Core) (n : Nat) (v : W64) : (k.setMark n v).plru = k.plru := rfl
@[simp] theorem Core.setMark_hold (k : Core) (n : Nat) (v : W64) : (k.setMark n v).hold = k.hold := rfl
@[simp] theorem Core.setMark_kept (k : Core) (n : Nat) (v : W64) : (k.setMark n v).kept = k.kept := rfl
@[simp] theorem Core.setMark_offered (k : Core) (n : Nat) (v : W64) : (k.setMark n v).offered = k.offered := rfl
@[simp] theorem Core.setMark_miss (k : Core) (n : Nat) (v : W64) : (k.setMark n v).miss = k.miss := rfl
@[simp] theorem Core.setMark_loads (k : Core) (n : Nat) (v : W64) : (k.setMark n v).loads = k.loads := rfl
@[simp] theorem Core.setMark_swrOut (k : Core) (n : Nat) (v : W64) : (k.setMark n v).swrOut = k.swrOut := rfl
@[simp] theorem Core.setMark_raddOut (k : Core) (n : Nat) (v : W64) : (k.setMark n v).raddOut = k.raddOut := rfl
@[simp] theorem Core.setMark_wsd (k : Core) (n : Nat) (v : W64) : (k.setMark n v).wsd = k.wsd := rfl
@[simp] theorem Core.setMark_tags (k : Core) (n : Nat) (v : W64) : (k.setMark n v).tags = k.tags := rfl
@[simp] theorem Core.setMark_mvBuf (k : Core) (n : Nat) (v : W64) : (k.setMark n v).mvBuf = k.mvBuf := rfl
@[simp] theorem Core.setMark_remote (k : Core) (n : Nat) (v : W64) : (k.setMark n v).remote = k.remote := rfl
@[simp] theorem Core.setMark_ledReg (k : Core) (n : Nat) (v : W64) : (k.setMark n v).ledReg = k.ledReg := rfl
@[simp] theorem Core.setMark_remRead (k : Core) (n : Nat) (v : W64) : (k.setMark n v).remRead = k.remRead := rfl
@[simp] theorem Core.setMark_winPorts (k : Core) (n : Nat) (v : W64) : (k.setMark n v).winPorts = k.winPorts := rfl
@[simp] theorem Core.setMark_winLines (k : Core) (n : Nat) (v : W64) : (k.setMark n v).winLines = k.winLines := rfl
@[simp] theorem Core.setMark_mvLast (k : Core) (n : Nat) (v : W64) : (k.setMark n v).mvLast = k.mvLast := rfl
@[simp] theorem Core.setMark_escaped (k : Core) (n : Nat) (v : W64) : (k.setMark n v).escaped = k.escaped := rfl
@[simp] theorem Core.setMark_barFail (k : Core) (n : Nat) (v : W64) : (k.setMark n v).barFail = k.barFail := rfl
@[simp] theorem Core.setMark_ann (k : Core) (n : Nat) (v : W64) : (k.setMark n v).ann = k.ann := rfl

/-! ### The register files of a core (R78) -/

/-- s0 reads as zero. -/
@[simp] theorem Core.sr_zero (k : Core) : k.sr 0 = 0 := rfl

/-- p0 reads as true. -/
@[simp] theorem Core.pr_zero (k : Core) : k.pr 0 = true := rfl

/-- A register reads as what was written; s0 discards the write. -/
theorem Core.sr_setSr (k : Core) (n j : Nat) (v : W64) : (k.setSr n v).sr j = if j = n ∧ n ≠ 0 then v else k.sr j := by
  unfold Core.sr Core.setSr
  by_cases hn : n = 0
  · subst hn; simp
  · by_cases hj : j = 0
    · subst hj; simp [hn, Ne.symm hn]
    · by_cases h : j = n
      · subst h; simp [hj]
      · simp [hn, hj, h, mapGet_mapSet_ne _ _ _ (Ne.symm h)]

theorem Core.mr_setMr (k : Core) (n j : Nat) (v : W64) : (k.setMr n v).mr j = if n = j then v else k.mr j := mapGet_mapSet ..

/-- A predicate reads as what was written; p0 discards the write. -/
theorem Core.pr_setPr (k : Core) (n j : Nat) (b : Bool) (hn : n < 8) (hj : j < 8) :
    (k.setPr n b).pr j = if j = n ∧ n ≠ 0 then b else k.pr j := by
  have hb (x : BitVec 8) : bit x.toNat j = x.getLsbD j := by
    simp [bit, BitVec.getLsbD, Nat.testBit, Nat.shiftRight_eq_div_pow, Nat.one_and_eq_mod_two, Nat.mod_two_bne_zero]
  have hm : (BitVec.ofNat 8 (2 ^ n)).getLsbD j = decide (n = j) := by
    rw [BitVec.getLsbD_ofNat, Nat.testBit_two_pow]; simp [hj]
  have hj8 : decide (j < 8) = true := decide_eq_true hj
  unfold Core.pr Core.setPr
  by_cases h0 : n = 0
  · subst h0; simp
  · rw [hb, hb]
    cases b
    · rw [if_neg h0, if_neg (by decide), BitVec.getLsbD_and, BitVec.getLsbD_not, hm, hj8]
      by_cases h : j = n
      · subst h; simp [h0]
      · simp [h, Ne.symm h]
    · rw [if_neg h0, if_pos rfl, BitVec.getLsbD_or, hm]
      by_cases h : j = n
      · subst h; simp [h0]
      · simp [h, Ne.symm h]

@[simp] theorem Core.sr_dropPend (k : Core) (r : PendReg) (n : Nat) : (k.dropPend r).sr n = k.sr n := rfl
@[simp] theorem Core.pr_dropPend (k : Core) (r : PendReg) (n : Nat) : (k.dropPend r).pr n = k.pr n := rfl
@[simp] theorem Core.mr_dropPend (k : Core) (r : PendReg) (n : Nat) : (k.dropPend r).mr n = k.mr n := rfl
@[simp] theorem Core.pr_setSr (k : Core) (n : Nat) (v : W64) (j : Nat) : (k.setSr n v).pr j = k.pr j := by simp [Core.pr]
@[simp] theorem Core.mr_setSr (k : Core) (n : Nat) (v : W64) (j : Nat) : (k.setSr n v).mr j = k.mr j := by simp [Core.mr]
@[simp] theorem Core.sr_setPr (k : Core) (n : Nat) (b : Bool) (j : Nat) : (k.setPr n b).sr j = k.sr j := by simp [Core.sr]
@[simp] theorem Core.mr_setPr (k : Core) (n : Nat) (b : Bool) (j : Nat) : (k.setPr n b).mr j = k.mr j := by simp [Core.mr]
@[simp] theorem Core.sr_setMr (k : Core) (n : Nat) (v : W64) (j : Nat) : (k.setMr n v).sr j = k.sr j := rfl
@[simp] theorem Core.pr_setMr (k : Core) (n : Nat) (v : W64) (j : Nat) : (k.setMr n v).pr j = k.pr j := rfl

end Sys2Proof.Machine
end

