-- ==== Sys2Proof/Laws/Evolve.lean ====
section
/-!
SUPPORT. How one state follows another (State.Follows): it is reflexive and transitive, every update operation gives a state that follows, and so
does a loop of such updates. The files beside this one say the same of every operation of the machine.
-/
namespace Sys2Proof.Machine

theorem Flash.Keeps.refl (f : Flash) : f.Keeps f := ⟨fun _ h => h, Nat.le_refl _, fun h => h, fun _ h => h, Nat.le_refl _⟩

theorem Flash.Keeps.trans {f g h : Flash} (a : f.Keeps g) (b : g.Keeps h) : f.Keeps h :=
  ⟨fun i x => b.revoked i (a.revoked i x), Nat.le_trans a.arb b.arb, fun x => b.debugKill (a.debugKill x),
    fun c x => b.mapout c (a.mapout c x), Nat.le_trans a.trips b.trips⟩

theorem State.Follows.refl (s : State) : s.Follows s :=
  ⟨rfl, List.prefix_refl _, Nat.le_refl _, Flash.Keeps.refl _, fun h => h⟩

theorem State.Follows.trans {s t u : State} (a : s.Follows t) (b : t.Follows u) : s.Follows u :=
  ⟨b.pending.trans a.pending, a.outbox.trans b.outbox, Nat.le_trans a.free b.free, a.flash.trans b.flash, fun h => b.canonical (a.canonical h)⟩

/-- An update of other components. -/
theorem State.Follows.upd {s t u : State} (h : s.Follows t) (hp : u.pending = t.pending) (hm : u.mem = t.mem) (hr : u.regs = t.regs)
    (ho : u.poison = t.poison) (hf : u.flash = t.flash) (hb : u.outbox = t.outbox) (hn : u.free = t.free) : s.Follows u :=
  ⟨hp.trans h.pending, hb ▸ h.outbox, hn ▸ h.free, hf ▸ h.flash,
    fun c => let x := h.canonical c; ⟨hm ▸ x.mem, hr ▸ x.regs, ho ▸ x.poison⟩⟩

/-- The same of a state written out field by field. -/
theorem State.Follows.with {s t : State} (h : s.Follows t) {a2 a3 a4 a5 a6 a7 a8 a9 a10 a11 a12 a13 a14 a15 a16} :
    s.Follows (State.mk t.pending t.regs t.mem t.poison a2 a3 a4 a5 a6 a7 a8 a9 a10 a11 a12 a13 a14 t.flash a15 t.outbox a16 t.free) :=
  h.upd rfl rfl rfl rfl rfl rfl rfl

/-- The flash holds what this part of it held, and its permanent records are untouched. -/
theorem Flash.Keeps.other (f : Flash) {a b c d e g i j} : f.Keeps (Flash.mk a b c f.revoked f.arb f.debugKill d e g f.mapout f.tripCount i j) :=
  ⟨fun _ h => h, Nat.le_refl _, fun h => h, fun _ h => h, Nat.le_refl _⟩

/-- An update of the flash that keeps its records, and of other components. -/
theorem State.Follows.flashes {s t : State} {f : Flash} (h : s.Follows t) (hf : t.flash.Keeps f)
    {a2 a3 a4 a5 a6 a7 a8 a9 a10 a11 a12 a13 a14 a15 a16} :
    s.Follows (State.mk t.pending t.regs t.mem t.poison a2 a3 a4 a5 a6 a7 a8 a9 a10 a11 a12 a13 a14 f a15 t.outbox a16 t.free) :=
  ⟨h.pending, h.outbox, h.free, h.flash.trans hf, fun c => let x := h.canonical c; ⟨x.mem, x.regs, x.poison⟩⟩

/-- Parts of memory and of the poison marks are dropped. -/
theorem State.Follows.drops {s t : State} (h : s.Follows t) (p : Host.Cell → Bool) (q : Nat → Bool)
    {a2 a3 a4 a5 a6 a7 a8 a9 a10 a11 a12 a13 a14 a15 a16} :
    s.Follows (State.mk t.pending t.regs (t.mem.filter p) (t.poison.filter q) a2 a3 a4 a5 a6 a7 a8 a9 a10 a11 a12 a13 a14 t.flash a15 t.outbox a16
      t.free) :=
  ⟨h.pending, h.outbox, h.free, h.flash, fun c =>
    let x := h.canonical c; ⟨mapWf_filter _ _ _ x.mem, x.regs, setSorted_filter _ _ x.poison⟩⟩

/-- Free values are drawn, and other components change. -/
theorem State.Follows.draws {s t : State} (h : s.Follows t) {a2 a3 a4 a5 a6 a7 a8 a9 a10 a11 a12 a13 a14 a15 a16} {n : Nat} :
    s.Follows (State.mk t.pending t.regs t.mem t.poison a2 a3 a4 a5 a6 a7 a8 a9 a10 a11 a12 a13 a14 t.flash a15 t.outbox a16 (t.free + n)) :=
  ⟨h.pending, h.outbox, Nat.le_trans h.free (Nat.le_add_right ..), h.flash, fun c => let x := h.canonical c; ⟨x.mem, x.regs, x.poison⟩⟩

/-- Registers go back to what an unlisted one reads as. -/
theorem State.Follows.regsDrop {s t : State} (h : s.Follows t) (p : Nat × W64 → Bool) :
    s.Follows { t with regs := t.regs.filter p } :=
  ⟨h.pending, h.outbox, h.free, h.flash, fun c => let x := h.canonical c; ⟨x.mem, mapWf_filter _ _ _ x.regs, x.poison⟩⟩

theorem State.setReg_follows {s t : State} (h : s.Follows t) (a : Nat) (v : W64) : s.Follows (t.setReg a v) :=
  ⟨h.pending, h.outbox, h.free, h.flash, fun c => let x := h.canonical c; ⟨x.mem, mapWf_mapSet _ _ _ _ x.regs, x.poison⟩⟩

theorem State.put_follows {s t : State} (h : s.Follows t) (a : Nat) (f : Fld) (v : Nat) : s.Follows (t.put a f v) := State.setReg_follows h _ _
theorem State.setFlag_follows {s t : State} (h : s.Follows t) (a : Nat) (f : Fld) (b : Bool) : s.Follows (t.setFlag a f b) := State.setReg_follows h _ _
theorem State.incSat_follows {s t : State} (h : s.Follows t) (a : Nat) (f : Fld) : s.Follows (t.incSat a f) := State.setReg_follows h _ _
theorem State.addSat_follows {s t : State} (h : s.Follows t) (a : Nat) (f : Fld) (n : Nat) : s.Follows (t.addSat a f n) := State.setReg_follows h _ _
theorem State.addWrap_follows {s t : State} (h : s.Follows t) (a : Nat) (f : Fld) (n : Nat) : s.Follows (t.addWrap a f n) := State.setReg_follows h _ _
theorem State.setGmap_follows {s t : State} (h : s.Follows t) (g : Nat) (f : Nat → Fld) (v : Nat) : s.Follows (t.setGmap g f v) := State.setReg_follows h _ _

theorem State.setByte_follows {s t : State} (h : s.Follows t) (a : Nat) (v : Byte) : s.Follows (t.setByte a v) :=
  ⟨h.pending, h.outbox, h.free, h.flash, fun c => let x := h.canonical c; ⟨mapWf_mapSet _ _ _ _ x.mem, x.regs, x.poison⟩⟩

theorem State.setBytes_follows {s t : State} (h : s.Follows t) (a : Nat) (bs : List Byte) : s.Follows (t.setBytes a bs) := by
  induction bs generalizing t a with
  | nil => exact h
  | cons b bs ih => exact ih (State.setByte_follows h a b) (a + 1)

theorem State.setPoison_follows {s t : State} (h : s.Follows t) (a : Nat) (b : Bool) : s.Follows (t.setPoison a b) :=
  ⟨h.pending, h.outbox, h.free, h.flash, fun c =>
    let x := h.canonical c
    ⟨x.mem, x.regs, by
      show setSorted (if b then setIns t.poison (granule a) else setDel t.poison (granule a)) = true
      split
      · exact setSorted_setIns _ _ x.poison
      · exact setSorted_setDel _ _ x.poison⟩⟩

theorem State.setCore_follows {s t : State} (h : s.Follows t) (c : Nat) (k : Core) : s.Follows (t.setCore c k) := h.upd rfl rfl rfl rfl rfl rfl rfl
theorem State.modCore_follows {s t : State} (h : s.Follows t) (c : Nat) (f : Core → Core) : s.Follows (t.modCore c f) := h.upd rfl rfl rfl rfl rfl rfl rfl
theorem State.send_follows {s t : State} (h : s.Follows t) (x y : Ep) (l : LineNo) (b : MsgBody) : s.Follows (t.send x y l b) :=
  h.upd rfl rfl rfl rfl rfl rfl rfl
theorem State.recv_follows {s t : State} (h : s.Follows t) (m : Msg) : s.Follows (t.recv m) := h.upd rfl rfl rfl rfl rfl rfl rfl
theorem State.at_follows {s t : State} (h : s.Follows t) (n : Nat) : s.Follows (t.at n) := h.upd rfl rfl rfl rfl rfl rfl rfl

theorem State.out_follows {s t : State} (h : s.Follows t) (o : Out) : s.Follows (t.out o) :=
  ⟨h.pending, h.outbox.trans (List.prefix_append ..), h.free, h.flash, fun c => let x := h.canonical c; ⟨x.mem, x.regs, x.poison⟩⟩

theorem State.drawn_follows {s t : State} (h : s.Follows t) : s.Follows t.drawn :=
  ⟨h.pending, h.outbox, Nat.le_succ_of_le h.free, h.flash, fun c => let x := h.canonical c; ⟨x.mem, x.regs, x.poison⟩⟩

theorem foldl_follows {α : Type} {s : State} (f : State → α → State) (hf : ∀ t x, s.Follows t → s.Follows (f t x)) (l : List α) {t : State}
    (h : s.Follows t) : s.Follows (l.foldl f t) := by
  induction l generalizing t with
  | nil => exact h
  | cons x l ih => exact ih (hf t x h)

theorem forEach_follows {α : Type} {s : State} (l : List α) {t : State} (f : State → α → State) (h : s.Follows t)
    (hf : ∀ t x, s.Follows t → s.Follows (f t x)) : s.Follows (forEach l t f) := foldl_follows f hf l h

theorem foldl_fst_follows {α β : Type} {s : State} (f : State × β → α → State × β) (hf : ∀ t x, s.Follows t.1 → s.Follows (f t x).1) (l : List α)
    {t : State × β} (h : s.Follows t.1) : s.Follows (l.foldl f t).1 := by
  induction l generalizing t with
  | nil => exact h
  | cons x l ih => exact ih (hf t x h)

theorem follows_of_eq {β : Type} {s t : State} {x : β} {p : State × β} (e : p = (t, x)) (h : s.Follows p.1) : s.Follows t := by
  rw [e] at h; exact h

/-- A state that is named in the middle of a definition: what follows holds for the name. -/
theorem follows_let {s x v : State} {P : Prop} (e : x = v) (hv : s.Follows v) (k : s.Follows x → P) : P := k (e ▸ hv)

theorem follows_let_fst {β : Type} {s : State} {x v : State × β} {P : Prop} (e : x = v) (hv : s.Follows v.1) (k : s.Follows x.1 → P) : P :=
  k (e ▸ hv)

theorem follows_let_fun {s : State} {x v : State → State} {P : Prop} (e : x = v) (hv : ∀ t, s.Follows t → s.Follows (v t))
    (k : (∀ t, s.Follows t → s.Follows (x t)) → P) : P := k (e ▸ hv)

theorem follows_let_fun2 {β : Type} {s : State} {x v : State → β → State} {P : Prop} (e : x = v) (hv : ∀ t b, s.Follows t → s.Follows (v t b))
    (k : (∀ t b, s.Follows t → s.Follows (x t b)) → P) : P := k (e ▸ hv)

end Sys2Proof.Machine
end

