-- ==== Sys2Proof/Laws/FollowOps.lean ====
section
/-!
SUPPORT. Every operation of Machine/Ops.lean gives a state that follows the one it is given.
-/
namespace Sys2Proof.Machine

theorem State.setFields_follows {b₀ : State} {s : State} (Hs : b₀.Follows s) (off : Nat) (v : W64) : b₀.Follows (State.setFields s off v) := by
  unfold State.setFields
  try dsimp only
  repeat' first
    | with_reducible assumption | with_reducible apply State.setReg_follows

theorem State.growFree_follows {b₀ : State} {s : State} (Hs : b₀.Follows s) (off : Nat) (f : Fld) : b₀.Follows (State.growFree s off f) := by
  unfold State.growFree
  try dsimp only
  repeat' first
    | with_reducible assumption | with_reducible apply State.addSat_follows | with_reducible apply State.drawn_follows

theorem countCycles_follows {b₀ : State} {s : State} (Hs : b₀.Follows s) (c : Nat) : b₀.Follows (countCycles s c) := by
  unfold countCycles
  try dsimp only
  repeat' first
    | with_reducible assumption | with_reducible apply State.growFree_follows | split

theorem countTimer_follows {b₀ : State} {s : State} (Hs : b₀.Follows s) : b₀.Follows (countTimer s) := by
  unfold countTimer
  try dsimp only
  repeat' first
    | with_reducible assumption | with_reducible apply State.put_follows | with_reducible apply State.drawn_follows | split

theorem settleCycles_follows {b₀ : State} {s : State} (Hs : b₀.Follows s) : b₀.Follows (settleCycles s) := by
  unfold settleCycles
  try dsimp only
  repeat' first
    | with_reducible assumption | with_reducible apply countTimer_follows | with_reducible apply countCycles_follows
    | (with_reducible refine foldl_follows _ (fun _ _ _ => ?_) _ ?_)

theorem setChan_follows {b₀ : State} {s : State} (Hs : b₀.Follows s) (c : Nat) (st : Nat) : b₀.Follows (setChan s c st) := by
  unfold setChan
  try dsimp only
  repeat' first
    | with_reducible assumption | with_reducible apply State.put_follows

end Sys2Proof.Machine
end

