-- ==== Sys2Proof/Laws/FollowEvent.lean ====
section
/-!
SUPPORT. Every operation of Machine/Event.lean gives a state that follows the one it is given.
-/
namespace Sys2Proof.Machine

theorem State.setPort_follows {b₀ : State} {s : State} (Hs : b₀.Follows s) (p : Nat) (h : HostPort) : b₀.Follows (State.setPort s p h) := by
  unfold State.setPort
  try dsimp only
  repeat' first
    | with_reducible assumption | split | with_reducible apply State.Follows.with

theorem sendMsix_follows {b₀ : State} {s : State} (Hs : b₀.Follows s) (p : Nat) (v : Nat) (owner : Option Nat) : b₀.Follows (sendMsix s p v owner).1 := by
  unfold sendMsix
  try dsimp only
  repeat' first
    | with_reducible assumption | with_reducible apply State.setPort_follows | with_reducible apply State.incSat_follows
    | with_reducible apply State.out_follows | split

theorem routeCore_follows {b₀ : State} {s : State} (Hs : b₀.Follows s) (die : Nat) (n : Nat) : b₀.Follows (routeCore s die n) := by
  unfold routeCore
  try dsimp only
  repeat' first
    | with_reducible assumption | with_reducible apply State.addWrap_follows | with_reducible apply State.modCore_follows | split

theorem hostMessage_follows {b₀ : State} {s : State} (Hs : b₀.Follows s) (die : Nat) (n : Nat) : b₀.Follows (hostMessage s die n) := by
  unfold hostMessage
  try dsimp only
  repeat' first
    | with_reducible assumption | with_reducible apply sendMsix_follows | with_reducible apply State.setFlag_follows

theorem routeHost_follows {b₀ : State} {s : State} (Hs : b₀.Follows s) (die : Nat) (n : Nat) (edge : Bool) : b₀.Follows (routeHost s die n edge) := by
  unfold routeHost
  try dsimp only
  repeat' first
    | with_reducible assumption | with_reducible apply hostMessage_follows | with_reducible apply State.setFlag_follows | split

theorem returnBegin_follows {b₀ : State} {s : State} (Hs : b₀.Follows s) (woke : Option Nat) : b₀.Follows (returnBegin s woke) := by
  unfold returnBegin
  try dsimp only
  repeat' first
    | with_reducible assumption | (with_reducible refine forEach_follows _ _ ?_ (fun _ _ _ => ?_)) | with_reducible apply setChan_follows | split
    | with_reducible apply State.Follows.with

theorem watchWake_follows {b₀ : State} {s : State} (Hs : b₀.Follows s) (e : Nat) : b₀.Follows (watchWake s e) := by
  unfold watchWake
  try dsimp only
  repeat' first
    | with_reducible assumption | with_reducible apply returnBegin_follows | with_reducible apply State.put_follows
    | with_reducible apply State.setFlag_follows | split

theorem watchSource_follows {b₀ : State} {s : State} (Hs : b₀.Follows s) (die : Nat) (n : Nat) : b₀.Follows (watchSource s die n) := by
  unfold watchSource
  try dsimp only
  repeat' first
    | with_reducible assumption | with_reducible apply watchWake_follows | split | with_reducible apply State.Follows.with

theorem routeDie_follows {b₀ : State} {s : State} (Hs : b₀.Follows s) (die : Nat) (n : Nat) : b₀.Follows (routeDie s die n) := by
  unfold routeDie
  try dsimp only
  repeat' first
    | with_reducible assumption | with_reducible apply State.setFlag_follows | with_reducible apply State.addWrap_follows | split

theorem raiseEdge_follows {b₀ : State} {s : State} (Hs : b₀.Follows s) (die : Nat) (n : Nat) : b₀.Follows (raiseEdge s die n) := by
  unfold raiseEdge
  try dsimp only
  repeat' first
    | with_reducible assumption | with_reducible apply watchSource_follows | with_reducible apply routeCore_follows
    | with_reducible apply routeHost_follows | with_reducible apply routeDie_follows | split

theorem sampleLevel_follows {b₀ : State} {s : State} (Hs : b₀.Follows s) (die : Nat) (n : Nat) : b₀.Follows (sampleLevel s die n) := by
  unfold sampleLevel
  try dsimp only
  repeat' first
    | with_reducible assumption | with_reducible apply State.setFlag_follows | split

theorem setLevel_follows {b₀ : State} {s : State} (Hs : b₀.Follows s) (die : Nat) (n : Nat) (v : Bool) : b₀.Follows (setLevel s die n v) := by
  unfold setLevel
  try dsimp only
  repeat' first
    | with_reducible assumption | with_reducible apply watchSource_follows | with_reducible apply routeCore_follows
    | with_reducible apply routeHost_follows | with_reducible apply sampleLevel_follows | with_reducible apply State.setFlag_follows | split

theorem State.setCpu_follows {b₀ : State} {s : State} (Hs : b₀.Follows s) (die : Nat) (c : Nat) (v : EvcCpu) : b₀.Follows (State.setCpu s die c v) := by
  unfold State.setCpu
  try dsimp only
  repeat' first
    | with_reducible assumption | with_reducible apply State.Follows.with

theorem takeSource_follows {b₀ : State} {s : State} (Hs : b₀.Follows s) (die : Nat) (c : Nat) (n : Nat) (fast : Bool) : b₀.Follows (takeSource s die c n fast) := by
  unfold takeSource
  try dsimp only
  repeat' first
    | with_reducible assumption | with_reducible apply State.setFlag_follows | with_reducible apply State.out_follows

theorem deliverNormal_follows {b₀ : State} {s : State} (Hs : b₀.Follows s) (die : Nat) (c : Nat) : b₀.Follows (deliverNormal s die c) := by
  unfold deliverNormal
  try dsimp only
  repeat' first
    | with_reducible assumption | with_reducible apply takeSource_follows | with_reducible apply State.setCpu_follows | split

theorem deliverFast_follows {b₀ : State} {s : State} (Hs : b₀.Follows s) (die : Nat) (c : Nat) : b₀.Follows (deliverFast s die c) := by
  unfold deliverFast
  try dsimp only
  repeat' first
    | with_reducible assumption | with_reducible apply takeSource_follows | with_reducible apply State.setCpu_follows | split

theorem orderFault_follows {b₀ : State} {s : State} (Hs : b₀.Follows s) (die : Nat) (c : Nat) (written : Nat) (top : Option Nat) : b₀.Follows (orderFault s die c written top) := by
  unfold orderFault
  try dsimp only
  repeat' first
    | with_reducible assumption | with_reducible apply raiseEdge_follows | with_reducible apply State.put_follows
    | with_reducible apply State.setFlag_follows | with_reducible apply State.incSat_follows

theorem completeSource_follows {b₀ : State} {s : State} (Hs : b₀.Follows s) (die : Nat) (n : Nat) : b₀.Follows (completeSource s die n) := by
  unfold completeSource
  try dsimp only
  repeat' first
    | with_reducible assumption | with_reducible apply sampleLevel_follows | with_reducible apply State.setFlag_follows | split

theorem evcComplete_follows {b₀ : State} {s : State} (Hs : b₀.Follows s) (die : Nat) (c : Nat) (n : Nat) : b₀.Follows (evcComplete s die c n) := by
  unfold evcComplete
  try dsimp only
  repeat' first
    | with_reducible assumption | with_reducible apply completeSource_follows | with_reducible apply State.setCpu_follows
    | with_reducible apply orderFault_follows | split

theorem evcFastComplete_follows {b₀ : State} {s : State} (Hs : b₀.Follows s) (die : Nat) (c : Nat) (n : Nat) : b₀.Follows (evcFastComplete s die c n) := by
  unfold evcFastComplete
  try dsimp only
  repeat' first
    | with_reducible assumption | with_reducible apply completeSource_follows | with_reducible apply State.setCpu_follows
    | with_reducible apply orderFault_follows | split

theorem hostAck_follows {b₀ : State} {s : State} (Hs : b₀.Follows s) (die : Nat) (n : Nat) : b₀.Follows (hostAck s die n) := by
  unfold hostAck
  try dsimp only
  repeat' first
    | with_reducible assumption | with_reducible apply hostMessage_follows | with_reducible apply State.setFlag_follows | split

theorem evcSrcWrite_follows {b₀ : State} {s : State} (Hs : b₀.Follows s) (die : Nat) (n : Nat) (v : W64) (fw : Bool) : b₀.Follows (evcSrcWrite s die n v fw) := by
  unfold evcSrcWrite
  try dsimp only
  repeat' first
    | with_reducible assumption | with_reducible apply sampleLevel_follows | with_reducible apply State.setReg_follows
    | with_reducible apply State.setFlag_follows | split

theorem watchTimerExpire_follows {b₀ : State} {s : State} (Hs : b₀.Follows s) : b₀.Follows (watchTimerExpire s) := by
  unfold watchTimerExpire
  try dsimp only
  repeat' first
    | with_reducible assumption | with_reducible apply raiseEdge_follows | with_reducible apply State.put_follows | split

theorem execEventRaise_follows {b₀ s : State} (Hs : b₀.Follows s) (die : DieIx) (n : SrcId) : ∃ u₁, (execEventRaise die n s) = .next u₁ ∧ b₀.Follows u₁ := by
  unfold execEventRaise
  try dsimp only
  repeat' first
    | with_reducible assumption | with_reducible apply raiseEdge_follows | (with_reducible refine ⟨_, rfl, ?_⟩)

theorem execLevelChange_follows {b₀ s : State} (Hs : b₀.Follows s) (die : DieIx) (n : SrcId) (v : Bool) : ∃ u₁, (execLevelChange die n v s) = .next u₁ ∧ b₀.Follows u₁ := by
  unfold execLevelChange
  try dsimp only
  repeat' first
    | with_reducible assumption | with_reducible apply setLevel_follows | (with_reducible refine ⟨_, rfl, ?_⟩)

theorem execEventDeliver_follows {b₀ s : State} (Hs : b₀.Follows s) (die : DieIx) (c : Fin 4) : ∃ u₁, (execEventDeliver die c s) = .next u₁ ∧ b₀.Follows u₁ := by
  unfold execEventDeliver
  try dsimp only
  repeat' first
    | with_reducible assumption | with_reducible apply deliverNormal_follows | (with_reducible refine ⟨_, rfl, ?_⟩)

theorem execFastEventDeliver_follows {b₀ s : State} (Hs : b₀.Follows s) (die : DieIx) (c : Fin 4) : ∃ u₁, (execFastEventDeliver die c s) = .next u₁ ∧ b₀.Follows u₁ := by
  unfold execFastEventDeliver
  try dsimp only
  repeat' first
    | with_reducible assumption | with_reducible apply deliverFast_follows | (with_reducible refine ⟨_, rfl, ?_⟩)

theorem execEvcDone_follows {b₀ s : State} (Hs : b₀.Follows s) (die : DieIx) (c : Fin 4) (n : SrcId) : ∃ u₁, (execEvcDone die c n s) = .next u₁ ∧ b₀.Follows u₁ := by
  unfold execEvcDone
  try dsimp only
  repeat' first
    | with_reducible assumption | with_reducible apply evcComplete_follows | (with_reducible refine ⟨_, rfl, ?_⟩)

theorem execEvcFastDone_follows {b₀ s : State} (Hs : b₀.Follows s) (die : DieIx) (c : Fin 4) (n : SrcId) : ∃ u₁, (execEvcFastDone die c n s) = .next u₁ ∧ b₀.Follows u₁ := by
  unfold execEvcFastDone
  try dsimp only
  repeat' first
    | with_reducible assumption | with_reducible apply evcFastComplete_follows | (with_reducible refine ⟨_, rfl, ?_⟩)

theorem execEvcHostAck_follows {b₀ s : State} (Hs : b₀.Follows s) (die : DieIx) (n : SrcId) : ∃ u₁, (execEvcHostAck die n s) = .next u₁ ∧ b₀.Follows u₁ := by
  unfold execEvcHostAck
  try dsimp only
  repeat' first
    | with_reducible assumption | with_reducible apply hostAck_follows | (with_reducible refine ⟨_, rfl, ?_⟩) | split

theorem execEvcSwSet_follows {b₀ s : State} (Hs : b₀.Follows s) (die : DieIx) (n : Fin 32) : ∃ u₁, (execEvcSwSet die n s) = .next u₁ ∧ b₀.Follows u₁ := by
  unfold execEvcSwSet
  try dsimp only
  repeat' first
    | with_reducible assumption | with_reducible apply raiseEdge_follows | (with_reducible refine ⟨_, rfl, ?_⟩) | split

theorem execEvcSrc_follows {b₀ s : State} (Hs : b₀.Follows s) (die : DieIx) (n : SrcId) (v : W64) (fw : Bool) : ∃ u₁, (execEvcSrc die n v fw s) = .next u₁ ∧ b₀.Follows u₁ := by
  unfold execEvcSrc
  try dsimp only
  repeat' first
    | with_reducible assumption | with_reducible apply evcSrcWrite_follows | (with_reducible refine ⟨_, rfl, ?_⟩) | split

theorem execWatchTimer_follows {b₀ s : State} (Hs : b₀.Follows s)  : ∃ u₁, (execWatchTimer s) = .next u₁ ∧ b₀.Follows u₁ := by
  unfold execWatchTimer
  try dsimp only
  repeat' first
    | with_reducible assumption | with_reducible apply watchTimerExpire_follows | (with_reducible refine ⟨_, rfl, ?_⟩)

end Sys2Proof.Machine
end

