-- ==== Sys2Proof/Laws/FollowErrorRec.lean ====
section
/-!
SUPPORT. Every operation of Machine/ErrorRec.lean gives a state that follows the one it is given.
-/
namespace Sys2Proof.Machine

theorem errStore_follows {b₀ : State} {s : State} (Hs : b₀.Follows s) (die : Nat) (r : ErrRec) : b₀.Follows (errStore s die r) := by
  unfold errStore
  try dsimp only
  repeat' first
    | with_reducible assumption | with_reducible apply raiseEdge_follows | with_reducible apply State.setReg_follows
    | with_reducible apply State.put_follows | split | with_reducible apply State.Follows.with

theorem errWrite_follows {b₀ : State} {s : State} (Hs : b₀.Follows s) (die : Nat) (r : ErrRec) : b₀.Follows (errWrite s die r) := by
  unfold errWrite
  try dsimp only
  repeat' first
    | with_reducible assumption | with_reducible apply errStore_follows | with_reducible apply State.drawn_follows | split

theorem errRecord_follows {b₀ : State} {s : State} (Hs : b₀.Follows s) (die : Nat) (r : ErrRec) : b₀.Follows (errRecord s die r) := by
  unfold errRecord
  try dsimp only
  repeat' first
    | with_reducible assumption | with_reducible apply errWrite_follows | with_reducible apply State.setFlag_follows
    | with_reducible apply State.incSat_follows | with_reducible apply State.addWrap_follows | split

theorem errConsume_follows {b₀ : State} {s : State} (Hs : b₀.Follows s) (die : Nat) (v : Nat) : b₀.Follows (errConsume s die v) := by
  unfold errConsume
  try dsimp only
  repeat' first
    | with_reducible assumption | with_reducible apply State.put_follows | split

theorem errArm_follows {b₀ : State} {s : State} (Hs : b₀.Follows s) (die : Nat) (core : CoreId) (kind : BitVec 2) (unit : BitVec 4) : b₀.Follows (errArm s die core kind unit) := by
  unfold errArm
  try dsimp only
  repeat' first
    | with_reducible assumption | split | with_reducible apply State.Follows.with

theorem State.disarm_follows {b₀ : State} {s : State} (Hs : b₀.Follows s) (die : Nat) : b₀.Follows (State.disarm s die) := by
  unfold State.disarm
  try dsimp only
  repeat' first
    | with_reducible assumption | with_reducible apply State.Follows.with

theorem execErrRingConsume_follows {b₀ s : State} (Hs : b₀.Follows s) (die : DieIx) (v : BitVec 32) : ∃ u₁, (execErrRingConsume die v s) = .next u₁ ∧ b₀.Follows u₁ := by
  unfold execErrRingConsume
  try dsimp only
  repeat' first
    | with_reducible assumption | with_reducible apply errConsume_follows | (with_reducible refine ⟨_, rfl, ?_⟩) | split

theorem execErrInject_follows {b₀ s : State} (Hs : b₀.Follows s) (die : DieIx) (core : CoreId) (kind : BitVec 2) (unit : BitVec 4) : ∃ u₁, (execErrInject die core kind unit s) = .next u₁ ∧ b₀.Follows u₁ := by
  unfold execErrInject
  try dsimp only
  repeat' first
    | with_reducible assumption | with_reducible apply errArm_follows | (with_reducible refine ⟨_, rfl, ?_⟩) | split

end Sys2Proof.Machine
end

