-- ==== Sys2Proof/Laws/FollowCeralOps.lean ====
section
/-!
SUPPORT. Every operation of Machine/CeralOps.lean gives a state that follows the one it is given.
-/
namespace Sys2Proof.Machine

theorem State.setBun_follows {b₀ : State} {s : State} (Hs : b₀.Follows s) (i : Nat) (l : Nat) (b : Nat) (e : BunEnd) : b₀.Follows (State.setBun s i l b e) := by
  unfold State.setBun
  try dsimp only
  repeat' first
    | with_reducible assumption | with_reducible apply State.Follows.with

theorem markBundle_follows {b₀ : State} {s : State} (Hs : b₀.Follows s) (i : Nat) (l : Nat) (b : Nat) (change : Nat) : b₀.Follows (markBundle s i l b change) := by
  unfold markBundle
  try dsimp only
  repeat' first
    | with_reducible assumption | with_reducible apply State.put_follows

theorem laneFail_follows {b₀ : State} {s : State} (Hs : b₀.Follows s) (i : Nat) (l : Nat) (b : Nat) (p : Nat) : b₀.Follows (laneFail s i l b p) := by
  unfold laneFail
  try dsimp only
  repeat' first
    | with_reducible assumption | with_reducible apply State.setBun_follows | with_reducible apply raiseEdge_follows
    | with_reducible apply errRecord_follows | with_reducible apply markBundle_follows | with_reducible apply State.put_follows

theorem attributeErr_follows {b₀ : State} {s : State} (Hs : b₀.Follows s) (i : Nat) (l : Nat) (b : Nat) (old : BitVec 1536) (new : BitVec 1536) : b₀.Follows (attributeErr s i l b old new) := by
  unfold attributeErr
  try dsimp only
  repeat' first
    | with_reducible assumption | with_reducible apply State.setBun_follows | (with_reducible refine forEach_follows _ _ ?_ (fun _ _ _ => ?_))
    | with_reducible apply laneFail_follows | with_reducible apply State.put_follows

theorem sendMoved_follows {b₀ : State} {s : State} (Hs : b₀.Follows s) (i : Nat) (l : Nat) (b : Nat) : b₀.Follows (sendMoved s i l b) := by
  unfold sendMoved
  try dsimp only
  repeat' first
    | with_reducible assumption | (with_reducible refine forEach_follows _ _ ?_ (fun _ _ _ => ?_)) | with_reducible apply State.setBun_follows
    | with_reducible apply State.out_follows | split

theorem sendAck_follows {b₀ : State} {s : State} (Hs : b₀.Follows s) (i : Nat) (l : Nat) (b : Nat) (nak : Bool) : b₀.Follows (sendAck s i l b nak) := by
  unfold sendAck
  try dsimp only
  repeat' first
    | with_reducible assumption | with_reducible apply State.out_follows

theorem flitAccept_follows {b₀ : State} {s : State} (Hs : b₀.Follows s) (i : Nat) (l : Nat) (b : Nat) (f : BitVec 1536) : b₀.Follows (flitAccept s i l b f) := by
  unfold flitAccept
  try dsimp only
  repeat' first
    | with_reducible assumption | with_reducible apply State.setBun_follows | with_reducible apply sendAck_follows
    | with_reducible apply attributeErr_follows | with_reducible apply State.out_follows | split

theorem flitArrives_follows {b₀ : State} {s : State} (Hs : b₀.Follows s) (i : Nat) (l : Nat) (b : Nat) (f : BitVec 1536) : b₀.Follows (flitArrives s i l b f) := by
  unfold flitArrives
  try dsimp only
  repeat' first
    | with_reducible assumption | with_reducible apply sendMoved_follows | with_reducible apply State.setBun_follows
    | with_reducible apply flitAccept_follows | with_reducible apply sendAck_follows | with_reducible apply State.incSat_follows | split

theorem flitReceive_follows {b₀ : State} {s : State} (Hs : b₀.Follows s) (i : Nat) (l : Nat) (b : Nat) (sent : BitVec 1536) (err : BitVec 1536) : b₀.Follows (flitReceive s i l b sent err) := by
  unfold flitReceive
  try dsimp only
  repeat' first
    | with_reducible assumption | with_reducible apply flitArrives_follows | with_reducible apply State.setBun_follows | split

theorem linkCount_follows {b₀ : State} {s : State} (Hs : b₀.Follows s) (i : Nat) (l : Nat) : b₀.Follows (linkCount s i l) := by
  unfold linkCount
  try dsimp only
  repeat' first
    | with_reducible assumption | with_reducible apply State.put_follows | split

theorem linkDegrade_follows {b₀ : State} {s : State} (Hs : b₀.Follows s) (i : Nat) (l : Nat) : b₀.Follows (linkDegrade s i l) := by
  unfold linkDegrade
  try dsimp only
  repeat' first
    | with_reducible assumption | with_reducible apply raiseEdge_follows | with_reducible apply errRecord_follows | split
    | with_reducible apply State.Follows.with

theorem recount_follows {b₀ : State} {s : State} (Hs : b₀.Follows s) (i : Nat) (l : Nat) : b₀.Follows (recount s i l) := by
  unfold recount
  try dsimp only
  repeat' first
    | with_reducible assumption | with_reducible apply linkCount_follows | with_reducible apply linkDegrade_follows | split

theorem setWidth_follows {b₀ : State} {s : State} (Hs : b₀.Follows s) (i : Nat) (l : Nat) (b : Nat) (st : Nat) : b₀.Follows (setWidth s i l b st) := by
  unfold setWidth
  try dsimp only
  repeat' first
    | with_reducible assumption | with_reducible apply State.put_follows | split

theorem retable_follows {b₀ : State} {s : State} (Hs : b₀.Follows s) (i : Nat) (l : Nat) (b : Nat) (b' : Nat) : b₀.Follows (retable s i l b b') := by
  unfold retable
  try dsimp only
  repeat' first
    | with_reducible assumption | (with_reducible refine forEach_follows _ _ ?_ (fun _ _ _ => ?_)) | with_reducible apply State.setReg_follows

theorem moveFlits_follows {b₀ : State} {s : State} (Hs : b₀.Follows s) (i : Nat) (l : Nat) (b : Nat) (b' : Nat) (exp : Nat) : b₀.Follows (moveFlits s i l b b' exp) := by
  unfold moveFlits
  try dsimp only
  repeat' first
    | with_reducible assumption | with_reducible apply sendMoved_follows | with_reducible apply State.setBun_follows

theorem retireEnd_follows {b₀ : State} {s : State} (Hs : b₀.Follows s) (i : Nat) (l : Nat) (b : Nat) (cause : Nat) (exp : Nat) : b₀.Follows (retireEnd s i l b cause exp) := by
  unfold retireEnd
  try dsimp only
  repeat' first
    | with_reducible assumption | with_reducible apply moveFlits_follows | with_reducible apply retable_follows
    | with_reducible apply raiseEdge_follows | with_reducible apply State.put_follows | split

theorem retire_follows {b₀ : State} {s : State} (Hs : b₀.Follows s) (i : Nat) (l : Nat) (b : Nat) (cause : Nat) : b₀.Follows (retire s i l b cause) := by
  unfold retire
  try dsimp only
  repeat' first
    | with_reducible assumption | with_reducible apply setWidth_follows | with_reducible apply retireEnd_follows
    | with_reducible apply recount_follows | with_reducible apply errRecord_follows | split

theorem replayFlits_follows {b₀ : State} {s : State} (Hs : b₀.Follows s) (i : Nat) (l : Nat) (b : Nat) : b₀.Follows (replayFlits s i l b) := by
  unfold replayFlits
  try dsimp only
  repeat' first
    | with_reducible assumption | (with_reducible refine forEach_follows _ _ ?_ (fun _ _ _ => ?_)) | with_reducible apply State.setBun_follows
    | with_reducible apply State.out_follows

theorem nakReceive_follows {b₀ : State} {s : State} (Hs : b₀.Follows s) (i : Nat) (l : Nat) (b : Nat) (seq : Nat) : b₀.Follows (nakReceive s i l b seq) := by
  unfold nakReceive
  try dsimp only
  repeat' first
    | with_reducible assumption | with_reducible apply State.setBun_follows | with_reducible apply retire_follows
    | with_reducible apply sendMoved_follows | with_reducible apply replayFlits_follows | split

theorem ackTimer_follows {b₀ : State} {s : State} (Hs : b₀.Follows s) (i : Nat) (l : Nat) (b : Nat) : b₀.Follows (ackTimer s i l b) := by
  unfold ackTimer
  try dsimp only
  repeat' first
    | with_reducible assumption | with_reducible apply sendAck_follows | with_reducible apply State.setBun_follows | split

theorem windowEnd_follows {b₀ : State} {s : State} (Hs : b₀.Follows s) (i : Nat) (l : Nat) (b : Nat) : b₀.Follows (windowEnd s i l b) := by
  unfold windowEnd
  try dsimp only
  repeat' first
    | with_reducible assumption | with_reducible apply markBundle_follows | with_reducible apply State.setBun_follows
    | with_reducible apply State.put_follows | split

theorem quiesce_follows {b₀ : State} {s : State} (Hs : b₀.Follows s) (i : Nat) (l : Nat) (b : Nat) (t : Nat) : b₀.Follows (quiesce s i l b t) := by
  unfold quiesce
  try dsimp only
  repeat' first
    | with_reducible assumption | with_reducible apply State.setBun_follows | with_reducible apply State.put_follows | split

theorem bundleTick_follows {b₀ : State} {a : State × Nat} (Ha : b₀.Follows a.1) (i : Nat) (l : Nat) (b : Nat) : b₀.Follows (bundleTick i l a b).1 := by
  unfold bundleTick
  try dsimp only
  repeat' first
    | with_reducible assumption | with_reducible apply retire_follows | with_reducible apply quiesce_follows | split

theorem linkTick_follows {b₀ : State} {s : State} (Hs : b₀.Follows s) (i : Nat) (l : Nat) : b₀.Follows (linkTick s i l) := by
  unfold linkTick
  try dsimp only
  repeat' first
    | with_reducible assumption | with_reducible apply bundleTick_follows | (with_reducible refine foldl_fst_follows _ (fun _ _ _ => ?_) _ ?_)
    | split

theorem takeSpares_follows {b₀ : State} {s : State} (Hs : b₀.Follows s) (i : Nat) (l : Nat) (b : Nat) : b₀.Follows (takeSpares s i l b) := by
  unfold takeSpares
  try dsimp only
  repeat' first
    | with_reducible assumption | (with_reducible refine forEach_follows _ _ ?_ (fun _ _ _ => ?_)) | with_reducible apply State.setReg_follows

theorem quiesceEnd_follows {b₀ : State} {s : State} (Hs : b₀.Follows s) (i : Nat) (l : Nat) (b : Nat) : b₀.Follows (quiesceEnd s i l b) := by
  unfold quiesceEnd
  try dsimp only
  repeat' first
    | with_reducible assumption | with_reducible apply State.setBun_follows | with_reducible apply sendMoved_follows
    | with_reducible apply replayFlits_follows | with_reducible apply State.setFlag_follows

theorem quiesceComplete_follows {b₀ : State} {s : State} (Hs : b₀.Follows s) (i : Nat) (l : Nat) (b : Nat) : b₀.Follows (quiesceComplete s i l b) := by
  unfold quiesceComplete
  try dsimp only
  repeat' first
    | with_reducible assumption | with_reducible apply takeSpares_follows | with_reducible apply setWidth_follows
    | with_reducible apply retire_follows | with_reducible apply recount_follows | with_reducible apply quiesceEnd_follows | split

theorem trainBundle_follows {b₀ : State} {s : State} (Hs : b₀.Follows s) (i : Nat) (l : Nat) (j : Nat) (k : Nat) (b : Nat) (t : LaneTest) : b₀.Follows (trainBundle s i l j k b t).1 := by
  unfold trainBundle
  try dsimp only
  repeat' first
    | with_reducible assumption | with_reducible apply State.setBun_follows | with_reducible apply setWidth_follows
    | with_reducible apply errRecord_follows | with_reducible apply State.setReg_follows | with_reducible apply State.put_follows | split

theorem tableTrained_follows {b₀ : State} {s : State} (Hs : b₀.Follows s) (i : Nat) (l : Nat) : b₀.Follows (tableTrained s i l) := by
  unfold tableTrained
  try dsimp only
  repeat' first
    | with_reducible assumption | (with_reducible refine forEach_follows _ _ ?_ (fun _ _ _ => ?_)) | with_reducible apply retable_follows | split

theorem linkTrain_follows {b₀ : State} {s : State} (Hs : b₀.Follows s) (i : Nat) (l : Nat) (tests : List LaneTest) (peer : Version) : b₀.Follows (linkTrain s i l tests peer) := by
  unfold linkTrain
  split
  · exact Hs
  · rename_i j k _
    extract_lets n r s1 sts width2 fits st side s2 low c
    have hr : b₀.Follows r.1 := by
      refine foldl_fst_follows _ (fun t b h => ?_) _ Hs
      exact trainBundle_follows h _ _ _ _ _ _
    have h1 : b₀.Follows s1 := by
      simp only [s1]
      split
      · exact State.setFlag_follows (State.setFlag_follows hr _ _ _) _ _ _
      · exact hr
    have hside : ∀ t a b d, b₀.Follows t → b₀.Follows (side t a b d) := fun t a b d h =>
      State.put_follows (State.put_follows (State.put_follows (State.put_follows h _ _ _) _ _ _) _ _ _) _ _ _
    have h2 : b₀.Follows s2 := tableTrained_follows (tableTrained_follows (hside _ _ _ _ (hside _ _ _ _ h1)) _ _) _ _
    exact recount_follows (State.Follows.with h2) _ _

theorem pairsWait_follows {b₀ : State} {old : State} {s : State} (Hold : b₀.Follows old) (Hs : b₀.Follows s) : b₀.Follows (pairsWait old s) := by
  unfold pairsWait
  try dsimp only
  repeat' first
    | with_reducible assumption | with_reducible apply State.Follows.with

theorem routeTick_follows {b₀ : State} {s : State} (Hs : b₀.Follows s) : b₀.Follows (routeTick s) := by
  unfold routeTick
  try dsimp only
  repeat' first
    | with_reducible assumption | with_reducible apply pairsWait_follows | (with_reducible refine forEach_follows _ _ ?_ (fun _ _ _ => ?_))
    | with_reducible apply State.put_follows

theorem ceralTick_follows {b₀ : State} {s : State} (Hs : b₀.Follows s) : b₀.Follows (ceralTick s) := by
  unfold ceralTick
  try dsimp only
  repeat' first
    | with_reducible assumption | (with_reducible refine forEach_follows _ _ ?_ (fun _ _ _ => ?_)) | with_reducible apply linkTick_follows
    | with_reducible apply routeTick_follows

end Sys2Proof.Machine
end

