-- ==== Sys2Proof/Laws/FollowSecurity.lean ====
section
/-!
SUPPORT. Every operation of Machine/Security.lean gives a state that follows the one it is given.
-/
namespace Sys2Proof.Machine

theorem fwReport_follows {b₀ : State} {s : State} (Hs : b₀.Follows s) : b₀.Follows (fwReport s) := by
  unfold fwReport
  try dsimp only
  repeat' first
    | with_reducible assumption | with_reducible apply State.put_follows

theorem runFirmware_follows {b₀ : State} {s : State} (Hs : b₀.Follows s) (k : Nat) : b₀.Follows (runFirmware s k) := by
  unfold runFirmware
  try dsimp only
  repeat' first
    | with_reducible assumption | with_reducible apply fwReport_follows | with_reducible apply State.put_follows
    | with_reducible apply State.setFlag_follows | with_reducible apply State.Follows.with

theorem storeFirmware_follows {b₀ : State} {s : State} (Hs : b₀.Follows s) (k : Nat) (bs : List Byte) : b₀.Follows (storeFirmware s k bs) := by
  unfold storeFirmware
  try dsimp only
  repeat' first
    | with_reducible assumption | with_reducible apply fwReport_follows | with_reducible apply State.Follows.flashes
    | with_reducible apply Flash.Keeps.other

theorem deriveAlias_follows {b₀ : State} {s : State} (Hs : b₀.Follows s) : b₀.Follows (deriveAlias s) := by
  unfold deriveAlias
  try dsimp only
  repeat' first
    | with_reducible assumption | with_reducible apply State.Follows.with

theorem fuseReport_follows {b₀ : State} {s : State} (Hs : b₀.Follows s) : b₀.Follows (fuseReport s) := by
  unfold fuseReport
  try dsimp only
  repeat' first
    | with_reducible assumption | with_reducible apply State.put_follows | with_reducible apply State.setFlag_follows

theorem signedEffect_follows {b₀ : State} {s : State} (Hs : b₀.Follows s) (bs : List Byte) (op : Nat) : b₀.Follows (signedEffect s bs op) := by
  unfold signedEffect
  dsimp only
  refine fuseReport_follows (State.Follows.flashes Hs ?_)
  split
  · exact Flash.Keeps.other _
  · split
    · refine ⟨fun i h => ?_, Nat.le_refl _, fun h => h, fun _ h => h, Nat.le_refl _⟩
      simp [h]
    · split
      · exact ⟨fun _ h => h, Nat.le_max_left .., fun h => h, fun _ h => h, Nat.le_refl _⟩
      · exact ⟨fun _ h => h, Nat.le_refl _, fun _ => rfl, fun _ h => h, Nat.le_refl _⟩

theorem attestNow_follows {b₀ : State} {s : State} (Hs : b₀.Follows s) (inst : Option Nat) : b₀.Follows (attestNow s inst) := by
  unfold attestNow
  try dsimp only
  repeat' first
    | with_reducible assumption | (with_reducible refine forEach_follows _ _ ?_ (fun _ _ _ => ?_)) | with_reducible apply State.setReg_follows
    | with_reducible apply State.put_follows | with_reducible apply State.setFlag_follows | split | with_reducible apply State.Follows.with

theorem beginTurn_follows {b₀ : State} {s : State} (Hs : b₀.Follows s) (k : Nat) : b₀.Follows (beginTurn s k) := by
  unfold beginTurn
  try dsimp only
  repeat' first
    | with_reducible assumption | with_reducible apply State.Follows.with

theorem endTurn_follows {b₀ : State} {s : State} (Hs : b₀.Follows s) (k : Nat) : b₀.Follows (endTurn s k) := by
  unfold endTurn
  try dsimp only
  repeat' first
    | with_reducible assumption | with_reducible apply State.Follows.with

theorem attestRequest_follows {b₀ : State} {s : State} (Hs : b₀.Follows s) (inst : Option Nat) : b₀.Follows (attestRequest s inst) := by
  unfold attestRequest
  try dsimp only
  repeat' first
    | with_reducible assumption | with_reducible apply beginTurn_follows | with_reducible apply attestNow_follows
    | with_reducible apply State.setFlag_follows | split | with_reducible apply State.Follows.with

theorem attestResume_follows {b₀ : State} {s : State} (Hs : b₀.Follows s) : b₀.Follows (attestResume s) := by
  unfold attestResume
  try dsimp only
  repeat' first
    | with_reducible assumption | with_reducible apply attestNow_follows | with_reducible apply endTurn_follows | split

theorem secEnd_follows {b₀ : State} {s : State} (Hs : b₀.Follows s) (result : Nat) : b₀.Follows (secEnd s result) := by
  unfold secEnd
  try dsimp only
  repeat' first
    | with_reducible assumption | with_reducible apply attestResume_follows | with_reducible apply endTurn_follows
    | with_reducible apply State.setReg_follows | with_reducible apply State.put_follows | with_reducible apply State.setFlag_follows
    | with_reducible apply State.Follows.with

theorem bootAsk_follows {b₀ : State} {s : State} (Hs : b₀.Follows s) (p : Nat) (a : Nat) (n : Nat) : b₀.Follows (bootAsk s p a n) := by
  unfold bootAsk
  try dsimp only
  repeat' first
    | with_reducible assumption | with_reducible apply State.out_follows | split

theorem secStart_follows {b₀ : State} {s : State} (Hs : b₀.Follows s) (op : Nat) : b₀.Follows (secStart s op) := by
  unfold secStart
  try dsimp only
  repeat' first
    | with_reducible assumption | with_reducible apply bootAsk_follows | with_reducible apply beginTurn_follows
    | with_reducible apply State.setFlag_follows | split | with_reducible apply State.Follows.with

theorem secRun_follows {b₀ : State} {s : State} (Hs : b₀.Follows s) (op : Nat) (f : State → State) (Hf : ∀ (x0 : State), b₀.Follows x0 → b₀.Follows (f x0)) : b₀.Follows (secRun s op f) := by
  unfold secRun
  try dsimp only
  repeat' first
    | with_reducible assumption | with_reducible apply State.setFlag_follows | with_reducible apply Hf | split

theorem fwStoreRun_follows {b₀ : State} {s : State} (Hs : b₀.Follows s) (d : Option (List Byte)) : b₀.Follows (fwStoreRun s d) := by
  unfold fwStoreRun
  try dsimp only
  repeat' first
    | with_reducible assumption | with_reducible apply secEnd_follows | with_reducible apply storeFirmware_follows | split

theorem signedRun_follows {b₀ : State} {s : State} (Hs : b₀.Follows s) (op : Nat) (d : Option (List Byte)) : b₀.Follows (signedRun s op d) := by
  unfold signedRun
  try dsimp only
  repeat' first
    | with_reducible assumption | with_reducible apply secEnd_follows | with_reducible apply signedEffect_follows | split

theorem spdmAnswer_follows {b₀ : State} {s : State} (Hs : b₀.Follows s) (p : Nat) (what : String) (d : List Byte) : b₀.Follows (spdmAnswer s p what d) := by
  unfold spdmAnswer
  try dsimp only
  repeat' first
    | with_reducible assumption | with_reducible apply State.out_follows | split

theorem setSession_follows {b₀ : State} {s : State} (Hs : b₀.Follows s) (p : Nat) (v : Nat) : b₀.Follows (setSession s p v) := by
  unfold setSession
  try dsimp only
  repeat' first
    | with_reducible assumption | with_reducible apply State.setPort_follows

theorem execFwStore_follows {b₀ s : State} (Hs : b₀.Follows s) (d : Option (List Byte)) : ∃ u₁, (execFwStore d s) = .next u₁ ∧ b₀.Follows u₁ := by
  unfold execFwStore
  try dsimp only
  repeat' first
    | with_reducible assumption | (with_reducible refine secRun_follows ?_ _ _ (fun _ _ => ?_)) | with_reducible apply fwStoreRun_follows
    | (with_reducible refine ⟨_, rfl, ?_⟩)

theorem execKeyEnroll_follows {b₀ s : State} (Hs : b₀.Follows s) (d : Option (List Byte)) : ∃ u₁, (execKeyEnroll d s) = .next u₁ ∧ b₀.Follows u₁ := by
  unfold execKeyEnroll
  try dsimp only
  repeat' first
    | with_reducible assumption | (with_reducible refine secRun_follows ?_ _ _ (fun _ _ => ?_)) | with_reducible apply signedRun_follows
    | (with_reducible refine ⟨_, rfl, ?_⟩)

theorem execKeyRevoke_follows {b₀ s : State} (Hs : b₀.Follows s) (d : Option (List Byte)) : ∃ u₁, (execKeyRevoke d s) = .next u₁ ∧ b₀.Follows u₁ := by
  unfold execKeyRevoke
  try dsimp only
  repeat' first
    | with_reducible assumption | (with_reducible refine secRun_follows ?_ _ _ (fun _ _ => ?_)) | with_reducible apply signedRun_follows
    | (with_reducible refine ⟨_, rfl, ?_⟩)

theorem execArbAdvance_follows {b₀ s : State} (Hs : b₀.Follows s) (d : Option (List Byte)) : ∃ u₁, (execArbAdvance d s) = .next u₁ ∧ b₀.Follows u₁ := by
  unfold execArbAdvance
  try dsimp only
  repeat' first
    | with_reducible assumption | (with_reducible refine secRun_follows ?_ _ _ (fun _ _ => ?_)) | with_reducible apply signedRun_follows
    | (with_reducible refine ⟨_, rfl, ?_⟩)

theorem execDebugKill_follows {b₀ s : State} (Hs : b₀.Follows s) (d : Option (List Byte)) : ∃ u₁, (execDebugKill d s) = .next u₁ ∧ b₀.Follows u₁ := by
  unfold execDebugKill
  try dsimp only
  repeat' first
    | with_reducible assumption | (with_reducible refine secRun_follows ?_ _ _ (fun _ _ => ?_)) | with_reducible apply signedRun_follows
    | (with_reducible refine ⟨_, rfl, ?_⟩)

theorem execSecAttest_follows {b₀ s : State} (Hs : b₀.Follows s) (i : Option InstId) : ∃ u₁, (execSecAttest i s) = .next u₁ ∧ b₀.Follows u₁ := by
  unfold execSecAttest
  try dsimp only
  repeat' first
    | with_reducible assumption | with_reducible apply attestRequest_follows | (with_reducible refine ⟨_, rfl, ?_⟩)

theorem unlockedNow_follows {b₀ : State} {s : State} (Hs : b₀.Follows s) : b₀.Follows (unlockedNow s) := by
  unfold unlockedNow
  try dsimp only
  repeat' first
    | with_reducible assumption | with_reducible apply deriveAlias_follows | split | with_reducible apply State.Follows.with

theorem execDebugUnlock_follows {b₀ s : State} (Hs : b₀.Follows s) (response : List Byte) : ∃ u₁, (execDebugUnlock response s) = .next u₁ ∧ b₀.Follows u₁ := by
  unfold execDebugUnlock
  try dsimp only
  repeat' first
    | with_reducible assumption | with_reducible apply unlockedNow_follows | with_reducible apply State.setFlag_follows
    | (with_reducible refine ⟨_, rfl, ?_⟩) | split

theorem execPldmFirmwareUpdate_follows {b₀ s : State} (Hs : b₀.Follows s) (k : Fin 2) (d : List Byte) : ∃ u₁, (execPldmFirmwareUpdate k d s) = .next u₁ ∧ b₀.Follows u₁ := by
  unfold execPldmFirmwareUpdate
  try dsimp only
  repeat' first
    | with_reducible assumption | with_reducible apply storeFirmware_follows | (with_reducible refine ⟨_, rfl, ?_⟩)

theorem execGetVersion_follows {b₀ s : State} (Hs : b₀.Follows s) (p : PortId) : ∃ u₁, (execGetVersion p s) = .next u₁ ∧ b₀.Follows u₁ := by
  unfold execGetVersion
  try dsimp only
  repeat' first
    | with_reducible assumption | with_reducible apply spdmAnswer_follows | (with_reducible refine ⟨_, rfl, ?_⟩)

theorem execGetCapabilities_follows {b₀ s : State} (Hs : b₀.Follows s) (p : PortId) : ∃ u₁, (execGetCapabilities p s) = .next u₁ ∧ b₀.Follows u₁ := by
  unfold execGetCapabilities
  try dsimp only
  repeat' first
    | with_reducible assumption | with_reducible apply spdmAnswer_follows | (with_reducible refine ⟨_, rfl, ?_⟩)

theorem execNegotiateAlgorithms_follows {b₀ s : State} (Hs : b₀.Follows s) (p : PortId) (asym : Bool) (hash : Bool) (dhe : Bool) (aead : Bool) : ∃ u₁, (execNegotiateAlgorithms p asym hash dhe aead s) = .next u₁ ∧ b₀.Follows u₁ := by
  unfold execNegotiateAlgorithms
  try dsimp only
  repeat' first
    | with_reducible assumption | with_reducible apply spdmAnswer_follows | (with_reducible refine ⟨_, rfl, ?_⟩)

theorem execGetDigests_follows {b₀ s : State} (Hs : b₀.Follows s) (p : PortId) : ∃ u₁, (execGetDigests p s) = .next u₁ ∧ b₀.Follows u₁ := by
  unfold execGetDigests
  try dsimp only
  repeat' first
    | with_reducible assumption | with_reducible apply spdmAnswer_follows | (with_reducible refine ⟨_, rfl, ?_⟩)

theorem execGetCertificate_follows {b₀ s : State} (Hs : b₀.Follows s) (p : PortId) (slot : BitVec 4) (off : BitVec 16) (len : BitVec 16) : ∃ u₁, (execGetCertificate p slot off len s) = .next u₁ ∧ b₀.Follows u₁ := by
  unfold execGetCertificate
  try dsimp only
  repeat' first
    | with_reducible assumption | with_reducible apply spdmAnswer_follows | (with_reducible refine ⟨_, rfl, ?_⟩) | split

theorem execChallenge_follows {b₀ s : State} (Hs : b₀.Follows s) (p : PortId) (slot : BitVec 4) (nonce : BitVec 256) : ∃ u₁, (execChallenge p slot nonce s) = .next u₁ ∧ b₀.Follows u₁ := by
  unfold execChallenge
  try dsimp only
  repeat' first
    | with_reducible assumption | with_reducible apply spdmAnswer_follows | (with_reducible refine ⟨_, rfl, ?_⟩) | split

theorem execGetMeasurements_follows {b₀ s : State} (Hs : b₀.Follows s) (p : PortId) (index : BitVec 8) (nonce : BitVec 256) (signed : Bool) : ∃ u₁, (execGetMeasurements p index nonce signed s) = .next u₁ ∧ b₀.Follows u₁ := by
  unfold execGetMeasurements
  try dsimp only
  repeat' first
    | with_reducible assumption | with_reducible apply spdmAnswer_follows | (with_reducible refine ⟨_, rfl, ?_⟩)

theorem execKeyExchange_follows {b₀ s : State} (Hs : b₀.Follows s) (p : PortId) (slot : BitVec 4) (key : List Byte) : ∃ u₁, (execKeyExchange p slot key s) = .next u₁ ∧ b₀.Follows u₁ := by
  unfold execKeyExchange
  try dsimp only
  repeat' first
    | with_reducible assumption | with_reducible apply spdmAnswer_follows | with_reducible apply setSession_follows
    | with_reducible apply State.drawn_follows | (with_reducible refine ⟨_, rfl, ?_⟩) | split

theorem execFinish_follows {b₀ s : State} (Hs : b₀.Follows s) (p : PortId) (mac : List Byte) : ∃ u₁, (execFinish p mac s) = .next u₁ ∧ b₀.Follows u₁ := by
  unfold execFinish
  try dsimp only
  repeat' first
    | with_reducible assumption | with_reducible apply spdmAnswer_follows | with_reducible apply setSession_follows
    | (with_reducible refine ⟨_, rfl, ?_⟩) | split

theorem execEndSession_follows {b₀ s : State} (Hs : b₀.Follows s) (p : PortId) : ∃ u₁, (execEndSession p s) = .next u₁ ∧ b₀.Follows u₁ := by
  unfold execEndSession
  try dsimp only
  repeat' first
    | with_reducible assumption | with_reducible apply spdmAnswer_follows | with_reducible apply setSession_follows
    | (with_reducible refine ⟨_, rfl, ?_⟩) | split

theorem execGetDeviceInterfaceReport_follows {b₀ s : State} (Hs : b₀.Follows s) (p : PortId) (i : InstId) : ∃ u₁, (execGetDeviceInterfaceReport p i s) = .next u₁ ∧ b₀.Follows u₁ := by
  unfold execGetDeviceInterfaceReport
  try dsimp only
  repeat' first
    | with_reducible assumption | with_reducible apply State.out_follows | (with_reducible refine ⟨_, rfl, ?_⟩) | split

theorem execIdeKm_follows {b₀ s : State} (Hs : b₀.Follows s) (p : PortId) (stream : Fin 9) (establish : Bool) : ∃ u₁, (execIdeKm p stream establish s) = .next u₁ ∧ b₀.Follows u₁ := by
  unfold execIdeKm
  try dsimp only
  repeat' first
    | with_reducible assumption | with_reducible apply State.setPort_follows | with_reducible apply State.put_follows
    | with_reducible apply State.setFlag_follows | (with_reducible refine ⟨_, rfl, ?_⟩) | split

end Sys2Proof.Machine
end

