-- ==== Sys2Proof/Laws/FollowOpticalOps.lean ====
section
/-!
SUPPORT. Every operation of Machine/OpticalOps.lean gives a state that follows the one it is given.
-/
namespace Sys2Proof.Machine

theorem State.setOptEnd_follows {b₀ : State} {s : State} (Hs : b₀.Follows s) (o : Nat) (e : OptEnd) : b₀.Follows (State.setOptEnd s o e) := by
  unfold State.setOptEnd
  try dsimp only
  repeat' first
    | with_reducible assumption | with_reducible apply State.Follows.with

theorem setOptState_follows {b₀ : State} {s : State} (Hs : b₀.Follows s) (o : Nat) (st : Nat) (cause : Nat) : b₀.Follows (setOptState s o st cause) := by
  unfold setOptState
  try dsimp only
  repeat' first
    | with_reducible assumption | with_reducible apply raiseEdge_follows | with_reducible apply State.put_follows | split

theorem optSend_follows {b₀ : State} {s : State} (Hs : b₀.Follows s) (o : Nat) (vc : Nat) : b₀.Follows (optSend s o vc) := by
  unfold optSend
  try dsimp only
  repeat' first
    | with_reducible assumption | with_reducible apply State.setOptEnd_follows | with_reducible apply State.out_follows | split

theorem optFlow_follows {b₀ : State} {s : State} (Hs : b₀.Follows s) (o : Nat) : b₀.Follows (optFlow s o) := by
  unfold optFlow
  try dsimp only
  repeat' first
    | with_reducible assumption | (with_reducible refine forEach_follows _ _ ?_ (fun _ _ _ => ?_)) | with_reducible apply optSend_follows

theorem optAckOut_follows {b₀ : State} {s : State} (Hs : b₀.Follows s) (o : Nat) (nak : Bool) : b₀.Follows (optAckOut s o nak) := by
  unfold optAckOut
  try dsimp only
  repeat' first
    | with_reducible assumption | with_reducible apply State.setOptEnd_follows | with_reducible apply State.out_follows

theorem optFlit_follows {b₀ : State} {s : State} (Hs : b₀.Follows s) (o : Nat) (got : BitVec 2048) (fecOk : Bool) (fixed : Nat) : b₀.Follows (optFlit s o got fecOk fixed) := by
  unfold optFlit
  try dsimp only
  repeat' first
    | with_reducible assumption | with_reducible apply optAckOut_follows | with_reducible apply State.setOptEnd_follows
    | with_reducible apply optFlow_follows | with_reducible apply State.incSat_follows | with_reducible apply State.addSat_follows | split

theorem optAckDue_follows {b₀ : State} {s : State} (Hs : b₀.Follows s) (o : Nat) : b₀.Follows (optAckDue s o) := by
  unfold optAckDue
  try dsimp only
  repeat' first
    | with_reducible assumption | with_reducible apply optAckOut_follows | split

theorem optReplayFlits_follows {b₀ : State} {s : State} (Hs : b₀.Follows s) (o : Nat) (buf : List (BitVec 2048 × Nat)) : b₀.Follows (optReplayFlits s o buf) := by
  unfold optReplayFlits
  try dsimp only
  repeat' first
    | with_reducible assumption | with_reducible apply optFlow_follows | (with_reducible refine forEach_follows _ _ ?_ (fun _ _ _ => ?_))
    | with_reducible apply State.setOptEnd_follows | with_reducible apply State.out_follows

theorem optQueue_follows {b₀ : State} {s : State} (Hs : b₀.Follows s) (o : Nat) (op : BitVec 8) (h : RemHdr) (mask : Option (BitVec 128)) (d : List Line) (status : Nat) : b₀.Follows (optQueue s o op h mask d status) := by
  unfold optQueue
  try dsimp only
  repeat' first
    | with_reducible assumption | with_reducible apply optFlow_follows | with_reducible apply State.setOptEnd_follows
    | with_reducible apply State.out_follows

theorem optRoom_follows {b₀ : State} {s : State} (Hs : b₀.Follows s) (o : Nat) : b₀.Follows (optRoom s o) := by
  unfold optRoom
  try dsimp only
  repeat' first
    | with_reducible assumption | (with_reducible refine forEach_follows _ _ ?_ (fun _ _ _ => ?_)) | with_reducible apply State.out_follows

theorem optTrain_follows {b₀ : State} {s : State} (Hs : b₀.Follows s) (o : Nat) (lanes : BitVec 8) (peer : Version) (id : BitVec 12) (port : BitVec 4) : b₀.Follows (optTrain s o lanes peer id port) := by
  unfold optTrain
  try dsimp only
  repeat' first
    | with_reducible assumption | with_reducible apply setOptState_follows | with_reducible apply State.setOptEnd_follows
    | with_reducible apply optRoom_follows | with_reducible apply State.put_follows | with_reducible apply State.setFlag_follows
    | with_reducible apply State.out_follows | split

theorem heartbeatOut_follows {b₀ : State} {s : State} (Hs : b₀.Follows s) (o : Nat) : b₀.Follows (heartbeatOut s o) := by
  unfold heartbeatOut
  try dsimp only
  repeat' first
    | with_reducible assumption | with_reducible apply State.out_follows | split

theorem heartbeatIn_follows {b₀ : State} {s : State} (Hs : b₀.Follows s) (o : Nat) (id : BitVec 12) (port : BitVec 4) : b₀.Follows (heartbeatIn s o id port) := by
  unfold heartbeatIn
  try dsimp only
  repeat' first
    | with_reducible assumption | with_reducible apply State.put_follows | split

theorem optLeave_follows {b₀ : State} {s : State} (Hs : b₀.Follows s) (m : Nat) (op : BitVec 8) (h : RemHdr) (mask : Option (BitVec 128)) (d : List Line) (status : Nat) : b₀.Follows (optLeave s m op h mask d status).1 := by
  unfold optLeave
  try dsimp only
  repeat' first
    | with_reducible assumption | with_reducible apply optQueue_follows | split

theorem noRoute_follows {b₀ : State} {s : State} (Hs : b₀.Follows s) (op : BitVec 8) (h : RemHdr) : b₀.Follows (noRoute s op h) := by
  unfold noRoute
  try dsimp only
  repeat' first
    | with_reducible assumption | with_reducible apply optLeave_follows | with_reducible apply State.addWrap_follows | split

theorem forward_follows {b₀ : State} {s : State} (Hs : b₀.Follows s) (op : BitVec 8) (h : RemHdr) (mask : Option (BitVec 128)) (d : List Line) (status : Nat) : b₀.Follows (forward s op h mask d status) := by
  unfold forward
  try dsimp only
  repeat' first
    | with_reducible assumption | with_reducible apply optLeave_follows | with_reducible apply noRoute_follows | split

theorem routeLose_follows {b₀ : State} {s : State} (Hs : b₀.Follows s) (o : Nat) : b₀.Follows (routeLose s o) := by
  unfold routeLose
  try dsimp only
  repeat' first
    | with_reducible assumption | (with_reducible refine forEach_follows _ _ ?_ (fun _ _ _ => ?_)) | with_reducible apply State.put_follows

theorem sendLoss_follows {b₀ : State} {s : State} (Hs : b₀.Follows s) (n : LossNotice) (skip : Option Nat) : b₀.Follows (sendLoss s n skip) := by
  unfold sendLoss
  try dsimp only
  repeat' first
    | with_reducible assumption | (with_reducible refine forEach_follows _ _ ?_ (fun _ _ _ => ?_)) | with_reducible apply State.out_follows

theorem noticeEpoch_follows {b₀ : State} {s : State} (Hs : b₀.Follows s) (n : LossNotice) : b₀.Follows (noticeEpoch s n) := by
  unfold noticeEpoch
  try dsimp only
  repeat' first
    | with_reducible assumption | with_reducible apply State.addWrap_follows | with_reducible apply State.Follows.with

theorem portLost_follows {b₀ : State} {s : State} (Hs : b₀.Follows s) (o : Nat) (cause : Nat) : b₀.Follows (portLost s o cause).1 := by
  unfold portLost
  try dsimp only
  repeat' first
    | with_reducible assumption | with_reducible apply setOptState_follows | with_reducible apply State.setOptEnd_follows
    | with_reducible apply routeLose_follows | with_reducible apply errRecord_follows | with_reducible apply State.addWrap_follows

end Sys2Proof.Machine
end

