-- ==== Sys2Proof/Laws/FollowPowerLoop.lean ====
section
/-!
SUPPORT. Every operation of Machine/PowerLoop.lean gives a state that follows the one it is given.
-/
namespace Sys2Proof.Machine

theorem putRate_follows {b₀ : State} {s : State} (Hs : b₀.Follows s) (c : Nat) (r : Nat) : b₀.Follows (putRate s c r) := by
  unfold putRate
  try dsimp only
  repeat' first
    | with_reducible assumption | with_reducible apply State.Follows.with

theorem lowerRates_follows {b₀ : State} {s : State} (Hs : b₀.Follows s) (cs : List Nat) (floor : State → Nat → Nat) : b₀.Follows (lowerRates s cs floor) := by
  unfold lowerRates
  try dsimp only
  repeat' first
    | with_reducible assumption | (with_reducible refine forEach_follows _ _ ?_ (fun _ _ _ => ?_)) | with_reducible apply putRate_follows

theorem raiseRates_follows {b₀ : State} {s : State} (Hs : b₀.Follows s) (cs : List Nat) : b₀.Follows (raiseRates s cs) := by
  unfold raiseRates
  try dsimp only
  repeat' first
    | with_reducible assumption | (with_reducible refine forEach_follows _ _ ?_ (fun _ _ _ => ?_)) | with_reducible apply putRate_follows

theorem capSource_follows {b₀ : State} {s : State} (Hs : b₀.Follows s) : b₀.Follows (capSource s) := by
  unfold capSource
  try dsimp only
  repeat' first
    | with_reducible assumption | with_reducible apply setLevel_follows | with_reducible apply State.Follows.with

theorem capLower_follows {b₀ : State} {s : State} (Hs : b₀.Follows s) : b₀.Follows (capLower s) := by
  unfold capLower
  try dsimp only
  repeat' first
    | with_reducible assumption | with_reducible apply lowerRates_follows | split | with_reducible apply State.Follows.with

theorem beLoop_follows {b₀ : State} {s : State} (Hs : b₀.Follows s) (beWatts : Nat) (raised : Bool) : b₀.Follows (beLoop s beWatts raised) := by
  unfold beLoop
  try dsimp only
  repeat' first
    | with_reducible assumption | with_reducible apply lowerRates_follows | with_reducible apply raiseRates_follows | split
    | with_reducible apply State.Follows.with

theorem meterRow_follows {b₀ : State} {s : State} (Hs : b₀.Follows s) (x : Fin 256 × Nat) : b₀.Follows (meterRow s x) := by
  unfold meterRow
  try dsimp only
  repeat' first
    | with_reducible assumption | with_reducible apply State.addWrap_follows | with_reducible apply State.Follows.with

theorem powerLoop_follows {b₀ : State} {s : State} (Hs : b₀.Follows s) (watts : Nat) (beWatts : Nat) (rows : List (Fin 256 × Nat)) : b₀.Follows (powerLoop s watts beWatts rows) := by
  unfold powerLoop
  try dsimp only
  repeat' first
    | with_reducible assumption | (with_reducible refine forEach_follows _ _ ?_ (fun _ _ _ => ?_)) | with_reducible apply meterRow_follows
    | with_reducible apply capLower_follows | with_reducible apply raiseRates_follows | with_reducible apply capSource_follows
    | with_reducible apply beLoop_follows | with_reducible apply State.put_follows | split

theorem currentSample_follows {b₀ : State} {s : State} (Hs : b₀.Follows s) (volts : Nat) (amps : Nat) : b₀.Follows (currentSample s volts amps) := by
  unfold currentSample
  try dsimp only
  repeat' first
    | with_reducible assumption | with_reducible apply setLevel_follows | with_reducible apply raiseEdge_follows
    | with_reducible apply State.put_follows | split | with_reducible apply State.Follows.with

theorem ageing_follows {b₀ : State} {s : State} (Hs : b₀.Follows s) (c : Nat) (mhz : Nat) : b₀.Follows (ageing s c mhz) := by
  unfold ageing
  try dsimp only
  repeat' first
    | with_reducible assumption | with_reducible apply State.setFlag_follows | split | with_reducible apply State.Follows.with

theorem fmaxTick_follows {b₀ : State} {s : State} (Hs : b₀.Follows s) : b₀.Follows (fmaxTick s) := by
  unfold fmaxTick
  try dsimp only
  repeat' first
    | with_reducible assumption | (with_reducible refine forEach_follows _ _ ?_ (fun _ _ _ => ?_)) | with_reducible apply raiseEdge_follows
    | with_reducible apply State.put_follows | with_reducible apply State.Follows.with

theorem fmaxStore_follows {b₀ : State} {s : State} (Hs : b₀.Follows s) : b₀.Follows (fmaxStore s) := by
  unfold fmaxStore
  generalize List.foldl _ _ allCores = m
  exact State.Follows.flashes Hs (Flash.Keeps.other _)

theorem droop_follows {b₀ : State} {s : State} (Hs : b₀.Follows s) (die : Nat) (half : Nat) (row : Nat) : b₀.Follows (droop s die half row) := by
  unfold droop
  try dsimp only
  repeat' first
    | with_reducible assumption | with_reducible apply raiseEdge_follows | with_reducible apply State.incSat_follows | split
    | with_reducible apply State.Follows.with

theorem droopEnd_follows {b₀ : State} {s : State} (Hs : b₀.Follows s) (die : Nat) (half : Nat) (row : Nat) : b₀.Follows (droopEnd s die half row) := by
  unfold droopEnd
  try dsimp only
  repeat' first
    | with_reducible assumption | with_reducible apply State.Follows.with

theorem thermSource_follows {b₀ : State} {s : State} (Hs : b₀.Follows s) (die : Nat) : b₀.Follows (thermSource s die) := by
  unfold thermSource
  try dsimp only
  repeat' first
    | with_reducible assumption | with_reducible apply setLevel_follows

theorem thermFall_follows {b₀ : State} {s : State} (Hs : b₀.Follows s) (die : Nat) (h : Nat) : b₀.Follows (thermFall s die h) := by
  unfold thermFall
  try dsimp only
  repeat' first
    | with_reducible assumption | with_reducible apply State.put_follows | split | with_reducible apply State.Follows.with

theorem thermRise_follows {b₀ : State} {s : State} (Hs : b₀.Follows s) (die : Nat) (h : Nat) : b₀.Follows (thermRise s die h) := by
  unfold thermRise
  try dsimp only
  repeat' first
    | with_reducible assumption | with_reducible apply State.put_follows | split | with_reducible apply State.Follows.with

theorem thermAlarm_follows {b₀ : State} {s : State} (Hs : b₀.Follows s) (die : Nat) (h : Nat) (t : Nat) : b₀.Follows (thermAlarm s die h t) := by
  unfold thermAlarm
  try dsimp only
  repeat' first
    | with_reducible assumption | with_reducible apply raiseEdge_follows | with_reducible apply State.put_follows | split
    | with_reducible apply State.Follows.with

theorem seamClocks_follows {b₀ : State} {s : State} (Hs : b₀.Follows s) (die : Nat) : b₀.Follows (seamClocks s die) := by
  unfold seamClocks
  try dsimp only
  repeat' first
    | with_reducible assumption | with_reducible apply State.put_follows

theorem halfClocks_follows {b₀ : State} {s : State} (Hs : b₀.Follows s) : b₀.Follows (halfClocks s) := by
  unfold halfClocks
  try dsimp only
  repeat' first
    | with_reducible assumption | (with_reducible refine forEach_follows _ _ ?_ (fun _ _ _ => ?_)) | with_reducible apply seamClocks_follows
    | with_reducible apply State.put_follows

theorem hotReport_follows {b₀ : State} {s : State} (Hs : b₀.Follows s) (die : Nat) (h : Nat) (t : Nat) : b₀.Follows (hotReport s die h t) := by
  unfold hotReport
  try dsimp only
  repeat' first
    | with_reducible assumption | with_reducible apply State.put_follows | split | with_reducible apply State.Follows.with

theorem junction_follows {b₀ : State} {s : State} (Hs : b₀.Follows s) (die : Nat) (h : Nat) (t : Nat) : b₀.Follows (junction s die h t) := by
  unfold junction
  try dsimp only
  repeat' first
    | with_reducible assumption | with_reducible apply hotReport_follows | with_reducible apply thermFall_follows
    | with_reducible apply thermRise_follows | with_reducible apply seamClocks_follows | with_reducible apply thermSource_follows
    | with_reducible apply thermAlarm_follows | split | with_reducible apply State.Follows.with

theorem execCurrentSample_follows {b₀ s : State} (Hs : b₀.Follows s) (volts : BitVec 16) (amps : BitVec 16) : ∃ u₁, (execCurrentSample volts amps s) = .next u₁ ∧ b₀.Follows u₁ := by
  unfold execCurrentSample
  try dsimp only
  repeat' first
    | with_reducible assumption | with_reducible apply currentSample_follows | (with_reducible refine ⟨_, rfl, ?_⟩)

theorem execAgeingReading_follows {b₀ s : State} (Hs : b₀.Follows s) (c : CoreId) (mhz : BitVec 12) : ∃ u₁, (execAgeingReading c mhz s) = .next u₁ ∧ b₀.Follows u₁ := by
  unfold execAgeingReading
  try dsimp only
  repeat' first
    | with_reducible assumption | with_reducible apply ageing_follows | (with_reducible refine ⟨_, rfl, ?_⟩)

theorem execFmaxFlashWrite_follows {b₀ s : State} (Hs : b₀.Follows s)  : ∃ u₁, (execFmaxFlashWrite s) = .next u₁ ∧ b₀.Follows u₁ := by
  unfold execFmaxFlashWrite
  try dsimp only
  repeat' first
    | with_reducible assumption | with_reducible apply fmaxStore_follows | (with_reducible refine ⟨_, rfl, ?_⟩)

theorem execDroopOnset_follows {b₀ s : State} (Hs : b₀.Follows s) (die : Fin 8) (half : Bool) (row : Fin 16) : ∃ u₁, (execDroopOnset die half row s) = .next u₁ ∧ b₀.Follows u₁ := by
  unfold execDroopOnset
  try dsimp only
  repeat' first
    | with_reducible assumption | with_reducible apply droop_follows | (with_reducible refine ⟨_, rfl, ?_⟩)

theorem execDroopRecover_follows {b₀ s : State} (Hs : b₀.Follows s) (die : Fin 8) (half : Bool) (row : Fin 16) : ∃ u₁, (execDroopRecover die half row s) = .next u₁ ∧ b₀.Follows u₁ := by
  unfold execDroopRecover
  try dsimp only
  repeat' first
    | with_reducible assumption | with_reducible apply droopEnd_follows | (with_reducible refine ⟨_, rfl, ?_⟩)

end Sys2Proof.Machine
end

