-- ==== Sys2Proof/Laws/FollowCoreOps.lean ====
section
/-!
SUPPORT. Every operation of Machine/CoreOps.lean gives a state that follows the one it is given.
-/
namespace Sys2Proof.Machine

theorem addrErr_follows {b₀ : State} {s : State} (Hs : b₀.Follows s) (c : Nat) (a : Nat) : b₀.Follows (addrErr s c a) := by
  unfold addrErr
  try dsimp only
  repeat' first
    | with_reducible assumption | with_reducible apply State.setReg_follows | with_reducible apply State.setFlag_follows
    | with_reducible apply State.incSat_follows | split

theorem markPoisoned_follows {b₀ : State} {s : State} (Hs : b₀.Follows s) (c : Nat) : b₀.Follows (markPoisoned s c) := by
  unfold markPoisoned
  try dsimp only
  repeat' first
    | with_reducible assumption | split | with_reducible apply State.Follows.with

theorem seqPoison_follows {b₀ : State} {s : State} (Hs : b₀.Follows s) (c : Nat) : b₀.Follows (seqPoison s c) := by
  unfold seqPoison
  try dsimp only
  repeat' first
    | with_reducible assumption | with_reducible apply markPoisoned_follows | with_reducible apply State.setFlag_follows

theorem errCause_follows {b₀ : State} {s : State} (Hs : b₀.Follows s) (c : Nat) (cause : Nat) : b₀.Follows (errCause s c cause) := by
  unfold errCause
  try dsimp only
  repeat' first
    | with_reducible assumption | with_reducible apply State.put_follows | with_reducible apply State.setFlag_follows | split

theorem writeFailed_follows {b₀ : State} {s : State} (Hs : b₀.Follows s) (c : Nat) (cause : Nat) : b₀.Follows (writeFailed s c cause) := by
  unfold writeFailed
  try dsimp only
  repeat' first
    | with_reducible assumption | with_reducible apply errCause_follows | with_reducible apply State.modCore_follows

theorem moverFailed_follows {b₀ : State} {s : State} (Hs : b₀.Follows s) (c : Nat) (cause : Nat) : b₀.Follows (moverFailed s c cause) := by
  unfold moverFailed
  try dsimp only
  repeat' first
    | with_reducible assumption | with_reducible apply errCause_follows | with_reducible apply State.modCore_follows

theorem State.setBad_follows {b₀ : State} {s : State} (Hs : b₀.Follows s) (w : Nat) (e : WordErr) : b₀.Follows (State.setBad s w e) := by
  unfold State.setBad
  try dsimp only
  repeat' first
    | with_reducible assumption | with_reducible apply State.Follows.with

theorem injectWord_follows {b₀ : State} {s : State} (Hs : b₀.Follows s) (die : Nat) (unit : Nat) (core : Nat) (a : Nat) : b₀.Follows (injectWord s die unit core a) := by
  unfold injectWord
  try dsimp only
  repeat' first
    | with_reducible assumption | with_reducible apply State.disarm_follows | with_reducible apply State.setBad_follows
    | with_reducible apply State.setPoison_follows | split

theorem State.clearBad_follows {b₀ : State} {s : State} (Hs : b₀.Follows s) (w : Nat) : b₀.Follows (State.clearBad s w) := by
  unfold State.clearBad
  try dsimp only
  repeat' first
    | with_reducible assumption | with_reducible apply State.Follows.with

theorem scratchWord_follows {b₀ : State} {s : State} (Hs : b₀.Follows s) (w : Nat) : b₀.Follows (scratchWord s w) := by
  unfold scratchWord
  try dsimp only
  repeat' first
    | with_reducible assumption | with_reducible apply errRecord_follows | with_reducible apply State.clearBad_follows
    | with_reducible apply State.setPoison_follows | split

theorem scratchDecode_follows {b₀ : State} {s : State} (Hs : b₀.Follows s) (a : Nat) (n : Nat) : b₀.Follows (scratchDecode s a n) := by
  unfold scratchDecode
  try dsimp only
  repeat' first
    | with_reducible assumption | (with_reducible refine forEach_follows _ _ ?_ (fun _ _ _ => ?_)) | with_reducible apply scratchWord_follows

theorem scratchWrite_follows {b₀ : State} {s : State} (Hs : b₀.Follows s) (a : Nat) (bs : List Byte) (poison : Bool) : b₀.Follows (scratchWrite s a bs poison) := by
  unfold scratchWrite
  try dsimp only
  repeat' first
    | with_reducible assumption | (with_reducible refine forEach_follows _ _ ?_ (fun _ _ _ => ?_)) | with_reducible apply scratchWord_follows
    | with_reducible apply State.clearBad_follows | with_reducible apply injectWord_follows | with_reducible apply State.setBytes_follows
    | with_reducible apply State.setPoison_follows | split

theorem scratchRead_follows {b₀ : State} {s : State} (Hs : b₀.Follows s) (a : Nat) (n : Nat) : b₀.Follows (scratchRead s a n).1 := by
  unfold scratchRead
  try dsimp only
  repeat' first
    | with_reducible assumption | with_reducible apply scratchDecode_follows

end Sys2Proof.Machine
end

