-- ==== Sys2Proof/Laws/FollowL1.lean ====
section
/-!
SUPPORT. Every operation of Machine/L1.lean gives a state that follows the one it is given.
-/
namespace Sys2Proof.Machine

theorem State.count_follows {b₀ : State} {s : State} (Hs : b₀.Follows s) (off : Nat) : b₀.Follows (State.count s off) := by
  unfold State.count
  try dsimp only
  repeat' first
    | with_reducible assumption | with_reducible apply State.setReg_follows

theorem State.countFree_follows {b₀ : State} {s : State} (Hs : b₀.Follows s) (off : Nat) : b₀.Follows (State.countFree s off) := by
  unfold State.countFree
  try dsimp only
  repeat' first
    | with_reducible assumption | with_reducible apply State.setReg_follows | with_reducible apply State.drawn_follows

theorem State.toHome_follows {b₀ : State} {s : State} (Hs : b₀.Follows s) (c : Nat) (l : LineNo) (b : MsgBody) : b₀.Follows (State.toHome s c l b) := by
  unfold State.toHome
  try dsimp only
  repeat' first
    | with_reducible assumption | with_reducible apply State.send_follows

theorem sendGets_follows {b₀ : State} {s : State} (Hs : b₀.Follows s) (c : Nat) (l : LineNo) (ifetch : Bool) : b₀.Follows (sendGets s c l ifetch) := by
  unfold sendGets
  try dsimp only
  repeat' first
    | with_reducible assumption | with_reducible apply State.toHome_follows | with_reducible apply State.send_follows | split

theorem sendMiss_follows {b₀ : State} {s : State} (Hs : b₀.Follows s) (c : Nat) (l : LineNo) (own : Bool) (upg : Bool) : b₀.Follows (sendMiss s c l own upg) := by
  unfold sendMiss
  try dsimp only
  repeat' first
    | with_reducible assumption | with_reducible apply State.toHome_follows | with_reducible apply sendGets_follows | split

theorem newMiss_follows {b₀ : State} {s : State} (Hs : b₀.Follows s) (c : Nat) (l : LineNo) (own : Bool) (upg : Bool) (accs : List MemAcc) : b₀.Follows (newMiss s c l own upg accs) := by
  unfold newMiss
  try dsimp only
  repeat' first
    | with_reducible assumption | with_reducible apply sendMiss_follows | with_reducible apply State.modCore_follows | split

theorem loadEnd_follows {b₀ : State} {s : State} (Hs : b₀.Follows s) (c : Nat) (r : LoadRec) : b₀.Follows (loadEnd s c r) := by
  unfold loadEnd
  try dsimp only
  repeat' first
    | with_reducible assumption | with_reducible apply seqPoison_follows | with_reducible apply State.modCore_follows | split

theorem loadPart_follows {b₀ : State} {s : State} (Hs : b₀.Follows s) (c : Nat) (id : Nat) (pos : Nat) (len : Nat) (v : Nat) (poison : Bool) : b₀.Follows (loadPart s c id pos len v poison) := by
  unfold loadPart
  try dsimp only
  repeat' first
    | with_reducible assumption | with_reducible apply loadEnd_follows | with_reducible apply addrErr_follows
    | with_reducible apply State.setCore_follows | split

theorem loadDead_follows {b₀ : State} {s : State} (Hs : b₀.Follows s) (c : Nat) (id : Nat) (len : Nat) : b₀.Follows (loadDead s c id len) := by
  unfold loadDead
  try dsimp only
  repeat' first
    | with_reducible assumption | with_reducible apply loadPart_follows | with_reducible apply State.modCore_follows

theorem loadRefused_follows {b₀ : State} {s : State} (Hs : b₀.Follows s) (c : Nat) (id : Nat) (len : Nat) (a : W64) : b₀.Follows (loadRefused s c id len a) := by
  unfold loadRefused
  try dsimp only
  repeat' first
    | with_reducible assumption | with_reducible apply loadDead_follows | with_reducible apply State.modCore_follows

theorem loadCounted_follows {b₀ : State} {s : State} (Hs : b₀.Follows s) (c : Nat) (id : Nat) : b₀.Follows (loadCounted s c id) := by
  unfold loadCounted
  try dsimp only
  repeat' first
    | with_reducible assumption | with_reducible apply State.modCore_follows

theorem l1Do_follows {b₀ : State} {s : State} (Hs : b₀.Follows s) (c : Nat) (x : L1Line) (i : Nat) (a : MemAcc) : b₀.Follows (l1Do s c x i a) := by
  unfold l1Do
  try dsimp only
  repeat' first
    | with_reducible assumption | with_reducible apply loadPart_follows | with_reducible apply State.modCore_follows | split

theorem l1Run_follows {b₀ : State} (l : LineNo) (as : List MemAcc) {s : State} (Hs : b₀.Follows s) (c : Nat) : b₀.Follows (l1Run s c l as) := by
  induction as generalizing s with
  | nil => exact Hs
  | cons a rest ih =>
    unfold l1Run
    dsimp only
    split
    · exact newMiss_follows Hs _ _ _ _ _
    · split
      · exact Hs
      · split
        · exact ih (l1Do_follows Hs _ _ _ _)
        · exact newMiss_follows Hs _ _ _ _ _

theorem l1Once_follows {b₀ : State} (l : LineNo) (ld : LineData) (as : List MemAcc) {s : State} (Hs : b₀.Follows s) (c : Nat) :
    b₀.Follows (l1Once s c l ld as) := by
  cases as with
  | nil => exact Hs
  | cons a rest =>
    unfold l1Once
    dsimp only
    split
    · split
      · exact loadPart_follows Hs _ _ _ _ _ _
      · exact l1Run_follows _ _ (loadPart_follows Hs _ _ _ _ _ _) _
    · exact l1Run_follows _ _ Hs _

theorem l1Access_follows {b₀ : State} {s : State} (Hs : b₀.Follows s) (c : Nat) (l : LineNo) (a : MemAcc) : b₀.Follows (l1Access s c l a) := by
  unfold l1Access
  try dsimp only
  repeat' first
    | with_reducible assumption | with_reducible apply l1Run_follows | with_reducible apply State.count_follows
    | with_reducible apply State.modCore_follows | split

theorem keptMiss_follows {b₀ : State} {s : State} (Hs : b₀.Follows s) (c : Nat) (l : LineNo) : b₀.Follows (keptMiss s c l) := by
  unfold keptMiss
  try dsimp only
  repeat' first
    | with_reducible assumption | (with_reducible refine forEach_follows _ _ ?_ (fun _ _ _ => ?_)) | with_reducible apply State.toHome_follows
    | with_reducible apply State.modCore_follows

theorem l1Offer_follows {b₀ : State} {s : State} (Hs : b₀.Follows s) (c : Nat) (i : Nat) : b₀.Follows (l1Offer s c i) := by
  unfold l1Offer
  try dsimp only
  repeat' first
    | with_reducible assumption | with_reducible apply State.toHome_follows | with_reducible apply keptMiss_follows
    | with_reducible apply State.modCore_follows | split

theorem l1Install_follows {b₀ : State} {s : State} (Hs : b₀.Follows s) (c : Nat) (l : LineNo) (ld : LineData) (st : Moesi) : b₀.Follows (l1Install s c l ld st) := by
  unfold l1Install
  try dsimp only
  repeat' first
    | with_reducible assumption | with_reducible apply l1Offer_follows | with_reducible apply State.modCore_follows | split

theorem l1Fill_follows {b₀ : State} {s : State} (Hs : b₀.Follows s) (c : Nat) (l : LineNo) (ld : LineData) (st : Moesi) : b₀.Follows (l1Fill s c l ld st) := by
  unfold l1Fill
  try dsimp only
  repeat' first
    | with_reducible assumption | with_reducible apply l1Once_follows | with_reducible apply l1Run_follows | with_reducible apply l1Install_follows
    | with_reducible apply State.modCore_follows | split

theorem l1Grant_follows {b₀ : State} {s : State} (Hs : b₀.Follows s) (c : Nat) (l : LineNo) : b₀.Follows (l1Grant s c l) := by
  unfold l1Grant
  try dsimp only
  repeat' first
    | with_reducible assumption | with_reducible apply newMiss_follows | with_reducible apply l1Run_follows | with_reducible apply l1Install_follows
    | with_reducible apply State.modCore_follows | split

theorem l1Drop_follows {b₀ : State} {s : State} (Hs : b₀.Follows s) (c : Nat) (l : LineNo) : b₀.Follows (l1Drop s c l) := by
  unfold l1Drop
  try dsimp only
  repeat' first
    | with_reducible assumption | with_reducible apply State.modCore_follows

theorem l1Inv_follows {b₀ : State} {s : State} (Hs : b₀.Follows s) (c : Nat) (l : LineNo) : b₀.Follows (l1Inv s c l) := by
  unfold l1Inv
  try dsimp only
  repeat' first
    | with_reducible assumption | with_reducible apply l1Drop_follows | with_reducible apply State.modCore_follows | split

theorem fwdAnswer_follows {b₀ : State} {s : State} (Hs : b₀.Follows s) (c : Nat) (l : LineNo) (num : ReqNum) (x : L1Line) (getx : Bool) (ifetch : Bool) : b₀.Follows (fwdAnswer s c l num x getx ifetch) := by
  unfold fwdAnswer
  try dsimp only
  repeat' first
    | with_reducible assumption | with_reducible apply State.toHome_follows | with_reducible apply State.modCore_follows
    | with_reducible apply State.send_follows | split

theorem l1Answer_follows {b₀ : State} {s : State} (Hs : b₀.Follows s) (c : Nat) (m : Msg) : b₀.Follows (l1Answer s c m) := by
  unfold l1Answer
  try dsimp only
  repeat' first
    | with_reducible assumption | with_reducible apply State.toHome_follows | with_reducible apply fwdAnswer_follows
    | with_reducible apply State.modCore_follows | split

theorem l1Forward_follows {b₀ : State} {s : State} (Hs : b₀.Follows s) (c : Nat) (m : Msg) : b₀.Follows (l1Forward s c m) := by
  unfold l1Forward
  try dsimp only
  repeat' first
    | with_reducible assumption | with_reducible apply l1Answer_follows | with_reducible apply State.modCore_follows | split

theorem holdEnd_follows {b₀ : State} {s : State} (Hs : b₀.Follows s) (c : Nat) (l : LineNo) : b₀.Follows (holdEnd s c l) := by
  unfold holdEnd
  try dsimp only
  repeat' first
    | with_reducible assumption | (with_reducible refine forEach_follows _ _ ?_ (fun _ _ _ => ?_)) | with_reducible apply l1Answer_follows
    | with_reducible apply State.modCore_follows | split

theorem wsdWrite_follows {b₀ : State} {s : State} (Hs : b₀.Follows s) (c : Nat) (l : Nat) : b₀.Follows (wsdWrite s c l) := by
  unfold wsdWrite
  try dsimp only
  repeat' first
    | with_reducible assumption | with_reducible apply State.toHome_follows | with_reducible apply State.addWrap_follows
    | with_reducible apply State.modCore_follows | split

theorem wsdFlush_follows {b₀ : State} {s : State} (Hs : b₀.Follows s) (c : Nat) : b₀.Follows (wsdFlush s c) := by
  unfold wsdFlush
  try dsimp only
  repeat' first
    | with_reducible assumption | (with_reducible refine forEach_follows _ _ ?_ (fun _ _ _ => ?_)) | with_reducible apply wsdWrite_follows

theorem wsdStop_follows {b₀ : State} {s : State} (Hs : b₀.Follows s) (c : Nat) : b₀.Follows (wsdStop s c) := by
  unfold wsdStop
  try dsimp only
  repeat' first
    | with_reducible assumption | with_reducible apply wsdFlush_follows | with_reducible apply State.put_follows
    | with_reducible apply State.setFlag_follows

theorem wsdReset_follows {b₀ : State} {s : State} (Hs : b₀.Follows s) (c : Nat) : b₀.Follows (wsdReset s c) := by
  unfold wsdReset
  try dsimp only
  repeat' first
    | with_reducible assumption | with_reducible apply wsdStop_follows | with_reducible apply State.modCore_follows

theorem wsdComplete_follows {b₀ : State} {s : State} (Hs : b₀.Follows s) (c : Nat) (l : Nat) : b₀.Follows (wsdComplete s c l) := by
  unfold wsdComplete
  try dsimp only
  repeat' first
    | with_reducible assumption | with_reducible apply State.put_follows | with_reducible apply State.setFlag_follows
    | with_reducible apply State.modCore_follows | split

theorem wsdSee_follows {b₀ : State} {s : State} (Hs : b₀.Follows s) (c : Nat) (l : Nat) (off : Nat) (n : Nat) : b₀.Follows (wsdSee s c l off n) := by
  unfold wsdSee
  try dsimp only
  repeat' first
    | with_reducible assumption | with_reducible apply wsdComplete_follows | with_reducible apply wsdStop_follows
    | with_reducible apply State.modCore_follows | split

theorem wsdPut_follows {b₀ : State} {s : State} (Hs : b₀.Follows s) (c : Nat) (l : Nat) (off : Nat) (n : Nat) (v : Nat) (poison : Bool) : b₀.Follows (wsdPut s c l off n v poison) := by
  unfold wsdPut
  try dsimp only
  repeat' first
    | with_reducible assumption | with_reducible apply wsdWrite_follows | with_reducible apply State.modCore_follows | split

theorem memStore_follows {b₀ : State} {s : State} (Hs : b₀.Follows s) (c : Nat) (a : Nat) (n : Nat) (v : Nat) (poison : Bool) (eng : Bool) : b₀.Follows (memStore s c a n v poison eng) := by
  unfold memStore
  try dsimp only
  repeat' first
    | with_reducible assumption | (with_reducible refine forEach_follows _ _ ?_ (fun _ _ _ => ?_)) | with_reducible apply writeFailed_follows
    | with_reducible apply wsdSee_follows | with_reducible apply wsdPut_follows | with_reducible apply l1Access_follows | split

theorem memLoadPart_follows {b₀ : State} {s : State} (Hs : b₀.Follows s) (c : Nat) (id : Nat) (l : Nat) (off : Nat) (n : Nat) (pos : Nat) (eng : Bool) : b₀.Follows (memLoadPart s c id l off n pos eng) := by
  unfold memLoadPart
  try dsimp only
  repeat' first
    | with_reducible assumption | with_reducible apply l1Access_follows | with_reducible apply loadPart_follows
    | (with_reducible refine forEach_follows _ _ ?_ (fun _ _ _ => ?_)) | split

theorem memLoadAt_follows {b₀ : State} {s : State} (Hs : b₀.Follows s) (c : Nat) (id : Nat) (a : Nat) (n : Nat) (pos : Nat) (eng : Bool) : b₀.Follows (memLoadAt s c id a n pos eng) := by
  unfold memLoadAt
  try dsimp only
  repeat' first
    | with_reducible assumption | (with_reducible refine forEach_follows _ _ ?_ (fun _ _ _ => ?_)) | with_reducible apply memLoadPart_follows

theorem memLoad_follows {b₀ : State} {s : State} (Hs : b₀.Follows s) (c : Nat) (id : Nat) (a : Nat) (n : Nat) (eng : Bool) : b₀.Follows (memLoad s c id a n eng) := by
  unfold memLoad
  try dsimp only
  repeat' first
    | with_reducible assumption | with_reducible apply memLoadAt_follows

theorem newLoad_follows {b₀ : State} {s : State} (Hs : b₀.Follows s) (c : Nat) (id : Nat) (n : Nat) (dest : LoadDest) (addr : W64) (far : Bool) : b₀.Follows (newLoad s c id n dest addr far) := by
  unfold newLoad
  try dsimp only
  repeat' first
    | with_reducible assumption | with_reducible apply State.modCore_follows

end Sys2Proof.Machine
end

