-- ==== Sys2Proof/Laws/FollowCache.lean ====
section
/-!
SUPPORT. Every operation of Machine/Cache.lean gives a state that follows the one it is given.
-/
namespace Sys2Proof.Machine

theorem State.setWayAt_follows {b₀ : State} {s : State} (Hs : b₀.Follows s) (k : Nat) (x : Option Way) : b₀.Follows (State.setWayAt s k x) := by
  unfold State.setWayAt
  try dsimp only
  repeat' first
    | with_reducible assumption | with_reducible apply State.Follows.with

theorem State.setShadowAt_follows {b₀ : State} {s : State} (Hs : b₀.Follows s) (k : Nat) (x : Option Shadow) : b₀.Follows (State.setShadowAt s k x) := by
  unfold State.setShadowAt
  try dsimp only
  repeat' first
    | with_reducible assumption | with_reducible apply State.Follows.with

theorem State.setLineq_follows {b₀ : State} {s : State} (Hs : b₀.Follows s) (l : LineNo) (q : LineQ) : b₀.Follows (State.setLineq s l q) := by
  unfold State.setLineq
  try dsimp only
  repeat' first
    | with_reducible assumption | with_reducible apply State.Follows.with

theorem State.setVbuf_follows {b₀ : State} {s : State} (Hs : b₀.Follows s) (g : Nat) (v : List VbEnt) : b₀.Follows (State.setVbuf s g v) := by
  unfold State.setVbuf
  try dsimp only
  repeat' first
    | with_reducible assumption | with_reducible apply State.Follows.with

theorem State.setRbuf_follows {b₀ : State} {s : State} (Hs : b₀.Follows s) (g : Nat) (v : List VbEnt) : b₀.Follows (State.setRbuf s g v) := by
  unfold State.setRbuf
  try dsimp only
  repeat' first
    | with_reducible assumption | with_reducible apply State.Follows.with

theorem memWrite_follows {b₀ : State} {s : State} (Hs : b₀.Follows s) (l : LineNo) (ld : LineData) : b₀.Follows (memWrite s l ld) := by
  unfold memWrite
  try dsimp only
  repeat' first
    | with_reducible assumption | with_reducible apply State.count_follows | split | with_reducible apply State.Follows.with

theorem setBuf_follows {b₀ : State} {s : State} (Hs : b₀.Follows s) (l : LineNo) (ld : LineData) : b₀.Follows (setBuf s l ld) := by
  unfold setBuf
  try dsimp only
  repeat' first
    | with_reducible assumption | with_reducible apply State.setVbuf_follows | with_reducible apply State.setRbuf_follows

theorem vbPush_follows {b₀ : State} {s : State} (Hs : b₀.Follows s) (l : LineNo) (ld : LineData) : b₀.Follows (vbPush s l ld) := by
  unfold vbPush
  try dsimp only
  repeat' first
    | with_reducible assumption | with_reducible apply setBuf_follows | with_reducible apply State.setVbuf_follows | split

theorem toBuffer_follows {b₀ : State} {s : State} (Hs : b₀.Follows s) (l : LineNo) (ld : LineData) : b₀.Follows (toBuffer s l ld) := by
  unfold toBuffer
  try dsimp only
  repeat' first
    | with_reducible assumption | with_reducible apply memWrite_follows | with_reducible apply vbPush_follows | split

theorem sliceBypass_follows {b₀ : State} {s : State} (Hs : b₀.Follows s) (g : Nat) : b₀.Follows (sliceBypass s g) := by
  unfold sliceBypass
  try dsimp only
  repeat' first
    | with_reducible assumption | (with_reducible refine forEach_follows _ _ ?_ (fun _ _ _ => ?_)) | with_reducible apply memWrite_follows
    | with_reducible apply State.count_follows | with_reducible apply State.setWayAt_follows | with_reducible apply errRecord_follows
    | with_reducible apply State.put_follows | with_reducible apply State.setFlag_follows | split

theorem sliceUe_follows {b₀ : State} {s : State} (Hs : b₀.Follows s) (g : Nat) (l : LineNo) : b₀.Follows (sliceUe s g l) := by
  unfold sliceUe
  try dsimp only
  repeat' first
    | with_reducible assumption | with_reducible apply sliceBypass_follows | split | with_reducible apply State.Follows.with

theorem wayDecode_follows {b₀ : State} {s : State} (Hs : b₀.Follows s) (k : Nat) : b₀.Follows (wayDecode s k) := by
  unfold wayDecode
  try dsimp only
  repeat' first
    | with_reducible assumption | with_reducible apply errRecord_follows | with_reducible apply State.setWayAt_follows
    | with_reducible apply sliceUe_follows | split

theorem wayPlace_follows {b₀ : State} {s : State} (Hs : b₀.Follows s) (k : Nat) (x : Way) : b₀.Follows (wayPlace s k x) := by
  unfold wayPlace
  try dsimp only
  repeat' first
    | with_reducible assumption | with_reducible apply State.setWayAt_follows | with_reducible apply State.disarm_follows | split

theorem State.setLfsr_follows {b₀ : State} {s : State} (Hs : b₀.Follows s) (g : Nat) (v : Nat) : b₀.Follows (State.setLfsr s g v) := by
  unfold State.setLfsr
  try dsimp only
  repeat' first
    | with_reducible assumption | with_reducible apply State.put_follows

theorem dropReplicas_follows {b₀ : State} {s : State} (Hs : b₀.Follows s) (l : LineNo) : b₀.Follows (dropReplicas s l) := by
  unfold dropReplicas
  try dsimp only
  repeat' first
    | with_reducible assumption | (with_reducible refine forEach_follows _ _ ?_ (fun _ _ _ => ?_)) | with_reducible apply State.setWayAt_follows
    | split

theorem deliverFill_follows {b₀ : State} {s : State} (Hs : b₀.Follows s) (m : Msg) : b₀.Follows (deliverFill s m) := by
  unfold deliverFill
  try dsimp only
  repeat' first
    | with_reducible assumption | with_reducible apply l1Fill_follows | with_reducible apply l1Grant_follows
    | with_reducible apply State.recv_follows | split

theorem purgeL1s_follows {b₀ : State} {s : State} (Hs : b₀.Follows s) (l : LineNo) : b₀.Follows (purgeL1s s l).1 := by
  unfold purgeL1s
  try dsimp only
  repeat' first
    | with_reducible assumption | with_reducible apply keptMiss_follows | with_reducible apply State.modCore_follows
    | (with_reducible refine foldl_fst_follows _ (fun _ _ _ => ?_) _ ?_) | split

theorem purge_follows {b₀ : State} {s : State} (Hs : b₀.Follows s) (l : LineNo) : b₀.Follows (purge s l).1 := by
  unfold purge
  try dsimp only
  repeat' first
    | with_reducible assumption | (with_reducible refine forEach_follows _ _ ?_ (fun _ _ _ => ?_)) | with_reducible apply deliverFill_follows
    | with_reducible apply purgeL1s_follows | with_reducible apply dropReplicas_follows | with_reducible apply State.count_follows
    | with_reducible apply State.send_follows | with_reducible apply State.recv_follows | split | with_reducible apply State.Follows.with

theorem evictNow_follows {b₀ : State} {s : State} (Hs : b₀.Follows s) (k : Nat) (x : Way) : b₀.Follows (evictNow s k x) := by
  unfold evictNow
  try dsimp only
  repeat' first
    | with_reducible assumption | with_reducible apply purge_follows | with_reducible apply wayDecode_follows
    | with_reducible apply State.setWayAt_follows | with_reducible apply State.count_follows | with_reducible apply vbPush_follows | split

theorem pinWay_follows {b₀ : State}  {s : State} {g : Nat} {set : Nat} {mask : Nat} {t₁ : State} {n₁ : Nat} (e : pinWay s g set mask = some (t₁, n₁)) (Hs : b₀.Follows s) : b₀.Follows t₁ := by
  unfold pinWay at e
  try dsimp only at e
  repeat' first
    | cases e | split at e | with_reducible assumption | with_reducible apply State.setLfsr_follows | with_reducible apply evictNow_follows | split

end Sys2Proof.Machine
end

