-- ==== Sys2Proof/Laws/FollowPlace.lean ====
section
/-!
SUPPORT. Every operation of Machine/Place.lean gives a state that follows the one it is given.
-/
namespace Sys2Proof.Machine

theorem State.putTxn_follows {b₀ : State} {s : State} (Hs : b₀.Follows s) (l : LineNo) (t : Txn) : b₀.Follows (State.putTxn s l t) := by
  unfold State.putTxn
  try dsimp only
  repeat' first
    | with_reducible assumption | with_reducible apply State.setLineq_follows

theorem nextBinv_follows {b₀ : State} {s : State} (Hs : b₀.Follows s) (l : LineNo) (t : Txn) : b₀.Follows (nextBinv s l t).1 := by
  unfold nextBinv
  try dsimp only
  repeat' first
    | with_reducible assumption | with_reducible apply State.count_follows | with_reducible apply State.send_follows | split

theorem startInv_follows {b₀ : State} {s : State} (Hs : b₀.Follows s) (l : LineNo) (t : Txn) (skip : Option Nat) : b₀.Follows (startInv s l t skip).1 := by
  unfold startInv
  try dsimp only
  repeat' first
    | with_reducible assumption | (with_reducible refine forEach_follows _ _ ?_ (fun _ _ _ => ?_)) | with_reducible apply State.count_follows
    | with_reducible apply nextBinv_follows | with_reducible apply State.send_follows | split

theorem askOwner_follows {b₀ : State} {s : State} (Hs : b₀.Follows s) (l : LineNo) (t : Txn) (o : Nat) (b : MsgBody) : b₀.Follows (askOwner s l t o b).1 := by
  unfold askOwner
  try dsimp only
  repeat' first
    | with_reducible assumption | with_reducible apply State.count_follows | with_reducible apply State.send_follows | split

theorem probeRead_follows {b₀ : State} {s : State} (Hs : b₀.Follows s) (die : Nat) (l : LineNo) : b₀.Follows (probeRead s die l) := by
  unfold probeRead
  try dsimp only
  repeat' first
    | with_reducible assumption | with_reducible apply State.setReg_follows | with_reducible apply State.put_follows
    | with_reducible apply State.setFlag_follows | split

theorem probeStart_follows {b₀ : State} {s : State} (Hs : b₀.Follows s) (die : Nat) (l : LineNo) : b₀.Follows (probeStart s die l) := by
  unfold probeStart
  try dsimp only
  repeat' first
    | with_reducible assumption | with_reducible apply probeRead_follows | with_reducible apply State.setFlag_follows | split
    | with_reducible apply State.Follows.with

theorem probesDue_follows {b₀ : State} {s : State} (Hs : b₀.Follows s) (l : LineNo) : b₀.Follows (probesDue s l) := by
  unfold probesDue
  try dsimp only
  repeat' first
    | with_reducible assumption | (with_reducible refine forEach_follows _ _ ?_ (fun _ _ _ => ?_)) | with_reducible apply probeRead_follows
    | with_reducible apply State.Follows.with

theorem unpromise_follows {b₀ : State} {s : State} (Hs : b₀.Follows s) (g : Nat) (l : LineNo) : b₀.Follows (unpromise s g l) := by
  unfold unpromise
  try dsimp only
  repeat' first
    | with_reducible assumption | with_reducible apply State.Follows.with

theorem endTxn_follows {b₀ : State} {s : State} (Hs : b₀.Follows s) (l : LineNo) : b₀.Follows (endTxn s l) := by
  unfold endTxn
  try dsimp only
  repeat' first
    | with_reducible assumption | with_reducible apply unpromise_follows | with_reducible apply probesDue_follows
    | with_reducible apply State.setLineq_follows | with_reducible apply State.setWayAt_follows | split

theorem promise_follows {b₀ : State} {s : State} (Hs : b₀.Follows s) (g : Nat) (l : LineNo) (shadow : Bool) (k : Nat) : b₀.Follows (promise s g l shadow k) := by
  unfold promise
  try dsimp only
  repeat' first
    | with_reducible assumption | with_reducible apply State.Follows.with

theorem vbStall_follows {b₀ : State} {s : State} (Hs : b₀.Follows s) (g : Nat) : b₀.Follows (vbStall s g) := by
  unfold vbStall
  try dsimp only
  repeat' first
    | with_reducible assumption | with_reducible apply State.countFree_follows

theorem vbEnter_follows {b₀ : State} {s : State} (Hs : b₀.Follows s) (l : LineNo) (ld : LineData) (f : State → State) (Hf : ∀ (x0 : State), b₀.Follows x0 → b₀.Follows (f x0)) : b₀.Follows (vbEnter s l ld f) := by
  unfold vbEnter
  try dsimp only
  repeat' first
    | with_reducible assumption | with_reducible apply vbStall_follows | with_reducible apply vbPush_follows | with_reducible apply Hf | split

theorem finishLeave_follows {b₀ : State} {s : State} (Hs : b₀.Follows s) (l : LineNo) (t : Txn) (shadow : Bool) : b₀.Follows (finishLeave s l t shadow) := by
  unfold finishLeave
  try dsimp only
  repeat' first
    | with_reducible assumption | with_reducible apply endTxn_follows | with_reducible apply State.setShadowAt_follows
    | with_reducible apply State.count_follows | (with_reducible refine vbEnter_follows ?_ _ _ _ (fun _ _ => ?_))
    | with_reducible apply wayDecode_follows | with_reducible apply State.setWayAt_follows | split

theorem beginLeave_follows {b₀ : State} {s : State} (Hs : b₀.Follows s) (l : LineNo) (shadow : Bool) (k : Nat) : b₀.Follows (beginLeave s l shadow k) := by
  unfold beginLeave
  try dsimp only
  repeat' first
    | with_reducible assumption | with_reducible apply startInv_follows | with_reducible apply askOwner_follows
    | with_reducible apply State.putTxn_follows | with_reducible apply finishLeave_follows | split

theorem leave_follows {b₀ : State} {s : State} (Hs : b₀.Follows s) (l : LineNo) (shadow : Bool) (k : Nat) : b₀.Follows (leave s l shadow k) := by
  unfold leave
  try dsimp only
  repeat' first
    | with_reducible assumption | with_reducible apply beginLeave_follows | split

theorem replicaGone_follows {b₀ : State} {s : State} (Hs : b₀.Follows s) (g : Nat) (l : LineNo) (ack : Bool) : b₀.Follows (replicaGone s g l ack) := by
  unfold replicaGone
  try dsimp only
  repeat' first
    | with_reducible assumption | with_reducible apply State.setWayAt_follows | with_reducible apply State.send_follows | split

theorem removeReplica_follows {b₀ : State} {s : State} (Hs : b₀.Follows s) (g : Nat) (l : LineNo) (rows : BitVec 32) (ack : Bool) : b₀.Follows (removeReplica s g l rows ack) := by
  unfold removeReplica
  try dsimp only
  repeat' first
    | with_reducible assumption | with_reducible apply replicaGone_follows | (with_reducible refine forEach_follows _ _ ?_ (fun _ _ _ => ?_))
    | with_reducible apply State.send_follows | split | with_reducible apply State.Follows.with

theorem vacate_follows {b₀ : State} {s : State} (Hs : b₀.Follows s) (g : Nat) (l : LineNo) (k : Nat) : b₀.Follows (vacate s g l k).1 := by
  unfold vacate
  try dsimp only
  repeat' first
    | with_reducible assumption | with_reducible apply unpromise_follows | with_reducible apply leave_follows
    | with_reducible apply removeReplica_follows | split

theorem takeWay_follows {b₀ : State} {s : State} (Hs : b₀.Follows s) (g : Nat) (l : LineNo) (mask : Nat) : b₀.Follows (takeWay s g l mask).1 := by
  unfold takeWay
  try dsimp only
  repeat' first
    | with_reducible assumption | with_reducible apply vacate_follows | with_reducible apply promise_follows
    | with_reducible apply State.setLfsr_follows | split

theorem vacateShadow_follows {b₀ : State} {s : State} (Hs : b₀.Follows s) (l : LineNo) (k : Nat) : b₀.Follows (vacateShadow s l k).1 := by
  unfold vacateShadow
  try dsimp only
  repeat' first
    | with_reducible assumption | with_reducible apply unpromise_follows | with_reducible apply leave_follows | split

theorem takeShadow_follows {b₀ : State} {s : State} (Hs : b₀.Follows s) (l : LineNo) : b₀.Follows (takeShadow s l).1 := by
  unfold takeShadow
  try dsimp only
  repeat' first
    | with_reducible assumption | with_reducible apply vacateShadow_follows | with_reducible apply promise_follows
    | with_reducible apply State.setLfsr_follows | split

theorem putDir_follows {b₀ : State} {s : State} (Hs : b₀.Follows s) (l : LineNo) (d : Dir) : b₀.Follows (putDir s l d).1 := by
  unfold putDir
  try dsimp only
  repeat' first
    | with_reducible assumption | with_reducible apply State.setWayAt_follows | with_reducible apply State.setShadowAt_follows
    | with_reducible apply takeShadow_follows | (with_reducible refine follows_of_eq (by assumption) ?_) | split

theorem setDir_follows {b₀ : State} {s : State} (Hs : b₀.Follows s) (l : LineNo) (d : Dir) : b₀.Follows (setDir s l d) := by
  unfold setDir
  try dsimp only
  repeat' first
    | with_reducible assumption | with_reducible apply putDir_follows

theorem placeLine_follows {b₀ : State} {s : State} (Hs : b₀.Follows s) (l : LineNo) (k : Nat) (ld : LineData) (dirty : Bool) (redPin : Bool) : b₀.Follows (placeLine s l k ld dirty redPin) := by
  unfold placeLine
  try dsimp only
  repeat' first
    | with_reducible assumption | with_reducible apply wayPlace_follows | with_reducible apply State.setShadowAt_follows | split

theorem allocLine_follows {b₀ : State} {s : State} (Hs : b₀.Follows s) (l : LineNo) (mask : Nat) (ld : LineData) (dirty : Bool) (redPin : Bool) : b₀.Follows (allocLine s l mask ld dirty redPin).1 := by
  unfold allocLine
  try dsimp only
  repeat' first
    | with_reducible assumption | with_reducible apply takeWay_follows | with_reducible apply placeLine_follows
    | (with_reducible refine follows_of_eq (by assumption) ?_) | split

theorem placeData_follows {b₀ : State} {s : State} (Hs : b₀.Follows s) (l : LineNo) (ld : LineData) : b₀.Follows (placeData s l ld) := by
  unfold placeData
  try dsimp only
  repeat' first
    | with_reducible assumption | with_reducible apply toBuffer_follows | with_reducible apply State.setWayAt_follows
    | with_reducible apply wayPlace_follows | split

theorem victim_follows {b₀ : State} {s : State} (Hs : b₀.Follows s) (c : Nat) (l : LineNo) (ld : LineData) (dirty : Bool) (key : Key) : b₀.Follows (victim s c l ld dirty key) := by
  unfold victim
  try dsimp only
  repeat' first
    | with_reducible assumption | with_reducible apply setDir_follows | with_reducible apply placeData_follows
    | with_reducible apply placeLine_follows | with_reducible apply State.count_follows | with_reducible apply State.send_follows | split

theorem cleanData_follows {b₀ : State} {s : State} (Hs : b₀.Follows s) (c : Nat) (l : LineNo) (ld : LineData) : b₀.Follows (cleanData s c l ld) := by
  unfold cleanData
  try dsimp only
  repeat' first
    | with_reducible assumption | with_reducible apply setDir_follows | with_reducible apply placeData_follows | split

theorem pinCount_follows {b₀ : State} {s : State} (Hs : b₀.Follows s) (g : Nat) : b₀.Follows (pinCount s g) := by
  unfold pinCount
  try dsimp only
  repeat' first
    | with_reducible assumption | with_reducible apply State.put_follows

theorem pinFailed_follows {b₀ : State} {s : State} (Hs : b₀.Follows s) (ls : List LineNo) (f : LineNo → Bool) : b₀.Follows (pinFailed s ls f) := by
  unfold pinFailed
  try dsimp only
  repeat' first
    | with_reducible assumption | (with_reducible refine forEach_follows _ _ ?_ (fun _ _ _ => ?_)) | with_reducible apply State.count_follows

theorem pinAt_follows {b₀ : State} {s : State} (Hs : b₀.Follows s) (p : Nat) (k : Nat) : b₀.Follows (pinAt s p k) := by
  unfold pinAt
  try dsimp only
  repeat' first
    | with_reducible assumption | with_reducible apply State.setWayAt_follows | split

theorem pinLine_follows {b₀ : State} {s : State} {p : Nat} {l : LineNo} {t₁ : State} (e : pinLine s p l = some t₁) (Hs : b₀.Follows s) : b₀.Follows t₁ := by
  unfold pinLine at e
  extract_lets g at e
  split at e
  · split at e
    · split at e
      · cases e; exact Hs
      · split at e
        · cases e
        · split at e
          · cases e; exact pinAt_follows Hs _ _
          · obtain ⟨r, hr, rfl⟩ := Option.map_eq_some_iff.1 e
            exact pinAt_follows (State.setWayAt_follows (State.setWayAt_follows (pinWay_follows hr Hs) _ _) _ _) _ _
    · cases e; exact Hs
  · split at e
    · cases e
    · obtain ⟨r, hr, rfl⟩ := Option.map_eq_some_iff.1 e
      exact pinAt_follows (placeLine_follows (pinWay_follows hr Hs) _ _ _ _ _) _ _

theorem pinLines_follows {b₀ : State} {p : Nat} {ls : List LineNo} {s t : State} (e : pinLines s p ls = some t) (Hs : b₀.Follows s) :
    b₀.Follows t := by
  induction ls generalizing s with
  | nil => cases e; exact Hs
  | cons l ls ih =>
    unfold pinLines at e
    split at e
    · exact ih e (pinLine_follows (by assumption) Hs)
    · cases e

theorem pinAll_follows {b₀ : State} {s : State} {p : Nat} {ls : List LineNo} {t : State} {n : Nat} (e : pinAll s p ls = some (t, n))
    (Hs : b₀.Follows s) : b₀.Follows t := by
  unfold pinAll at e
  split at e
  · exact (Prod.mk.inj (Option.some.inj e)).1 ▸ pinFailed_follows Hs _ _
  · split at e
    · exact (Prod.mk.inj (Option.some.inj e)).1 ▸ pinFailed_follows Hs _ _
    · split at e
      · rename_i s1 h1
        exact (Prod.mk.inj (Option.some.inj e)).1 ▸ forEach_follows _ _ (pinLines_follows h1 Hs) (fun t x ht => pinCount_follows ht x)
      · cases e

theorem unpinAll_follows {b₀ : State} {s : State} (Hs : b₀.Follows s) (p : Nat) (ls : List LineNo) : b₀.Follows (unpinAll s p ls) := by
  unfold unpinAll
  try dsimp only
  repeat' first
    | with_reducible assumption | (with_reducible refine forEach_follows _ _ ?_ (fun _ _ _ => ?_)) | with_reducible apply State.setWayAt_follows
    | with_reducible apply pinCount_follows | split

end Sys2Proof.Machine
end

