-- ==== Sys2Proof/Laws/FollowHome.lean ====
section
/-!
SUPPORT. Every operation of Machine/Home.lean gives a state that follows the one it is given.
-/
namespace Sys2Proof.Machine

theorem askMem_follows {b₀ : State} {s : State} (Hs : b₀.Follows s) (l : LineNo) (t : Txn) : b₀.Follows (askMem s l t) := by
  unfold askMem
  try dsimp only
  repeat' first
    | with_reducible assumption | with_reducible apply State.putTxn_follows | with_reducible apply State.Follows.with

theorem settleLine_follows {b₀ : State} {s : State} (Hs : b₀.Follows s) (l : LineNo) (k : Key) (d : Dir) (fill : Option LineData) : b₀.Follows (settleLine s l k d fill).1 := by
  unfold settleLine
  try dsimp only
  repeat' first
    | with_reducible assumption | with_reducible apply allocLine_follows | with_reducible apply setDir_follows | with_reducible apply putDir_follows
    | split

theorem placed_follows {b₀ : State} {r : State × Bool} (Hr : b₀.Follows r.1) (f : State → State) (Hf : ∀ (x0 : State), b₀.Follows x0 → b₀.Follows (f x0)) : b₀.Follows (placed r f) := by
  unfold placed
  try dsimp only
  repeat' first
    | with_reducible assumption | with_reducible apply Hf | split

theorem dropFill_follows {b₀ : State} {s : State} (Hs : b₀.Follows s) (via : Option SliceId) (l : LineNo) (num : ReqNum) (ifetch : Bool) : b₀.Follows (dropFill s via l num ifetch) := by
  unfold dropFill
  try dsimp only
  repeat' first
    | with_reducible assumption | split | with_reducible apply State.Follows.with

theorem finishGets_follows {b₀ : State} {s : State} (Hs : b₀.Follows s) (l : LineNo) (t : Txn) (ifetch : Bool) (via : Option SliceId) : b₀.Follows (finishGets s l t ifetch via) := by
  unfold finishGets
  extract_lets +onlyGivenNames d c fill rep dst die d1 coarse close
  have h_close : ∀ t, b₀.Follows t → b₀.Follows (close t) := by
    intro t _
    simp only [close]
    repeat' first
      | with_reducible assumption | with_reducible apply State.count_follows | with_reducible apply endTxn_follows
      | with_reducible apply dropFill_follows | split
  clear_value close
  try dsimp only
  repeat' first
    | with_reducible apply h_close | with_reducible assumption | (with_reducible refine placed_follows ?_ _ (fun _ _ => ?_))
    | with_reducible apply putDir_follows | with_reducible apply askMem_follows | with_reducible apply settleLine_follows
    | with_reducible apply State.send_follows | split

theorem unstale_follows {b₀ : State} {s : State} (Hs : b₀.Follows s) (l : LineNo) : b₀.Follows (unstale s l) := by
  unfold unstale
  try dsimp only
  repeat' first
    | with_reducible assumption | with_reducible apply State.Follows.with

theorem finishGetx_follows {b₀ : State} {s : State} (Hs : b₀.Follows s) (l : LineNo) (t : Txn) : b₀.Follows (finishGetx s l t) := by
  unfold finishGetx
  try dsimp only
  repeat' first
    | with_reducible assumption | (with_reducible refine placed_follows ?_ _ (fun _ _ => ?_)) | with_reducible apply putDir_follows
    | with_reducible apply endTxn_follows | with_reducible apply unstale_follows | with_reducible apply settleLine_follows
    | with_reducible apply askMem_follows | with_reducible apply State.send_follows | split

theorem finishMrd_follows {b₀ : State} {s : State} (Hs : b₀.Follows s) (l : LineNo) (t : Txn) : b₀.Follows (finishMrd s l t) := by
  unfold finishMrd
  try dsimp only
  repeat' first
    | with_reducible assumption | with_reducible apply askMem_follows | (with_reducible refine placed_follows ?_ _ (fun _ _ => ?_))
    | with_reducible apply settleLine_follows | with_reducible apply endTxn_follows | with_reducible apply State.send_follows | split

theorem writeThrough_follows {b₀ : State} {s : State} (Hs : b₀.Follows s) (l : LineNo) (ld : LineData) : b₀.Follows (writeThrough s l ld) := by
  unfold writeThrough
  try dsimp only
  repeat' first
    | with_reducible assumption | with_reducible apply State.setWayAt_follows | with_reducible apply setBuf_follows
    | with_reducible apply memWrite_follows | split

theorem finishWrite_follows {b₀ : State} {s : State} (Hs : b₀.Follows s) (l : LineNo) (t : Txn) (data : Line) (be : BitVec 128) (poison : Bool) (keep : Bool) (answer : Bool) (alloc : Bool) : b₀.Follows (finishWrite s l t data be poison keep answer alloc) := by
  unfold finishWrite
  extract_lets +onlyGivenNames d reply
  have h_reply : ∀ t u, b₀.Follows t → b₀.Follows (reply t u) := by
    intro t u _
    simp only [reply]
    repeat' first
      | with_reducible assumption | with_reducible apply State.send_follows | split
  clear_value reply
  try dsimp only
  repeat' first
    | with_reducible apply h_reply | with_reducible assumption | with_reducible apply endTxn_follows | with_reducible apply startInv_follows
    | with_reducible apply State.putTxn_follows | with_reducible apply askMem_follows | with_reducible apply unstale_follows
    | with_reducible apply wayPlace_follows | (with_reducible refine placed_follows ?_ _ (fun _ _ => ?_)) | with_reducible apply allocLine_follows
    | with_reducible apply setDir_follows | with_reducible apply putDir_follows | with_reducible apply writeThrough_follows | split
    | with_reducible apply State.Follows.with

theorem updateDone_follows {b₀ : State} {s : State} (Hs : b₀.Follows s) (l : LineNo) (t : Txn) (radd : Bool) (u : Updated) : b₀.Follows (updateDone s l t radd u) := by
  unfold updateDone
  try dsimp only
  repeat' first
    | with_reducible assumption | with_reducible apply unstale_follows | with_reducible apply State.count_follows
    | with_reducible apply endTxn_follows | with_reducible apply State.send_follows | split

theorem updateBuffered_follows {b₀ : State} {s : State} (Hs : b₀.Follows s) (l : LineNo) (t : Txn) (radd : Bool) (u : Updated) : b₀.Follows (updateBuffered s l t radd u) := by
  unfold updateBuffered
  try dsimp only
  repeat' first
    | with_reducible assumption | with_reducible apply State.countFree_follows | with_reducible apply setDir_follows
    | with_reducible apply State.setVbuf_follows | with_reducible apply updateDone_follows | with_reducible apply State.setRbuf_follows | split

theorem finishUpdate_follows {b₀ : State} {s : State} (Hs : b₀.Follows s) (l : LineNo) (t : Txn) (radd : Bool) (f : LineData → Updated) : b₀.Follows (finishUpdate s l t radd f) := by
  unfold finishUpdate
  extract_lets +onlyGivenNames g mask may vb alloc
  have h_alloc : ∀ t, b₀.Follows (alloc t) := by
    intro t
    simp only [alloc]
    repeat' first
      | with_reducible assumption | (with_reducible refine placed_follows ?_ _ (fun _ _ => ?_)) | with_reducible apply allocLine_follows
      | with_reducible apply updateDone_follows | with_reducible apply setDir_follows
  clear_value alloc
  try dsimp only
  repeat' first
    | with_reducible apply h_alloc | with_reducible assumption | (with_reducible refine placed_follows ?_ _ (fun _ _ => ?_))
    | with_reducible apply allocLine_follows | with_reducible apply updateDone_follows | with_reducible apply setDir_follows
    | with_reducible apply endTxn_follows | with_reducible apply writeThrough_follows | with_reducible apply State.setWayAt_follows
    | with_reducible apply askMem_follows | with_reducible apply setBuf_follows | with_reducible apply State.count_follows
    | with_reducible apply updateBuffered_follows | with_reducible apply State.send_follows | split

theorem finish_follows {b₀ : State} {s : State} (Hs : b₀.Follows s) (l : LineNo) (t : Txn) : b₀.Follows (finish s l t) := by
  unfold finish
  try dsimp only
  repeat' first
    | with_reducible assumption | with_reducible apply finishGets_follows | with_reducible apply finishGetx_follows
    | with_reducible apply finishWrite_follows | with_reducible apply finishMrd_follows | with_reducible apply finishUpdate_follows
    | with_reducible apply finishLeave_follows | split

theorem askForward_follows {b₀ : State} {s : State} (Hs : b₀.Follows s) (l : LineNo) (t : Txn) : b₀.Follows (askForward s l t).1 := by
  unfold askForward
  try dsimp only
  repeat' first
    | with_reducible assumption | with_reducible apply askOwner_follows | with_reducible apply State.count_follows
    | with_reducible apply State.send_follows | split

theorem tryFinish_follows {b₀ : State} {s : State} (Hs : b₀.Follows s) (l : LineNo) : b₀.Follows (tryFinish s l) := by
  unfold tryFinish
  try dsimp only
  repeat' first
    | with_reducible assumption | with_reducible apply askForward_follows | with_reducible apply finish_follows
    | with_reducible apply State.putTxn_follows | split

theorem lookup_follows {b₀ : State} {s : State} (Hs : b₀.Follows s) (l : LineNo) (r : Req) : b₀.Follows (lookup s l r) := by
  unfold lookup
  try dsimp only
  repeat' first
    | with_reducible assumption | with_reducible apply State.count_follows | with_reducible apply State.incSat_follows | split

theorem beginGetx_follows {b₀ : State} {s : State} (Hs : b₀.Follows s) (l : LineNo) (t : Txn) : b₀.Follows (beginGetx s l t).1 := by
  unfold beginGetx
  try dsimp only
  repeat' first
    | with_reducible assumption | with_reducible apply startInv_follows

theorem beginUpg_follows {b₀ : State} {s : State} (Hs : b₀.Follows s) (l : LineNo) (t : Txn) : b₀.Follows (beginUpg s l t).1 := by
  unfold beginUpg
  try dsimp only
  repeat' first
    | with_reducible assumption | with_reducible apply startInv_follows | with_reducible apply askOwner_follows | split

theorem beginOp_follows {b₀ : State} {s : State} (Hs : b₀.Follows s) (l : LineNo) (t : Txn) : b₀.Follows (beginOp s l t).1 := by
  unfold beginOp
  try dsimp only
  repeat' first
    | with_reducible assumption | with_reducible apply askOwner_follows | with_reducible apply State.count_follows
    | with_reducible apply beginGetx_follows | with_reducible apply beginUpg_follows | with_reducible apply startInv_follows | split

theorem beginReq_follows {b₀ : State} {s : State} (Hs : b₀.Follows s) (l : LineNo) (r : Req) : b₀.Follows (beginReq s l r) := by
  unfold beginReq
  try dsimp only
  repeat' first
    | with_reducible assumption | with_reducible apply State.count_follows | with_reducible apply lookup_follows
    | with_reducible apply wayDecode_follows | with_reducible apply beginOp_follows | with_reducible apply tryFinish_follows
    | with_reducible apply State.putTxn_follows | split

theorem enterTie_follows {b₀ : State} {s : State} (Hs : b₀.Follows s) (l : LineNo) (r : Req) : b₀.Follows (enterTie s l r) := by
  unfold enterTie
  try dsimp only
  repeat' first
    | with_reducible assumption | with_reducible apply State.setLineq_follows | with_reducible apply State.count_follows
    | with_reducible apply State.put_follows | split

theorem enter_follows {b₀ : State} {s : State} (Hs : b₀.Follows s) (l : LineNo) (r : Req) : b₀.Follows (enter s l r) := by
  unfold enter
  try dsimp only
  repeat' first
    | with_reducible assumption | with_reducible apply enterTie_follows | with_reducible apply State.setLineq_follows | split

theorem takeNext_follows {b₀ : State} {s : State} (Hs : b₀.Follows s) (l : LineNo) : b₀.Follows (takeNext s l) := by
  unfold takeNext
  try dsimp only
  repeat' first
    | with_reducible assumption | with_reducible apply beginReq_follows | with_reducible apply State.setLineq_follows | split

theorem State.modTxn_follows {b₀ : State} {s : State} (Hs : b₀.Follows s) (l : LineNo) (f : Txn → Txn) : b₀.Follows (State.modTxn s l f) := by
  unfold State.modTxn
  try dsimp only
  repeat' first
    | with_reducible assumption | with_reducible apply tryFinish_follows | with_reducible apply State.putTxn_follows | split

theorem homeInvAck_follows {b₀ : State} {s : State} (Hs : b₀.Follows s) (c : Nat) (l : LineNo) : b₀.Follows (homeInvAck s c l) := by
  unfold homeInvAck
  try dsimp only
  repeat' first
    | with_reducible assumption | with_reducible apply State.modTxn_follows

theorem homeBinvAck_follows {b₀ : State} {s : State} (Hs : b₀.Follows s) (die : Nat) (l : LineNo) : b₀.Follows (homeBinvAck s die l) := by
  unfold homeBinvAck
  try dsimp only
  repeat' first
    | with_reducible assumption | with_reducible apply nextBinv_follows | with_reducible apply tryFinish_follows
    | with_reducible apply State.putTxn_follows | split

theorem homeRepAck_follows {b₀ : State} {s : State} (Hs : b₀.Follows s) (die : Nat) (l : LineNo) : b₀.Follows (homeRepAck s die l) := by
  unfold homeRepAck
  try dsimp only
  repeat' first
    | with_reducible assumption | with_reducible apply setDir_follows | with_reducible apply State.modTxn_follows

theorem homeRepDrop_follows {b₀ : State} {s : State} (Hs : b₀.Follows s) (die : Nat) (l : LineNo) : b₀.Follows (homeRepDrop s die l) := by
  unfold homeRepDrop
  try dsimp only
  repeat' first
    | with_reducible assumption | with_reducible apply setDir_follows | split

theorem fwdServed_follows {b₀ : State} {s : State} (Hs : b₀.Follows s) (l : LineNo) (t : Txn) (ifetch : Bool) (via : Option SliceId) (dirty : Bool)
    (ld : Option LineData) : b₀.Follows (fwdServed s l t ifetch via dirty ld) := by
  have h1 : ∀ d, b₀.Follows (setDir s l d) := fun _ => setDir_follows Hs _ _
  refine endTxn_follows (dropFill_follows ?_ _ _ _ _) _
  cases ld
  · exact h1 _
  · exact State.send_follows (h1 _) _ _ _ _

theorem homeFwdDone_follows {b₀ : State} {s : State} (Hs : b₀.Follows s) (c : Nat) (l : LineNo) (dirty : Bool) (ld : Option LineData) :
    b₀.Follows (homeFwdDone s c l dirty ld) := by
  unfold homeFwdDone
  generalize (s.lineq l).act = o
  cases o with
  | none => exact Hs
  | some t =>
    dsimp only
    cases t.owner != some c with
    | true => exact Hs
    | false =>
      generalize t.req.op = q
      cases q with
      | gets => exact fwdServed_follows Hs _ _ _ _ _ _
      | _ => exact State.modTxn_follows Hs _ _

theorem homeRecall_follows {b₀ : State} {s : State} (Hs : b₀.Follows s) (c : Nat) (l : LineNo) (ld : LineData) (dirty : Bool) : b₀.Follows (homeRecall s c l ld dirty) := by
  have place (x : Dir) : b₀.Follows (if dirty then placeData (setDir s l x) l ld else setDir s l x) := by
    split
    · exact placeData_follows (setDir_follows Hs _ _) _ _
    · exact setDir_follows Hs _ _
  unfold homeRecall
  dsimp only
  generalize (s.lineq l).act = o
  cases o with
  | none => exact Hs
  | some t =>
    dsimp only
    cases t.owner != some c with
    | true => exact Hs
    | false =>
      generalize t.req.op = q
      cases q with
      | gets | upg => exact State.modTxn_follows (place _) _ _
      | _ =>
        dsimp only
        split
        · exact Hs
        · split
          · exact State.modTxn_follows (place _) _ _
          · exact State.modTxn_follows (setDir_follows Hs _ _) _ _

theorem homeFwdMiss_follows {b₀ : State} {s : State} (Hs : b₀.Follows s) (c : Nat) (l : LineNo) : b₀.Follows (homeFwdMiss s c l) := by
  unfold homeFwdMiss
  try dsimp only
  repeat' first
    | with_reducible assumption | with_reducible apply State.count_follows | with_reducible apply State.modTxn_follows | split

theorem serveReplica_follows {b₀ : State} {s : State} (Hs : b₀.Follows s) (g : Nat) (k : Nat) (x : Way) (l : LineNo) (num : ReqNum) (ifetch : Bool) (dst : Option SliceId) (key : Key) : b₀.Follows (serveReplica s g k x l num ifetch dst key) := by
  unfold serveReplica
  try dsimp only
  repeat' first
    | with_reducible assumption | with_reducible apply State.count_follows | with_reducible apply State.setWayAt_follows
    | with_reducible apply State.send_follows | split

theorem repGets_follows {b₀ : State} {s : State} (Hs : b₀.Follows s) (g : Nat) (l : LineNo) (num : ReqNum) (key : Key) (ifetch : Bool) : b₀.Follows (repGets s g l num key ifetch) := by
  unfold repGets
  try dsimp only
  repeat' first
    | with_reducible assumption | with_reducible apply wayDecode_follows | with_reducible apply State.count_follows
    | with_reducible apply serveReplica_follows | with_reducible apply State.send_follows | split | with_reducible apply State.Follows.with

theorem serveOnce_follows {b₀ : State} {s : State} (Hs : b₀.Follows s) (g : Nat) (l : LineNo) (ld : LineData) (num : ReqNum) (ifetch : Bool) : b₀.Follows (serveOnce s g l ld num ifetch) := by
  unfold serveOnce
  try dsimp only
  repeat' first
    | with_reducible assumption | with_reducible apply State.modCore_follows | with_reducible apply State.send_follows | split

theorem fillReplica_follows {b₀ : State} {s : State} (Hs : b₀.Follows s) (f : RepFill) (ld : LineData) (key : Key) : b₀.Follows (fillReplica s f ld key) := by
  unfold fillReplica
  try dsimp only
  repeat' first
    | with_reducible assumption | with_reducible apply unpromise_follows | with_reducible apply serveOnce_follows
    | with_reducible apply wayPlace_follows | with_reducible apply takeWay_follows | with_reducible apply State.count_follows
    | with_reducible apply State.send_follows | (with_reducible refine follows_of_eq (by assumption) ?_) | split
    | with_reducible apply State.Follows.with

theorem fillsDue_follows {b₀ : State} {s : State} (Hs : b₀.Follows s) : b₀.Follows (fillsDue s) := by
  unfold fillsDue
  try dsimp only
  repeat' first
    | with_reducible assumption | (with_reducible refine forEach_follows _ _ ?_ (fun _ _ _ => ?_)) | with_reducible apply fillReplica_follows
    | split

theorem repFill_follows {b₀ : State} {s : State} (Hs : b₀.Follows s) (g : Nat) (l : LineNo) (ld : LineData) (num : ReqNum) (key : Key) (ifetch : Bool) : b₀.Follows (repFill s g l ld num key ifetch) := by
  unfold repFill
  try dsimp only
  repeat' first
    | with_reducible assumption | with_reducible apply serveOnce_follows | with_reducible apply fillReplica_follows | split
    | with_reducible apply State.Follows.with

theorem repServe_follows {b₀ : State} {s : State} (Hs : b₀.Follows s) (g : Nat) (l : LineNo) (num : ReqNum) (key : Key) (ifetch : Bool) (dst : Option SliceId) : b₀.Follows (repServe s g l num key ifetch dst) := by
  unfold repServe
  try dsimp only
  repeat' first
    | with_reducible assumption | with_reducible apply State.count_follows | with_reducible apply serveReplica_follows
    | with_reducible apply State.send_follows | split

theorem repInvalidate_follows {b₀ : State} {s : State} (Hs : b₀.Follows s) (g : Nat) (l : LineNo) : b₀.Follows (repInvalidate s g l) := by
  unfold repInvalidate
  extract_lets +onlyGivenNames dead src s1
  have h_s1 : b₀.Follows s1 := by
    simp only [s1]
    repeat' first
      | with_reducible assumption | with_reducible apply State.Follows.with
  clear_value s1
  try dsimp only
  repeat' first
    | with_reducible assumption | with_reducible apply removeReplica_follows | with_reducible apply State.send_follows | split
    | with_reducible apply State.Follows.with

theorem repInvAck_follows {b₀ : State} {s : State} (Hs : b₀.Follows s) (g : Nat) (c : Nat) (l : LineNo) : b₀.Follows (repInvAck s g c l) := by
  unfold repInvAck
  try dsimp only
  repeat' first
    | with_reducible assumption | with_reducible apply replicaGone_follows | split | with_reducible apply State.Follows.with

theorem pathBinv_follows {b₀ : State} {s : State} (Hs : b₀.Follows s) (die : Nat) (l : LineNo) : b₀.Follows (pathBinv s die l) := by
  unfold pathBinv
  repeat' first
    | (extract_lets +onlyGivenNames x; clear_value (h : x = _); first | (refine follows_let (s := b₀) h ?_ (fun _ => ?_)) | (refine follows_let_fst (s := b₀) h ?_ (fun _ => ?_)) | clear h)
    | with_reducible assumption | (with_reducible refine forEach_follows _ _ ?_ (fun _ _ _ => ?_)) | with_reducible apply State.send_follows | split
    | with_reducible apply State.Follows.with

theorem pathInvAck_follows {b₀ : State} {s : State} (Hs : b₀.Follows s) (die : Nat) (c : Nat) (l : LineNo) : b₀.Follows (pathInvAck s die c l) := by
  unfold pathInvAck
  try dsimp only
  repeat' first
    | with_reducible assumption | with_reducible apply State.send_follows | split | with_reducible apply State.Follows.with

theorem linesDue_follows {b₀ : State} {s : State} (Hs : b₀.Follows s) : b₀.Follows (linesDue s) := by
  unfold linesDue
  try dsimp only
  repeat' first
    | with_reducible assumption | (with_reducible refine forEach_follows _ _ ?_ (fun _ _ _ => ?_)) | with_reducible apply tryFinish_follows

theorem settleAll_follows {b₀ : State} {s : State} (Hs : b₀.Follows s) : b₀.Follows (settleAll s) := by
  unfold settleAll
  try dsimp only
  repeat' first
    | with_reducible assumption | with_reducible apply fillsDue_follows | with_reducible apply linesDue_follows

end Sys2Proof.Machine
end

