-- ==== Sys2Proof/Laws/FollowMemCtl.lean ====
section
/-!
SUPPORT. Every operation of Machine/MemCtl.lean gives a state that follows the one it is given.
-/
namespace Sys2Proof.Machine

theorem State.put8_follows {b₀ : State} {s : State} (Hs : b₀.Follows s) (f : Nat → Nat) (fld : Fld) (v : Nat) : b₀.Follows (State.put8 s f fld v) := by
  unfold State.put8
  try dsimp only
  repeat' first
    | with_reducible assumption | (with_reducible refine forEach_follows _ _ ?_ (fun _ _ _ => ?_)) | with_reducible apply State.put_follows

theorem claimChannel_follows {b₀ : State} {s : State} (Hs : b₀.Follows s) (c : Nat) : b₀.Follows (claimChannel s c) := by
  unfold claimChannel
  try dsimp only
  repeat' first
    | with_reducible assumption | with_reducible apply raiseEdge_follows | with_reducible apply State.put8_follows | split
    | with_reducible apply State.Follows.with

theorem chanFailed_follows {b₀ : State} {s : State} (Hs : b₀.Follows s) (c : Nat) : b₀.Follows (chanFailed s c) := by
  unfold chanFailed
  try dsimp only
  repeat' first
    | with_reducible assumption | with_reducible apply claimChannel_follows | with_reducible apply errRecord_follows
    | with_reducible apply setChan_follows | split

theorem chanDead_follows {b₀ : State} {s : State} (Hs : b₀.Follows s) (c : Nat) (claim : Bool) : b₀.Follows (chanDead s c claim) := by
  unfold chanDead
  try dsimp only
  repeat' first
    | with_reducible assumption | with_reducible apply errRecord_follows | with_reducible apply setChan_follows
    | with_reducible apply claimChannel_follows | split

theorem chanUe_follows {b₀ : State} {s : State} (Hs : b₀.Follows s) (c : Nat) (line : Nat) : b₀.Follows (chanUe s c line) := by
  unfold chanUe
  try dsimp only
  repeat' first
    | with_reducible assumption | with_reducible apply chanFailed_follows | with_reducible apply State.put_follows
    | with_reducible apply State.incSat_follows | split | with_reducible apply State.Follows.with

theorem chanCe_follows {b₀ : State} {s : State} (Hs : b₀.Follows s) (c : Nat) : b₀.Follows (chanCe s c) := by
  unfold chanCe
  try dsimp only
  repeat' first
    | with_reducible assumption | with_reducible apply State.count_follows | with_reducible apply errRecord_follows
    | with_reducible apply setChan_follows | with_reducible apply raiseEdge_follows | split | with_reducible apply State.Follows.with

theorem watchAgain_follows {b₀ : State} {s : State} (Hs : b₀.Follows s) (c : Nat) (a : Nat) (res : List ReadRes) (k : Nat) (watch : Bool) : b₀.Follows (watchAgain s c a res k watch) := by
  unfold watchAgain
  try dsimp only
  repeat' first
    | with_reducible assumption | with_reducible apply State.incSat_follows | split

theorem chanRead_follows {b₀ : State} {s : State} (Hs : b₀.Follows s) (c : Nat) (a : Nat) (res : List ReadRes) : b₀.Follows (chanRead s c a res).1 := by
  unfold chanRead
  try dsimp only
  repeat' first
    | with_reducible assumption | with_reducible apply watchAgain_follows | with_reducible apply chanCe_follows
    | with_reducible apply errRecord_follows | with_reducible apply chanUe_follows | with_reducible apply State.addWrap_follows | split

theorem State.clearLine_follows {b₀ : State} {s : State} (Hs : b₀.Follows s) (a : Nat) : b₀.Follows (State.clearLine s a) := by
  unfold State.clearLine
  try dsimp only
  repeat' first
    | with_reducible assumption | (with_reducible refine forEach_follows _ _ ?_ (fun _ _ _ => ?_)) | with_reducible apply State.clearBad_follows

theorem storeLine_follows {b₀ : State} {s : State} (Hs : b₀.Follows s) (l : LineNo) (ld : LineData) : b₀.Follows (storeLine s l ld) := by
  unfold storeLine
  try dsimp only
  repeat' first
    | with_reducible assumption | with_reducible apply injectWord_follows | with_reducible apply State.clearLine_follows
    | with_reducible apply State.setBytes_follows | with_reducible apply State.setPoison_follows | split

theorem applyWrites_follows {b₀ : State} {s : State} (Hs : b₀.Follows s) (l : LineNo) : b₀.Follows (applyWrites s l) := by
  unfold applyWrites
  try dsimp only
  repeat' first
    | with_reducible assumption | (with_reducible refine forEach_follows _ _ ?_ (fun _ _ _ => ?_)) | with_reducible apply storeLine_follows
    | with_reducible apply State.Follows.with

theorem rewrite_follows {b₀ : State} {s : State} (Hs : b₀.Follows s) (l : LineNo) (ld : LineData) : b₀.Follows (rewrite s l ld) := by
  unfold rewrite
  try dsimp only
  repeat' first
    | with_reducible assumption | with_reducible apply storeLine_follows

theorem readCopy_follows {b₀ : State} {s : State} (Hs : b₀.Follows s) (l : LineNo) (copy : List ReadRes) : b₀.Follows (readCopy s l copy).1 := by
  unfold readCopy
  try dsimp only
  repeat' first
    | with_reducible assumption | with_reducible apply applyWrites_follows | with_reducible apply chanRead_follows
    | with_reducible apply errRecord_follows | with_reducible apply State.clearLine_follows | with_reducible apply rewrite_follows
    | with_reducible apply State.count_follows | with_reducible apply State.setPoison_follows | split

theorem readLine_follows {b₀ : State} {s : State} (Hs : b₀.Follows s) (l : LineNo) (pri : List ReadRes) (copy : List ReadRes) : b₀.Follows (readLine s l pri copy).1 := by
  unfold readLine
  try dsimp only
  repeat' first
    | with_reducible assumption | with_reducible apply applyWrites_follows | with_reducible apply chanRead_follows
    | with_reducible apply readCopy_follows | with_reducible apply errRecord_follows | with_reducible apply State.clearLine_follows
    | with_reducible apply State.setPoison_follows | split

theorem memReturn_follows {b₀ : State} {s : State} (Hs : b₀.Follows s) (l : LineNo) (pri : List ReadRes) (copy : List ReadRes) : b₀.Follows (memReturn s l pri copy) := by
  unfold memReturn
  try dsimp only
  repeat' first
    | with_reducible assumption | with_reducible apply readLine_follows | with_reducible apply State.modTxn_follows | split
    | with_reducible apply State.Follows.with

theorem bufIssue_follows {b₀ : State} {s : State} (Hs : b₀.Follows s) (g : Nat) (l : LineNo) : b₀.Follows (bufIssue s g l) := by
  unfold bufIssue
  try dsimp only
  repeat' first
    | with_reducible assumption | with_reducible apply memWrite_follows | with_reducible apply State.setVbuf_follows
    | with_reducible apply State.setRbuf_follows | split

theorem bufFree_follows {b₀ : State} {s : State} (Hs : b₀.Follows s) (l : LineNo) : b₀.Follows (bufFree s l) := by
  unfold bufFree
  try dsimp only
  repeat' first
    | with_reducible assumption | with_reducible apply State.setVbuf_follows | with_reducible apply State.setRbuf_follows | split

theorem writeDone_follows {b₀ : State} {s : State} (Hs : b₀.Follows s) (l : LineNo) : b₀.Follows (writeDone s l) := by
  unfold writeDone
  try dsimp only
  repeat' first
    | with_reducible assumption | with_reducible apply bufFree_follows | with_reducible apply endTxn_follows
    | with_reducible apply State.send_follows | split

theorem memWriteDone_follows {b₀ : State} {s : State} (Hs : b₀.Follows s) (l : LineNo) : b₀.Follows (memWriteDone s l) := by
  unfold memWriteDone
  try dsimp only
  repeat' first
    | with_reducible assumption | with_reducible apply storeLine_follows | with_reducible apply writeDone_follows | split
    | with_reducible apply State.Follows.with

theorem scrubLine_follows {b₀ : State} {s : State} (Hs : b₀.Follows s) (c : Nat) (l : LineNo) (pri : List ReadRes) (copy : List ReadRes) : b₀.Follows (scrubLine s c l pri copy) := by
  unfold scrubLine
  try dsimp only
  repeat' first
    | with_reducible assumption | with_reducible apply State.count_follows | with_reducible apply applyWrites_follows
    | with_reducible apply chanRead_follows | with_reducible apply errRecord_follows | with_reducible apply State.clearLine_follows
    | with_reducible apply rewrite_follows | with_reducible apply State.setPoison_follows | split

theorem scrubHole_follows {b₀ : State} {s : State} (Hs : b₀.Follows s) (c : Nat) (n : Nat) (pri : List ReadRes) : b₀.Follows (scrubHole s c n pri) := by
  unfold scrubHole
  try dsimp only
  repeat' first
    | with_reducible assumption | with_reducible apply chanRead_follows | with_reducible apply errRecord_follows
    | with_reducible apply State.count_follows | split

theorem scrubNext_follows {b₀ : State} {s : State} (Hs : b₀.Follows s) (n : Nat) (pri : List ReadRes) (copy : List ReadRes) : b₀.Follows (scrubNext s n pri copy) := by
  unfold scrubNext
  try dsimp only
  repeat' first
    | with_reducible assumption | with_reducible apply scrubLine_follows | with_reducible apply scrubHole_follows
    | with_reducible apply State.put_follows | with_reducible apply State.addWrap_follows | split

theorem stackTemp_follows {b₀ : State} {s : State} (Hs : b₀.Follows s) (n : Nat) (t : Nat) : b₀.Follows (stackTemp s n t) := by
  unfold stackTemp
  try dsimp only
  repeat' first
    | with_reducible assumption | with_reducible apply State.count_follows | with_reducible apply setLevel_follows
    | with_reducible apply lowerRates_follows | with_reducible apply State.put_follows | with_reducible apply State.setFlag_follows | split

theorem windowOver_follows {b₀ : State} {s : State} (Hs : b₀.Follows s) (c : Nat) : b₀.Follows (windowOver s c) := by
  unfold windowOver
  try dsimp only
  repeat' first
    | with_reducible assumption | with_reducible apply setChan_follows | split | with_reducible apply State.Follows.with

theorem recordStore_follows {b₀ : State} {s : State} (Hs : b₀.Follows s) (c : Nat) : b₀.Follows (recordStore s c) := by
  unfold recordStore
  split
  · refine State.Follows.flashes Hs ?_
    refine ⟨fun _ h => h, Nat.le_refl _, fun h => h, fun k h => ?_, Nat.le_refl _⟩
    simp [h]
  · exact Hs

theorem execPatrolScrubRead_follows {b₀ s : State} (Hs : b₀.Follows s) (stack : StackId) (pri : List ReadRes) (copy : List ReadRes) (now : Nat) : ∃ u₁, (execPatrolScrubRead stack pri copy now s) = .next u₁ ∧ b₀.Follows u₁ := by
  unfold execPatrolScrubRead
  try dsimp only
  repeat' first
    | with_reducible assumption | with_reducible apply scrubNext_follows | with_reducible apply State.at_follows
    | (with_reducible refine ⟨_, rfl, ?_⟩)

theorem execStackTemperatureRead_follows {b₀ s : State} (Hs : b₀.Follows s) (stack : StackId) (temp : BitVec 8) : ∃ u₁, (execStackTemperatureRead stack temp s) = .next u₁ ∧ b₀.Follows u₁ := by
  unfold execStackTemperatureRead
  try dsimp only
  repeat' first
    | with_reducible assumption | with_reducible apply stackTemp_follows | (with_reducible refine ⟨_, rfl, ?_⟩)

theorem execCeWindowEnd_follows {b₀ s : State} (Hs : b₀.Follows s) (ch : ChanId) : ∃ u₁, (execCeWindowEnd ch s) = .next u₁ ∧ b₀.Follows u₁ := by
  unfold execCeWindowEnd
  try dsimp only
  repeat' first
    | with_reducible assumption | with_reducible apply windowOver_follows | (with_reducible refine ⟨_, rfl, ?_⟩)

theorem execMapoutRecordWrite_follows {b₀ s : State} (Hs : b₀.Follows s) (ch : ChanId) : ∃ u₁, (execMapoutRecordWrite ch s) = .next u₁ ∧ b₀.Follows u₁ := by
  unfold execMapoutRecordWrite
  try dsimp only
  repeat' first
    | with_reducible assumption | with_reducible apply recordStore_follows | (with_reducible refine ⟨_, rfl, ?_⟩)

end Sys2Proof.Machine
end

