-- ==== Sys2Proof/Laws/FollowHostOps.lean ====
section
/-!
SUPPORT. Every operation of Machine/HostOps.lean gives a state that follows the one it is given.
-/
namespace Sys2Proof.Machine

theorem dlogBit_follows {b₀ : State} {s : State} (Hs : b₀.Follows s) (i : Nat) (r : Nat) (n : Nat) : b₀.Follows (dlogBit s i r n) := by
  unfold dlogBit
  try dsimp only
  repeat' first
    | with_reducible assumption | with_reducible apply State.setFlag_follows | split | with_reducible apply State.Follows.with

theorem dlogWrite_follows {b₀ : State} {s : State} (Hs : b₀.Follows s) (i : Nat) (a : Nat) (n : Nat) : b₀.Follows (dlogWrite s i a n) := by
  unfold dlogWrite
  try dsimp only
  repeat' first
    | with_reducible assumption | (with_reducible refine forEach_follows _ _ ?_ (fun _ _ _ => ?_)) | with_reducible apply dlogBit_follows
    | with_reducible apply State.setFlag_follows | split

theorem aerLog_follows {b₀ : State} {s : State} (Hs : b₀.Follows s) (p : Nat) (e : AerErr) : b₀.Follows (aerLog s p e) := by
  unfold aerLog
  try dsimp only
  repeat' first
    | with_reducible assumption | with_reducible apply State.setPort_follows | split

theorem translated_follows {b₀ : State} {s : State} (Hs : b₀.Follows s) (p : Nat) (pasid : BitVec 20) (a : Nat) : b₀.Follows (translated s p pasid a).1 := by
  unfold translated
  try dsimp only
  repeat' first
    | with_reducible assumption | with_reducible apply aerLog_follows | with_reducible apply State.setPort_follows
    | with_reducible apply State.out_follows | with_reducible apply State.drawn_follows | split

theorem hostWrite_follows {b₀ : State} {s : State} (Hs : b₀.Follows s) (p : Nat) (i : Option (Nat × BitVec 20)) (a : Nat) (d : List Byte) (poison : Bool) (isFlag : Bool) : b₀.Follows (hostWrite s p i a d poison isFlag).1 := by
  unfold hostWrite
  try dsimp only
  repeat' first
    | with_reducible assumption | with_reducible apply translated_follows | with_reducible apply dlogWrite_follows
    | with_reducible apply State.out_follows | split

end Sys2Proof.Machine
end

