-- ==== Sys2Proof/Laws/FollowOperands.lean ====
section
/-!
SUPPORT. Every operation of Machine/Operands.lean gives a state that follows the one it is given.
-/
namespace Sys2Proof.Machine

theorem offRead_follows {b₀ : State} {s : State} (Hs : b₀.Follows s) (c : Nat) (off : Nat) (n : Nat) : b₀.Follows (offRead s c off n).1 := by
  unfold offRead
  try dsimp only
  repeat' first
    | with_reducible assumption | with_reducible apply scratchRead_follows

theorem offWrite_follows {b₀ : State} {s : State} (Hs : b₀.Follows s) (c : Nat) (off : Nat) (bs : List Byte) (poison : Bool) : b₀.Follows (offWrite s c off bs poison) := by
  unfold offWrite
  try dsimp only
  repeat' first
    | with_reducible assumption | with_reducible apply scratchWrite_follows | split

end Sys2Proof.Machine
end

