-- ==== Sys2Proof/Laws/FollowSeq.lean ====
section
/-!
SUPPORT. Every operation of Machine/Seq.lean gives a state that follows the one it is given.
-/
namespace Sys2Proof.Machine

theorem advance_follows {b₀ : State} {s : State} (Hs : b₀.Follows s) (c : Nat) : b₀.Follows (advance s c) := by
  unfold advance
  try dsimp only
  repeat' first
    | with_reducible assumption | with_reducible apply State.modCore_follows

theorem hold_follows {b₀ : State} {s : State} (Hs : b₀.Follows s) (c : Nat) (i : Instr) : b₀.Follows (hold s c i) := by
  unfold hold
  try dsimp only
  repeat' first
    | with_reducible assumption | with_reducible apply State.modCore_follows

theorem stall_follows {b₀ : State} {s : State} (Hs : b₀.Follows s) (c : Nat) (f : Fld) : b₀.Follows (stall s c f) := by
  unfold stall
  try dsimp only
  repeat' first
    | with_reducible assumption | with_reducible apply State.incSat_follows

theorem faultLevel_follows {b₀ : State} {s : State} (Hs : b₀.Follows s) (die : Nat) : b₀.Follows (faultLevel s die) := by
  unfold faultLevel
  try dsimp only
  repeat' first
    | with_reducible assumption | with_reducible apply setLevel_follows

theorem badOp_follows {b₀ : State} {s : State} (Hs : b₀.Follows s) (c : Nat) : b₀.Follows (badOp s c) := by
  unfold badOp
  try dsimp only
  repeat' first
    | with_reducible assumption | with_reducible apply faultLevel_follows | with_reducible apply State.put_follows
    | with_reducible apply State.modCore_follows

theorem setS_follows {b₀ : State} {s : State} (Hs : b₀.Follows s) (c : Nat) (n : Nat) (v : W64) : b₀.Follows (setS s c n v) := by
  unfold setS
  try dsimp only
  repeat' first
    | with_reducible assumption | with_reducible apply State.modCore_follows

theorem setP_follows {b₀ : State} {s : State} (Hs : b₀.Follows s) (c : Nat) (n : Nat) (b : Bool) : b₀.Follows (setP s c n b) := by
  unfold setP
  try dsimp only
  repeat' first
    | with_reducible assumption | with_reducible apply State.modCore_follows

theorem setM_follows {b₀ : State} {s : State} (Hs : b₀.Follows s) (c : Nat) (n : Nat) (v : W64) : b₀.Follows (setM s c n v) := by
  unfold setM
  try dsimp only
  repeat' first
    | with_reducible assumption | with_reducible apply State.modCore_follows

theorem issue_follows {b₀ : State} {s : State} (Hs : b₀.Follows s) (c : CoreId) (i : Instr) (pg : BitVec 3) (reads : List PendReg) (go : State → State) (Hgo : ∀ (x0 : State), b₀.Follows x0 → b₀.Follows (go x0)) : b₀.Follows (issue s c i pg reads go) := by
  unfold issue
  try dsimp only
  repeat' first
    | with_reducible assumption | with_reducible apply badOp_follows | with_reducible apply stall_follows | with_reducible apply advance_follows
    | with_reducible apply Hgo | split

theorem icInstall_follows {b₀ : State} {s : State} (Hs : b₀.Follows s) (c : Nat) (l : LineNo) (ld : LineData) : b₀.Follows (icInstall s c l ld) := by
  unfold icInstall
  try dsimp only
  repeat' first
    | with_reducible assumption | with_reducible apply State.modCore_follows | with_reducible apply State.drawn_follows

theorem icFlush_follows {b₀ : State} {s : State} (Hs : b₀.Follows s) (c : Nat) : b₀.Follows (icFlush s c) := by
  unfold icFlush
  try dsimp only
  repeat' first
    | with_reducible assumption | with_reducible apply State.modCore_follows

theorem State.arrive_follows {b₀ : State}  {s : State} {m : Msg} {t₁ : State} (e : State.arrive s m = some t₁) (Hs : b₀.Follows s) : b₀.Follows t₁ := by
  unfold State.arrive at e
  try dsimp only at e
  repeat' first
    | cases e | split at e | with_reducible assumption | with_reducible apply State.recv_follows

theorem State.arriveTo_follows {b₀ : State} {s : State} {dst : Ep} {l : LineNo} {b : MsgBody} {t : State} (e : State.arriveTo s dst l b = some t)
    (Hs : b₀.Follows s) : b₀.Follows t := by
  unfold State.arriveTo at e
  dsimp only at e
  split at e
  · cases e; exact Hs
  · obtain ⟨m, _, rfl⟩ := Option.map_eq_some_iff.1 e
    exact State.recv_follows Hs _

theorem fetchLine_follows {b₀ : State} {s : State} (Hs : b₀.Follows s) (c : Nat) (l : LineNo) : b₀.Follows (fetchLine s c l) := by
  unfold fetchLine
  try dsimp only
  repeat' first
    | with_reducible assumption | with_reducible apply sendGets_follows | with_reducible apply State.modCore_follows | split

theorem decodeFetched_follows {b₀ : State} {s : State} (Hs : b₀.Follows s) (c : CoreId) (w : Option (W64 × Bool)) : b₀.Follows (decodeFetched s c w) := by
  unfold decodeFetched
  try dsimp only
  repeat' first
    | with_reducible assumption | with_reducible apply badOp_follows | split

theorem decodeAtPc_follows {b₀ : State} {s : State} (Hs : b₀.Follows s) (c : CoreId) : b₀.Follows (decodeAtPc s c) := by
  unfold decodeAtPc
  try dsimp only
  repeat' first
    | with_reducible assumption | with_reducible apply decodeFetched_follows

theorem fetchFill_follows {b₀ : State} {s : State} (Hs : b₀.Follows s) (c : CoreId) (l : LineNo) (ld : LineData) (cyc : Nat) : b₀.Follows (fetchFill s c l ld cyc) := by
  unfold fetchFill
  try dsimp only
  repeat' first
    | with_reducible assumption | with_reducible apply decodeFetched_follows | with_reducible apply icInstall_follows
    | with_reducible apply decodeAtPc_follows | with_reducible apply State.addSat_follows | with_reducible apply State.modCore_follows | split

theorem fetchAsk_follows {b₀ : State} {s : State} (Hs : b₀.Follows s) (c : CoreId) (l : LineNo) : b₀.Follows (fetchAsk s c l) := by
  unfold fetchAsk
  try dsimp only
  repeat' first
    | with_reducible assumption | with_reducible apply decodeAtPc_follows | with_reducible apply fetchLine_follows | split

theorem branch_follows {b₀ : State} {s : State} (Hs : b₀.Follows s) (c : Nat) (link : Nat) (target : BitVec 52) : b₀.Follows (branch s c link target) := by
  unfold branch
  try dsimp only
  repeat' first
    | with_reducible assumption | with_reducible apply setS_follows | with_reducible apply State.modCore_follows

theorem waitDone_follows {b₀ : State} {s : State} (Hs : b₀.Follows s) (c : Nat) (sd : Nat) (v : W64) : b₀.Follows (waitDone s c sd v) := by
  unfold waitDone
  try dsimp only
  repeat' first
    | with_reducible assumption | with_reducible apply advance_follows | with_reducible apply setS_follows

theorem waitExpire_follows {b₀ : State} {s : State} (Hs : b₀.Follows s) (c : Nat) : b₀.Follows (waitExpire s c) := by
  unfold waitExpire
  try dsimp only
  repeat' first
    | with_reducible assumption | with_reducible apply waitDone_follows | split

theorem announce_follows {b₀ : State} {s : State} (Hs : b₀.Follows s) (c : Nat) (ahead : Nat) (v : Nat) (heavy : Bool) : b₀.Follows (announce s c ahead v heavy) := by
  unfold announce
  try dsimp only
  repeat' first
    | with_reducible assumption | with_reducible apply State.modCore_follows

theorem enqueue_follows {b₀ : State} {s : State} (Hs : b₀.Follows s) (c : Nat) (e : Engine) (i : Instr) (twait : Nat) (tset : Nat) (a : W64) (b : W64) (x : W64) (d : W64) (m : W64) (m2 : W64) (dest : List PendReg) : b₀.Follows (enqueue s c e i twait tset a b x d m m2 dest) := by
  unfold enqueue
  try dsimp only
  repeat' first
    | with_reducible assumption | with_reducible apply stall_follows | with_reducible apply advance_follows
    | with_reducible apply State.setCore_follows | split

theorem execInstructionFetch_follows {b₀ s : State} (Hs : b₀.Follows s) (c : CoreId) (l : LineNo) (d : Line) (poison : Bool) (cyc : Nat) : ∃ u₁, (execInstructionFetch c l d poison cyc s) = .next u₁ ∧ b₀.Follows u₁ := by
  unfold execInstructionFetch
  try dsimp only
  repeat' first
    | with_reducible assumption | (with_reducible refine State.arriveTo_follows (by assumption) ?_) | with_reducible apply fetchFill_follows
    | with_reducible apply fetchAsk_follows | (with_reducible refine ⟨_, rfl, ?_⟩) | split

theorem execAlu_follows {b₀ s : State} (Hs : b₀.Follows s) (c : CoreId) (pg : BitVec 3) (sd : BitVec 5) (sa : BitVec 5) (sb : BitVec 5) (fn : BitVec 6) : ∃ u₁, (execAlu c pg sd sa sb fn s) = .next u₁ ∧ b₀.Follows u₁ := by
  unfold execAlu
  try dsimp only
  repeat' first
    | with_reducible assumption | (with_reducible refine issue_follows ?_ _ _ _ _ _ (fun _ _ => ?_)) | with_reducible apply advance_follows
    | with_reducible apply setS_follows | (with_reducible refine ⟨_, rfl, ?_⟩)

theorem execAlui_follows {b₀ s : State} (Hs : b₀.Follows s) (c : CoreId) (pg : BitVec 3) (sd : BitVec 5) (sa : BitVec 5) (fn : BitVec 6) (imm : BitVec 32) : ∃ u₁, (execAlui c pg sd sa fn imm s) = .next u₁ ∧ b₀.Follows u₁ := by
  unfold execAlui
  try dsimp only
  repeat' first
    | with_reducible assumption | (with_reducible refine issue_follows ?_ _ _ _ _ _ (fun _ _ => ?_)) | with_reducible apply advance_follows
    | with_reducible apply setS_follows | (with_reducible refine ⟨_, rfl, ?_⟩)

theorem execMovi_follows {b₀ s : State} (Hs : b₀.Follows s) (c : CoreId) (pg : BitVec 3) (sd : BitVec 5) (h : Bool) (imm : BitVec 32) : ∃ u₁, (execMovi c pg sd h imm s) = .next u₁ ∧ b₀.Follows u₁ := by
  unfold execMovi
  try dsimp only
  repeat' first
    | with_reducible assumption | (with_reducible refine issue_follows ?_ _ _ _ _ _ (fun _ _ => ?_)) | with_reducible apply advance_follows
    | with_reducible apply setS_follows | (with_reducible refine ⟨_, rfl, ?_⟩)

theorem compare_follows {b₀ : State} {s : State} (Hs : b₀.Follows s) (c : Nat) (pd : BitVec 3) (pn : BitVec 3) (r : Bool) : b₀.Follows (compare s c pd pn r) := by
  unfold compare
  try dsimp only
  repeat' first
    | with_reducible assumption | with_reducible apply advance_follows | with_reducible apply setP_follows

theorem execCmp_follows {b₀ s : State} (Hs : b₀.Follows s) (c : CoreId) (pg : BitVec 3) (pd : BitVec 3) (pn : BitVec 3) (sa : BitVec 5) (sb : BitVec 5) (cc : BitVec 4) : ∃ u₁, (execCmp c pg pd pn sa sb cc s) = .next u₁ ∧ b₀.Follows u₁ := by
  unfold execCmp
  try dsimp only
  repeat' first
    | with_reducible assumption | (with_reducible refine issue_follows ?_ _ _ _ _ _ (fun _ _ => ?_)) | with_reducible apply compare_follows
    | (with_reducible refine ⟨_, rfl, ?_⟩)

theorem execCmpi_follows {b₀ s : State} (Hs : b₀.Follows s) (c : CoreId) (pg : BitVec 3) (pd : BitVec 3) (pn : BitVec 3) (sa : BitVec 5) (cc : BitVec 4) (imm : BitVec 32) : ∃ u₁, (execCmpi c pg pd pn sa cc imm s) = .next u₁ ∧ b₀.Follows u₁ := by
  unfold execCmpi
  try dsimp only
  repeat' first
    | with_reducible assumption | (with_reducible refine issue_follows ?_ _ _ _ _ _ (fun _ _ => ?_)) | with_reducible apply compare_follows
    | (with_reducible refine ⟨_, rfl, ?_⟩)

theorem execPred_follows {b₀ s : State} (Hs : b₀.Follows s) (c : CoreId) (pg : BitVec 3) (pd : BitVec 3) (pa : BitVec 3) (pb : BitVec 3) (fn : BitVec 3) : ∃ u₁, (execPred c pg pd pa pb fn s) = .next u₁ ∧ b₀.Follows u₁ := by
  unfold execPred
  try dsimp only
  repeat' first
    | with_reducible assumption | (with_reducible refine issue_follows ?_ _ _ _ _ _ (fun _ _ => ?_)) | with_reducible apply advance_follows
    | with_reducible apply setP_follows | (with_reducible refine ⟨_, rfl, ?_⟩)

theorem execMask_follows {b₀ s : State} (Hs : b₀.Follows s) (c : CoreId) (pg : BitVec 3) (md : BitVec 3) (ma : BitVec 3) (mb : BitVec 3) (sx : BitVec 5) (fn : BitVec 3) : ∃ u₁, (execMask c pg md ma mb sx fn s) = .next u₁ ∧ b₀.Follows u₁ := by
  unfold execMask
  try dsimp only
  repeat' first
    | with_reducible assumption | (with_reducible refine issue_follows ?_ _ _ _ _ _ (fun _ _ => ?_)) | with_reducible apply advance_follows
    | with_reducible apply setS_follows | with_reducible apply setM_follows | (with_reducible refine ⟨_, rfl, ?_⟩) | split

theorem execSys_follows {b₀ s : State} (Hs : b₀.Follows s) (c : CoreId) (pg : BitVec 3) (sd : BitVec 5) (sel : BitVec 6) : ∃ u₁, (execSys c pg sd sel s) = .next u₁ ∧ b₀.Follows u₁ := by
  unfold execSys
  try dsimp only
  repeat' first
    | with_reducible assumption | (with_reducible refine issue_follows ?_ _ _ _ _ _ (fun _ _ => ?_)) | with_reducible apply countCycles_follows
    | with_reducible apply advance_follows | with_reducible apply setS_follows | (with_reducible refine ⟨_, rfl, ?_⟩) | split

theorem execB_follows {b₀ s : State} (Hs : b₀.Follows s) (c : CoreId) (pg : BitVec 3) (off : BitVec 32) : ∃ u₁, (execB c pg off s) = .next u₁ ∧ b₀.Follows u₁ := by
  unfold execB
  try dsimp only
  repeat' first
    | with_reducible assumption | (with_reducible refine issue_follows ?_ _ _ _ _ _ (fun _ _ => ?_)) | with_reducible apply branch_follows
    | (with_reducible refine ⟨_, rfl, ?_⟩)

theorem execBl_follows {b₀ s : State} (Hs : b₀.Follows s) (c : CoreId) (pg : BitVec 3) (sd : BitVec 5) (off : BitVec 32) : ∃ u₁, (execBl c pg sd off s) = .next u₁ ∧ b₀.Follows u₁ := by
  unfold execBl
  try dsimp only
  repeat' first
    | with_reducible assumption | (with_reducible refine issue_follows ?_ _ _ _ _ _ (fun _ _ => ?_)) | with_reducible apply branch_follows
    | (with_reducible refine ⟨_, rfl, ?_⟩)

theorem execBr_follows {b₀ s : State} (Hs : b₀.Follows s) (c : CoreId) (pg : BitVec 3) (sd : BitVec 5) (sa : BitVec 5) : ∃ u₁, (execBr c pg sd sa s) = .next u₁ ∧ b₀.Follows u₁ := by
  unfold execBr
  try dsimp only
  repeat' first
    | with_reducible assumption | (with_reducible refine issue_follows ?_ _ _ _ _ _ (fun _ _ => ?_)) | with_reducible apply branch_follows
    | (with_reducible refine ⟨_, rfl, ?_⟩)

theorem execEndLeg_follows {b₀ s : State} (Hs : b₀.Follows s) (c : CoreId) (pg : BitVec 3) : ∃ u₁, (execEndLeg c pg s) = .next u₁ ∧ b₀.Follows u₁ := by
  unfold execEndLeg
  try dsimp only
  repeat' first
    | with_reducible assumption | (with_reducible refine issue_follows ?_ _ _ _ _ _ (fun _ _ => ?_)) | with_reducible apply State.modCore_follows
    | (with_reducible refine ⟨_, rfl, ?_⟩)

theorem execWaitTokens_follows {b₀ s : State} (Hs : b₀.Follows s) (c : CoreId) (pg : BitVec 3) (sd : BitVec 5) (sb : BitVec 5) (sel : BitVec 16) : ∃ u₁, (execWaitTokens c pg sd sb sel s) = .next u₁ ∧ b₀.Follows u₁ := by
  unfold execWaitTokens
  try dsimp only
  repeat' first
    | with_reducible assumption | (with_reducible refine issue_follows ?_ _ _ _ _ _ (fun _ _ => ?_)) | with_reducible apply waitDone_follows
    | with_reducible apply hold_follows | with_reducible apply stall_follows | (with_reducible refine ⟨_, rfl, ?_⟩) | split

theorem execWaitWake_follows {b₀ s : State} (Hs : b₀.Follows s) (c : CoreId) (pg : BitVec 3) (sd : BitVec 5) (sb : BitVec 5) (sel : BitVec 16) : ∃ u₁, (execWaitWake c pg sd sb sel s) = .next u₁ ∧ b₀.Follows u₁ := by
  unfold execWaitWake
  try dsimp only
  repeat' first
    | with_reducible assumption | (with_reducible refine issue_follows ?_ _ _ _ _ _ (fun _ _ => ?_)) | with_reducible apply hold_follows
    | with_reducible apply waitDone_follows | with_reducible apply State.modCore_follows | (with_reducible refine ⟨_, rfl, ?_⟩) | split

theorem execWaitBarrier_follows {b₀ s : State} (Hs : b₀.Follows s) (c : CoreId) (pg : BitVec 3) (sd : BitVec 5) (sb : BitVec 5) (sel : BitVec 16) : ∃ u₁, (execWaitBarrier c pg sd sb sel s) = .next u₁ ∧ b₀.Follows u₁ := by
  unfold execWaitBarrier
  try dsimp only
  repeat' first
    | with_reducible assumption | (with_reducible refine issue_follows ?_ _ _ _ _ _ (fun _ _ => ?_)) | with_reducible apply hold_follows
    | with_reducible apply waitDone_follows | (with_reducible refine ⟨_, rfl, ?_⟩) | split

theorem execWaitTimeout_follows {b₀ s : State} (Hs : b₀.Follows s) (c : CoreId) : ∃ u₁, (execWaitTimeout c s) = .next u₁ ∧ b₀.Follows u₁ := by
  unfold execWaitTimeout
  try dsimp only
  repeat' first
    | with_reducible assumption | with_reducible apply waitExpire_follows | (with_reducible refine ⟨_, rfl, ?_⟩) | split

theorem execToll_follows {b₀ s : State} (Hs : b₀.Follows s) (c : CoreId) (pg : BitVec 3) (ahead : BitVec 2) (tolls : BitVec 16) : ∃ u₁, (execToll c pg ahead tolls s) = .next u₁ ∧ b₀.Follows u₁ := by
  unfold execToll
  try dsimp only
  repeat' first
    | with_reducible assumption | (with_reducible refine issue_follows ?_ _ _ _ _ _ (fun _ _ => ?_)) | with_reducible apply advance_follows
    | with_reducible apply announce_follows | (with_reducible refine ⟨_, rfl, ?_⟩)

theorem execHeavy_follows {b₀ s : State} (Hs : b₀.Follows s) (c : CoreId) (pg : BitVec 3) (level : BitVec 3) (ahead : BitVec 2) : ∃ u₁, (execHeavy c pg level ahead s) = .next u₁ ∧ b₀.Follows u₁ := by
  unfold execHeavy
  try dsimp only
  repeat' first
    | with_reducible assumption | (with_reducible refine issue_follows ?_ _ _ _ _ _ (fun _ _ => ?_)) | with_reducible apply advance_follows
    | with_reducible apply announce_follows | (with_reducible refine ⟨_, rfl, ?_⟩)

theorem execNop_follows {b₀ s : State} (Hs : b₀.Follows s) (c : CoreId) (pg : BitVec 3) : ∃ u₁, (execNop c pg s) = .next u₁ ∧ b₀.Follows u₁ := by
  unfold execNop
  try dsimp only
  repeat' first
    | with_reducible assumption | (with_reducible refine issue_follows ?_ _ _ _ _ _ (fun _ _ => ?_)) | with_reducible apply advance_follows
    | (with_reducible refine ⟨_, rfl, ?_⟩)

theorem execCacheIinv_follows {b₀ s : State} (Hs : b₀.Follows s) (c : CoreId) (pg : BitVec 3) (sd : BitVec 5) (sa : BitVec 5) (sb : BitVec 5) (lvl : Bool) : ∃ u₁, (execCacheIinv c pg sd sa sb lvl s) = .next u₁ ∧ b₀.Follows u₁ := by
  unfold execCacheIinv
  try dsimp only
  repeat' first
    | with_reducible assumption | (with_reducible refine issue_follows ?_ _ _ _ _ _ (fun _ _ => ?_)) | with_reducible apply advance_follows
    | with_reducible apply setS_follows | with_reducible apply icFlush_follows | (with_reducible refine ⟨_, rfl, ?_⟩)

theorem execMld_follows {b₀ s : State} (Hs : b₀.Follows s) (c : CoreId) (f : MldF) : ∃ u₁, (execMld c f s) = .next u₁ ∧ b₀.Follows u₁ := by
  unfold execMld
  try dsimp only
  repeat' first
    | with_reducible assumption | (with_reducible refine issue_follows ?_ _ _ _ _ _ (fun _ _ => ?_)) | with_reducible apply enqueue_follows
    | (with_reducible refine ⟨_, rfl, ?_⟩)

theorem execMma_follows {b₀ s : State} (Hs : b₀.Follows s) (c : CoreId) (f : MmaF) : ∃ u₁, (execMma c f s) = .next u₁ ∧ b₀.Follows u₁ := by
  unfold execMma
  try dsimp only
  repeat' first
    | with_reducible assumption | (with_reducible refine issue_follows ?_ _ _ _ _ _ (fun _ _ => ?_)) | with_reducible apply enqueue_follows
    | (with_reducible refine ⟨_, rfl, ?_⟩)

theorem execMswap_follows {b₀ s : State} (Hs : b₀.Follows s) (c : CoreId) (f : MswapF) : ∃ u₁, (execMswap c f s) = .next u₁ ∧ b₀.Follows u₁ := by
  unfold execMswap
  try dsimp only
  repeat' first
    | with_reducible assumption | (with_reducible refine issue_follows ?_ _ _ _ _ _ (fun _ _ => ?_)) | with_reducible apply enqueue_follows
    | (with_reducible refine ⟨_, rfl, ?_⟩)

theorem execMdrain_follows {b₀ s : State} (Hs : b₀.Follows s) (c : CoreId) (f : MdrainF) : ∃ u₁, (execMdrain c f s) = .next u₁ ∧ b₀.Follows u₁ := by
  unfold execMdrain
  try dsimp only
  repeat' first
    | with_reducible assumption | (with_reducible refine issue_follows ?_ _ _ _ _ _ (fun _ _ => ?_)) | with_reducible apply enqueue_follows
    | (with_reducible refine ⟨_, rfl, ?_⟩)

theorem issueVop_follows {b₀ : State} {s : State} (Hs : b₀.Follows s) (c : CoreId) (i : Instr) (op : Nat) (f : VopF) : b₀.Follows (issueVop s c i op f) := by
  unfold issueVop
  try dsimp only
  repeat' first
    | with_reducible assumption | (with_reducible refine issue_follows ?_ _ _ _ _ _ (fun _ _ => ?_)) | with_reducible apply enqueue_follows

theorem execVop_follows {b₀ s : State} (Hs : b₀.Follows s) (c : CoreId) (op : BitVec 8) (f : VopF) : ∃ u₁, (execVop c op f s) = .next u₁ ∧ b₀.Follows u₁ := by
  unfold execVop
  try dsimp only
  repeat' first
    | with_reducible assumption | with_reducible apply issueVop_follows | (with_reducible refine ⟨_, rfl, ?_⟩)

theorem execVcvt_follows {b₀ s : State} (Hs : b₀.Follows s) (c : CoreId) (f : VopF) : ∃ u₁, (execVcvt c f s) = .next u₁ ∧ b₀.Follows u₁ := by
  unfold execVcvt
  try dsimp only
  repeat' first
    | with_reducible assumption | with_reducible apply issueVop_follows | (with_reducible refine ⟨_, rfl, ?_⟩)

theorem execVacc_follows {b₀ s : State} (Hs : b₀.Follows s) (c : CoreId) (f : VopF) : ∃ u₁, (execVacc c f s) = .next u₁ ∧ b₀.Follows u₁ := by
  unfold execVacc
  try dsimp only
  repeat' first
    | with_reducible assumption | with_reducible apply issueVop_follows | (with_reducible refine ⟨_, rfl, ?_⟩)

theorem execVargmax_follows {b₀ s : State} (Hs : b₀.Follows s) (c : CoreId) (f : VopF) : ∃ u₁, (execVargmax c f s) = .next u₁ ∧ b₀.Follows u₁ := by
  unfold execVargmax
  try dsimp only
  repeat' first
    | with_reducible assumption | with_reducible apply issueVop_follows | (with_reducible refine ⟨_, rfl, ?_⟩)

theorem execVtopk_follows {b₀ s : State} (Hs : b₀.Follows s) (c : CoreId) (f : VopF) : ∃ u₁, (execVtopk c f s) = .next u₁ ∧ b₀.Follows u₁ := by
  unfold execVtopk
  try dsimp only
  repeat' first
    | with_reducible assumption | with_reducible apply issueVop_follows | (with_reducible refine ⟨_, rfl, ?_⟩)

theorem issueVmem_follows {b₀ : State} {s : State} (Hs : b₀.Follows s) (c : CoreId) (i : Instr) (f : VmemF) : b₀.Follows (issueVmem s c i f) := by
  unfold issueVmem
  try dsimp only
  repeat' first
    | with_reducible assumption | (with_reducible refine issue_follows ?_ _ _ _ _ _ (fun _ _ => ?_)) | with_reducible apply enqueue_follows

theorem execVld_follows {b₀ s : State} (Hs : b₀.Follows s) (c : CoreId) (f : VmemF) : ∃ u₁, (execVld c f s) = .next u₁ ∧ b₀.Follows u₁ := by
  unfold execVld
  try dsimp only
  repeat' first
    | with_reducible assumption | with_reducible apply issueVmem_follows | (with_reducible refine ⟨_, rfl, ?_⟩)

theorem execVst_follows {b₀ s : State} (Hs : b₀.Follows s) (c : CoreId) (f : VmemF) : ∃ u₁, (execVst c f s) = .next u₁ ∧ b₀.Follows u₁ := by
  unfold execVst
  try dsimp only
  repeat' first
    | with_reducible assumption | with_reducible apply issueVmem_follows | (with_reducible refine ⟨_, rfl, ?_⟩)

theorem execVcomp_follows {b₀ s : State} (Hs : b₀.Follows s) (c : CoreId) (f : VcompF) : ∃ u₁, (execVcomp c f s) = .next u₁ ∧ b₀.Follows u₁ := by
  unfold execVcomp
  try dsimp only
  repeat' first
    | with_reducible assumption | (with_reducible refine issue_follows ?_ _ _ _ _ _ (fun _ _ => ?_)) | with_reducible apply enqueue_follows
    | (with_reducible refine ⟨_, rfl, ?_⟩)

theorem execVexp_follows {b₀ s : State} (Hs : b₀.Follows s) (c : CoreId) (f : VexpF) : ∃ u₁, (execVexp c f s) = .next u₁ ∧ b₀.Follows u₁ := by
  unfold execVexp
  try dsimp only
  repeat' first
    | with_reducible assumption | (with_reducible refine issue_follows ?_ _ _ _ _ _ (fun _ _ => ?_)) | with_reducible apply enqueue_follows
    | (with_reducible refine ⟨_, rfl, ?_⟩)

theorem execVred_follows {b₀ s : State} (Hs : b₀.Follows s) (c : CoreId) (f : VredF) : ∃ u₁, (execVred c f s) = .next u₁ ∧ b₀.Follows u₁ := by
  unfold execVred
  try dsimp only
  repeat' first
    | with_reducible assumption | (with_reducible refine issue_follows ?_ _ _ _ _ _ (fun _ _ => ?_)) | with_reducible apply enqueue_follows
    | (with_reducible refine ⟨_, rfl, ?_⟩)

theorem execMove_follows {b₀ s : State} (Hs : b₀.Follows s) (c : CoreId) (f : MoveF) : ∃ u₁, (execMove c f s) = .next u₁ ∧ b₀.Follows u₁ := by
  unfold execMove
  try dsimp only
  repeat' first
    | with_reducible assumption | (with_reducible refine issue_follows ?_ _ _ _ _ _ (fun _ _ => ?_)) | with_reducible apply enqueue_follows
    | (with_reducible refine ⟨_, rfl, ?_⟩)

end Sys2Proof.Machine
end

