-- ==== Sys2Proof/Laws/FollowVector.lean ====
section
/-!
SUPPORT. Every operation of Machine/Vector.lean gives a state that follows the one it is given.
-/
namespace Sys2Proof.Machine

theorem startVld_follows {b₀ : State} {s : State} (Hs : b₀.Follows s) (c : Nat) (q : QEnt) (f : VmemF) : b₀.Follows (startVld s c q f) := by
  unfold startVld
  extract_lets +onlyGivenNames z els s0
  have h_s0 : b₀.Follows s0 := by
    simp only [s0]
    repeat' first
      | with_reducible assumption | with_reducible apply addrErr_follows | split
  clear_value s0
  extract_lets +onlyGivenNames st s1
  have h_s1 : b₀.Follows s1 := by
    simp only [s1]
    repeat' first
      | with_reducible assumption | with_reducible apply State.modCore_follows
  clear_value s1
  try dsimp only
  repeat' first
    | with_reducible assumption | (with_reducible refine forEach_follows _ _ ?_ (fun _ _ _ => ?_)) | with_reducible apply scratchRead_follows
    | with_reducible apply memLoad_follows | with_reducible apply newLoad_follows | with_reducible apply State.modCore_follows | split

theorem cleanCovered_follows {b₀ : State} {s : State} (Hs : b₀.Follows s) (base : Nat) (ws : List (Nat × Nat × Bool)) : b₀.Follows (cleanCovered s base ws) := by
  unfold cleanCovered
  try dsimp only
  repeat' first
    | with_reducible assumption | (with_reducible refine forEach_follows _ _ ?_ (fun _ _ _ => ?_)) | with_reducible apply State.setPoison_follows
    | split

theorem vstElem_follows {b₀ : State}  {s : State} {c : Nat} {z : Nat} {lines : List Nat} {e : VstElem} {t₁ : State} (e : vstElem s c z lines e = some t₁) (Hs : b₀.Follows s) : b₀.Follows t₁ := by
  unfold vstElem at e
  try dsimp only at e
  repeat' first
    | cases e | split at e | with_reducible assumption | with_reducible apply scratchWrite_follows | with_reducible apply memStore_follows
    | with_reducible apply markPoisoned_follows | split

theorem setVeRes_follows {b₀ : State} {s : State} (Hs : b₀.Follows s) (c : Nat) (id : Nat) (res : EngRes) : b₀.Follows (setVeRes s c id res) := by
  unfold setVeRes
  try dsimp only
  repeat' first
    | with_reducible assumption | with_reducible apply State.modCore_follows

theorem vstGo_follows {b₀ : State} {s : State} (Hs : b₀.Follows s) (c id z : Nat) (own : List (Nat × Nat × Bool)) (lines : List Nat)
    (els : List VstElem) : b₀.Follows (vstGo s c id z own lines els) := by
  induction els generalizing s own lines with
  | nil => exact setVeRes_follows (cleanCovered_follows Hs _ _) _ _ _
  | cons e rest ih =>
    unfold vstGo
    split
    · exact setVeRes_follows Hs _ _ _
    · rename_i h
      have h1 := vstElem_follows h Hs
      split
      · exact ih h1 _ _
      · exact ih h1 _ _

theorem startVst_follows {b₀ : State} {s : State} (Hs : b₀.Follows s) (c : Nat) (q : QEnt) (f : VmemF) : b₀.Follows (startVst s c q f) := by
  unfold startVst
  extract_lets +onlyGivenNames z els k s0
  have h_s0 : b₀.Follows s0 := by
    simp only [s0]
    repeat' first
      | with_reducible assumption | with_reducible apply addrErr_follows | split
  clear_value s0
  extract_lets +onlyGivenNames todo
  try dsimp only
  repeat' first
    | with_reducible assumption | with_reducible apply vstGo_follows | with_reducible apply State.modCore_follows

theorem vstResume_follows {b₀ : State} {s : State} (Hs : b₀.Follows s) (c : Nat) : b₀.Follows (vstResume s c) := by
  unfold vstResume
  split
  · split
    · extract_lets k held s1
      have h1 : b₀.Follows s1 := by
        simp only [s1]
        split
        · exact forEach_follows _ _ Hs (fun t l h => wsdWrite_follows h _ _)
        · exact Hs
      clear_value s1
      split
      · exact h1
      · exact vstGo_follows h1 _ _ _ _ _ _
    · exact Hs
  · exact Hs

theorem vecCompute_follows {b₀ : State} {s : State} (Hs : b₀.Follows s) (c : Nat) (q : QEnt) : b₀.Follows (vecCompute s c q).1 := by
  unfold vecCompute
  try dsimp only
  repeat' first
    | with_reducible assumption | with_reducible apply State.setReg_follows | split

theorem startVe_follows {b₀ : State} {s : State} (Hs : b₀.Follows s) (c : Nat) (q : QEnt) : b₀.Follows (startVe s c q) := by
  unfold startVe
  try dsimp only
  repeat' first
    | with_reducible assumption | with_reducible apply startVld_follows | with_reducible apply startVst_follows
    | with_reducible apply vecCompute_follows | with_reducible apply State.setReg_follows | with_reducible apply State.modCore_follows | split

theorem poisonEscape_follows {b₀ : State} {s : State} (Hs : b₀.Follows s) (c : Nat) (pc : BitVec 52) : b₀.Follows (poisonEscape s c pc) := by
  unfold poisonEscape
  try dsimp only
  repeat' first
    | with_reducible assumption | with_reducible apply markPoisoned_follows | with_reducible apply State.put_follows
    | with_reducible apply State.setFlag_follows | with_reducible apply State.modCore_follows | split

theorem vecApply_follows {b₀ : State} {s : State} (Hs : b₀.Follows s) (c : Nat) (x : Started) : b₀.Follows (vecApply s c x) := by
  unfold vecApply
  try dsimp only
  repeat' first
    | with_reducible assumption | with_reducible apply poisonEscape_follows | with_reducible apply State.modCore_follows | split

end Sys2Proof.Machine
end

