-- ==== Sys2Proof/Laws/FollowMatrix.lean ====
section
/-!
SUPPORT. Every operation of Machine/Matrix.lean gives a state that follows the one it is given.
-/
namespace Sys2Proof.Machine

theorem setMeFmt_follows {b₀ : State} {s : State} (Hs : b₀.Follows s) (c : Nat) (opd : Bool) (fmt : Nat) (k : Nat) : b₀.Follows (setMeFmt s c opd fmt k) := by
  unfold setMeFmt
  try dsimp only
  repeat' first
    | with_reducible assumption | with_reducible apply State.put_follows

theorem loadTile_follows {b₀ : State} {s : State} (Hs : b₀.Follows s) (c : Nat) (f : Format) (panels : Nat) (offA : Nat) (offB : Nat) : b₀.Follows (loadTile s c f panels offA offB).1 := by
  unfold loadTile
  try dsimp only
  repeat' first
    | with_reducible assumption | with_reducible apply offRead_follows

theorem startMld_follows {b₀ : State} {s : State} (Hs : b₀.Follows s) (c : Nat) (q : QEnt) (f : MldF) : b₀.Follows (startMld s c q f).1 := by
  unfold startMld
  try dsimp only
  repeat' first
    | with_reducible assumption | with_reducible apply addrErr_follows | with_reducible apply loadTile_follows | split

theorem applyMma_follows {b₀ : State} {s : State} (Hs : b₀.Follows s) (c : Nat) (z : Bool) (fa : Format) (fb : Format) (a : OpBuf) (b : OpBuf) : b₀.Follows (applyMma s c z fa fb a b) := by
  unfold applyMma
  try dsimp only
  repeat' first
    | with_reducible assumption | with_reducible apply State.count_follows | with_reducible apply State.setReg_follows
    | with_reducible apply State.modCore_follows | split | with_reducible apply State.Follows.draws

theorem rowAt_follows {b₀ : State} {s : State} (Hs : b₀.Follows s) (c : Nat) (off : Nat) : b₀.Follows (rowAt s c off).1 := by
  unfold rowAt
  try dsimp only
  repeat' first
    | with_reducible assumption | with_reducible apply offRead_follows

theorem startMdrain_follows {b₀ : State} {s : State} (Hs : b₀.Follows s) (c : Nat) (q : QEnt) (f : MdrainF) : b₀.Follows (startMdrain s c q f).1 := by
  unfold startMdrain
  try dsimp only
  repeat' first
    | with_reducible assumption | with_reducible apply addrErr_follows | with_reducible apply rowAt_follows
    | with_reducible apply State.setReg_follows | split

theorem startMe_follows {b₀ : State} {s : State} (Hs : b₀.Follows s) (c : Nat) (q : QEnt) : b₀.Follows (startMe s c q) := by
  unfold startMe
  try dsimp only
  repeat' first
    | with_reducible assumption | with_reducible apply startMld_follows | with_reducible apply startMdrain_follows
    | with_reducible apply State.setReg_follows | with_reducible apply State.modCore_follows | split

theorem meApply_follows {b₀ : State} {s : State} (Hs : b₀.Follows s) (c : Nat) (x : Started) : b₀.Follows (meApply s c x) := by
  unfold meApply
  try dsimp only
  repeat' first
    | with_reducible assumption | with_reducible apply setMeFmt_follows | with_reducible apply applyMma_follows
    | (with_reducible refine forEach_follows _ _ ?_ (fun _ _ _ => ?_)) | with_reducible apply offWrite_follows
    | with_reducible apply State.setFlag_follows | with_reducible apply State.modCore_follows | split

theorem engineStart_follows {b₀ : State} {s : State} (Hs : b₀.Follows s) (c : Nat) (e : Engine) : b₀.Follows (engineStart s c e) := by
  unfold engineStart
  try dsimp only
  repeat' first
    | with_reducible assumption | with_reducible apply startMe_follows | with_reducible apply startVe_follows
    | with_reducible apply State.setCore_follows | split

theorem engineComplete_follows {b₀ : State} {s : State} (Hs : b₀.Follows s) (c : Nat) (e : Engine) : b₀.Follows (engineComplete s c e) := by
  unfold engineComplete
  try dsimp only
  repeat' first
    | with_reducible assumption | with_reducible apply meApply_follows | with_reducible apply vstResume_follows
    | with_reducible apply vecApply_follows | with_reducible apply State.count_follows | with_reducible apply State.setCore_follows
    | with_reducible apply State.modCore_follows | split

theorem execEngineInstructionComplete_follows {b₀ s : State} (Hs : b₀.Follows s) (c : CoreId) (e : Engine) : ∃ u₁, (execEngineInstructionComplete c e s) = .next u₁ ∧ b₀.Follows u₁ := by
  unfold execEngineInstructionComplete
  try dsimp only
  repeat' first
    | with_reducible assumption | with_reducible apply engineComplete_follows | (with_reducible refine ⟨_, rfl, ?_⟩)

end Sys2Proof.Machine
end

