-- ==== Sys2Proof/Laws/FollowMover.lean ====
section
/-!
SUPPORT. Every operation of Machine/Mover.lean gives a state that follows the one it is given.
-/
namespace Sys2Proof.Machine

theorem remoteSend_follows {b₀ : State} {s : State} (Hs : b₀.Follows s) (c : Nat) (m : Nat) (t : Nat) (op : BitVec 8) (h : RemHdr) (mask : Option (BitVec 128)) (d : List Line) (kind : RemKind) : b₀.Follows (remoteSend s c m t op h mask d kind) := by
  unfold remoteSend
  try dsimp only
  repeat' first
    | with_reducible assumption | with_reducible apply optLeave_follows | with_reducible apply State.modCore_follows

theorem hostRecord_follows {b₀ : State} {s : State} (Hs : b₀.Follows s) (p : Nat) (i : Option (Nat × BitVec 20)) (addr : Nat) (len : Nat) (what : HostFor) : b₀.Follows (hostRecord s p i addr len what).1 := by
  unfold hostRecord
  try dsimp only
  repeat' first
    | with_reducible assumption | with_reducible apply translated_follows | with_reducible apply State.setPort_follows | split

theorem hostAsk_follows {b₀ : State} {s : State} (Hs : b₀.Follows s) (p : Nat) (i : Option (Nat × BitVec 20)) (addr : Nat) (len : Nat) (what : HostFor) : b₀.Follows (hostAsk s p i addr len what).1 := by
  unfold hostAsk
  try dsimp only
  repeat' first
    | with_reducible assumption | with_reducible apply hostRecord_follows | (with_reducible refine forEach_follows _ _ ?_ (fun _ _ _ => ?_))
    | with_reducible apply State.out_follows | split

theorem dropReq_follows {b₀ : State} {s : State} (Hs : b₀.Follows s) (p : Nat) (id : Nat) : b₀.Follows (dropReq s p id) := by
  unfold dropReq
  try dsimp only
  repeat' first
    | with_reducible assumption | with_reducible apply State.setPort_follows

theorem hostFlush_follows {b₀ : State} {s : State} (Hs : b₀.Follows s) (p : Nat) (addr : Option Nat) (what : HostFor) : b₀.Follows (hostFlush s p addr what) := by
  unfold hostFlush
  try dsimp only
  repeat' first
    | with_reducible assumption | with_reducible apply hostRecord_follows | with_reducible apply State.out_follows | split

theorem State.modTag_follows {b₀ : State} {s : State} (Hs : b₀.Follows s) (c : Nat) (t : Nat) (f : TagSt → TagSt) : b₀.Follows (State.modTag s c t f) := by
  unfold State.modTag
  try dsimp only
  repeat' first
    | with_reducible assumption | with_reducible apply State.modCore_follows

theorem tagCount_follows {b₀ : State} {s : State} (Hs : b₀.Follows s) (c : Nat) (t : Nat) (a : Nat) : b₀.Follows (tagCount s c t a) := by
  unfold tagCount
  try dsimp only
  repeat' first
    | with_reducible assumption | with_reducible apply addrErr_follows | with_reducible apply State.modTag_follows | split

theorem tagAddrErr_follows {b₀ : State} {s : State} (Hs : b₀.Follows s) (c : Nat) (t : Nat) (a : Nat) : b₀.Follows (tagAddrErr s c t a) := by
  unfold tagAddrErr
  try dsimp only
  repeat' first
    | with_reducible assumption | with_reducible apply tagCount_follows | with_reducible apply State.modTag_follows

theorem askLine_follows {b₀ : State} {s : State} (Hs : b₀.Follows s) (c : Nat) (t : Nat) (key : Nat) (stream : Bool) : b₀.Follows (askLine s c t key stream) := by
  unfold askLine
  try dsimp only
  repeat' first
    | with_reducible assumption | with_reducible apply hostAsk_follows | with_reducible apply State.toHome_follows
    | with_reducible apply remoteSend_follows | with_reducible apply State.modCore_follows | split

theorem wantLines_follows {b₀ : State} {s : State} (Hs : b₀.Follows s) (c : Nat) (t : Nat) (keys : List Nat) (stream : Bool) : b₀.Follows (wantLines s c t keys stream).1 := by
  unfold wantLines
  try dsimp only
  repeat' first
    | with_reducible assumption | (with_reducible refine forEach_follows _ _ ?_ (fun _ _ _ => ?_)) | with_reducible apply askLine_follows | split

theorem dropLines_follows {b₀ : State} {s : State} (Hs : b₀.Follows s) (c : Nat) (t : Nat) (keys : List Nat) : b₀.Follows (dropLines s c t keys) := by
  unfold dropLines
  try dsimp only
  repeat' first
    | with_reducible assumption | with_reducible apply State.modCore_follows

theorem moverData_follows {b₀ : State} {s : State} (Hs : b₀.Follows s) (c : Nat) (key : Nat) (ld : LineData) : b₀.Follows (moverData s c key ld) := by
  unfold moverData
  try dsimp only
  repeat' first
    | with_reducible assumption | with_reducible apply State.modCore_follows

theorem decodeSrc_follows {b₀ : State} {s : State} (Hs : b₀.Follows s) (ps : List SrcPlace) : b₀.Follows (decodeSrc s ps) := by
  unfold decodeSrc
  try dsimp only
  repeat' first
    | with_reducible assumption | (with_reducible refine forEach_follows _ _ ?_ (fun _ _ _ => ?_)) | with_reducible apply scratchWord_follows

theorem fetchBytes_follows {b₀ : State} {s : State} (Hs : b₀.Follows s) (c : Nat) (t : Nat) (a : Nat) (n : Nat) : b₀.Follows (fetchBytes s c t a n).1 := by
  unfold fetchBytes
  try dsimp only
  repeat' first
    | with_reducible assumption | with_reducible apply wantLines_follows | with_reducible apply decodeSrc_follows
    | with_reducible apply dropLines_follows | split

theorem moverFlush_follows {b₀ : State} {s : State} (Hs : b₀.Follows s) (c : Nat) (t : Nat) (wait : Bool) : b₀.Follows (moverFlush s c t wait) := by
  unfold moverFlush
  try dsimp only
  repeat' first
    | with_reducible assumption | (with_reducible refine forEach_follows _ _ ?_ (fun _ _ _ => ?_)) | with_reducible apply hostFlush_follows
    | with_reducible apply State.modTag_follows | split

theorem endList_follows {b₀ : State} {s : State} (Hs : b₀.Follows s) (c : Nat) (t : Nat) (code : BitVec 8) : b₀.Follows (endList s c t code) := by
  unfold endList
  try dsimp only
  repeat' first
    | with_reducible assumption | with_reducible apply moverFlush_follows | with_reducible apply State.modTag_follows

theorem sourceLost_follows {b₀ : State} {s : State} (Hs : b₀.Follows s) (c : Nat) (t : Nat) (key : Nat) (code : BitVec 8) : b₀.Follows (sourceLost s c t key code) := by
  unfold sourceLost
  try dsimp only
  repeat' first
    | with_reducible assumption | with_reducible apply endList_follows | with_reducible apply State.modCore_follows | split

theorem takeDesc_follows {b₀ : State} {s : State} (Hs : b₀.Follows s) (c : Nat) (t : Nat) (idx : Nat) (d : Desc) (poison : Bool) : b₀.Follows (takeDesc s c t idx d poison) := by
  unfold takeDesc
  try dsimp only
  repeat' first
    | with_reducible assumption | with_reducible apply State.modTag_follows | with_reducible apply endList_follows
    | with_reducible apply moverFlush_follows | split

theorem descStep_follows {b₀ : State} {s : State} (Hs : b₀.Follows s) (c : Nat) (t : Nat) : b₀.Follows (descStep s c t) := by
  unfold descStep
  try dsimp only
  repeat' first
    | with_reducible assumption | with_reducible apply endList_follows | with_reducible apply State.modTag_follows
    | with_reducible apply tagCount_follows | with_reducible apply fetchBytes_follows | with_reducible apply takeDesc_follows
    | with_reducible apply moverFlush_follows | (with_reducible refine follows_of_eq (by assumption) ?_) | split

theorem moveStart_follows {b₀ : State} {s : State} (Hs : b₀.Follows s) (c : Nat) : b₀.Follows (moveStart s c) := by
  unfold moveStart
  try dsimp only
  repeat' first
    | with_reducible assumption | with_reducible apply descStep_follows | with_reducible apply State.setCore_follows | split

theorem poisonOut_follows {b₀ : State} {s : State} (Hs : b₀.Follows s) (c : Nat) (t : Nat) (poison : Bool) (out : Bool) : b₀.Follows (poisonOut s c t poison out) := by
  unfold poisonOut
  try dsimp only
  repeat' first
    | with_reducible assumption | with_reducible apply State.modTag_follows | with_reducible apply markPoisoned_follows | split

theorem hostRuns_follows {b₀ : State} {s : State} (Hs : b₀.Follows s) (p : Nat) (i : Option (Nat × BitVec 20)) (a : Nat) (im : Image') (poison : Bool) (isFlag : Bool) : b₀.Follows (hostRuns s p i a im poison isFlag).1 := by
  unfold hostRuns
  try dsimp only
  repeat' first
    | with_reducible assumption | with_reducible apply hostWrite_follows | (with_reducible refine foldl_fst_follows _ (fun _ _ _ => ?_) _ ?_)
    | split

theorem writePiece_follows {b₀ : State}  {s : State} {c : Nat} {t : Nat} {d : Desc} {g : Nat} {n : Nat} {first : Nat} {im : Image'} {poison : Bool} {t₁ : State} {n₁ : Option PieceWait} (e : writePiece s c t d g n first im poison = some (t₁, n₁)) (Hs : b₀.Follows s) : b₀.Follows t₁ := by
  unfold writePiece at e
  extract_lets +onlyGivenNames a part scr at e
  have h_scr : ∀ t u, b₀.Follows (scr t u) := by
    intro t u
    simp only [scr]
    repeat' first
      | with_reducible assumption | (with_reducible refine forEach_follows _ _ ?_ (fun _ _ _ => ?_)) | with_reducible apply scratchWrite_follows
  clear_value scr
  try dsimp only at e
  repeat' first
    | cases e | split at e | with_reducible apply h_scr | with_reducible assumption | with_reducible apply tagAddrErr_follows
    | with_reducible apply hostRuns_follows | with_reducible apply poisonOut_follows | with_reducible apply endList_follows
    | with_reducible apply State.toHome_follows | with_reducible apply remoteSend_follows

theorem modRun_follows {b₀ : State} {s : State} (Hs : b₀.Follows s) (c : Nat) (t : Nat) (idx : Nat) (f : DescRun → DescRun) : b₀.Follows (modRun s c t idx f) := by
  unfold modRun
  try dsimp only
  repeat' first
    | with_reducible assumption | with_reducible apply State.modTag_follows

theorem advanceRun_follows {b₀ : State} {s : State} (Hs : b₀.Follows s) (c : Nat) (t : Nat) (r : DescRun) (n : Nat) : b₀.Follows (advanceRun s c t r n) := by
  unfold advanceRun
  try dsimp only
  repeat' first
    | with_reducible assumption | with_reducible apply moverFlush_follows | with_reducible apply modRun_follows

theorem gatherIndex_follows {b₀ : State} {s : State} (Hs : b₀.Follows s) (c : Nat) (t : Nat) (r : DescRun) : b₀.Follows (gatherIndex s c t r).1 := by
  unfold gatherIndex
  try dsimp only
  repeat' first
    | with_reducible assumption | with_reducible apply modRun_follows | with_reducible apply fetchBytes_follows
    | with_reducible apply tagAddrErr_follows | (with_reducible refine follows_of_eq (by assumption) ?_) | split

theorem runPiece_follows {b₀ : State} {s : State} (Hs : b₀.Follows s) (c : Nat) (t : Nat) (r : DescRun) : b₀.Follows (runPiece s c t r).1 := by
  unfold runPiece
  try dsimp only
  repeat' first
    | with_reducible assumption | with_reducible apply gatherIndex_follows | with_reducible apply advanceRun_follows
    | with_reducible apply moverFlush_follows | with_reducible apply wantLines_follows | with_reducible apply decodeSrc_follows
    | with_reducible apply tagAddrErr_follows | (with_reducible refine writePiece_follows (by assumption) ?_) | with_reducible apply modRun_follows
    | with_reducible apply dropLines_follows | (with_reducible refine follows_of_eq (by assumption) ?_) | split

theorem tagPiece_follows {b₀ : State} {s : State} (Hs : b₀.Follows s) (c : Nat) (t : Nat) : b₀.Follows (tagPiece s c t).1 := by
  unfold tagPiece
  try dsimp only
  repeat' first
    | with_reducible assumption | with_reducible apply runPiece_follows | split

theorem pieceIssue_follows {b₀ : State} {s : State} (Hs : b₀.Follows s) (c : Nat) (t : Nat) : b₀.Follows (pieceIssue s c t) := by
  unfold pieceIssue
  try dsimp only
  repeat' first
    | with_reducible assumption | with_reducible apply tagPiece_follows | with_reducible apply State.modCore_follows | split

theorem moverDone_follows {b₀ : State} {s : State} (Hs : b₀.Follows s) (c : Nat) (l : LineNo) (refused : Bool) : b₀.Follows (moverDone s c l refused) := by
  unfold moverDone
  try dsimp only
  repeat' first
    | with_reducible assumption | with_reducible apply State.modTag_follows | with_reducible apply moverFailed_follows | split

theorem moverRemote_follows {b₀ : State} {s : State} (Hs : b₀.Follows s) (c : Nat) (t : Nat) (n : Nat) (mpa : Nat) (refused : Bool) (lost : Bool) : b₀.Follows (moverRemote s c t n mpa refused lost) := by
  unfold moverRemote
  try dsimp only
  repeat' first
    | with_reducible assumption | with_reducible apply State.modTag_follows | with_reducible apply tagAddrErr_follows | split

theorem moverFlushed_follows {b₀ : State} {s : State} (Hs : b₀.Follows s) (c : Nat) (t : Nat) (p : Nat) (ok : Bool) : b₀.Follows (moverFlushed s c t p ok) := by
  unfold moverFlushed
  try dsimp only
  repeat' first
    | with_reducible assumption | with_reducible apply State.modTag_follows | with_reducible apply moverFlush_follows
    | with_reducible apply moverFailed_follows | with_reducible apply endList_follows | with_reducible apply State.setFlag_follows | split

theorem moverSource_follows {b₀ : State} {s : State} (Hs : b₀.Follows s) (c : Nat) (t : Nat) (key : Nat) (ld : Option LineData) : b₀.Follows (moverSource s c t key ld) := by
  unfold moverSource
  try dsimp only
  repeat' first
    | with_reducible assumption | with_reducible apply sourceLost_follows | with_reducible apply State.setFlag_follows
    | with_reducible apply State.modCore_follows | split

theorem piecePerformed_follows {b₀ : State} {s : State} (Hs : b₀.Follows s) (c : Nat) (t : Nat) : b₀.Follows (piecePerformed s c t) := by
  unfold piecePerformed
  try dsimp only
  repeat' first
    | with_reducible assumption | with_reducible apply State.modTag_follows | with_reducible apply State.setReg_follows | split

theorem finishTag_follows {b₀ : State} {s : State} (Hs : b₀.Follows s) (c : Nat) (t : Nat) (code : BitVec 8) : b₀.Follows (finishTag s c t code) := by
  unfold finishTag
  try dsimp only
  repeat' first
    | with_reducible assumption | with_reducible apply State.modTag_follows | with_reducible apply markPoisoned_follows
    | with_reducible apply moverFailed_follows | with_reducible apply raiseEdge_follows | with_reducible apply State.put_follows
    | with_reducible apply State.modCore_follows | split

theorem moverFinal_follows {b₀ : State} {s : State} (Hs : b₀.Follows s) (c : Nat) (t : Nat) : b₀.Follows (moverFinal s c t) := by
  unfold moverFinal
  try dsimp only
  repeat' first
    | with_reducible assumption | with_reducible apply finishTag_follows | split

theorem abortReceive_follows {b₀ : State} {s : State} (Hs : b₀.Follows s) (c : Nat) (t : Nat) : b₀.Follows (abortReceive s c t) := by
  unfold abortReceive
  try dsimp only
  repeat' first
    | with_reducible assumption | with_reducible apply moverFlush_follows | with_reducible apply State.modTag_follows | split

theorem execEngineInstructionStart_follows {b₀ s : State} (Hs : b₀.Follows s) (c : CoreId) (e : Engine) : ∃ u₁, (execEngineInstructionStart c e s) = .next u₁ ∧ b₀.Follows u₁ := by
  unfold execEngineInstructionStart
  try dsimp only
  repeat' first
    | with_reducible assumption | with_reducible apply moveStart_follows | with_reducible apply engineStart_follows
    | (with_reducible refine ⟨_, rfl, ?_⟩) | split

theorem execMoveStart_follows {b₀ s : State} (Hs : b₀.Follows s) (c : CoreId) : ∃ u₁, (execMoveStart c s) = .next u₁ ∧ b₀.Follows u₁ := by
  unfold execMoveStart
  try dsimp only
  repeat' first
    | with_reducible assumption | with_reducible apply moveStart_follows | (with_reducible refine ⟨_, rfl, ?_⟩)

theorem execDescriptorStart_follows {b₀ s : State} (Hs : b₀.Follows s) (c : CoreId) (tag : BitVec 8) : ∃ u₁, (execDescriptorStart c tag s) = .next u₁ ∧ b₀.Follows u₁ := by
  unfold execDescriptorStart
  try dsimp only
  repeat' first
    | with_reducible assumption | with_reducible apply descStep_follows | (with_reducible refine ⟨_, rfl, ?_⟩)

theorem execPiecePerformed_follows {b₀ s : State} (Hs : b₀.Follows s) (c : CoreId) (tag : BitVec 8) : ∃ u₁, (execPiecePerformed c tag s) = .next u₁ ∧ b₀.Follows u₁ := by
  unfold execPiecePerformed
  try dsimp only
  repeat' first
    | with_reducible assumption | with_reducible apply piecePerformed_follows | (with_reducible refine ⟨_, rfl, ?_⟩)

theorem execMoverFinalStatus_follows {b₀ s : State} (Hs : b₀.Follows s) (c : CoreId) (tag : BitVec 8) : ∃ u₁, (execMoverFinalStatus c tag s) = .next u₁ ∧ b₀.Follows u₁ := by
  unfold execMoverFinalStatus
  try dsimp only
  repeat' first
    | with_reducible assumption | with_reducible apply moverFinal_follows | (with_reducible refine ⟨_, rfl, ?_⟩)

theorem execMwait_follows {b₀ s : State} (Hs : b₀.Follows s) (c : CoreId) (pg : BitVec 3) (sd : BitVec 5) (tag : BitVec 8) (all : Bool) : ∃ u₁, (execMwait c pg sd tag all s) = .next u₁ ∧ b₀.Follows u₁ := by
  unfold execMwait
  try dsimp only
  repeat' first
    | with_reducible assumption | (with_reducible refine issue_follows ?_ _ _ _ _ _ (fun _ _ => ?_)) | with_reducible apply hold_follows
    | with_reducible apply advance_follows | with_reducible apply setS_follows | (with_reducible refine ⟨_, rfl, ?_⟩) | split

theorem execMabort_follows {b₀ s : State} (Hs : b₀.Follows s) (c : CoreId) (pg : BitVec 3) (sd : BitVec 5) (tag : BitVec 8) : ∃ u₁, (execMabort c pg sd tag s) = .next u₁ ∧ b₀.Follows u₁ := by
  unfold execMabort
  try dsimp only
  repeat' first
    | with_reducible assumption | (with_reducible refine issue_follows ?_ _ _ _ _ _ (fun _ _ => ?_)) | with_reducible apply hold_follows
    | with_reducible apply advance_follows | with_reducible apply setS_follows | with_reducible apply State.modTag_follows
    | (with_reducible refine ⟨_, rfl, ?_⟩) | split

theorem execMoverAbortReceive_follows {b₀ s : State} (Hs : b₀.Follows s) (c : CoreId) (tag : BitVec 8) : ∃ u₁, (execMoverAbortReceive c tag s) = .next u₁ ∧ b₀.Follows u₁ := by
  unfold execMoverAbortReceive
  try dsimp only
  repeat' first
    | with_reducible assumption | with_reducible apply abortReceive_follows | (with_reducible refine ⟨_, rfl, ?_⟩)

end Sys2Proof.Machine
end

