-- ==== Sys2Proof/Laws/FollowLeg.lean ====
section
/-!
SUPPORT. Every operation of Machine/Leg.lean gives a state that follows the one it is given.
-/
namespace Sys2Proof.Machine

theorem State.modCar_follows {b₀ : State} {s : State} (Hs : b₀.Follows s) (k : Nat) (f : Caravan → Caravan) : b₀.Follows (State.modCar s k f) := by
  unfold State.modCar
  try dsimp only
  repeat' first
    | with_reducible assumption | with_reducible apply State.Follows.with

theorem clearArrays_follows {b₀ : State} {s : State} (Hs : b₀.Follows s) (c : Nat) : b₀.Follows (clearArrays s c) := by
  unfold clearArrays
  try dsimp only
  repeat' first
    | with_reducible assumption | with_reducible apply State.setReg_follows | with_reducible apply State.modCore_follows
    | with_reducible apply State.Follows.drops

theorem clearSeq_follows {b₀ : State} {s : State} (Hs : b₀.Follows s) (c : Nat) : b₀.Follows (clearSeq s c) := by
  unfold clearSeq
  try dsimp only
  repeat' first
    | with_reducible assumption | with_reducible apply State.setReg_follows | with_reducible apply State.modCore_follows

theorem l1Flush_follows {b₀ : State} {s : State} (Hs : b₀.Follows s) (c : Nat) : b₀.Follows (l1Flush s c) := by
  unfold l1Flush
  try dsimp only
  repeat' first
    | with_reducible assumption | (with_reducible refine forEach_follows _ _ ?_ (fun _ _ _ => ?_)) | with_reducible apply l1Offer_follows

theorem prepareSlot_follows {b₀ : State} {s : State} (Hs : b₀.Follows s) (c : Nat) : b₀.Follows (prepareSlot s c) := by
  unfold prepareSlot
  try dsimp only
  repeat' first
    | with_reducible assumption | with_reducible apply clearSeq_follows | with_reducible apply clearArrays_follows
    | with_reducible apply icFlush_follows | with_reducible apply l1Flush_follows | with_reducible apply State.modCore_follows

theorem legRegs_follows {b₀ : State} {s : State} (Hs : b₀.Follows s) (c : Nat) : b₀.Follows (legRegs s c) := by
  unfold legRegs
  try dsimp only
  repeat' first
    | with_reducible assumption | with_reducible apply State.setReg_follows | with_reducible apply State.put_follows
    | with_reducible apply State.setFlag_follows

theorem beginLeg_follows {b₀ : State} {s : State} (Hs : b₀.Follows s) (c : Nat) (g : Leg) (x : LegRec) : b₀.Follows (beginLeg s c g x) := by
  unfold beginLeg
  try dsimp only
  repeat' first
    | with_reducible assumption | with_reducible apply clearSeq_follows | with_reducible apply clearArrays_follows
    | with_reducible apply legRegs_follows | with_reducible apply wsdReset_follows | with_reducible apply icFlush_follows
    | with_reducible apply faultLevel_follows | with_reducible apply State.modCore_follows | split

theorem flushWindows_follows {b₀ : State} {s : State} (Hs : b₀.Follows s) (c : Nat) : b₀.Follows (flushWindows s c) := by
  unfold flushWindows
  try dsimp only
  repeat' first
    | with_reducible assumption | (with_reducible refine forEach_follows _ _ ?_ (fun _ _ _ => ?_)) | with_reducible apply hostFlush_follows
    | with_reducible apply State.modCore_follows

theorem releaseWait_follows {b₀ : State} {s : State} (Hs : b₀.Follows s) (c : Nat) (tier : Nat) : b₀.Follows (releaseWait s c tier).1 := by
  unfold releaseWait
  try dsimp only
  repeat' first
    | with_reducible assumption | with_reducible apply wsdFlush_follows | with_reducible apply flushWindows_follows | split

theorem suppress_follows {b₀ : State} {s : State} (Hs : b₀.Follows s) (c : Nat) : b₀.Follows (suppress s c) := by
  unfold suppress
  try dsimp only
  repeat' first
    | with_reducible assumption | with_reducible apply errRecord_follows | with_reducible apply State.put_follows
    | with_reducible apply State.setFlag_follows | split

theorem countRel_follows {b₀ : State} {s : State} (Hs : b₀.Follows s) (c : Nat) : b₀.Follows (countRel s c) := by
  unfold countRel
  try dsimp only
  repeat' first
    | with_reducible assumption | with_reducible apply State.count_follows

theorem acquire_follows {b₀ : State} {s : State} (Hs : b₀.Follows s) (c : Nat) : b₀.Follows (acquire s c) := by
  unfold acquire
  try dsimp only
  repeat' first
    | with_reducible assumption | with_reducible apply State.count_follows | with_reducible apply State.setReg_follows
    | with_reducible apply State.modCore_follows

theorem barCheck_follows {b₀ : State} {s : State} (Hs : b₀.Follows s) (c : Nat) (scope : Nat) (id : Nat) : b₀.Follows (barCheck s c scope id) := by
  unfold barCheck
  try dsimp only
  repeat' first
    | with_reducible assumption | (with_reducible refine forEach_follows _ _ ?_ (fun _ _ _ => ?_)) | with_reducible apply writeFailed_follows
    | with_reducible apply State.modCore_follows | split

theorem barCheckAll_follows {b₀ : State} {s : State} (Hs : b₀.Follows s) (c : Nat) : b₀.Follows (barCheckAll s c) := by
  unfold barCheckAll
  try dsimp only
  repeat' first
    | with_reducible assumption | (with_reducible refine forEach_follows _ _ ?_ (fun _ _ _ => ?_)) | with_reducible apply barCheck_follows

theorem partEnd_follows {b₀ : State} {s : State} (Hs : b₀.Follows s) (c : Nat) : b₀.Follows (partEnd s c) := by
  unfold partEnd
  try dsimp only
  repeat' first
    | with_reducible assumption | with_reducible apply wsdFlush_follows | with_reducible apply releaseWait_follows
    | with_reducible apply State.modCar_follows | with_reducible apply barCheckAll_follows | with_reducible apply State.modCore_follows | split

theorem abortCore_follows {b₀ : State} {s : State} (Hs : b₀.Follows s) (c : Nat) : b₀.Follows (abortCore s c) := by
  unfold abortCore
  try dsimp only
  repeat' first
    | with_reducible assumption | with_reducible apply State.modCore_follows

theorem freeCore_follows {b₀ : State} {s : State} (Hs : b₀.Follows s) (c : Nat) : b₀.Follows (freeCore s c) := by
  unfold freeCore
  try dsimp only
  repeat' first
    | with_reducible assumption | with_reducible apply State.modCore_follows

theorem execLegPartEnd_follows {b₀ s : State} (Hs : b₀.Follows s) (c : CoreId) : ∃ u₁, (execLegPartEnd c s) = .next u₁ ∧ b₀.Follows u₁ := by
  unfold execLegPartEnd
  try dsimp only
  repeat' first
    | with_reducible assumption | with_reducible apply partEnd_follows | (with_reducible refine ⟨_, rfl, ?_⟩)

end Sys2Proof.Machine
end

