-- ==== Sys2Proof/Laws/FollowSched.lean ====
section
/-!
SUPPORT. Every operation of Machine/Sched.lean gives a state that follows the one it is given.
-/
namespace Sys2Proof.Machine

theorem State.modPart_follows {b₀ : State} {s : State} (Hs : b₀.Follows s) (p : Nat) (f : PartSt → PartSt) : b₀.Follows (State.modPart s p f) := by
  unfold State.modPart
  try dsimp only
  repeat' first
    | with_reducible assumption | with_reducible apply State.Follows.with

theorem State.modInst_follows {b₀ : State} {s : State} (Hs : b₀.Follows s) (i : Nat) (f : InstRd → InstRd) : b₀.Follows (State.modInst s i f) := by
  unfold State.modInst
  try dsimp only
  repeat' first
    | with_reducible assumption | with_reducible apply State.Follows.with

theorem setPartState_follows {b₀ : State} {s : State} (Hs : b₀.Follows s) (p : Nat) (v : Nat) : b₀.Follows (setPartState s p v) := by
  unfold setPartState
  try dsimp only
  repeat' first
    | with_reducible assumption | with_reducible apply State.put_follows

theorem dueReceipt_follows {b₀ : State} {s : State} (Hs : b₀.Follows s) (i : Nat) (r : Receipt) : b₀.Follows (dueReceipt s i r) := by
  unfold dueReceipt
  try dsimp only
  repeat' first
    | with_reducible assumption | with_reducible apply State.modInst_follows | with_reducible apply State.Follows.with

theorem refusal_follows {b₀ : State} {s : State} (Hs : b₀.Follows s) (i : Nat) (tag : Nat) (cause : Nat) (lc : Bool) (untagged : Bool) : b₀.Follows (refusal s i tag cause lc untagged) := by
  unfold refusal
  try dsimp only
  repeat' first
    | with_reducible assumption | with_reducible apply dueReceipt_follows | with_reducible apply State.count_follows

theorem abortReport_follows {b₀ : State} {s : State} (Hs : b₀.Follows s) (tenant : Option InstId) (result : Nat) : b₀.Follows (abortReport s tenant result) := by
  unfold abortReport
  try dsimp only
  repeat' first
    | with_reducible assumption | with_reducible apply State.put_follows | with_reducible apply State.setFlag_follows | split

theorem abortNote_follows {b₀ : State} {s : State} (Hs : b₀.Follows s) (k : Nat) (status : Nat) : b₀.Follows (abortNote s k status) := by
  unfold abortNote
  try dsimp only
  repeat' first
    | with_reducible assumption | with_reducible apply abortReport_follows | split | with_reducible apply State.Follows.with

theorem ledgerEnd_follows {b₀ : State} {s : State} (Hs : b₀.Follows s) (k : Nat) : b₀.Follows (ledgerEnd s k) := by
  unfold ledgerEnd
  try dsimp only
  repeat' first
    | with_reducible assumption | with_reducible apply State.Follows.with

theorem setHeavy_follows {b₀ : State} {s : State} (Hs : b₀.Follows s) (rows : Nat) (level : Nat) : b₀.Follows (setHeavy s rows level) := by
  unfold setHeavy
  try dsimp only
  repeat' first
    | with_reducible assumption | (with_reducible refine forEach_follows _ _ ?_ (fun _ _ _ => ?_)) | with_reducible apply State.put_follows

theorem preemptOver_follows {b₀ : State} {s : State} (Hs : b₀.Follows s) (c : Nat) : b₀.Follows (preemptOver s c) := by
  unfold preemptOver
  try dsimp only
  repeat' first
    | with_reducible assumption | with_reducible apply State.put_follows | split

theorem endCar_follows {b₀ : State} {s : State} (Hs : b₀.Follows s) (k : Nat) (status : Nat) (cause : Nat) : b₀.Follows (endCar s k status cause) := by
  unfold endCar
  try dsimp only
  repeat' first
    | with_reducible assumption | with_reducible apply dueReceipt_follows | (with_reducible refine forEach_follows _ _ ?_ (fun _ _ _ => ?_))
    | with_reducible apply preemptOver_follows | with_reducible apply freeCore_follows | with_reducible apply setHeavy_follows
    | with_reducible apply raiseEdge_follows | with_reducible apply ledgerEnd_follows | with_reducible apply State.modPart_follows
    | with_reducible apply abortNote_follows | with_reducible apply State.incSat_follows | split | with_reducible apply State.Follows.with

theorem resolveCar_follows {b₀ : State} {s : State} (Hs : b₀.Follows s) (k : Nat) (status : Nat) (cause : Nat) : b₀.Follows (resolveCar s k status cause) := by
  unfold resolveCar
  try dsimp only
  repeat' first
    | with_reducible assumption | with_reducible apply endCar_follows | (with_reducible refine forEach_follows _ _ ?_ (fun _ _ _ => ?_))
    | with_reducible apply preemptOver_follows | with_reducible apply abortCore_follows | with_reducible apply State.modCar_follows
    | with_reducible apply State.modCore_follows | split

theorem endCands_follows {b₀ : State} {s : State} (Hs : b₀.Follows s) (i : Nat) (status : Nat) (cause : Nat) (p : Caravan → Bool) : b₀.Follows (endCands s i status cause p).1 := by
  unfold endCands
  try dsimp only
  repeat' first
    | with_reducible assumption | with_reducible apply State.modInst_follows | (with_reducible refine forEach_follows _ _ ?_ (fun _ _ _ => ?_))
    | with_reducible apply dueReceipt_follows | split

theorem abortStart_follows {b₀ : State} {s : State} (Hs : b₀.Follows s) (tenant : Option InstId) (i : Nat) (all : Bool) (tag : W64) : b₀.Follows (abortStart s tenant i all tag) := by
  unfold abortStart
  try dsimp only
  repeat' first
    | with_reducible assumption | with_reducible apply endCands_follows | with_reducible apply abortReport_follows
    | (with_reducible refine forEach_follows _ _ ?_ (fun _ _ _ => ?_)) | with_reducible apply resolveCar_follows
    | with_reducible apply State.put_follows | with_reducible apply State.setFlag_follows | split | with_reducible apply State.Follows.with

theorem abortPump_follows {b₀ : State} (n : Nat) {s : State} (Hs : b₀.Follows s) : b₀.Follows (abortPump n s) := by
  induction n generalizing s with
  | zero => exact Hs
  | succ n ih =>
    unfold abortPump
    split
    · exact Hs
    · split
      · exact Hs
      · exact ih (abortStart_follows (State.Follows.with Hs) _ _ _ _)

theorem abortsGo_follows {b₀ : State} {s : State} (Hs : b₀.Follows s) : b₀.Follows (abortsGo s) := abortPump_follows _ Hs

end Sys2Proof.Machine
end

