-- ==== Sys2Proof/Laws/FollowSave.lean ====
section
/-!
SUPPORT. Every operation of Machine/Save.lean gives a state that follows the one it is given.
-/
namespace Sys2Proof.Machine

theorem quiesceCheck_follows {b₀ : State} {s : State} (Hs : b₀.Follows s) (p : Nat) : b₀.Follows (quiesceCheck s p) := by
  unfold quiesceCheck
  try dsimp only
  repeat' first
    | with_reducible assumption | with_reducible apply setPartState_follows | split

theorem abandonReads_follows {b₀ : State} {s : State} (Hs : b₀.Follows s) (c : Nat) : b₀.Follows (abandonReads s c) := by
  unfold abandonReads
  try dsimp only
  repeat' first
    | with_reducible assumption | with_reducible apply State.addWrap_follows | with_reducible apply State.modCore_follows

theorem startSave_follows {b₀ : State} {s : State} (Hs : b₀.Follows s) (v : Caravan) : b₀.Follows (startSave s v) := by
  unfold startSave
  try dsimp only
  repeat' first
    | with_reducible assumption | with_reducible apply State.modCar_follows | (with_reducible refine forEach_follows _ _ ?_ (fun _ _ _ => ?_))
    | with_reducible apply abandonReads_follows | with_reducible apply faultLevel_follows | with_reducible apply wsdFlush_follows
    | with_reducible apply State.put_follows | with_reducible apply State.modCore_follows

theorem ledgerAdd_follows {b₀ : State} {s : State} (Hs : b₀.Follows s) (e : Ledger) : b₀.Follows (ledgerAdd s e) := by
  unfold ledgerAdd
  try dsimp only
  repeat' first
    | with_reducible assumption | with_reducible apply State.put_follows | with_reducible apply State.Follows.with

theorem ledgerFull_follows {b₀ : State} {s : State} (Hs : b₀.Follows s) (k : Nat) : b₀.Follows (ledgerFull s k) := by
  unfold ledgerFull
  try dsimp only
  repeat' first
    | with_reducible assumption | with_reducible apply State.count_follows | with_reducible apply State.modCar_follows | split

theorem remoteWaitOver_follows {b₀ : State} {s : State} (Hs : b₀.Follows s) (c : Nat) : b₀.Follows (remoteWaitOver s c) := by
  unfold remoteWaitOver
  try dsimp only
  repeat' first
    | with_reducible assumption | (with_reducible refine forEach_follows _ _ ?_ (fun _ _ _ => ?_)) | with_reducible apply ledgerFull_follows
    | with_reducible apply ledgerAdd_follows | with_reducible apply State.modCore_follows | split

theorem putNum_follows {b₀ : State} {s : State} (Hs : b₀.Follows s) (a : Nat) (n : Nat) (v : Nat) : b₀.Follows (putNum s a n v) := by
  unfold putNum
  try dsimp only
  repeat' first
    | with_reducible assumption | with_reducible apply State.setBytes_follows

theorem clearRange_follows {b₀ : State} {s : State} (Hs : b₀.Follows s) (a : Nat) (n : Nat) : b₀.Follows (clearRange s a n) := by
  unfold clearRange
  try dsimp only
  repeat' first
    | with_reducible assumption | with_reducible apply State.Follows.drops

theorem copyRange_follows {b₀ : State} {s : State} (Hs : b₀.Follows s) (src : Nat) (dst : Nat) (n : Nat) : b₀.Follows (copyRange s src dst n) := by
  unfold copyRange
  try dsimp only
  repeat' first
    | with_reducible assumption | (with_reducible refine forEach_follows _ _ ?_ (fun _ _ _ => ?_)) | with_reducible apply State.setByte_follows

theorem decodeScratch_follows {b₀ : State} {s : State} (Hs : b₀.Follows s) (c : Nat) : b₀.Follows (decodeScratch s c) := by
  unfold decodeScratch
  try dsimp only
  repeat' first
    | with_reducible assumption | (with_reducible refine forEach_follows _ _ ?_ (fun _ _ _ => ?_)) | with_reducible apply scratchWord_follows

theorem writeAll_follows {b₀ : State} {s : State} (Hs : b₀.Follows s) (c : Nat) (a : Nat) (keep : CoreKeep) : b₀.Follows (writeAll s c a keep) := by
  unfold writeAll
  try dsimp only
  repeat' first
    | with_reducible assumption | with_reducible apply clearRange_follows | with_reducible apply decodeScratch_follows
    | with_reducible apply copyRange_follows | (with_reducible refine forEach_follows _ _ ?_ (fun _ _ _ => ?_))
    | with_reducible apply putNum_follows

theorem writeArea_follows {b₀ : State} {s : State} (Hs : b₀.Follows s) (c : Nat) (a : Nat) (keep : CoreKeep) : b₀.Follows (writeArea s c a keep) := by
  unfold writeArea
  try dsimp only
  repeat' first
    | with_reducible assumption | with_reducible apply writeAll_follows | (with_reducible refine forEach_follows _ _ ?_ (fun _ _ _ => ?_))
    | with_reducible apply clearRange_follows | with_reducible apply State.setBytes_follows

theorem settleTags_follows {b₀ : State} {s : State} (Hs : b₀.Follows s) (c : Nat) : b₀.Follows (settleTags s c) := by
  unfold settleTags
  try dsimp only
  repeat' first
    | with_reducible assumption | (with_reducible refine forEach_follows _ _ ?_ (fun _ _ _ => ?_)) | with_reducible apply moverFinal_follows
    | with_reducible apply piecePerformed_follows

theorem flushTags_follows {b₀ : State} {s : State} (Hs : b₀.Follows s) (c : Nat) : b₀.Follows (flushTags s c) := by
  unfold flushTags
  try dsimp only
  repeat' first
    | with_reducible assumption | (with_reducible refine forEach_follows _ _ ?_ (fun _ _ _ => ?_)) | with_reducible apply moverFlush_follows | split

theorem carSaved_follows {b₀ : State} {s : State} (Hs : b₀.Follows s) (v : Caravan) : b₀.Follows (carSaved s v) := by
  unfold carSaved
  try dsimp only
  repeat' first
    | with_reducible assumption | with_reducible apply quiesceCheck_follows | with_reducible apply State.count_follows
    | with_reducible apply State.modCar_follows

theorem coreSaved_follows {b₀ : State} {s : State} (Hs : b₀.Follows s) (c : Nat) : b₀.Follows (coreSaved s c) := by
  unfold coreSaved
  try dsimp only
  repeat' first
    | with_reducible assumption | with_reducible apply flushTags_follows | with_reducible apply wsdFlush_follows
    | with_reducible apply settleTags_follows | with_reducible apply icFlush_follows | with_reducible apply l1Flush_follows
    | with_reducible apply writeArea_follows | with_reducible apply freeCore_follows | with_reducible apply State.modCar_follows
    | with_reducible apply carSaved_follows | with_reducible apply State.put_follows | split

theorem startRestore_follows {b₀ : State} {s : State} (Hs : b₀.Follows s) (v : Caravan) : b₀.Follows (startRestore s v) := by
  unfold startRestore
  try dsimp only
  repeat' first
    | with_reducible assumption | with_reducible apply State.modCar_follows | (with_reducible refine forEach_follows _ _ ?_ (fun _ _ _ => ?_))
    | with_reducible apply State.put_follows | with_reducible apply State.modCore_follows

theorem restoreCar_follows {b₀ : State} {s : State} (Hs : b₀.Follows s) (k : Nat) : b₀.Follows (restoreCar s k) := by
  unfold restoreCar
  try dsimp only
  repeat' first
    | with_reducible assumption | with_reducible apply endCar_follows | with_reducible apply startRestore_follows | split

theorem areaPoison_follows {b₀ : State} {s : State} (Hs : b₀.Follows s) (c : Nat) (a : Nat) (gone : List Nat) : b₀.Follows (areaPoison s c a gone) := by
  unfold areaPoison
  try dsimp only
  repeat' first
    | with_reducible assumption | (with_reducible refine forEach_follows _ _ ?_ (fun _ _ _ => ?_)) | with_reducible apply State.setPoison_follows
    | with_reducible apply State.modCore_follows | split

theorem readArea_follows {b₀ : State} {s : State} (Hs : b₀.Follows s) (c : Nat) (a : Nat) (y : CoreKeep) : b₀.Follows (readArea s c a y) := by
  unfold readArea
  try dsimp only
  repeat' first
    | with_reducible assumption | with_reducible apply copyRange_follows | with_reducible apply clearRange_follows
    | (with_reducible refine forEach_follows _ _ ?_ (fun _ _ _ => ?_)) | with_reducible apply State.setReg_follows
    | with_reducible apply State.setFlag_follows | with_reducible apply State.setPoison_follows | with_reducible apply State.modCore_follows

theorem repeatMld_follows {b₀ : State} {s : State} (Hs : b₀.Follows s) (c : Nat) (a : Nat) (opd : Bool) : b₀.Follows (repeatMld s c a opd) := by
  unfold repeatMld
  try dsimp only
  repeat' first
    | with_reducible assumption | with_reducible apply setMeFmt_follows | with_reducible apply loadTile_follows
    | with_reducible apply State.modCore_follows | split

theorem ledgerDeliver_follows {b₀ : State} {s : State} (Hs : b₀.Follows s) (c : Nat) (n : Nat) (w : Bool) (v : W64) : b₀.Follows (ledgerDeliver s c n w v) := by
  unfold ledgerDeliver
  try dsimp only
  repeat' first
    | with_reducible assumption | with_reducible apply State.modCore_follows

theorem consultLedger_follows {b₀ : State} {s : State} (Hs : b₀.Follows s) (k : Nat) (c : Nat) : b₀.Follows (consultLedger s k c) := by
  unfold consultLedger
  try dsimp only
  repeat' first
    | with_reducible assumption | (with_reducible refine forEach_follows _ _ ?_ (fun _ _ _ => ?_)) | with_reducible apply ledgerDeliver_follows
    | with_reducible apply seqPoison_follows | with_reducible apply State.modCore_follows | split | with_reducible apply State.Follows.with

theorem remoteLoadAt_follows {b₀ : State} {s : State} (Hs : b₀.Follows s) (c : Nat) (id : Nat) (a : Nat) (n : Nat) (pos : Nat) : b₀.Follows (remoteLoadAt s c id a n pos) := by
  unfold remoteLoadAt
  try dsimp only
  repeat' first
    | with_reducible assumption | (with_reducible refine forEach_follows _ _ ?_ (fun _ _ _ => ?_)) | with_reducible apply remoteSend_follows | split

theorem remoteLoad_follows {b₀ : State} {s : State} (Hs : b₀.Follows s) (c : Nat) (id : Nat) (a : Nat) (n : Nat) : b₀.Follows (remoteLoad s c id a n) := by
  unfold remoteLoad
  try dsimp only
  repeat' first
    | with_reducible assumption | with_reducible apply remoteLoadAt_follows

theorem reissueReads_follows {b₀ : State} {s : State} (Hs : b₀.Follows s) (c : Nat) (a : Nat) : b₀.Follows (reissueReads s c a) := by
  unfold reissueReads
  try dsimp only
  repeat' first
    | with_reducible assumption | (with_reducible refine forEach_follows _ _ ?_ (fun _ _ _ => ?_)) | with_reducible apply remoteLoad_follows
    | with_reducible apply newLoad_follows | with_reducible apply State.count_follows | with_reducible apply State.modCore_follows | split

theorem carRestored_follows {b₀ : State} {s : State} (Hs : b₀.Follows s) (v : Caravan) : b₀.Follows (carRestored s v) := by
  unfold carRestored
  try dsimp only
  repeat' first
    | with_reducible assumption | with_reducible apply State.count_follows | with_reducible apply State.modCar_follows

theorem coreRestored_follows {b₀ : State} {s : State} (Hs : b₀.Follows s) (c : Nat) : b₀.Follows (coreRestored s c) := by
  unfold coreRestored
  try dsimp only
  repeat' first
    | with_reducible assumption | with_reducible apply acquire_follows | with_reducible apply wsdReset_follows
    | with_reducible apply areaPoison_follows | with_reducible apply readArea_follows | with_reducible apply repeatMld_follows
    | with_reducible apply reissueReads_follows | with_reducible apply consultLedger_follows | with_reducible apply faultLevel_follows
    | with_reducible apply State.modCar_follows | with_reducible apply barCheckAll_follows | with_reducible apply carRestored_follows
    | with_reducible apply State.put_follows | with_reducible apply State.modCore_follows | split

theorem execCaravanSave_follows {b₀ s : State} (Hs : b₀.Follows s) (k : Nat) : ∃ u₁, (execCaravanSave k s) = .next u₁ ∧ b₀.Follows u₁ := by
  unfold execCaravanSave
  try dsimp only
  repeat' first
    | with_reducible assumption | with_reducible apply startSave_follows | (with_reducible refine ⟨_, rfl, ?_⟩) | split

theorem execRemoteWaitExpire_follows {b₀ s : State} (Hs : b₀.Follows s) (c : CoreId) : ∃ u₁, (execRemoteWaitExpire c s) = .next u₁ ∧ b₀.Follows u₁ := by
  unfold execRemoteWaitExpire
  try dsimp only
  repeat' first
    | with_reducible assumption | with_reducible apply remoteWaitOver_follows | (with_reducible refine ⟨_, rfl, ?_⟩)

theorem execCoreSaved_follows {b₀ s : State} (Hs : b₀.Follows s) (c : CoreId) : ∃ u₁, (execCoreSaved c s) = .next u₁ ∧ b₀.Follows u₁ := by
  unfold execCoreSaved
  try dsimp only
  repeat' first
    | with_reducible assumption | with_reducible apply coreSaved_follows | (with_reducible refine ⟨_, rfl, ?_⟩)

theorem execCaravanRestore_follows {b₀ s : State} (Hs : b₀.Follows s) (k : Nat) (now : Nat) : ∃ u₁, (execCaravanRestore k now s) = .next u₁ ∧ b₀.Follows u₁ := by
  unfold execCaravanRestore
  try dsimp only
  repeat' first
    | with_reducible assumption | with_reducible apply abortsGo_follows | with_reducible apply restoreCar_follows
    | with_reducible apply State.at_follows | (with_reducible refine ⟨_, rfl, ?_⟩)

theorem execCoreRestored_follows {b₀ s : State} (Hs : b₀.Follows s) (c : CoreId) : ∃ u₁, (execCoreRestored c s) = .next u₁ ∧ b₀.Follows u₁ := by
  unfold execCoreRestored
  try dsimp only
  repeat' first
    | with_reducible assumption | with_reducible apply coreRestored_follows | (with_reducible refine ⟨_, rfl, ?_⟩)

end Sys2Proof.Machine
end

