-- ==== Sys2Proof/Laws/FollowFrame.lean ====
section
/-!
SUPPORT. Every operation of Machine/Frame.lean gives a state that follows the one it is given.
-/
namespace Sys2Proof.Machine

theorem refLost_follows {b₀ : State} {s : State} (Hs : b₀.Follows s) : b₀.Follows (refLost s) := by
  unfold refLost
  try dsimp only
  repeat' first
    | with_reducible assumption | with_reducible apply raiseEdge_follows | with_reducible apply State.setFlag_follows | split
    | with_reducible apply State.Follows.with

theorem refEdge_follows {b₀ : State} {s : State} (Hs : b₀.Follows s) (t : Nat) : b₀.Follows (refEdge s t) := by
  unfold refEdge
  try dsimp only
  repeat' first
    | with_reducible assumption | with_reducible apply refLost_follows | split | with_reducible apply State.Follows.with

theorem refTick_follows {b₀ : State} {s : State} (Hs : b₀.Follows s) (now : Nat) : b₀.Follows (refTick s now) := by
  unfold refTick
  try dsimp only
  repeat' first
    | with_reducible assumption | with_reducible apply State.setFlag_follows | split

theorem markSlow_follows {b₀ : State} {s : State} (Hs : b₀.Follows s) : b₀.Follows (markSlow s) := by
  unfold markSlow
  try dsimp only
  repeat' first
    | with_reducible assumption | with_reducible apply State.Follows.with

theorem keepFg_follows {b₀ : State} {s : State} (Hs : b₀.Follows s) : b₀.Follows (keepFg s) := by
  unfold keepFg
  try dsimp only
  repeat' first
    | with_reducible assumption | (with_reducible refine forEach_follows _ _ ?_ (fun _ _ _ => ?_)) | with_reducible apply putRate_follows

theorem rateCheck_follows {b₀ : State} {s : State} (Hs : b₀.Follows s) : b₀.Follows (rateCheck s) := by
  unfold rateCheck
  try dsimp only
  repeat' first
    | with_reducible assumption | with_reducible apply markSlow_follows | with_reducible apply keepFg_follows

theorem holdCar_follows {b₀ : State} {s : State} (Hs : b₀.Follows s) (v : Caravan) : b₀.Follows (holdCar s v) := by
  unfold holdCar
  try dsimp only
  repeat' first
    | with_reducible assumption | with_reducible apply resolveCar_follows | with_reducible apply State.modCar_follows
    | (with_reducible refine forEach_follows _ _ ?_ (fun _ _ _ => ?_)) | with_reducible apply wsdFlush_follows
    | with_reducible apply State.count_follows | with_reducible apply State.modCore_follows | split

theorem thrashSlice_follows {b₀ : State} {s : State} (Hs : b₀.Follows s) (g : Nat) : b₀.Follows (thrashSlice s g) := by
  unfold thrashSlice
  try dsimp only
  repeat' first
    | with_reducible assumption | with_reducible apply State.count_follows | with_reducible apply setLevel_follows
    | with_reducible apply State.setReg_follows | with_reducible apply State.setFlag_follows | split

theorem heavyTick_follows {b₀ : State} {s : State} (Hs : b₀.Follows s) : b₀.Follows (heavyTick s) := by
  unfold heavyTick
  try dsimp only
  repeat' first
    | with_reducible assumption | (with_reducible refine forEach_follows _ _ ?_ (fun _ _ _ => ?_)) | with_reducible apply setHeavy_follows
    | with_reducible apply State.modCore_follows | split

theorem allowance_follows {b₀ : State} {s : State} (Hs : b₀.Follows s) : b₀.Follows (allowance s) := by
  unfold allowance
  try dsimp only
  repeat' first
    | with_reducible assumption | (with_reducible refine forEach_follows _ _ ?_ (fun _ _ _ => ?_)) | with_reducible apply State.put_follows
    | with_reducible apply State.Follows.with

theorem predTick_follows {b₀ : State} {s : State} (Hs : b₀.Follows s) : b₀.Follows (predTick s) := by
  unfold predTick
  try dsimp only
  repeat' first
    | with_reducible assumption | (with_reducible refine forEach_follows _ _ ?_ (fun _ _ _ => ?_)) | with_reducible apply allowance_follows
    | with_reducible apply State.put_follows | with_reducible apply State.Follows.with

theorem spentTick_follows {b₀ : State} {s : State} (Hs : b₀.Follows s) : b₀.Follows (spentTick s) := by
  unfold spentTick
  try dsimp only
  repeat' first
    | with_reducible assumption | (with_reducible refine forEach_follows _ _ ?_ (fun _ _ _ => ?_)) | with_reducible apply State.modPart_follows
    | with_reducible apply State.put_follows

theorem fgPart_follows {b₀ : State} {s : State} (Hs : b₀.Follows s) (p : Nat) : b₀.Follows (fgPart s p) := by
  unfold fgPart
  try dsimp only
  repeat' first
    | with_reducible assumption | with_reducible apply State.modPart_follows | with_reducible apply raiseEdge_follows
    | with_reducible apply State.put_follows | with_reducible apply State.setFlag_follows | split

theorem reloadTick_follows {b₀ : State} {s : State} (Hs : b₀.Follows s) (p : Nat) : b₀.Follows (reloadTick s p) := by
  unfold reloadTick
  try dsimp only
  repeat' first
    | with_reducible assumption | with_reducible apply setPartState_follows | with_reducible apply State.modPart_follows
    | with_reducible apply State.setReg_follows | with_reducible apply State.setFlag_follows

theorem stateTick_follows {b₀ : State} {s : State} (Hs : b₀.Follows s) (p : Nat) : b₀.Follows (stateTick s p) := by
  unfold stateTick
  try dsimp only
  repeat' first
    | with_reducible assumption | with_reducible apply reloadTick_follows | with_reducible apply quiesceCheck_follows
    | with_reducible apply setPartState_follows | split

theorem ownTick_follows {b₀ : State} {s : State} (Hs : b₀.Follows s) (p : Nat) : b₀.Follows (ownTick s p) := by
  unfold ownTick
  try dsimp only
  repeat' first
    | with_reducible assumption | with_reducible apply State.modPart_follows | with_reducible apply State.setFlag_follows | split

theorem wayAsk_follows {b₀ : State} {s : State} (Hs : b₀.Follows s) (i : Nat) : b₀.Follows (wayAsk s i) := by
  unfold wayAsk
  try dsimp only
  repeat' first
    | with_reducible assumption | with_reducible apply hostAsk_follows | with_reducible apply State.modInst_follows | split

theorem readTick_follows {b₀ : State} {s : State} (Hs : b₀.Follows s) : b₀.Follows (readTick s) := by
  unfold readTick
  try dsimp only
  repeat' first
    | with_reducible assumption | (with_reducible refine forEach_follows _ _ ?_ (fun _ _ _ => ?_)) | with_reducible apply wayAsk_follows
    | with_reducible apply State.modInst_follows

theorem setPwrState_follows {b₀ : State} {s : State} (Hs : b₀.Follows s) (v : Nat) : b₀.Follows (setPwrState s v) := by
  unfold setPwrState
  try dsimp only
  repeat' first
    | with_reducible assumption | with_reducible apply raiseEdge_follows | with_reducible apply settleCycles_follows
    | with_reducible apply State.put_follows | split

theorem idleTick_follows {b₀ : State} {s : State} (Hs : b₀.Follows s) : b₀.Follows (idleTick s) := by
  unfold idleTick
  try dsimp only
  repeat' first
    | with_reducible assumption | with_reducible apply setPwrState_follows | split

theorem openFrame_follows {b₀ : State} {s : State} (Hs : b₀.Follows s) (now : Nat) : b₀.Follows (openFrame s now) := by
  unfold openFrame
  try dsimp only
  repeat' first
    | with_reducible assumption | with_reducible apply refTick_follows | (with_reducible refine forEach_follows _ _ ?_ (fun _ _ _ => ?_))
    | with_reducible apply raiseEdge_follows | with_reducible apply State.setReg_follows | split | with_reducible apply State.Follows.with

theorem schedTick_follows {b₀ : State} {s : State} (Hs : b₀.Follows s) (now : Nat) : b₀.Follows (schedTick s now) := by
  unfold schedTick
  try dsimp only
  repeat' first
    | with_reducible assumption | (with_reducible refine forEach_follows _ _ ?_ (fun _ _ _ => ?_)) | with_reducible apply openFrame_follows
    | with_reducible apply holdCar_follows | with_reducible apply thrashSlice_follows | with_reducible apply heavyTick_follows
    | with_reducible apply predTick_follows | with_reducible apply spentTick_follows | with_reducible apply fmaxTick_follows
    | with_reducible apply fgPart_follows | with_reducible apply ownTick_follows | with_reducible apply stateTick_follows
    | with_reducible apply State.modPart_follows | with_reducible apply readTick_follows | with_reducible apply State.Follows.with

theorem setStage_follows {b₀ : State} {s : State} (Hs : b₀.Follows s) (i : Nat) (x : ReadStage) : b₀.Follows (setStage s i x) := by
  unfold setStage
  try dsimp only
  repeat' first
    | with_reducible assumption | with_reducible apply State.modInst_follows

theorem slotFault_follows {b₀ : State} {s : State} (Hs : b₀.Follows s) (i : Nat) (sp : Nat) : b₀.Follows (slotFault s i sp) := by
  unfold slotFault
  try dsimp only
  repeat' first
    | with_reducible assumption | with_reducible apply setStage_follows | with_reducible apply State.setFlag_follows | split

theorem takeCand_follows {b₀ : State} {s : State} (Hs : b₀.Follows s) (i : Nat) (x : Cand) : b₀.Follows (takeCand s i x) := by
  unfold takeCand
  try dsimp only
  repeat' first
    | with_reducible assumption | with_reducible apply State.modInst_follows | with_reducible apply refusal_follows
    | with_reducible apply State.modPart_follows | split | with_reducible apply State.Follows.with

theorem nextHeader_follows {b₀ : State} (left : Nat) {s : State} (Hs : b₀.Follows s) (i : Nat) (gen : BitVec 32) (j : Nat)
    (addrs : List (Option W64)) : b₀.Follows (nextHeader left s i gen j addrs) := by
  induction left generalizing s j with
  | zero => exact setStage_follows Hs _ _
  | succ n ih =>
    unfold nextHeader
    split
    · exact setStage_follows Hs _ _
    · exact ih (takeCand_follows Hs _ _) _
    · exact setStage_follows Hs _ _

theorem afterHeader_follows {b₀ : State} {s : State} (Hs : b₀.Follows s) (i : Nat) (gen : BitVec 32) (j : Nat) (addrs : List (Option W64)) :
    b₀.Follows (afterHeader s i gen j addrs) := nextHeader_follows _ Hs _ _ _ _

theorem refuseList_follows {b₀ : State} {s : State} (Hs : b₀.Follows s) (i : Nat) (gen : BitVec 32) (n : Nat) (cause : Nat) (lc : Bool) : b₀.Follows (refuseList s i gen n cause lc) := by
  unfold refuseList
  try dsimp only
  repeat' first
    | with_reducible assumption | with_reducible apply setStage_follows | (with_reducible refine forEach_follows _ _ ?_ (fun _ _ _ => ?_))
    | with_reducible apply refusal_follows

theorem takeSlot_follows {b₀ : State} {s : State} (Hs : b₀.Follows s) (i : Nat) (gen : BitVec 32) (b : List Byte) : b₀.Follows (takeSlot s i gen b) := by
  unfold takeSlot
  try dsimp only
  repeat' first
    | with_reducible assumption | with_reducible apply setStage_follows | with_reducible apply State.count_follows
    | with_reducible apply State.modInst_follows | with_reducible apply refuseList_follows | with_reducible apply State.put_follows
    | with_reducible apply State.setFlag_follows | split

theorem takeList_follows {b₀ : State} {s : State} (Hs : b₀.Follows s) (i : Nat) (gen : BitVec 32) (d : List Byte) (ok : Bool) (poison : Bool) :
    b₀.Follows (takeList s i gen d ok poison) := nextHeader_follows _ Hs _ _ _ _

theorem endRead_follows {b₀ : State} {s : State} (Hs : b₀.Follows s) (i : Nat) (gen : BitVec 32) (j : Nat) (addrs : List (Option W64)) (v : Caravan) (bad : List Nat) : b₀.Follows (endRead s i gen j addrs v bad) := by
  unfold endRead
  try dsimp only
  repeat' first
    | with_reducible assumption | with_reducible apply afterHeader_follows | with_reducible apply takeCand_follows

theorem nextBinds_follows {b₀ : State} (left : Nat) {s : State} (Hs : b₀.Follows s) (i : Nat) (gen : BitVec 32) (j : Nat)
    (addrs : List (Option W64)) (v : Caravan) (n : Nat) (bad : List Nat) : b₀.Follows (nextBinds left s i gen j addrs v n bad) := by
  induction left generalizing n bad with
  | zero => exact endRead_follows Hs _ _ _ _ _ _
  | succ m ih =>
    unfold nextBinds
    split
    · exact endRead_follows Hs _ _ _ _ _ _
    · dsimp only
      split
      · exact setStage_follows Hs _ _
      · exact ih _ _

theorem wayTake_follows {b₀ : State} {s : State} (Hs : b₀.Follows s) (i : Nat) (d : List Byte) (ok : Bool) (poison : Bool) : b₀.Follows (wayTake s i d ok poison) := by
  unfold wayTake
  try dsimp only
  repeat' first
    | with_reducible assumption | with_reducible apply slotFault_follows | with_reducible apply setStage_follows
    | with_reducible apply State.modInst_follows | with_reducible apply takeSlot_follows | with_reducible apply takeList_follows
    | with_reducible apply afterHeader_follows | with_reducible apply takeCand_follows | with_reducible apply nextBinds_follows
    | with_reducible apply endRead_follows | with_reducible apply State.put_follows | split

theorem wayReturn_follows {b₀ : State} {s : State} (Hs : b₀.Follows s) (i : Nat) (d : List Byte) (ok : Bool) (poison : Bool) : b₀.Follows (wayReturn s i d ok poison) := by
  unfold wayReturn
  try dsimp only
  repeat' first
    | with_reducible assumption | with_reducible apply wayAsk_follows | with_reducible apply wayTake_follows
    | with_reducible apply State.modInst_follows

theorem wayRead_follows {b₀ : State} {s : State} (Hs : b₀.Follows s) (i : Nat) (d : List Byte) (ok : Bool) (poison : Bool) : b₀.Follows (wayRead s i d ok poison) := by
  unfold wayRead
  try dsimp only
  repeat' first
    | with_reducible assumption | with_reducible apply wayReturn_follows | with_reducible apply wayAsk_follows
    | with_reducible apply dropReq_follows | with_reducible apply State.modInst_follows | split

theorem admitOne_follows {b₀ : State} {a : State × Budget × Bool} (Ha : b₀.Follows a.1) (i : Nat) (x : Cand) : b₀.Follows (admitOne i a x).1 := by
  unfold admitOne
  try dsimp only
  repeat' first
    | with_reducible assumption | with_reducible apply refusal_follows | with_reducible apply State.modPart_follows
    | with_reducible apply State.count_follows | split | with_reducible apply State.Follows.with

theorem resumeHeld_follows {b₀ : State} {s : State} (Hs : b₀.Follows s) (p : Nat) : b₀.Follows (resumeHeld s p) := by
  unfold resumeHeld
  try dsimp only
  repeat' first
    | with_reducible assumption | (with_reducible refine forEach_follows _ _ ?_ (fun _ _ _ => ?_)) | with_reducible apply State.modCar_follows
    | with_reducible apply rateCheck_follows | with_reducible apply State.modCore_follows | split

theorem admitCaravans_follows {b₀ : State} {s : State} (Hs : b₀.Follows s) (p : Nat) (ta : Nat) : b₀.Follows (admitCaravans s p ta) := by
  unfold admitCaravans
  try dsimp only
  repeat' first
    | with_reducible assumption | (with_reducible refine forEach_follows _ _ ?_ (fun _ _ _ => ?_)) | with_reducible apply State.modInst_follows
    | with_reducible apply admitOne_follows | with_reducible apply allowance_follows | with_reducible apply resumeHeld_follows
    | with_reducible apply State.modPart_follows | with_reducible apply State.setReg_follows | with_reducible apply State.put_follows
    | (with_reducible refine foldl_fst_follows _ (fun _ _ _ => ?_) _ ?_) | split

theorem startCar_follows {b₀ : State} {s : State} (Hs : b₀.Follows s) (v : Caravan) (level : Nat) : b₀.Follows (startCar s v level) := by
  unfold startCar
  try dsimp only
  repeat' first
    | with_reducible assumption | with_reducible apply setPwrState_follows | with_reducible apply State.modCar_follows
    | with_reducible apply State.modPart_follows | with_reducible apply rateCheck_follows
    | (with_reducible refine forEach_follows _ _ ?_ (fun _ _ _ => ?_)) | with_reducible apply beginLeg_follows

theorem caravanStart_follows {b₀ : State} {s : State} (Hs : b₀.Follows s) (k : Nat) : b₀.Follows (caravanStart s k) := by
  unfold caravanStart
  try dsimp only
  repeat' first
    | with_reducible assumption | with_reducible apply startCar_follows | split

theorem caravanEnd_follows {b₀ : State} {s : State} (Hs : b₀.Follows s) (k : Nat) : b₀.Follows (caravanEnd s k) := by
  unfold caravanEnd
  try dsimp only
  repeat' first
    | with_reducible assumption | with_reducible apply quiesceCheck_follows | with_reducible apply endCar_follows | split

theorem unbindDone_follows {b₀ : State} {s0 : State} (Hs0 : b₀.Follows s0) (i : Nat) : b₀.Follows (unbindDone s0 i) := by
  unfold unbindDone
  try dsimp only
  repeat' first
    | with_reducible assumption | with_reducible apply State.setPort_follows | with_reducible apply State.setFlag_follows

theorem unbindCheck_follows {b₀ : State} {s : State} (Hs : b₀.Follows s) (i : Nat) : b₀.Follows (unbindCheck s i) := by
  unfold unbindCheck
  try dsimp only
  repeat' first
    | with_reducible assumption | with_reducible apply hostFlush_follows | with_reducible apply State.modInst_follows
    | with_reducible apply unbindDone_follows | split

theorem ringFault_follows {b₀ : State} {s : State} (Hs : b₀.Follows s) (i : Nat) : b₀.Follows (ringFault s i) := by
  unfold ringFault
  try dsimp only
  repeat' first
    | with_reducible assumption | with_reducible apply State.setFlag_follows

theorem receiptMsix_follows {b₀ : State} {s : State} (Hs : b₀.Follows s) (i : Nat) (v : Option Nat) : b₀.Follows (receiptMsix s i v) := by
  unfold receiptMsix
  try dsimp only
  repeat' first
    | with_reducible assumption | with_reducible apply sendMsix_follows | split

theorem ringWrite_follows {b₀ : State} {s : State} (Hs : b₀.Follows s) (i : Nat) (x : SlotInfo) (seq : Nat) (bs : List Byte) : b₀.Follows (ringWrite s i x seq bs) := by
  unfold ringWrite
  try dsimp only
  repeat' first
    | with_reducible assumption | with_reducible apply receiptMsix_follows | with_reducible apply ringFault_follows
    | with_reducible apply State.modInst_follows | with_reducible apply hostWrite_follows | with_reducible apply State.send_follows | split

theorem ratioUpdate_follows {b₀ : State} {s : State} (Hs : b₀.Follows s) (i : Nat) (r : Receipt) : b₀.Follows (ratioUpdate s i r) := by
  unfold ratioUpdate
  try dsimp only
  repeat' first
    | with_reducible assumption | with_reducible apply State.put_follows | split

theorem receiptWrite_follows {b₀ : State} {s : State} (Hs : b₀.Follows s) (i : Nat) : b₀.Follows (receiptWrite s i) := by
  unfold receiptWrite
  try dsimp only
  repeat' first
    | with_reducible assumption | with_reducible apply State.modInst_follows | with_reducible apply ringWrite_follows
    | with_reducible apply unbindCheck_follows | with_reducible apply ratioUpdate_follows | with_reducible apply State.addWrap_follows | split
    | with_reducible apply State.Follows.with

theorem execFrameRefEdge_follows {b₀ s : State} (Hs : b₀.Follows s) (t : Nat) : ∃ u₁, (execFrameRefEdge t s) = .next u₁ ∧ b₀.Follows u₁ := by
  unfold execFrameRefEdge
  try dsimp only
  repeat' first
    | with_reducible assumption | with_reducible apply refEdge_follows | with_reducible apply State.at_follows
    | (with_reducible refine ⟨_, rfl, ?_⟩)

theorem execFrameRefLost_follows {b₀ s : State} (Hs : b₀.Follows s) (t : Nat) : ∃ u₁, (execFrameRefLost t s) = .next u₁ ∧ b₀.Follows u₁ := by
  unfold execFrameRefLost
  try dsimp only
  repeat' first
    | with_reducible assumption | with_reducible apply refLost_follows | with_reducible apply State.at_follows
    | (with_reducible refine ⟨_, rfl, ?_⟩)

theorem execWaybillRead_follows {b₀ s : State} (Hs : b₀.Follows s) (i : InstId) (d : List Byte) (ok : Bool) (poison : Bool) : ∃ u₁, (execWaybillRead i d ok poison s) = .next u₁ ∧ b₀.Follows u₁ := by
  unfold execWaybillRead
  try dsimp only
  repeat' first
    | with_reducible assumption | with_reducible apply wayRead_follows | (with_reducible refine ⟨_, rfl, ?_⟩)

theorem execAdmitCaravans_follows {b₀ s : State} (Hs : b₀.Follows s) (p : PartId) (ta : Nat) : ∃ u₁, (execAdmitCaravans p ta s) = .next u₁ ∧ b₀.Follows u₁ := by
  unfold execAdmitCaravans
  try dsimp only
  repeat' first
    | with_reducible assumption | with_reducible apply admitCaravans_follows | with_reducible apply State.at_follows
    | (with_reducible refine ⟨_, rfl, ?_⟩)

theorem execCaravanStart_follows {b₀ s : State} (Hs : b₀.Follows s) (k : Nat) (now : Nat) : ∃ u₁, (execCaravanStart k now s) = .next u₁ ∧ b₀.Follows u₁ := by
  unfold execCaravanStart
  try dsimp only
  repeat' first
    | with_reducible assumption | with_reducible apply caravanStart_follows | with_reducible apply State.at_follows
    | (with_reducible refine ⟨_, rfl, ?_⟩)

theorem execCaravanEnd_follows {b₀ s : State} (Hs : b₀.Follows s) (k : Nat) (now : Nat) : ∃ u₁, (execCaravanEnd k now s) = .next u₁ ∧ b₀.Follows u₁ := by
  unfold execCaravanEnd
  try dsimp only
  repeat' first
    | with_reducible assumption | with_reducible apply abortsGo_follows | with_reducible apply caravanEnd_follows
    | with_reducible apply State.at_follows | (with_reducible refine ⟨_, rfl, ?_⟩)

theorem execReceiptWrite_follows {b₀ s : State} (Hs : b₀.Follows s) (i : InstId) (now : Nat) : ∃ u₁, (execReceiptWrite i now s) = .next u₁ ∧ b₀.Follows u₁ := by
  unfold execReceiptWrite
  try dsimp only
  repeat' first
    | with_reducible assumption | with_reducible apply receiptWrite_follows | with_reducible apply State.at_follows
    | (with_reducible refine ⟨_, rfl, ?_⟩)

theorem frmAbort_follows {b₀ : State} {s : State} (Hs : b₀.Follows s) (i : Nat) (all : Bool) : b₀.Follows (frmAbort s i all) := by
  unfold frmAbort
  try dsimp only
  repeat' first
    | with_reducible assumption | with_reducible apply abortStart_follows | with_reducible apply State.setFlag_follows | split

theorem execFrmAbort_follows {b₀ s : State} (Hs : b₀.Follows s) (i : InstId) (all : Bool) : ∃ u₁, (execFrmAbort i all s) = .next u₁ ∧ b₀.Follows u₁ := by
  unfold execFrmAbort
  try dsimp only
  repeat' first
    | with_reducible assumption | with_reducible apply frmAbort_follows | (with_reducible refine ⟨_, rfl, ?_⟩)

theorem execFrmCountLoad_follows {b₀ s : State} (Hs : b₀.Follows s) (v : W64) : ∃ u₁, (execFrmCountLoad v s) = .next u₁ ∧ b₀.Follows u₁ := by
  unfold execFrmCountLoad
  try dsimp only
  repeat' first
    | with_reducible assumption | (with_reducible refine ⟨_, rfl, ?_⟩) | with_reducible apply State.Follows.with

end Sys2Proof.Machine
end

