-- ==== Sys2Proof/Laws/FollowPartition.lean ====
section
/-!
SUPPORT. Every operation of Machine/Partition.lean gives a state that follows the one it is given.
-/
namespace Sys2Proof.Machine

theorem endInst_follows {b₀ : State} {s : State} (Hs : b₀.Follows s) (i : Nat) (status : Nat) (cause : Nat) : b₀.Follows (endInst s i status cause) := by
  unfold endInst
  try dsimp only
  repeat' first
    | with_reducible assumption | with_reducible apply endCands_follows | (with_reducible refine forEach_follows _ _ ?_ (fun _ _ _ => ?_))
    | with_reducible apply resolveCar_follows

theorem endPart_follows {b₀ : State} {s : State} (Hs : b₀.Follows s) (p : Nat) (status : Nat) (cause : Nat) : b₀.Follows (endPart s p status cause) := by
  unfold endPart
  try dsimp only
  repeat' first
    | with_reducible assumption | (with_reducible refine forEach_follows _ _ ?_ (fun _ _ _ => ?_)) | with_reducible apply endCands_follows
    | with_reducible apply resolveCar_follows

theorem ownEnd_follows {b₀ : State} {s : State} (Hs : b₀.Follows s) (p : Nat) : b₀.Follows (ownEnd s p) := by
  unfold ownEnd
  try dsimp only
  repeat' first
    | with_reducible assumption | with_reducible apply State.modPart_follows | with_reducible apply State.setFlag_follows

theorem ownRequest_follows {b₀ : State} {s : State} (Hs : b₀.Follows s) (p : Nat) (i : Nat) : b₀.Follows (ownRequest s p i) := by
  unfold ownRequest
  try dsimp only
  repeat' first
    | with_reducible assumption | with_reducible apply State.put_follows | with_reducible apply State.setFlag_follows | split

theorem stopReading_follows {b₀ : State} {s : State} (Hs : b₀.Follows s) (i : Nat) : b₀.Follows (stopReading s i) := by
  unfold stopReading
  try dsimp only
  repeat' first
    | with_reducible assumption | with_reducible apply State.modInst_follows

theorem slotActive_follows {b₀ : State} {s : State} (Hs : b₀.Follows s) (i : Nat) (on : Bool) : b₀.Follows (slotActive s i on) := by
  unfold slotActive
  try dsimp only
  repeat' first
    | with_reducible assumption | with_reducible apply State.modInst_follows | with_reducible apply stopReading_follows
    | with_reducible apply State.put_follows | with_reducible apply State.setFlag_follows | split

theorem setTdi_follows {b₀ : State} {s : State} (Hs : b₀.Follows s) (i : Nat) (v : Nat) : b₀.Follows (setTdi s i v) := by
  unfold setTdi
  try dsimp only
  repeat' first
    | with_reducible assumption | with_reducible apply State.put_follows

theorem tdiClear_follows {b₀ : State} {s : State} (Hs : b₀.Follows s) (i : Nat) (unlock : Bool) : b₀.Follows (tdiClear s i unlock) := by
  unfold tdiClear
  try dsimp only
  repeat' first
    | with_reducible assumption | with_reducible apply setTdi_follows | with_reducible apply endInst_follows
    | with_reducible apply State.Follows.with

theorem tdiError_follows {b₀ : State} {s : State} (Hs : b₀.Follows s) (i : Nat) : b₀.Follows (tdiError s i) := by
  unfold tdiError
  try dsimp only
  repeat' first
    | with_reducible assumption | with_reducible apply tdiClear_follows | split

theorem partTdiError_follows {b₀ : State} {s : State} (Hs : b₀.Follows s) (p : Nat) : b₀.Follows (partTdiError s p) := by
  unfold partTdiError
  try dsimp only
  repeat' first
    | with_reducible assumption | (with_reducible refine forEach_follows _ _ ?_ (fun _ _ _ => ?_)) | with_reducible apply tdiError_follows

theorem zeroGib_follows {b₀ : State} {s : State} (Hs : b₀.Follows s) (g : Nat) : b₀.Follows (zeroGib s g) := by
  unfold zeroGib
  try dsimp only
  repeat' first
    | with_reducible assumption | with_reducible apply clearRange_follows | with_reducible apply State.Follows.with

theorem tdiCleared_follows {b₀ : State} {s : State} (Hs : b₀.Follows s) (i : Nat) : b₀.Follows (tdiCleared s i) := by
  unfold tdiCleared
  try dsimp only
  repeat' first
    | with_reducible assumption | (with_reducible refine forEach_follows _ _ ?_ (fun _ _ _ => ?_)) | with_reducible apply clearSeq_follows
    | with_reducible apply clearArrays_follows | with_reducible apply zeroGib_follows | with_reducible apply unbindCheck_follows
    | with_reducible apply setTdi_follows | split | with_reducible apply State.Follows.with

theorem mailboxClear_follows {b₀ : State} {s : State} (Hs : b₀.Follows s) (i : Nat) : b₀.Follows (mailboxClear s i) := by
  unfold mailboxClear
  try dsimp only
  repeat' first
    | with_reducible assumption | (with_reducible refine forEach_follows _ _ ?_ (fun _ _ _ => ?_)) | with_reducible apply State.setReg_follows

theorem instanceBind_follows {b₀ : State} {s : State} (Hs : b₀.Follows s) (i : Nat) (port : Nat) (pasid : BitVec 20) (p : Nat) : b₀.Follows (instanceBind s i port pasid p) := by
  unfold instanceBind
  try dsimp only
  repeat' first
    | with_reducible assumption | with_reducible apply mailboxClear_follows | with_reducible apply State.modInst_follows
    | with_reducible apply State.put_follows | with_reducible apply State.setFlag_follows | split | with_reducible apply State.Follows.with

theorem instanceUnbind_follows {b₀ : State} {s : State} (Hs : b₀.Follows s) (i : Nat) : b₀.Follows (instanceUnbind s i) := by
  unfold instanceUnbind
  try dsimp only
  repeat' first
    | with_reducible assumption | with_reducible apply tdiClear_follows | with_reducible apply slotActive_follows
    | with_reducible apply endInst_follows | with_reducible apply ownEnd_follows | with_reducible apply unbindCheck_follows
    | with_reducible apply State.setFlag_follows | split | with_reducible apply State.Follows.with

theorem partRelease_follows {b₀ : State} {s : State} (Hs : b₀.Follows s) (p : Nat) : b₀.Follows (partRelease s p) := by
  unfold partRelease
  try dsimp only
  repeat' first
    | with_reducible assumption | with_reducible apply State.setFlag_follows | split

theorem partHold_follows {b₀ : State} {s : State} (Hs : b₀.Follows s) (p : Nat) : b₀.Follows (partHold s p) := by
  unfold partHold
  try dsimp only
  repeat' first
    | with_reducible assumption | with_reducible apply State.setFlag_follows

theorem containPart_follows {b₀ : State} {s : State} (Hs : b₀.Follows s) (p : Nat) (cause : Nat) : b₀.Follows (containPart s p cause) := by
  unfold containPart
  try dsimp only
  repeat' first
    | with_reducible assumption | with_reducible apply endPart_follows | with_reducible apply partHold_follows
    | with_reducible apply State.modPart_follows | split

theorem containCar_follows {b₀ : State} {s : State} (Hs : b₀.Follows s) (c : Nat) : b₀.Follows (containCar s c) := by
  unfold containCar
  try dsimp only
  repeat' first
    | with_reducible assumption | with_reducible apply resolveCar_follows | split

theorem endAll_follows {b₀ : State} {s : State} (Hs : b₀.Follows s) (status : Nat) (cause : Nat) : b₀.Follows (endAll s status cause) := by
  unfold endAll
  try dsimp only
  repeat' first
    | with_reducible assumption | (with_reducible refine forEach_follows _ _ ?_ (fun _ _ _ => ?_)) | with_reducible apply endCands_follows
    | with_reducible apply endCar_follows

theorem stopCores_follows {b₀ : State} {s : State} (Hs : b₀.Follows s) : b₀.Follows (stopCores s) := by
  unfold stopCores
  try dsimp only
  repeat' first
    | with_reducible assumption | (with_reducible refine forEach_follows _ _ ?_ (fun _ _ _ => ?_)) | with_reducible apply State.modCore_follows

theorem fatalError_follows {b₀ : State} {s : State} (Hs : b₀.Follows s) : b₀.Follows (fatalError s) := by
  unfold fatalError
  try dsimp only
  repeat' first
    | with_reducible assumption | with_reducible apply endAll_follows | with_reducible apply stopCores_follows
    | (with_reducible refine forEach_follows _ _ ?_ (fun _ _ _ => ?_)) | with_reducible apply stopReading_follows
    | with_reducible apply aerLog_follows | with_reducible apply State.out_follows | split | with_reducible apply State.Follows.with

theorem execInstanceBind_follows {b₀ s : State} (Hs : b₀.Follows s) (i : InstId) (port : BitVec 2) (pasid : BitVec 20) (p : PartId) : ∃ u₁, (execInstanceBind i port pasid p s) = .next u₁ ∧ b₀.Follows u₁ := by
  unfold execInstanceBind
  try dsimp only
  repeat' first
    | with_reducible assumption | with_reducible apply instanceBind_follows | (with_reducible refine ⟨_, rfl, ?_⟩)

theorem execInstanceUnbind_follows {b₀ s : State} (Hs : b₀.Follows s) (i : InstId) : ∃ u₁, (execInstanceUnbind i s) = .next u₁ ∧ b₀.Follows u₁ := by
  unfold execInstanceUnbind
  try dsimp only
  repeat' first
    | with_reducible assumption | with_reducible apply instanceUnbind_follows | (with_reducible refine ⟨_, rfl, ?_⟩)

theorem execOwnRequest_follows {b₀ s : State} (Hs : b₀.Follows s) (p : PartId) (i : InstId) : ∃ u₁, (execOwnRequest p i s) = .next u₁ ∧ b₀.Follows u₁ := by
  unfold execOwnRequest
  try dsimp only
  repeat' first
    | with_reducible assumption | with_reducible apply ownRequest_follows | (with_reducible refine ⟨_, rfl, ?_⟩)

theorem execOwnEnd_follows {b₀ s : State} (Hs : b₀.Follows s) (p : PartId) : ∃ u₁, (execOwnEnd p s) = .next u₁ ∧ b₀.Follows u₁ := by
  unfold execOwnEnd
  try dsimp only
  repeat' first
    | with_reducible assumption | with_reducible apply ownEnd_follows | (with_reducible refine ⟨_, rfl, ?_⟩)

theorem execPartitionHold_follows {b₀ s : State} (Hs : b₀.Follows s) (p : PartId) : ∃ u₁, (execPartitionHold p s) = .next u₁ ∧ b₀.Follows u₁ := by
  unfold execPartitionHold
  try dsimp only
  repeat' first
    | with_reducible assumption | with_reducible apply partHold_follows | (with_reducible refine ⟨_, rfl, ?_⟩)

theorem execPartitionRelease_follows {b₀ s : State} (Hs : b₀.Follows s) (p : PartId) : ∃ u₁, (execPartitionRelease p s) = .next u₁ ∧ b₀.Follows u₁ := by
  unfold execPartitionRelease
  try dsimp only
  repeat' first
    | with_reducible assumption | with_reducible apply partRelease_follows | (with_reducible refine ⟨_, rfl, ?_⟩)

end Sys2Proof.Machine
end

