-- ==== Sys2Proof/Laws/FollowHostPort.lean ====
section
/-!
SUPPORT. Every operation of Machine/HostPort.lean gives a state that follows the one it is given.
-/
namespace Sys2Proof.Machine

theorem windowLost_follows {b₀ : State} {s : State} (Hs : b₀.Follows s) (c : Nat) : b₀.Follows (windowLost s c) := by
  unfold windowLost
  try dsimp only
  repeat' first
    | with_reducible assumption | with_reducible apply State.setFlag_follows

theorem hostDone_follows {b₀ : State} {s : State} (Hs : b₀.Follows s) (p : Nat) (r : HostReq) (ok : Bool) (d : List Byte) (ep : Bool) : b₀.Follows (hostDone s p r ok d ep) := by
  unfold hostDone
  try dsimp only
  repeat' first
    | with_reducible assumption | with_reducible apply moverFlushed_follows | with_reducible apply moverSource_follows
    | with_reducible apply wayReturn_follows | with_reducible apply loadPart_follows | with_reducible apply loadDead_follows
    | with_reducible apply windowLost_follows | with_reducible apply writeFailed_follows | with_reducible apply unbindDone_follows
    | with_reducible apply State.modInst_follows | split

theorem streamFails_follows {b₀ : State} {s : State} (Hs : b₀.Follows s) (p : Nat) (k : Nat) : b₀.Follows (streamFails s p k) := by
  unfold streamFails
  try dsimp only
  repeat' first
    | with_reducible assumption | with_reducible apply State.setPort_follows | (with_reducible refine forEach_follows _ _ ?_ (fun _ _ _ => ?_))
    | with_reducible apply tdiError_follows | with_reducible apply State.put_follows | with_reducible apply State.setFlag_follows

theorem cplLog_follows {b₀ : State} {s : State} (Hs : b₀.Follows s) (p : Nat) (st : HostCpl) (ep : Bool) : b₀.Follows (cplLog s p st ep) := by
  unfold cplLog
  try dsimp only
  repeat' first
    | with_reducible assumption | with_reducible apply aerLog_follows | split

theorem unbindsGo_follows {b₀ : State} {s : State} (Hs : b₀.Follows s) : b₀.Follows (unbindsGo s) := by
  unfold unbindsGo
  try dsimp only
  repeat' first
    | with_reducible assumption | (with_reducible refine forEach_follows _ _ ?_ (fun _ _ _ => ?_)) | with_reducible apply unbindCheck_follows

theorem hostCompletion_follows {b₀ : State} {s : State} (Hs : b₀.Follows s) (p : Nat) (id : Nat) (st : HostCpl) (d : List Byte) (ep : Bool) : b₀.Follows (hostCompletion s p id st d ep) := by
  unfold hostCompletion
  try dsimp only
  repeat' first
    | with_reducible assumption | with_reducible apply streamFails_follows | with_reducible apply cplLog_follows
    | with_reducible apply hostDone_follows | with_reducible apply dropReq_follows | with_reducible apply unbindsGo_follows
    | with_reducible apply aerLog_follows | split

theorem dlogSettle_follows {b₀ : State} {s : State} (Hs : b₀.Follows s) (i : Nat) : b₀.Follows (dlogSettle s i) := by
  unfold dlogSettle
  try dsimp only
  repeat' first
    | with_reducible assumption | with_reducible apply quiesceCheck_follows | with_reducible apply State.setFlag_follows

theorem dlogFault_follows {b₀ : State} {s : State} (Hs : b₀.Follows s) (i : Nat) : b₀.Follows (dlogFault s i) := by
  unfold dlogFault
  try dsimp only
  repeat' first
    | with_reducible assumption | with_reducible apply State.setFlag_follows

theorem setDlog_follows {b₀ : State} {s : State} (Hs : b₀.Follows s) (f : DlogWord → DlogWord) : b₀.Follows (setDlog s f) := by
  unfold setDlog
  try dsimp only
  repeat' first
    | with_reducible assumption | with_reducible apply State.Follows.with

theorem dlogCas_follows {b₀ : State} {s : State} (Hs : b₀.Follows s) (x : DlogWord) : b₀.Follows (dlogCas s x) := by
  unfold dlogCas
  try dsimp only
  repeat' first
    | with_reducible assumption | with_reducible apply setDlog_follows | with_reducible apply dlogFault_follows
    | with_reducible apply State.out_follows | split

theorem dirtyUpdate_follows {b₀ : State} {s : State} (Hs : b₀.Follows s) (i : Nat) : b₀.Follows (dirtyUpdate s i) := by
  unfold dirtyUpdate
  try dsimp only
  repeat' first
    | with_reducible assumption | with_reducible apply dlogSettle_follows | (with_reducible refine forEach_follows _ _ ?_ (fun _ _ _ => ?_))
    | with_reducible apply dlogCas_follows

theorem dlogComplete_follows {b₀ : State} {s : State} (Hs : b₀.Follows s) (i : Nat) (r : Nat) (n : Nat) (ok : Bool) (old : W64) : b₀.Follows (dlogComplete s i r n ok old) := by
  unfold dlogComplete
  try dsimp only
  repeat' first
    | with_reducible assumption | with_reducible apply dlogFault_follows | with_reducible apply setDlog_follows
    | with_reducible apply dlogCas_follows | with_reducible apply dlogSettle_follows | split

theorem dlogPortLost_follows {b₀ : State} {s : State} (Hs : b₀.Follows s) (p : Nat) : b₀.Follows (dlogPortLost s p) := by
  unfold dlogPortLost
  try dsimp only
  repeat' first
    | with_reducible assumption | (with_reducible refine forEach_follows _ _ ?_ (fun _ _ _ => ?_)) | with_reducible apply setDlog_follows
    | with_reducible apply dlogSettle_follows | with_reducible apply dlogFault_follows

theorem portReady_follows {b₀ : State} {s : State} (Hs : b₀.Follows s) : b₀.Follows (portReady s) := by
  unfold portReady
  try dsimp only
  repeat' first
    | with_reducible assumption | (with_reducible refine forEach_follows _ _ ?_ (fun _ _ _ => ?_)) | with_reducible apply State.setFlag_follows

theorem portReset_follows {b₀ : State} {s : State} (Hs : b₀.Follows s) (p : Nat) : b₀.Follows (portReset s p) := by
  unfold portReset
  try dsimp only
  repeat' first
    | with_reducible assumption | (with_reducible refine forEach_follows _ _ ?_ (fun _ _ _ => ?_)) | with_reducible apply State.setPort_follows
    | with_reducible apply hostDone_follows

theorem portDown_follows {b₀ : State} {s : State} (Hs : b₀.Follows s) (p : Nat) : b₀.Follows (portDown s p) := by
  unfold portDown
  try dsimp only
  repeat' first
    | with_reducible assumption | with_reducible apply portReset_follows | with_reducible apply portReady_follows
    | with_reducible apply setLevel_follows | with_reducible apply dlogPortLost_follows
    | (with_reducible refine forEach_follows _ _ ?_ (fun _ _ _ => ?_)) | with_reducible apply tdiError_follows
    | with_reducible apply State.setReg_follows | split

theorem linkUp_follows {b₀ : State} {s : State} (Hs : b₀.Follows s) (p : Nat) (rate : Nat) (width : Nat) (flit : Bool) (ats : Bool) (msix : Bool) (fmask : Bool) (mps : Nat) (mrrs : Nat) (bar2 : Nat) : b₀.Follows (linkUp s p rate width flit ats msix fmask mps mrrs bar2) := by
  unfold linkUp
  try dsimp only
  repeat' first
    | with_reducible assumption | with_reducible apply portReady_follows | with_reducible apply State.setPort_follows
    | with_reducible apply State.put_follows | with_reducible apply State.setFlag_follows | split

theorem invalidate_follows {b₀ : State} {s : State} (Hs : b₀.Follows s) (p : Nat) (itag : BitVec 5) (pasid : BitVec 20) (va : Nat) (len : Nat) : b₀.Follows (invalidate s p itag pasid va len) := by
  unfold invalidate
  try dsimp only
  repeat' first
    | with_reducible assumption | with_reducible apply State.setPort_follows | split

theorem invalidated_follows {b₀ : State} {s : State} (Hs : b₀.Follows s) (p : Nat) (itag : BitVec 5) : b₀.Follows (invalidated s p itag) := by
  unfold invalidated
  try dsimp only
  repeat' first
    | with_reducible assumption | with_reducible apply State.setPort_follows | with_reducible apply State.out_follows | split

theorem msixGo_follows {b₀ : State} {s : State} (Hs : b₀.Follows s) (p : Nat) : b₀.Follows (msixGo s p) := by
  unfold msixGo
  try dsimp only
  repeat' first
    | with_reducible assumption | (with_reducible refine forEach_follows _ _ ?_ (fun _ _ _ => ?_)) | with_reducible apply State.setPort_follows
    | with_reducible apply State.out_follows | split

theorem msixUnmask_follows {b₀ : State} {s : State} (Hs : b₀.Follows s) (p : Nat) (v : Option Nat) : b₀.Follows (msixUnmask s p v) := by
  unfold msixUnmask
  try dsimp only
  repeat' first
    | with_reducible assumption | with_reducible apply msixGo_follows | with_reducible apply State.setPort_follows | split

theorem mbxDrop_follows {b₀ : State} {s : State} (Hs : b₀.Follows s) (i : Nat) : b₀.Follows (mbxDrop s i) := by
  unfold mbxDrop
  try dsimp only
  repeat' first
    | with_reducible assumption | with_reducible apply State.incSat_follows

theorem mbxNotify_follows {b₀ : State} {s : State} (Hs : b₀.Follows s) (i : Nat) (m2t : Bool) : b₀.Follows (mbxNotify s i m2t) := by
  unfold mbxNotify
  try dsimp only
  repeat' first
    | with_reducible assumption | with_reducible apply sendMsix_follows | split

theorem mbxPost_follows {b₀ : State} {s : State} (Hs : b₀.Follows s) (i : Nat) (m2t : Bool) (n : Nat) (w : W64) : b₀.Follows (mbxPost s i m2t n w) := by
  unfold mbxPost
  try dsimp only
  repeat' first
    | with_reducible assumption | with_reducible apply mbxNotify_follows | with_reducible apply mbxDrop_follows
    | with_reducible apply State.setReg_follows | with_reducible apply State.put_follows | split

theorem mbxPayload_follows {b₀ : State} {s : State} (Hs : b₀.Follows s) (i : Nat) (m2t : Bool) (n : Nat) (w : Nat) (be : W64) (v : W64) : b₀.Follows (mbxPayload s i m2t n w be v) := by
  unfold mbxPayload
  try dsimp only
  repeat' first
    | with_reducible assumption | with_reducible apply mbxDrop_follows | with_reducible apply State.setReg_follows | split

theorem mbxReturn_follows {b₀ : State} {s : State} (Hs : b₀.Follows s) (i : Nat) (m2t : Bool) (v : Nat) : b₀.Follows (mbxReturn s i m2t v) := by
  unfold mbxReturn
  try dsimp only
  repeat' first
    | with_reducible assumption | with_reducible apply State.put_follows | split

theorem mbxVersion_follows {b₀ : State} {s : State} (Hs : b₀.Follows s) (i : Nat) (hi : Nat) (lo : Nat) : b₀.Follows (mbxVersion s i hi lo) := by
  unfold mbxVersion
  try dsimp only
  repeat' first
    | with_reducible assumption | with_reducible apply State.put_follows

theorem tenantOwn_follows {b₀ : State} {s : State} (Hs : b₀.Follows s) (i : Nat) : b₀.Follows (tenantOwn s i) := by
  unfold tenantOwn
  try dsimp only
  repeat' first
    | with_reducible assumption | with_reducible apply ownRequest_follows | with_reducible apply State.setFlag_follows | split

theorem tenantRelease_follows {b₀ : State} {s : State} (Hs : b₀.Follows s) (i : Nat) : b₀.Follows (tenantRelease s i) := by
  unfold tenantRelease
  try dsimp only
  repeat' first
    | with_reducible assumption | with_reducible apply ownEnd_follows | split

theorem tenantAbort_follows {b₀ : State} {s : State} (Hs : b₀.Follows s) (i : InstId) (all : Bool) : b₀.Follows (tenantAbort s i all) := by
  unfold tenantAbort
  try dsimp only
  repeat' first
    | with_reducible assumption | with_reducible apply abortsGo_follows | with_reducible apply State.setFlag_follows | split
    | with_reducible apply State.Follows.with

theorem lockTdi_follows {b₀ : State} {s : State} (Hs : b₀.Follows s) (i : Nat) (stream : Nat) : b₀.Follows (lockTdi s i stream) := by
  unfold lockTdi
  try dsimp only
  repeat' first
    | with_reducible assumption | with_reducible apply setTdi_follows | with_reducible apply State.out_follows | split
    | with_reducible apply State.Follows.with

theorem startTdi_follows {b₀ : State} {s : State} (Hs : b₀.Follows s) (i : Nat) : b₀.Follows (startTdi s i) := by
  unfold startTdi
  try dsimp only
  repeat' first
    | with_reducible assumption | with_reducible apply setTdi_follows | with_reducible apply State.out_follows | split

theorem stopTdi_follows {b₀ : State} {s : State} (Hs : b₀.Follows s) (i : Nat) : b₀.Follows (stopTdi s i) := by
  unfold stopTdi
  try dsimp only
  repeat' first
    | with_reducible assumption | with_reducible apply abortsGo_follows | with_reducible apply tdiClear_follows
    | with_reducible apply State.out_follows | split

theorem execHostCompletion_follows {b₀ s : State} (Hs : b₀.Follows s) (p : PortId) (id : Nat) (st : HostCpl) (d : List Byte) (ep : Bool) : ∃ u₁, (execHostCompletion p id st d ep s) = .next u₁ ∧ b₀.Follows u₁ := by
  unfold execHostCompletion
  try dsimp only
  repeat' first
    | with_reducible assumption | with_reducible apply abortsGo_follows | with_reducible apply hostCompletion_follows
    | (with_reducible refine ⟨_, rfl, ?_⟩)

theorem execInvalidateRequest_follows {b₀ s : State} (Hs : b₀.Follows s) (p : PortId) (itag : BitVec 5) (pasid : BitVec 20) (va : W64) (len : Nat) : ∃ u₁, (execInvalidateRequest p itag pasid va len s) = .next u₁ ∧ b₀.Follows u₁ := by
  unfold execInvalidateRequest
  try dsimp only
  repeat' first
    | with_reducible assumption | with_reducible apply invalidate_follows | (with_reducible refine ⟨_, rfl, ?_⟩)

theorem execInvalidateCompletion_follows {b₀ s : State} (Hs : b₀.Follows s) (p : PortId) (itag : BitVec 5) : ∃ u₁, (execInvalidateCompletion p itag s) = .next u₁ ∧ b₀.Follows u₁ := by
  unfold execInvalidateCompletion
  try dsimp only
  repeat' first
    | with_reducible assumption | with_reducible apply invalidated_follows | (with_reducible refine ⟨_, rfl, ?_⟩)

theorem execHostLinkDown_follows {b₀ s : State} (Hs : b₀.Follows s) (p : PortId) : ∃ u₁, (execHostLinkDown p s) = .next u₁ ∧ b₀.Follows u₁ := by
  unfold execHostLinkDown
  try dsimp only
  repeat' first
    | with_reducible assumption | with_reducible apply abortsGo_follows | with_reducible apply portDown_follows
    | (with_reducible refine ⟨_, rfl, ?_⟩)

theorem execHostLinkUp_follows {b₀ s : State} (Hs : b₀.Follows s) (p : PortId) (rate : BitVec 4) (width : BitVec 4) (flit : Bool) (ats : Bool) (msix : Bool) (cfg : PortCfg) : ∃ u₁, (execHostLinkUp p rate width flit ats msix cfg s) = .next u₁ ∧ b₀.Follows u₁ := by
  unfold execHostLinkUp
  try dsimp only
  repeat' first
    | with_reducible assumption | with_reducible apply linkUp_follows | (with_reducible refine ⟨_, rfl, ?_⟩)

theorem execPerstN_follows {b₀ s : State} (Hs : b₀.Follows s) (asserted : Bool) : ∃ u₁, (execPerstN asserted s) = .next u₁ ∧ b₀.Follows u₁ := by
  unfold execPerstN
  try dsimp only
  repeat' first
    | with_reducible assumption | with_reducible apply abortsGo_follows | with_reducible apply portDown_follows
    | (with_reducible refine ⟨_, rfl, ?_⟩) | split | with_reducible apply State.Follows.with

theorem execMsixUnmask_follows {b₀ s : State} (Hs : b₀.Follows s) (p : PortId) (v : Option (Fin 2048)) : ∃ u₁, (execMsixUnmask p v s) = .next u₁ ∧ b₀.Follows u₁ := by
  unfold execMsixUnmask
  try dsimp only
  repeat' first
    | with_reducible assumption | with_reducible apply msixUnmask_follows | (with_reducible refine ⟨_, rfl, ?_⟩)

theorem execMailboxPost_follows {b₀ s : State} (Hs : b₀.Follows s) (i : InstId) (m2t : Bool) (slot : Fin 16) (w : W64) : ∃ u₁, (execMailboxPost i m2t slot w s) = .next u₁ ∧ b₀.Follows u₁ := by
  unfold execMailboxPost
  try dsimp only
  repeat' first
    | with_reducible assumption | with_reducible apply mbxPost_follows | (with_reducible refine ⟨_, rfl, ?_⟩)

theorem execMailboxAck_follows {b₀ s : State} (Hs : b₀.Follows s) (i : InstId) (v : BitVec 16) : ∃ u₁, (execMailboxAck i v s) = .next u₁ ∧ b₀.Follows u₁ := by
  unfold execMailboxAck
  try dsimp only
  repeat' first
    | with_reducible assumption | with_reducible apply mbxReturn_follows | (with_reducible refine ⟨_, rfl, ?_⟩)

theorem execMailboxConsume_follows {b₀ s : State} (Hs : b₀.Follows s) (i : InstId) (v : BitVec 16) : ∃ u₁, (execMailboxConsume i v s) = .next u₁ ∧ b₀.Follows u₁ := by
  unfold execMailboxConsume
  try dsimp only
  repeat' first
    | with_reducible assumption | with_reducible apply mbxReturn_follows | (with_reducible refine ⟨_, rfl, ?_⟩)

theorem execMbxVer_follows {b₀ s : State} (Hs : b₀.Follows s) (i : InstId) (hi : BitVec 4) (lo : BitVec 4) : ∃ u₁, (execMbxVer i hi lo s) = .next u₁ ∧ b₀.Follows u₁ := by
  unfold execMbxVer
  try dsimp only
  repeat' first
    | with_reducible assumption | with_reducible apply mbxVersion_follows | (with_reducible refine ⟨_, rfl, ?_⟩)

theorem execMbxOwn_follows {b₀ s : State} (Hs : b₀.Follows s) (i : InstId) : ∃ u₁, (execMbxOwn i s) = .next u₁ ∧ b₀.Follows u₁ := by
  unfold execMbxOwn
  try dsimp only
  repeat' first
    | with_reducible assumption | with_reducible apply tenantOwn_follows | (with_reducible refine ⟨_, rfl, ?_⟩)

theorem execMbxRelease_follows {b₀ s : State} (Hs : b₀.Follows s) (i : InstId) : ∃ u₁, (execMbxRelease i s) = .next u₁ ∧ b₀.Follows u₁ := by
  unfold execMbxRelease
  try dsimp only
  repeat' first
    | with_reducible assumption | with_reducible apply tenantRelease_follows | (with_reducible refine ⟨_, rfl, ?_⟩)

theorem execMbxAbortTag_follows {b₀ s : State} (Hs : b₀.Follows s) (i : InstId) : ∃ u₁, (execMbxAbortTag i s) = .next u₁ ∧ b₀.Follows u₁ := by
  unfold execMbxAbortTag
  try dsimp only
  repeat' first
    | with_reducible assumption | with_reducible apply tenantAbort_follows | (with_reducible refine ⟨_, rfl, ?_⟩)

theorem execMbxAbortAll_follows {b₀ s : State} (Hs : b₀.Follows s) (i : InstId) : ∃ u₁, (execMbxAbortAll i s) = .next u₁ ∧ b₀.Follows u₁ := by
  unfold execMbxAbortAll
  try dsimp only
  repeat' first
    | with_reducible assumption | with_reducible apply tenantAbort_follows | (with_reducible refine ⟨_, rfl, ?_⟩)

theorem execLockInterface_follows {b₀ s : State} (Hs : b₀.Follows s) (i : InstId) (stream : Fin 8) : ∃ u₁, (execLockInterface i stream s) = .next u₁ ∧ b₀.Follows u₁ := by
  unfold execLockInterface
  try dsimp only
  repeat' first
    | with_reducible assumption | with_reducible apply lockTdi_follows | (with_reducible refine ⟨_, rfl, ?_⟩)

theorem execStartInterface_follows {b₀ s : State} (Hs : b₀.Follows s) (i : InstId) : ∃ u₁, (execStartInterface i s) = .next u₁ ∧ b₀.Follows u₁ := by
  unfold execStartInterface
  try dsimp only
  repeat' first
    | with_reducible assumption | with_reducible apply startTdi_follows | (with_reducible refine ⟨_, rfl, ?_⟩)

theorem execStopInterface_follows {b₀ s : State} (Hs : b₀.Follows s) (i : InstId) : ∃ u₁, (execStopInterface i s) = .next u₁ ∧ b₀.Follows u₁ := by
  unfold execStopInterface
  try dsimp only
  repeat' first
    | with_reducible assumption | with_reducible apply stopTdi_follows | (with_reducible refine ⟨_, rfl, ?_⟩)

theorem execTdiZeroingComplete_follows {b₀ s : State} (Hs : b₀.Follows s) (i : InstId) : ∃ u₁, (execTdiZeroingComplete i s) = .next u₁ ∧ b₀.Follows u₁ := by
  unfold execTdiZeroingComplete
  try dsimp only
  repeat' first
    | with_reducible assumption | with_reducible apply tdiCleared_follows | (with_reducible refine ⟨_, rfl, ?_⟩)

theorem execDirtyBitmapUpdate_follows {b₀ s : State} (Hs : b₀.Follows s) (i : InstId) : ∃ u₁, (execDirtyBitmapUpdate i s) = .next u₁ ∧ b₀.Follows u₁ := by
  unfold execDirtyBitmapUpdate
  try dsimp only
  repeat' first
    | with_reducible assumption | with_reducible apply dirtyUpdate_follows | (with_reducible refine ⟨_, rfl, ?_⟩)

theorem execDlogCasComplete_follows {b₀ s : State} (Hs : b₀.Follows s) (i : InstId) (r : Fin 16) (n : Nat) (ok : Bool) (old : W64) : ∃ u₁, (execDlogCasComplete i r n ok old s) = .next u₁ ∧ b₀.Follows u₁ := by
  unfold execDlogCasComplete
  try dsimp only
  repeat' first
    | with_reducible assumption | with_reducible apply dlogComplete_follows | (with_reducible refine ⟨_, rfl, ?_⟩)

end Sys2Proof.Machine
end

