-- ==== Sys2Proof/Laws/FollowOptical.lean ====
section
/-!
SUPPORT. Every operation of Machine/Optical.lean gives a state that follows the one it is given.
-/
namespace Sys2Proof.Machine

theorem remoteRespond_follows {b₀ : State} {s : State} (Hs : b₀.Follows s) (h : RemHdr) (d : List Line) (op : BitVec 8) (status : Nat) (poison : Bool) (value : W64) : b₀.Follows (remoteRespond s h d op status poison value) := by
  unfold remoteRespond
  try dsimp only
  repeat' first
    | with_reducible assumption | with_reducible apply optLeave_follows

theorem inbAnswer_follows {b₀ : State} {s : State} (Hs : b₀.Follows s) (r : InbReq) : b₀.Follows (inbAnswer s r) := by
  unfold inbAnswer
  try dsimp only
  repeat' first
    | with_reducible assumption | with_reducible apply remoteRespond_follows | with_reducible apply aerLog_follows
    | with_reducible apply State.addWrap_follows | with_reducible apply State.out_follows | split

theorem inbSettle_follows {b₀ : State} {s : State} (Hs : b₀.Follows s) (r : InbReq) : b₀.Follows (inbSettle s r) := by
  unfold inbSettle
  try dsimp only
  repeat' first
    | with_reducible assumption | with_reducible apply inbAnswer_follows | split | with_reducible apply State.Follows.with

theorem inbData_follows {b₀ : State} {s : State} (Hs : b₀.Follows s) (ep : Ep) (l : LineNo) (ld : LineData) : b₀.Follows (inbData s ep l ld) := by
  unfold inbData
  try dsimp only
  repeat' first
    | with_reducible assumption | with_reducible apply inbSettle_follows | split

theorem inbDone_follows {b₀ : State} {s : State} (Hs : b₀.Follows s) (ep : Ep) (l : LineNo) (status : BitVec 4) (old : W64) (poison : Bool) : b₀.Follows (inbDone s ep l status old poison) := by
  unfold inbDone
  try dsimp only
  repeat' first
    | with_reducible assumption | with_reducible apply inbSettle_follows | split

theorem inbOpen_follows {b₀ : State} {s : State} (Hs : b₀.Follows s) (ep : Ep) (op : BitVec 8) (h : RemHdr) (addr : Nat) (len : Nat) (lines : List Nat) : b₀.Follows (inbOpen s ep op h addr len lines) := by
  unfold inbOpen
  try dsimp only
  repeat' first
    | with_reducible assumption | with_reducible apply State.Follows.with

theorem remoteScratch_follows {b₀ : State} {s : State} (Hs : b₀.Follows s) (op : Nat) (h : RemHdr) (a : Nat) (mask : Option (BitVec 128)) (d : List Line) (n : Nat) : b₀.Follows (remoteScratch s op h a mask d n) := by
  unfold remoteScratch
  try dsimp only
  repeat' first
    | with_reducible assumption | with_reducible apply scratchRead_follows | with_reducible apply remoteRespond_follows
    | (with_reducible refine forEach_follows _ _ ?_ (fun _ _ _ => ?_)) | with_reducible apply scratchWrite_follows
    | (with_reducible refine foldl_fst_follows _ (fun _ _ _ => ?_) _ ?_) | split

theorem remoteIn_follows {b₀ : State} {s : State} (Hs : b₀.Follows s) (o : Nat) (op : BitVec 8) (h : RemHdr) (mask : Option (BitVec 128)) (d : List Line) (cmp : W64) : b₀.Follows (remoteIn s o op h mask d cmp) := by
  unfold remoteIn
  try dsimp only
  repeat' first
    | with_reducible assumption | with_reducible apply forward_follows | with_reducible apply remoteRespond_follows
    | with_reducible apply remoteScratch_follows | (with_reducible refine forEach_follows _ _ ?_ (fun _ _ _ => ?_))
    | with_reducible apply inbOpen_follows | with_reducible apply State.addWrap_follows | with_reducible apply State.send_follows | split

theorem storeEnd_follows {b₀ : State} {s : State} (Hs : b₀.Follows s) (c : Nat) (id : Nat) (counted : Bool) (bad : Option W64) : b₀.Follows (storeEnd s c id counted bad) := by
  unfold storeEnd
  try dsimp only
  repeat' first
    | with_reducible assumption | with_reducible apply addrErr_follows | with_reducible apply State.modCore_follows | split

theorem remoteLost_follows {b₀ : State} {s : State} (Hs : b₀.Follows s) (c : Nat) (r : RemReq) : b₀.Follows (remoteLost s c r) := by
  unfold remoteLost
  try dsimp only
  repeat' first
    | with_reducible assumption | with_reducible apply loadDead_follows | with_reducible apply storeEnd_follows
    | with_reducible apply writeFailed_follows | with_reducible apply moverRemote_follows | with_reducible apply sourceLost_follows
    | with_reducible apply State.setFlag_follows | with_reducible apply State.addWrap_follows | with_reducible apply State.modCore_follows | split

theorem remoteRefused_follows {b₀ : State} {s : State} (Hs : b₀.Follows s) (c : Nat) (r : RemReq) (mpa : Nat) : b₀.Follows (remoteRefused s c r mpa) := by
  unfold remoteRefused
  try dsimp only
  repeat' first
    | with_reducible assumption | with_reducible apply loadRefused_follows | with_reducible apply storeEnd_follows
    | with_reducible apply addrErr_follows | with_reducible apply moverRemote_follows | with_reducible apply moverData_follows
    | with_reducible apply tagAddrErr_follows | with_reducible apply State.modCore_follows | split

theorem remoteServed_follows {b₀ : State} {s : State} (Hs : b₀.Follows s) (c : Nat) (r : RemReq) (d : Option Line) (poison : Bool) (v : W64) : b₀.Follows (remoteServed s c r d poison v) := by
  unfold remoteServed
  try dsimp only
  repeat' first
    | with_reducible assumption | with_reducible apply loadPart_follows | with_reducible apply seqPoison_follows
    | with_reducible apply moverRemote_follows | with_reducible apply moverData_follows | with_reducible apply storeEnd_follows
    | with_reducible apply State.modCore_follows | split

theorem ledgerRefused_follows {b₀ : State} {s : State} (Hs : b₀.Follows s) (e : Ledger) (mpa : Nat) : b₀.Follows (ledgerRefused s e mpa) := by
  unfold ledgerRefused
  try dsimp only
  repeat' first
    | with_reducible assumption | with_reducible apply addrErr_follows | with_reducible apply putNum_follows | split

theorem ledgerLost_follows {b₀ : State} {s : State} (Hs : b₀.Follows s) (e : Ledger) : b₀.Follows (ledgerLost s e) := by
  unfold ledgerLost
  try dsimp only
  repeat' first
    | with_reducible assumption | with_reducible apply resolveCar_follows | split

theorem ledgerAnswer_follows {b₀ : State} {s : State} (Hs : b₀.Follows s) (e : Ledger) (status : Nat) (h : RemHdr) : b₀.Follows (ledgerAnswer s e status h) := by
  unfold ledgerAnswer
  try dsimp only
  repeat' first
    | with_reducible assumption | with_reducible apply ledgerLost_follows | with_reducible apply ledgerRefused_follows
    | with_reducible apply ledgerDeliver_follows | with_reducible apply seqPoison_follows | split | with_reducible apply State.Follows.with

theorem remoteAnswer_follows {b₀ : State} {s : State} (Hs : b₀.Follows s) (o : Nat) (op : BitVec 8) (h : RemHdr) (d : List Line) (status : Nat) : b₀.Follows (remoteAnswer s o op h d status) := by
  unfold remoteAnswer
  try dsimp only
  repeat' first
    | with_reducible assumption | with_reducible apply forward_follows | with_reducible apply remoteLost_follows
    | with_reducible apply remoteRefused_follows | with_reducible apply remoteServed_follows | with_reducible apply ledgerAnswer_follows
    | with_reducible apply State.modCore_follows | split

theorem routeRelease_follows {b₀ : State} {s : State} (Hs : b₀.Follows s) : b₀.Follows (routeRelease s) := by
  unfold routeRelease
  try dsimp only
  repeat' first
    | with_reducible assumption | with_reducible apply State.Follows.with

theorem coreLoses_follows {b₀ : State} {s : State} (Hs : b₀.Follows s) (c : Nat) : b₀.Follows (coreLoses s c) := by
  unfold coreLoses
  try dsimp only
  repeat' first
    | with_reducible assumption | (with_reducible refine forEach_follows _ _ ?_ (fun _ _ _ => ?_)) | with_reducible apply remoteLost_follows
    | with_reducible apply State.modCore_follows

theorem lossNotice_follows {b₀ : State} {s : State} (Hs : b₀.Follows s) (n : LossNotice) : b₀.Follows (lossNotice s n) := by
  unfold lossNotice
  try dsimp only
  repeat' first
    | with_reducible assumption | with_reducible apply noticeEpoch_follows | (with_reducible refine forEach_follows _ _ ?_ (fun _ _ _ => ?_))
    | with_reducible apply coreLoses_follows | with_reducible apply routeRelease_follows | with_reducible apply abortsGo_follows
    | with_reducible apply ledgerLost_follows | with_reducible apply State.Follows.with

theorem partnerLost_follows {b₀ : State} {s : State} (Hs : b₀.Follows s) (o : Nat) (cause : Nat) : b₀.Follows (partnerLost s o cause) := by
  unfold partnerLost
  try dsimp only
  repeat' first
    | with_reducible assumption | with_reducible apply portLost_follows | with_reducible apply lossNotice_follows
    | with_reducible apply sendLoss_follows | split

theorem lossIn_follows {b₀ : State} {s : State} (Hs : b₀.Follows s) (o : Nat) (n : LossNotice) : b₀.Follows (lossIn s o n) := by
  unfold lossIn
  try dsimp only
  repeat' first
    | with_reducible assumption | with_reducible apply lossNotice_follows | with_reducible apply sendLoss_follows | split

theorem execOptFlitReceive_follows {b₀ s : State} (Hs : b₀.Follows s) (o : OptId) (sent : BitVec 2048) (err : BitVec 2048) (fecOk : Bool) (fixed : Nat) : ∃ u₁, (execOptFlitReceive o sent err fecOk fixed s) = .next u₁ ∧ b₀.Follows u₁ := by
  unfold execOptFlitReceive
  try dsimp only
  repeat' first
    | with_reducible assumption | with_reducible apply optFlit_follows | (with_reducible refine ⟨_, rfl, ?_⟩)

theorem execOptNak_follows {b₀ s : State} (Hs : b₀.Follows s) (o : OptId) (seq : BitVec 16) : ∃ u₁, (execOptNak o seq s) = .next u₁ ∧ b₀.Follows u₁ := by
  unfold execOptNak
  try dsimp only
  repeat' first
    | with_reducible assumption | with_reducible apply optReplayFlits_follows | with_reducible apply partnerLost_follows
    | (with_reducible refine ⟨_, rfl, ?_⟩) | split

theorem execOptAckTimer_follows {b₀ s : State} (Hs : b₀.Follows s) (o : OptId) : ∃ u₁, (execOptAckTimer o s) = .next u₁ ∧ b₀.Follows u₁ := by
  unfold execOptAckTimer
  try dsimp only
  repeat' first
    | with_reducible assumption | with_reducible apply optAckDue_follows | (with_reducible refine ⟨_, rfl, ?_⟩)

theorem execHeartbeat_follows {b₀ s : State} (Hs : b₀.Follows s) (o : OptId) (id : BitVec 12) (port : BitVec 4) : ∃ u₁, (execHeartbeat o id port s) = .next u₁ ∧ b₀.Follows u₁ := by
  unfold execHeartbeat
  try dsimp only
  repeat' first
    | with_reducible assumption | with_reducible apply heartbeatIn_follows | (with_reducible refine ⟨_, rfl, ?_⟩)

theorem execHeartbeatSend_follows {b₀ s : State} (Hs : b₀.Follows s) (o : OptId) : ∃ u₁, (execHeartbeatSend o s) = .next u₁ ∧ b₀.Follows u₁ := by
  unfold execHeartbeatSend
  try dsimp only
  repeat' first
    | with_reducible assumption | with_reducible apply heartbeatOut_follows | (with_reducible refine ⟨_, rfl, ?_⟩)

theorem execHeartbeatTimeout_follows {b₀ s : State} (Hs : b₀.Follows s) (o : OptId) : ∃ u₁, (execHeartbeatTimeout o s) = .next u₁ ∧ b₀.Follows u₁ := by
  unfold execHeartbeatTimeout
  try dsimp only
  repeat' first
    | with_reducible assumption | with_reducible apply partnerLost_follows | (with_reducible refine ⟨_, rfl, ?_⟩)

theorem execOptLossOfSignal_follows {b₀ s : State} (Hs : b₀.Follows s) (o : OptId) (lane : Fin 8) : ∃ u₁, (execOptLossOfSignal o lane s) = .next u₁ ∧ b₀.Follows u₁ := by
  unfold execOptLossOfSignal
  try dsimp only
  repeat' first
    | with_reducible assumption | with_reducible apply partnerLost_follows | (with_reducible refine ⟨_, rfl, ?_⟩) | split

theorem execLoss_follows {b₀ s : State} (Hs : b₀.Follows s) (o : OptId) (n : LossNotice) : ∃ u₁, (execLoss o n s) = .next u₁ ∧ b₀.Follows u₁ := by
  unfold execLoss
  try dsimp only
  repeat' first
    | with_reducible assumption | with_reducible apply lossIn_follows | (with_reducible refine ⟨_, rfl, ?_⟩)

theorem execOptPortTraining_follows {b₀ s : State} (Hs : b₀.Follows s) (o : OptId) (lanes : BitVec 8) (peer : Version) (id : BitVec 12) (port : BitVec 4) : ∃ u₁, (execOptPortTraining o lanes peer id port s) = .next u₁ ∧ b₀.Follows u₁ := by
  unfold execOptPortTraining
  try dsimp only
  repeat' first
    | with_reducible assumption | with_reducible apply optTrain_follows | (with_reducible refine ⟨_, rfl, ?_⟩) | split

theorem execRd_follows {b₀ s : State} (Hs : b₀.Follows s) (o : OptId) (h : RemHdr) : ∃ u₁, (execRd o h s) = .next u₁ ∧ b₀.Follows u₁ := by
  unfold execRd
  try dsimp only
  repeat' first
    | with_reducible assumption | with_reducible apply remoteIn_follows | (with_reducible refine ⟨_, rfl, ?_⟩)

theorem execWr_follows {b₀ s : State} (Hs : b₀.Follows s) (o : OptId) (h : RemHdr) (mask : Option (BitVec 128)) (d : List Line) : ∃ u₁, (execWr o h mask d s) = .next u₁ ∧ b₀.Follows u₁ := by
  unfold execWr
  try dsimp only
  repeat' first
    | with_reducible assumption | with_reducible apply remoteIn_follows | (with_reducible refine ⟨_, rfl, ?_⟩)

theorem execWrs_follows {b₀ s : State} (Hs : b₀.Follows s) (o : OptId) (h : RemHdr) (mask : Option (BitVec 128)) (d : List Line) : ∃ u₁, (execWrs o h mask d s) = .next u₁ ∧ b₀.Follows u₁ := by
  unfold execWrs
  try dsimp only
  repeat' first
    | with_reducible assumption | with_reducible apply remoteIn_follows | (with_reducible refine ⟨_, rfl, ?_⟩)

theorem execRemoteAmo_follows {b₀ s : State} (Hs : b₀.Follows s) (o : OptId) (h : RemHdr) (cmp : W64) : ∃ u₁, (execRemoteAmo o h cmp s) = .next u₁ ∧ b₀.Follows u₁ := by
  unfold execRemoteAmo
  try dsimp only
  repeat' first
    | with_reducible assumption | with_reducible apply remoteIn_follows | (with_reducible refine ⟨_, rfl, ?_⟩)

theorem execRemoteRadd_follows {b₀ s : State} (Hs : b₀.Follows s) (o : OptId) (h : RemHdr) (d : Line) : ∃ u₁, (execRemoteRadd o h d s) = .next u₁ ∧ b₀.Follows u₁ := by
  unfold execRemoteRadd
  try dsimp only
  repeat' first
    | with_reducible assumption | with_reducible apply remoteIn_follows | (with_reducible refine ⟨_, rfl, ?_⟩)

theorem execRdData_follows {b₀ s : State} (Hs : b₀.Follows s) (o : OptId) (h : RemHdr) (d : List Line) : ∃ u₁, (execRdData o h d s) = .next u₁ ∧ b₀.Follows u₁ := by
  unfold execRdData
  try dsimp only
  repeat' first
    | with_reducible assumption | with_reducible apply routeRelease_follows | with_reducible apply remoteAnswer_follows
    | (with_reducible refine ⟨_, rfl, ?_⟩)

theorem execRemoteDone_follows {b₀ s : State} (Hs : b₀.Follows s) (o : OptId) (h : RemHdr) (status : BitVec 4) : ∃ u₁, (execRemoteDone o h status s) = .next u₁ ∧ b₀.Follows u₁ := by
  unfold execRemoteDone
  try dsimp only
  repeat' first
    | with_reducible assumption | with_reducible apply routeRelease_follows | with_reducible apply remoteAnswer_follows
    | (with_reducible refine ⟨_, rfl, ?_⟩)

end Sys2Proof.Machine
end

