-- ==== Sys2Proof/Laws/FollowCeral.lean ====
section
/-!
SUPPORT. Every operation of Machine/Ceral.lean gives a state that follows the one it is given.
-/
namespace Sys2Proof.Machine

theorem ioDieDown_follows {b₀ : State} {s : State} (Hs : b₀.Follows s) (d : Nat) : b₀.Follows (ioDieDown s d) := by
  unfold ioDieDown
  try dsimp only
  repeat' first
    | with_reducible assumption | (with_reducible refine forEach_follows _ _ ?_ (fun _ _ _ => ?_)) | with_reducible apply portDown_follows
    | with_reducible apply partnerLost_follows

theorem isolateDie_follows {b₀ : State} {s : State} (Hs : b₀.Follows s) (d : Nat) : b₀.Follows (isolateDie s d) := by
  unfold isolateDie
  try dsimp only
  repeat' first
    | with_reducible assumption | with_reducible apply errRecord_follows | (with_reducible refine forEach_follows _ _ ?_ (fun _ _ _ => ?_))
    | with_reducible apply quiesceCheck_follows | with_reducible apply containPart_follows | with_reducible apply ioDieDown_follows | split
    | with_reducible apply State.Follows.with

theorem isolateCheck_follows {b₀ : State} {s : State} (Hs : b₀.Follows s) : b₀.Follows (isolateCheck s) := by
  unfold isolateCheck
  try dsimp only
  repeat' first
    | with_reducible assumption | with_reducible apply abortsGo_follows | (with_reducible refine forEach_follows _ _ ?_ (fun _ _ _ => ?_))
    | with_reducible apply isolateDie_follows | split

theorem dieReadyCheck_follows {b₀ : State} {s : State} (Hs : b₀.Follows s) (d : Nat) : b₀.Follows (dieReadyCheck s d) := by
  unfold dieReadyCheck
  try dsimp only
  repeat' first
    | with_reducible assumption | with_reducible apply State.put_follows | split

theorem linkBegins_follows {b₀ : State} {s : State} (Hs : b₀.Follows s) (i : Nat) (l : Nat) : b₀.Follows (linkBegins s i l) := by
  unfold linkBegins
  try dsimp only
  repeat' first
    | with_reducible assumption | with_reducible apply State.put_follows | split

theorem linksBegin_follows {b₀ : State} {s : State} (Hs : b₀.Follows s) : b₀.Follows (linksBegin s) := by
  unfold linksBegin
  try dsimp only
  repeat' first
    | with_reducible assumption | (with_reducible refine forEach_follows _ _ ?_ (fun _ _ _ => ?_)) | with_reducible apply linkBegins_follows

theorem readyCheck_follows {b₀ : State} {s : State} (Hs : b₀.Follows s) : b₀.Follows (readyCheck s) := by
  unfold readyCheck
  try dsimp only
  repeat' first
    | with_reducible assumption | (with_reducible refine forEach_follows _ _ ?_ (fun _ _ _ => ?_)) | with_reducible apply linksBegin_follows
    | with_reducible apply dieReadyCheck_follows

theorem execCrlFlitReceive_follows {b₀ s : State} (Hs : b₀.Follows s) (die : DieIx) (link : Fin 3) (bun : Fin 64) (sent : BitVec 1536) (err : BitVec 1536) : ∃ u₁, (execCrlFlitReceive die link bun sent err s) = .next u₁ ∧ b₀.Follows u₁ := by
  unfold execCrlFlitReceive
  try dsimp only
  repeat' first
    | with_reducible assumption | with_reducible apply flitReceive_follows | (with_reducible refine ⟨_, rfl, ?_⟩)

theorem execCrlNak_follows {b₀ s : State} (Hs : b₀.Follows s) (die : DieIx) (link : Fin 3) (bun : Fin 64) (seq : BitVec 12) : ∃ u₁, (execCrlNak die link bun seq s) = .next u₁ ∧ b₀.Follows u₁ := by
  unfold execCrlNak
  try dsimp only
  repeat' first
    | with_reducible assumption | with_reducible apply isolateCheck_follows | with_reducible apply nakReceive_follows
    | (with_reducible refine ⟨_, rfl, ?_⟩)

theorem execCrlAckTimer_follows {b₀ s : State} (Hs : b₀.Follows s) (die : DieIx) (link : Fin 3) (bun : Fin 64) : ∃ u₁, (execCrlAckTimer die link bun s) = .next u₁ ∧ b₀.Follows u₁ := by
  unfold execCrlAckTimer
  try dsimp only
  repeat' first
    | with_reducible assumption | with_reducible apply ackTimer_follows | (with_reducible refine ⟨_, rfl, ?_⟩)

theorem execCrlWindowEnd_follows {b₀ s : State} (Hs : b₀.Follows s) (die : DieIx) (link : Fin 3) : ∃ u₁, (execCrlWindowEnd die link s) = .next u₁ ∧ b₀.Follows u₁ := by
  unfold execCrlWindowEnd
  try dsimp only
  repeat' first
    | with_reducible assumption | (with_reducible refine forEach_follows _ _ ?_ (fun _ _ _ => ?_)) | with_reducible apply windowEnd_follows
    | (with_reducible refine ⟨_, rfl, ?_⟩)

theorem execBundleQuiesceComplete_follows {b₀ s : State} (Hs : b₀.Follows s) (die : DieIx) (link : Fin 3) (bun : Fin 64) : ∃ u₁, (execBundleQuiesceComplete die link bun s) = .next u₁ ∧ b₀.Follows u₁ := by
  unfold execBundleQuiesceComplete
  try dsimp only
  repeat' first
    | with_reducible assumption | with_reducible apply isolateCheck_follows | with_reducible apply quiesceComplete_follows
    | (with_reducible refine ⟨_, rfl, ?_⟩)

theorem execCrlLinkTraining_follows {b₀ s : State} (Hs : b₀.Follows s) (die : DieIx) (link : Fin 3) (tests : List LaneTest) (peer : Version) : ∃ u₁, (execCrlLinkTraining die link tests peer s) = .next u₁ ∧ b₀.Follows u₁ := by
  unfold execCrlLinkTraining
  try dsimp only
  repeat' first
    | with_reducible assumption | with_reducible apply isolateCheck_follows | with_reducible apply readyCheck_follows
    | with_reducible apply linkTrain_follows | (with_reducible refine ⟨_, rfl, ?_⟩) | split

end Sys2Proof.Machine
end

