-- ==== Sys2Proof/Laws/FollowTick.lean ====
section
/-!
SUPPORT. Every operation of Machine/Tick.lean gives a state that follows the one it is given.
-/
namespace Sys2Proof.Machine

theorem routesTake_follows {b₀ : State} {s : State} (Hs : b₀.Follows s) : b₀.Follows (routesTake s) := by
  unfold routesTake
  try dsimp only
  repeat' first
    | with_reducible assumption | (with_reducible refine forEach_follows _ _ ?_ (fun _ _ _ => ?_)) | with_reducible apply routeRelease_follows
    | with_reducible apply State.setReg_follows | with_reducible apply State.Follows.with

theorem heldTick_follows {b₀ : State} {s : State} (Hs : b₀.Follows s) : b₀.Follows (heldTick s) := by
  unfold heldTick
  try dsimp only
  repeat' first
    | with_reducible assumption | (with_reducible refine forEach_follows _ _ ?_ (fun _ _ _ => ?_)) | with_reducible apply partRelease_follows
    | split | with_reducible apply State.Follows.with

theorem frameTick_follows {b₀ : State} {s : State} (Hs : b₀.Follows s) (now : Nat) : b₀.Follows (frameTick s now) := by
  unfold frameTick
  try dsimp only
  repeat' first
    | with_reducible assumption | with_reducible apply heldTick_follows | with_reducible apply abortsGo_follows
    | with_reducible apply isolateCheck_follows | with_reducible apply idleTick_follows | with_reducible apply routesTake_follows
    | with_reducible apply ceralTick_follows | with_reducible apply schedTick_follows | split

theorem execFrameTick_follows {b₀ s : State} (Hs : b₀.Follows s) (now : Nat) : ∃ u₁, (execFrameTick now s) = .next u₁ ∧ b₀.Follows u₁ := by
  unfold execFrameTick
  try dsimp only
  repeat' first
    | with_reducible assumption | with_reducible apply frameTick_follows | with_reducible apply State.at_follows
    | (with_reducible refine ⟨_, rfl, ?_⟩)

end Sys2Proof.Machine
end

