-- ==== Sys2Proof/Laws/FollowDrain.lean ====
section
/-!
SUPPORT. Every operation of Machine/Drain.lean gives a state that follows the one it is given.
-/
namespace Sys2Proof.Machine

theorem buffersOut_follows {b₀ : State} {s : State} (Hs : b₀.Follows s) (g : Nat) : b₀.Follows (buffersOut s g) := by
  unfold buffersOut
  try dsimp only
  repeat' first
    | with_reducible assumption | (with_reducible refine forEach_follows _ _ ?_ (fun _ _ _ => ?_)) | with_reducible apply State.setVbuf_follows
    | with_reducible apply State.setRbuf_follows | with_reducible apply memWrite_follows

theorem drainHome_follows {b₀ : State} {s : State} (Hs : b₀.Follows s) (k : Nat) : b₀.Follows (drainHome s k) := by
  unfold drainHome
  try dsimp only
  repeat' first
    | with_reducible assumption | with_reducible apply wayDecode_follows | with_reducible apply purge_follows
    | with_reducible apply State.setWayAt_follows | with_reducible apply memWrite_follows | split

theorem drainReplica_follows {b₀ : State} {s : State} (Hs : b₀.Follows s) (g : Nat) (k : Nat) : b₀.Follows (drainReplica s g k) := by
  unfold drainReplica
  try dsimp only
  repeat' first
    | with_reducible assumption | (with_reducible refine forEach_follows _ _ ?_ (fun _ _ _ => ?_)) | with_reducible apply l1Inv_follows
    | with_reducible apply homeRepDrop_follows | with_reducible apply State.setWayAt_follows | split

theorem drainWay_follows {b₀ : State} {s : State} (Hs : b₀.Follows s) (g : Nat) (k : Nat) : b₀.Follows (drainWay s g k) := by
  unfold drainWay
  try dsimp only
  repeat' first
    | with_reducible assumption | with_reducible apply drainHome_follows | with_reducible apply drainReplica_follows | split

theorem drainShadow_follows {b₀ : State} {s : State} (Hs : b₀.Follows s) (k : Nat) : b₀.Follows (drainShadow s k) := by
  unfold drainShadow
  try dsimp only
  repeat' first
    | with_reducible assumption | with_reducible apply purge_follows | with_reducible apply State.setShadowAt_follows
    | with_reducible apply memWrite_follows | split

theorem drainSlice_follows {b₀ : State} {s : State} (Hs : b₀.Follows s) (g : Nat) : b₀.Follows (drainSlice s g) := by
  unfold drainSlice
  try dsimp only
  repeat' first
    | with_reducible assumption | (with_reducible refine forEach_follows _ _ ?_ (fun _ _ _ => ?_)) | with_reducible apply drainWay_follows
    | with_reducible apply drainShadow_follows | with_reducible apply buffersOut_follows | with_reducible apply State.put_follows
    | with_reducible apply State.Follows.with

theorem replicaWays_follows {b₀ : State} {s : State} (Hs : b₀.Follows s) (g : Nat) (v : Nat) : b₀.Follows (replicaWays s g v) := by
  unfold replicaWays
  try dsimp only
  repeat' first
    | with_reducible assumption | (with_reducible refine forEach_follows _ _ ?_ (fun _ _ _ => ?_)) | with_reducible apply drainReplica_follows
    | with_reducible apply drainHome_follows | with_reducible apply State.count_follows | with_reducible apply State.put_follows
    | with_reducible apply State.setFlag_follows | split

theorem mapDirs_follows {b₀ : State} {s : State} (Hs : b₀.Follows s) (f : Dir → Dir) : b₀.Follows (mapDirs s f) := by
  unfold mapDirs
  try dsimp only
  repeat' first
    | with_reducible assumption | with_reducible apply State.Follows.with

theorem settleOffers_follows {b₀ : State} {s : State} (Hs : b₀.Follows s) (c : Nat) : b₀.Follows (settleOffers s c) := by
  unfold settleOffers
  try dsimp only
  repeat' first
    | with_reducible assumption | (with_reducible refine forEach_follows _ _ ?_ (fun _ _ _ => ?_)) | with_reducible apply victim_follows
    | with_reducible apply cleanData_follows | with_reducible apply State.recv_follows | split

theorem coreOut_follows {b₀ : State} {s : State} (Hs : b₀.Follows s) (c : Nat) : b₀.Follows (coreOut s c) := by
  unfold coreOut
  try dsimp only
  repeat' first
    | with_reducible assumption | with_reducible apply settleOffers_follows | (with_reducible refine forEach_follows _ _ ?_ (fun _ _ _ => ?_))
    | with_reducible apply placeData_follows | with_reducible apply keptMiss_follows | with_reducible apply mapDirs_follows
    | with_reducible apply icFlush_follows | with_reducible apply State.modCore_follows | split

theorem coresOut_follows {b₀ : State} {s : State} (Hs : b₀.Follows s) (cs : List Nat) : b₀.Follows (coresOut s cs) := by
  unfold coresOut
  try dsimp only
  repeat' first
    | with_reducible assumption | (with_reducible refine forEach_follows _ _ ?_ (fun _ _ _ => ?_)) | with_reducible apply coreOut_follows

theorem setRefresh_follows {b₀ : State} {s : State} (Hs : b₀.Follows s) (dies : List Nat) (on : Bool) : b₀.Follows (setRefresh s dies on) := by
  unfold setRefresh
  try dsimp only
  repeat' first
    | with_reducible assumption | (with_reducible refine forEach_follows _ _ ?_ (fun _ _ _ => ?_)) | with_reducible apply State.setFlag_follows

theorem setSpares_follows {b₀ : State} {s : State} (Hs : b₀.Follows s) (c : Nat) (v : BitVec 16) : b₀.Follows (setSpares s c v) := by
  unfold setSpares
  try dsimp only
  repeat' first
    | with_reducible assumption | with_reducible apply State.put_follows

theorem chanTrained_follows {b₀ : State} {s : State} (Hs : b₀.Follows s) (c : Nat) (v : BitVec 16) : b₀.Follows (chanTrained s c v) := by
  unfold chanTrained
  try dsimp only
  repeat' first
    | with_reducible assumption | with_reducible apply setChan_follows | with_reducible apply setSpares_follows
    | with_reducible apply State.Follows.with

theorem chanRetrain_follows {b₀ : State} {s : State} (Hs : b₀.Follows s) (lanes : List (Nat × Nat)) (c : Nat) : b₀.Follows (chanRetrain s lanes c) := by
  unfold chanRetrain
  try dsimp only
  repeat' first
    | with_reducible assumption | with_reducible apply chanDead_follows | with_reducible apply chanTrained_follows
    | with_reducible apply chanFailed_follows | split

end Sys2Proof.Machine
end

