-- ==== Sys2Proof/Laws/FollowImageApply.lean ====
section
/-!
SUPPORT. Every operation of Machine/ImageApply.lean gives a state that follows the one it is given.
-/
namespace Sys2Proof.Machine

theorem imgEnd_follows {b₀ : State} {s : State} (Hs : b₀.Follows s) (r : ImgResult) : b₀.Follows (imgEnd s r) := by
  unfold imgEnd
  try dsimp only
  repeat' first
    | with_reducible assumption | with_reducible apply attestResume_follows | with_reducible apply endTurn_follows
    | with_reducible apply State.put_follows | with_reducible apply State.setFlag_follows | with_reducible apply State.Follows.with

theorem applyRow_follows {b₀ : State} {s : State} (Hs : b₀.Follows s) (j : Nat) (r : Nat) : b₀.Follows (applyRow s j r) := by
  unfold applyRow
  try dsimp only
  repeat' first
    | with_reducible assumption | (with_reducible refine forEach_follows _ _ ?_ (fun _ _ _ => ?_)) | with_reducible apply State.setFlag_follows

theorem applyHalf_follows {b₀ : State} {s : State} (Hs : b₀.Follows s) (h : Nat) (gated : Bool) (ceil : Nat) : b₀.Follows (applyHalf s h gated ceil) := by
  unfold applyHalf
  try dsimp only
  repeat' first
    | with_reducible assumption | with_reducible apply seamClocks_follows | with_reducible apply State.put_follows
    | with_reducible apply State.setFlag_follows | split | with_reducible apply State.Follows.with

theorem applyRetire_follows {b₀ : State} {s : State} (Hs : b₀.Follows s) (n : Nat) (v : Nat) : b₀.Follows (applyRetire s n v) := by
  unfold applyRetire
  try dsimp only
  repeat' first
    | with_reducible assumption | with_reducible apply drainSlice_follows | (with_reducible refine forEach_follows _ _ ?_ (fun _ _ _ => ?_))
    | with_reducible apply State.put_follows | with_reducible apply State.setFlag_follows | split

theorem applySlices_follows {b₀ : State} {s : State} (Hs : b₀.Follows s) (t : List Byte) (gs : List Nat) : b₀.Follows (applySlices s t gs) := by
  unfold applySlices
  try dsimp only
  repeat' first
    | with_reducible assumption | (with_reducible refine forEach_follows _ _ ?_ (fun _ _ _ => ?_)) | with_reducible apply State.setFlag_follows

theorem applyTopology_follows {b₀ : State} {s : State} (Hs : b₀.Follows s) (t : List Byte) : b₀.Follows (applyTopology s t) := by
  unfold applyTopology
  try dsimp only
  repeat' first
    | with_reducible assumption | (with_reducible refine forEach_follows _ _ ?_ (fun _ _ _ => ?_)) | with_reducible apply applyRow_follows
    | with_reducible apply applyRetire_follows | with_reducible apply applyHalf_follows | with_reducible apply applySlices_follows
    | with_reducible apply State.Follows.with

theorem linesCheck_follows {b₀ : State} {s : State} (Hs : b₀.Follows s) (d : Nat) : b₀.Follows (linesCheck s d) := by
  unfold linesCheck
  try dsimp only
  repeat' first
    | with_reducible assumption | (with_reducible refine forEach_follows _ _ ?_ (fun _ _ _ => ?_)) | with_reducible apply chanFailed_follows | split

theorem applyCe_follows {b₀ : State} {s : State} (Hs : b₀.Follows s) (d : Nat) (v : Nat) : b₀.Follows (applyCe s d v) := by
  unfold applyCe
  try dsimp only
  repeat' first
    | with_reducible assumption | with_reducible apply linesCheck_follows | with_reducible apply State.put_follows | split
    | with_reducible apply State.Follows.with

theorem applyDie_follows {b₀ : State} {s : State} (Hs : b₀.Follows s) (b : List Byte) (i : Nat) : b₀.Follows (applyDie s b i) := by
  unfold applyDie
  try dsimp only
  repeat' first
    | with_reducible assumption | with_reducible apply State.setFields_follows | (with_reducible refine forEach_follows _ _ ?_ (fun _ _ _ => ?_))
    | with_reducible apply replicaWays_follows | with_reducible apply applyCe_follows | with_reducible apply State.put_follows
    | with_reducible apply State.setFlag_follows | split

theorem applyModuleDie_follows {b₀ : State} {s : State} (Hs : b₀.Follows s) (m : List Byte) (i : Nat) : b₀.Follows (applyModuleDie s m i) := by
  unfold applyModuleDie
  try dsimp only
  repeat' first
    | with_reducible assumption | with_reducible apply State.put_follows | split

theorem applyModule_follows {b₀ : State} {s : State} (Hs : b₀.Follows s) (m : List Byte) : b₀.Follows (applyModule s m) := by
  unfold applyModule
  try dsimp only
  repeat' first
    | with_reducible assumption | (with_reducible refine forEach_follows _ _ ?_ (fun _ _ _ => ?_)) | with_reducible apply applyModuleDie_follows
    | with_reducible apply State.put_follows | with_reducible apply State.setFlag_follows

theorem applyRouting_follows {b₀ : State} {s : State} (Hs : b₀.Follows s) (b : List Byte) : b₀.Follows (applyRouting s b) := by
  unfold applyRouting
  try dsimp only
  repeat' first
    | with_reducible assumption | (with_reducible refine forEach_follows _ _ ?_ (fun _ _ _ => ?_)) | with_reducible apply State.setFields_follows

theorem applyPolicy_follows {b₀ : State} {s : State} (Hs : b₀.Follows s) (b : List Byte) : b₀.Follows (applyPolicy s b) := by
  unfold applyPolicy
  try dsimp only
  repeat' first
    | with_reducible assumption | with_reducible apply State.Follows.with

theorem applyMasks_follows {b₀ : State} {s : State} (Hs : b₀.Follows s) (d : Nat) (p : Nat) (b : List Byte) : b₀.Follows (applyMasks s d p b) := by
  unfold applyMasks
  try dsimp only
  repeat' first
    | with_reducible assumption | with_reducible apply State.put_follows

theorem applyDesc_follows {b₀ : State} {s : State} (Hs : b₀.Follows s) (p : Nat) (b : List Byte) : b₀.Follows (applyDesc s p b) := by
  unfold applyDesc
  try dsimp only
  repeat' first
    | with_reducible assumption | (with_reducible refine forEach_follows _ _ ?_ (fun _ _ _ => ?_)) | with_reducible apply State.setReg_follows
    | with_reducible apply State.put_follows | with_reducible apply State.setFlag_follows

theorem applyGib_follows {b₀ : State} {s : State} (Hs : b₀.Follows s) (p : Nat) (r : Nat) (g : Nat) : b₀.Follows (applyGib s p r g) := by
  unfold applyGib
  try dsimp only
  repeat' first
    | with_reducible assumption | with_reducible apply State.setGmap_follows

theorem clearGib_follows {b₀ : State} {s : State} (Hs : b₀.Follows s) (g : Nat) : b₀.Follows (clearGib s g) := by
  unfold clearGib
  try dsimp only
  repeat' first
    | with_reducible assumption | with_reducible apply State.setGmap_follows

theorem applyPart_follows {b₀ : State} {s : State} (Hs : b₀.Follows s) (p : Nat) (b : List Byte) : b₀.Follows (applyPart s p b) := by
  unfold applyPart
  try dsimp only
  repeat' first
    | with_reducible assumption | (with_reducible refine forEach_follows _ _ ?_ (fun _ _ _ => ?_)) | with_reducible apply applyDesc_follows
    | with_reducible apply clearGib_follows | with_reducible apply applyGib_follows | with_reducible apply applyMasks_follows
    | with_reducible apply prepareSlot_follows | with_reducible apply setPartState_follows | with_reducible apply State.modPart_follows
    | with_reducible apply State.Follows.with

theorem unpinPart_follows {b₀ : State} {s : State} (Hs : b₀.Follows s) (p : Nat) (keep : Nat → Bool) : b₀.Follows (unpinPart s p keep) := by
  unfold unpinPart
  try dsimp only
  repeat' first
    | with_reducible assumption | (with_reducible refine forEach_follows _ _ ?_ (fun _ _ _ => ?_)) | with_reducible apply pinCount_follows
    | with_reducible apply State.Follows.with

theorem applyPins_follows {b₀ : State} {p : Nat} {only : State → LineNo → Bool} {xs : List (Nat × Nat)} {s t : State} {ok : Bool}
    (e : applyPins s p only xs = some (t, ok)) (Hs : b₀.Follows s) : b₀.Follows t := by
  induction xs generalizing s with
  | nil => cases e; exact Hs
  | cons x xs ih =>
    unfold applyPins at e
    split at e
    · cases e
    · exact ih e (pinAll_follows (by assumption) Hs)
    · cases e; exact pinAll_follows (by assumption) Hs

theorem partFree_follows {b₀ : State} {s : State} (Hs : b₀.Follows s) (p : Nat) : b₀.Follows (partFree s p) := by
  unfold partFree
  try dsimp only
  repeat' first
    | with_reducible assumption | with_reducible apply coresOut_follows | with_reducible apply unpinPart_follows
    | (with_reducible refine forEach_follows _ _ ?_ (fun _ _ _ => ?_)) | with_reducible apply clearGib_follows
    | with_reducible apply State.modPart_follows | with_reducible apply State.setReg_follows | with_reducible apply State.setFlag_follows
    | with_reducible apply State.Follows.with

theorem partPin_follows {b₀ : State} {s : State} {p : Nat} {b : List Byte} {t : State} {ok : Bool} (e : partPin s p b = some (t, ok))
    (Hs : b₀.Follows s) : b₀.Follows t := by
  unfold partPin at e
  split at e
  · cases e
  · rename_i h; cases e; exact applyPins_follows h Hs
  · rename_i h; exact (Prod.mk.inj (Option.some.inj e)).1 ▸ partFree_follows (applyPins_follows h Hs) p

theorem pinParts_follows {b₀ : State} {ps : List (Nat × List Byte)} {s t : State} {bad r : Option Nat} (e : pinParts s bad ps = some (t, r))
    (Hs : b₀.Follows s) : b₀.Follows t := by
  induction ps generalizing s bad with
  | nil => cases e; exact Hs
  | cons x xs ih =>
    obtain ⟨p, b⟩ := x
    unfold pinParts at e
    split at e
    · cases e
    · exact ih e (partPin_follows (by assumption) Hs)
    · exact ih e (partPin_follows (by assumption) Hs)

theorem mapInfo_follows {b₀ : State} {s : State} (Hs : b₀.Follows s) : b₀.Follows (mapInfo s) := by
  unfold mapInfo
  try dsimp only
  repeat' first
    | with_reducible assumption | (with_reducible refine forEach_follows _ _ ?_ (fun _ _ _ => ?_)) | with_reducible apply State.put_follows

theorem applyImage_follows {b₀ : State} {s : State} {bs : List Byte} {t : State} {r : ImgResult} (e : applyImage s bs = some (t, r))
    (Hs : b₀.Follows s) : b₀.Follows t := by
  unfold applyImage at e
  extract_lets parts die m s1 s2 s3 s4 at e
  have h1 : b₀.Follows s1 := applyTopology_follows (settleCycles_follows Hs) _
  have h2 : b₀.Follows s2 := applyModule_follows (forEach_follows _ _ h1 (fun t i h => applyDie_follows h _ _)) _
  have h3 : b₀.Follows s3 := applyPolicy_follows (applyRouting_follows h2 _) _
  have h4 : b₀.Follows s4 := forEach_follows _ _ h3 (fun t x h => applyPart_follows h _ _)
  clear_value s1 s2 s3 s4
  split at e
  · cases e
  · rename_i s5 bad h
    dsimp only at e
    have h7 := fun a b => State.put_follows (State.put_follows (State.setFlag_follows (mapInfo_follows (pinParts_follows h h4))
      Reg.BOOT_READY0 Fld.BOOT_READY0_image true) Reg.BOOT_IMG_SERIAL Fld.BOOT_IMG_SERIAL_applied a) Reg.BOOT_IMG_SERIAL Fld.BOOT_IMG_SERIAL_floor b
    refine (Prod.mk.inj (Option.some.inj e)).1 ▸ State.Follows.flashes (h7 _ _) ?_
    exact Flash.Keeps.other _

theorem removePart_follows {b₀ : State} {s : State} (Hs : b₀.Follows s) (p : Nat) : b₀.Follows (removePart s p) := by
  unfold removePart
  try dsimp only
  repeat' first
    | with_reducible assumption | with_reducible apply mapInfo_follows | with_reducible apply partFree_follows
    | (with_reducible refine forEach_follows _ _ ?_ (fun _ _ _ => ?_)) | with_reducible apply partTdiError_follows
    | with_reducible apply instanceUnbind_follows

theorem replacePart_follows {b₀ : State} {s : State} {p : Nat} {b : List Byte} {t : State} {ok : Bool} (e : replacePart s p b = some (t, ok))
    (Hs : b₀.Follows s) : b₀.Follows t := by
  unfold replacePart at e
  extract_lets leaving s1 s2 s3 at e
  have h3 : b₀.Follows s3 := partTdiError_follows (applyPart_follows (coresOut_follows (unpinPart_follows Hs _ _) _) _ _) _
  clear_value s3
  split at e
  · cases e
  · rename_i h
    have h5 := mapInfo_follows (partPin_follows h h3)
    dsimp only at e
    split at e
    · exact (Prod.mk.inj (Option.some.inj e)).1 ▸ State.modPart_follows h5 _ _
    · exact (Prod.mk.inj (Option.some.inj e)).1 ▸ h5

theorem reloadPart_follows {b₀ : State} {s : State} {p : Nat} {bs : List Byte} {t : State} {r : ImgResult} (e : reloadPart s p bs = some (t, r))
    (Hs : b₀.Follows s) : b₀.Follows t := by
  unfold reloadPart at e
  extract_lets s1 at e
  have h1 : b₀.Follows s1 := endPart_follows (setPartState_follows (settleCycles_follows Hs) _ _) _ _ _
  clear_value s1
  split at e
  · exact (Prod.mk.inj (Option.some.inj e)).1 ▸ removePart_follows h1 _
  · split at e
    · cases e
    · rename_i h; exact (Prod.mk.inj (Option.some.inj e)).1 ▸ replacePart_follows h h1

theorem reloadStop_follows {b₀ : State} {s : State} (Hs : b₀.Follows s) : b₀.Follows (reloadStop s) := by
  unfold reloadStop
  try dsimp only
  repeat' first
    | with_reducible assumption | with_reducible apply imgEnd_follows | with_reducible apply partFree_follows | with_reducible apply endPart_follows
    | split

end Sys2Proof.Machine
end

