-- ==== Sys2Proof/Laws/FollowPower.lean ====
section
/-!
SUPPORT. Every operation of Machine/Power.lean gives a state that follows the one it is given.
-/
namespace Sys2Proof.Machine

theorem pwrRefuse_follows {b₀ : State} {s : State} (Hs : b₀.Follows s) : b₀.Follows (pwrRefuse s) := by
  unfold pwrRefuse
  try dsimp only
  repeat' first
    | with_reducible assumption | with_reducible apply State.setFlag_follows

theorem setBusy_follows {b₀ : State} {s : State} (Hs : b₀.Follows s) (b : Bool) : b₀.Follows (setBusy s b) := by
  unfold setBusy
  try dsimp only
  repeat' first
    | with_reducible assumption | with_reducible apply State.setFlag_follows

theorem holdAll_follows {b₀ : State} {s : State} (Hs : b₀.Follows s) : b₀.Follows (holdAll s) := by
  unfold holdAll
  try dsimp only
  repeat' first
    | with_reducible assumption | (with_reducible refine forEach_follows _ _ ?_ (fun _ _ _ => ?_)) | with_reducible apply partHold_follows
    | with_reducible apply State.Follows.with

theorem watchEntered_follows {b₀ : State} {s : State} (Hs : b₀.Follows s) : b₀.Follows (watchEntered s) := by
  unfold watchEntered
  try dsimp only
  repeat' first
    | with_reducible assumption | with_reducible apply watchWake_follows | split | with_reducible apply State.Follows.with

theorem slicesOut_follows {b₀ : State} {s : State} (Hs : b₀.Follows s) : b₀.Follows (slicesOut s) := by
  unfold slicesOut
  try dsimp only
  repeat' first
    | with_reducible assumption | (with_reducible refine forEach_follows _ _ ?_ (fun _ _ _ => ?_)) | with_reducible apply drainSlice_follows

theorem entryFinish_follows {b₀ : State} {s : State} (Hs : b₀.Follows s) (e : PwrEntry) : b₀.Follows (entryFinish s e) := by
  unfold entryFinish
  try dsimp only
  repeat' first
    | with_reducible assumption | with_reducible apply slicesOut_follows | with_reducible apply coresOut_follows
    | with_reducible apply setRefresh_follows | with_reducible apply fmaxStore_follows | with_reducible apply halfClocks_follows
    | with_reducible apply setBusy_follows | with_reducible apply setPwrState_follows | with_reducible apply watchEntered_follows
    | with_reducible apply State.put_follows | split | with_reducible apply State.Follows.with

theorem entryContinue_follows {b₀ : State} {s : State} (Hs : b₀.Follows s) : b₀.Follows (entryContinue s) := by
  unfold entryContinue
  try dsimp only
  repeat' first
    | with_reducible assumption | with_reducible apply entryFinish_follows | with_reducible apply holdAll_follows | split

theorem pwrEnter_follows {b₀ : State} {s : State} (Hs : b₀.Follows s) (target : Nat) : b₀.Follows (pwrEnter s target) := by
  unfold pwrEnter
  try dsimp only
  repeat' first
    | with_reducible assumption | with_reducible apply pwrRefuse_follows | with_reducible apply setBusy_follows
    | with_reducible apply holdAll_follows | split | with_reducible apply State.Follows.with

theorem pwrRun_follows {b₀ : State} {s : State} (Hs : b₀.Follows s) : b₀.Follows (pwrRun s) := by
  unfold pwrRun
  try dsimp only
  repeat' first
    | with_reducible assumption | with_reducible apply pwrRefuse_follows | with_reducible apply setBusy_follows
    | with_reducible apply returnBegin_follows | split

theorem sampleAll_follows {b₀ : State} {s : State} (Hs : b₀.Follows s) : b₀.Follows (sampleAll s) := by
  unfold sampleAll
  try dsimp only
  repeat' first
    | with_reducible assumption | (with_reducible refine forEach_follows _ _ ?_ (fun _ _ _ => ?_)) | with_reducible apply sampleLevel_follows

theorem wokeReport_follows {b₀ : State} {s : State} (Hs : b₀.Follows s) : b₀.Follows (wokeReport s) := by
  unfold wokeReport
  try dsimp only
  repeat' first
    | with_reducible assumption | with_reducible apply raiseEdge_follows | with_reducible apply State.setFlag_follows | split

theorem returnComplete_follows {b₀ : State} {s : State} (Hs : b₀.Follows s) (lanes : List (Nat × Nat)) : b₀.Follows (returnComplete s lanes) := by
  unfold returnComplete
  try dsimp only
  repeat' first
    | with_reducible assumption | (with_reducible refine forEach_follows _ _ ?_ (fun _ _ _ => ?_)) | with_reducible apply setRefresh_follows
    | with_reducible apply chanRetrain_follows | with_reducible apply linesCheck_follows | with_reducible apply wokeReport_follows
    | with_reducible apply halfClocks_follows | with_reducible apply setBusy_follows | with_reducible apply setPwrState_follows
    | with_reducible apply capSource_follows | with_reducible apply sampleAll_follows | split | with_reducible apply State.Follows.with

theorem haltCars_follows {b₀ : State} {s : State} (Hs : b₀.Follows s) : b₀.Follows (haltCars s) := by
  unfold haltCars
  try dsimp only
  repeat' first
    | with_reducible assumption | (with_reducible refine forEach_follows _ _ ?_ (fun _ _ _ => ?_)) | with_reducible apply endCar_follows

theorem haltCores_follows {b₀ : State} {s : State} (Hs : b₀.Follows s) : b₀.Follows (haltCores s) := by
  unfold haltCores
  try dsimp only
  repeat' first
    | with_reducible assumption | (with_reducible refine forEach_follows _ _ ?_ (fun _ _ _ => ?_)) | with_reducible apply stopCores_follows
    | with_reducible apply State.modCore_follows

theorem coolantHalt_follows {b₀ : State} {s : State} (Hs : b₀.Follows s) : b₀.Follows (coolantHalt s) := by
  unfold coolantHalt
  try dsimp only
  repeat' first
    | with_reducible assumption | with_reducible apply reloadStop_follows | with_reducible apply haltCars_follows
    | with_reducible apply haltCores_follows | with_reducible apply abortsGo_follows | with_reducible apply setBusy_follows | split
    | with_reducible apply State.Follows.with

theorem coolantAssert_follows {b₀ : State} {s : State} (Hs : b₀.Follows s) (ns : Nat) : b₀.Follows (coolantAssert s ns) := by
  unfold coolantAssert
  try dsimp only
  repeat' first
    | with_reducible assumption | with_reducible apply setLevel_follows | with_reducible apply coolantHalt_follows
    | with_reducible apply State.drawn_follows | split | with_reducible apply State.Follows.with

theorem coolantEnd_follows {b₀ : State} {s : State} (Hs : b₀.Follows s) : b₀.Follows (coolantEnd s) := by
  unfold coolantEnd
  try dsimp only
  repeat' first
    | with_reducible assumption | with_reducible apply setLevel_follows | with_reducible apply State.Follows.with

theorem execPwrReqRun_follows {b₀ s : State} (Hs : b₀.Follows s)  : ∃ u₁, (execPwrReqRun s) = .next u₁ ∧ b₀.Follows u₁ := by
  unfold execPwrReqRun
  try dsimp only
  repeat' first
    | with_reducible assumption | with_reducible apply pwrRun_follows | (with_reducible refine ⟨_, rfl, ?_⟩) | split

theorem execPwrReqGated_follows {b₀ s : State} (Hs : b₀.Follows s)  : ∃ u₁, (execPwrReqGated s) = .next u₁ ∧ b₀.Follows u₁ := by
  unfold execPwrReqGated
  try dsimp only
  repeat' first
    | with_reducible assumption | with_reducible apply pwrEnter_follows | (with_reducible refine ⟨_, rfl, ?_⟩) | split

theorem execPwrReqStandby_follows {b₀ s : State} (Hs : b₀.Follows s)  : ∃ u₁, (execPwrReqStandby s) = .next u₁ ∧ b₀.Follows u₁ := by
  unfold execPwrReqStandby
  try dsimp only
  repeat' first
    | with_reducible assumption | with_reducible apply pwrEnter_follows | (with_reducible refine ⟨_, rfl, ?_⟩) | split

theorem execPowerEntryContinue_follows {b₀ s : State} (Hs : b₀.Follows s)  : ∃ u₁, (execPowerEntryContinue s) = .next u₁ ∧ b₀.Follows u₁ := by
  unfold execPowerEntryContinue
  try dsimp only
  repeat' first
    | with_reducible assumption | with_reducible apply entryContinue_follows | (with_reducible refine ⟨_, rfl, ?_⟩)

theorem execPowerReturnComplete_follows {b₀ s : State} (Hs : b₀.Follows s) (data : List (ChanId × Fin 64)) (check : List (ChanId × Fin 8)) : ∃ u₁, (execPowerReturnComplete data check s) = .next u₁ ∧ b₀.Follows u₁ := by
  unfold execPowerReturnComplete
  try dsimp only
  repeat' first
    | with_reducible assumption | with_reducible apply returnComplete_follows | (with_reducible refine ⟨_, rfl, ?_⟩)

theorem execPowerLoopTick_follows {b₀ s : State} (Hs : b₀.Follows s) (watts : Nat) (beWatts : Nat) (rows : List (Fin 256 × Nat)) : ∃ u₁, (execPowerLoopTick watts beWatts rows s) = .next u₁ ∧ b₀.Follows u₁ := by
  unfold execPowerLoopTick
  try dsimp only
  repeat' first
    | with_reducible assumption | with_reducible apply powerLoop_follows | with_reducible apply markSlow_follows
    | with_reducible apply rateCheck_follows | (with_reducible refine ⟨_, rfl, ?_⟩) | split

theorem execCoolantFaultAssert_follows {b₀ s : State} (Hs : b₀.Follows s) (ns : Nat) : ∃ u₁, (execCoolantFaultAssert ns s) = .next u₁ ∧ b₀.Follows u₁ := by
  unfold execCoolantFaultAssert
  try dsimp only
  repeat' first
    | with_reducible assumption | with_reducible apply coolantAssert_follows | (with_reducible refine ⟨_, rfl, ?_⟩)

theorem execCoolantFaultDeassert_follows {b₀ s : State} (Hs : b₀.Follows s)  : ∃ u₁, (execCoolantFaultDeassert s) = .next u₁ ∧ b₀.Follows u₁ := by
  unfold execCoolantFaultDeassert
  try dsimp only
  repeat' first
    | with_reducible assumption | with_reducible apply coolantEnd_follows | (with_reducible refine ⟨_, rfl, ?_⟩)

end Sys2Proof.Machine
end

