-- ==== Sys2Proof/Laws/FollowBoot.lean ====
section
/-!
SUPPORT. Every operation of Machine/Boot.lean gives a state that follows the one it is given.
-/
namespace Sys2Proof.Machine

theorem flashRegs_follows {b₀ : State} {s : State} {old : State} (Hs : b₀.Follows s) (Hold : b₀.Follows old) : b₀.Follows (flashRegs s old) := by
  unfold flashRegs
  try dsimp only
  repeat' first
    | with_reducible assumption | with_reducible apply fwReport_follows | with_reducible apply fuseReport_follows
    | (with_reducible refine forEach_follows _ _ ?_ (fun _ _ _ => ?_)) | with_reducible apply State.setReg_follows
    | with_reducible apply State.put_follows

theorem moduleReset_follows {b₀ : State} {s : State} (Hs : b₀.Follows s) : b₀.Follows (moduleReset s) := by
  unfold moduleReset
  refine flashRegs_follows ?_ Hs
  exact ⟨Hs.pending, Hs.outbox, Hs.free, Hs.flash, fun _ => ⟨rfl, rfl, rfl⟩⟩

theorem powerLost_follows {b₀ : State} {s : State} (Hs : b₀.Follows s) (rails : List Nat) (ok : Bool) (trip : Bool) : b₀.Follows (powerLost s rails ok trip) := by
  unfold powerLost
  try dsimp only
  repeat' first
    | with_reducible assumption | with_reducible apply moduleReset_follows | with_reducible apply State.Follows.with

theorem railStep_follows {b₀ : State} {s : State} (Hs : b₀.Follows s) (k : Nat) : b₀.Follows (railStep s k) := by
  unfold railStep
  try dsimp only
  repeat' first
    | with_reducible assumption | with_reducible apply State.Follows.with

theorem railGood_follows {b₀ : State} {s : State} (Hs : b₀.Follows s) (die : Option Nat) (step : Nat) : b₀.Follows (railGood s die step) := by
  unfold railGood
  try dsimp only
  repeat' first
    | with_reducible assumption | with_reducible apply railStep_follows | with_reducible apply readyCheck_follows | split

theorem holdDie_follows {b₀ : State} {s : State} (Hs : b₀.Follows s) (d : Nat) : b₀.Follows (holdDie s d) := by
  unfold holdDie
  try dsimp only
  repeat' first
    | with_reducible assumption | with_reducible apply readyCheck_follows | with_reducible apply State.setFlag_follows
    | with_reducible apply State.Follows.with

theorem strapReport_follows {b₀ : State} {s : State} (Hs : b₀.Follows s) (d : Nat) (role : Nat) (id : Nat) (par : Bool) : b₀.Follows (strapReport s d role id par) := by
  unfold strapReport
  try dsimp only
  repeat' first
    | with_reducible assumption | with_reducible apply holdDie_follows | with_reducible apply State.put_follows
    | with_reducible apply State.setFlag_follows | split | with_reducible apply State.Follows.with

theorem setStageNo_follows {b₀ : State} {s : State} (Hs : b₀.Follows s) (n : Nat) : b₀.Follows (setStageNo s n) := by
  unfold setStageNo
  try dsimp only
  repeat' first
    | with_reducible assumption | with_reducible apply State.put_follows

theorem mapoutDone_follows {b₀ : State} {s : State} (Hs : b₀.Follows s) : b₀.Follows (mapoutDone s) := by
  unfold mapoutDone
  try dsimp only
  repeat' first
    | with_reducible assumption | (with_reducible refine forEach_follows _ _ ?_ (fun _ _ _ => ?_)) | with_reducible apply State.put_follows
    | with_reducible apply State.setFlag_follows

theorem copyRead_follows {b₀ : State} {s : State} (Hs : b₀.Follows s) (k : Nat) : b₀.Follows (copyRead s k) := by
  unfold copyRead
  try dsimp only
  repeat' first
    | with_reducible assumption | with_reducible apply State.put_follows | with_reducible apply State.setFlag_follows | split

theorem markBooted_follows {b₀ : State} {s : State} (Hs : b₀.Follows s) (k : Nat) : b₀.Follows (markBooted s k) := by
  unfold markBooted
  try dsimp only
  repeat' first
    | with_reducible assumption | with_reducible apply State.setFlag_follows | with_reducible apply State.Follows.flashes
    | with_reducible apply Flash.Keeps.other

theorem stageRun_follows {b₀ : State} {s : State} (Hs : b₀.Follows s) : b₀.Follows (stageRun s) := by
  unfold stageRun
  try dsimp only
  repeat' first
    | with_reducible assumption | with_reducible apply setStageNo_follows | with_reducible apply State.setFlag_follows

theorem pinReport_follows {b₀ : State} {s : State} (Hs : b₀.Follows s) (r : ImgResult) : b₀.Follows (pinReport s r) := by
  unfold pinReport
  try dsimp only
  repeat' first
    | with_reducible assumption | with_reducible apply State.put_follows | split

theorem stageImage_follows {b₀ : State} {s : State} (Hs : b₀.Follows s) : b₀.Follows (stageImage s) := by
  unfold stageImage
  try dsimp only
  repeat' first
    | with_reducible assumption | with_reducible apply copyRead_follows | with_reducible apply setStageNo_follows
    | (with_reducible refine applyImage_follows (by assumption) ?_) | with_reducible apply stageRun_follows
    | with_reducible apply markBooted_follows | with_reducible apply pinReport_follows | split

theorem stageNext_follows {b₀ : State} {s : State} (Hs : b₀.Follows s) : b₀.Follows (stageNext s) := by
  unfold stageNext
  try dsimp only
  repeat' first
    | with_reducible assumption | with_reducible apply setStageNo_follows | with_reducible apply deriveAlias_follows
    | with_reducible apply runFirmware_follows | with_reducible apply holdDie_follows | with_reducible apply mapoutDone_follows
    | with_reducible apply stageImage_follows | split

theorem stageAdvance_follows {b₀ : State} {s : State} (Hs : b₀.Follows s) (ms : Nat) : b₀.Follows (stageAdvance s ms) := by
  unfold stageAdvance
  try dsimp only
  repeat' first
    | with_reducible assumption | with_reducible apply readyCheck_follows | with_reducible apply portReady_follows
    | with_reducible apply stageNext_follows | with_reducible apply State.put_follows | split

theorem dieRelease_follows {b₀ : State} {s : State} (Hs : b₀.Follows s) (d : Nat) : b₀.Follows (dieRelease s d) := by
  unfold dieRelease
  try dsimp only
  repeat' first
    | with_reducible assumption | with_reducible apply holdDie_follows | with_reducible apply readyCheck_follows | split
    | with_reducible apply State.Follows.with

theorem chanTrain_follows {b₀ : State} {s : State} (Hs : b₀.Follows s) (lanes : List (Nat × Nat)) (c : Nat) : b₀.Follows (chanTrain s lanes c) := by
  unfold chanTrain
  try dsimp only
  repeat' first
    | with_reducible assumption | with_reducible apply setChan_follows | with_reducible apply chanDead_follows
    | with_reducible apply chanTrained_follows | split | with_reducible apply State.Follows.with

theorem stackTrained_follows {b₀ : State} {s : State} (Hs : b₀.Follows s) (n : Nat) (lanes : List (Nat × Nat)) : b₀.Follows (stackTrained s n lanes) := by
  unfold stackTrained
  try dsimp only
  repeat' first
    | with_reducible assumption | (with_reducible refine forEach_follows _ _ ?_ (fun _ _ _ => ?_)) | with_reducible apply chanTrain_follows
    | with_reducible apply State.setReg_follows | split | with_reducible apply State.Follows.with

theorem partitionReady_follows {b₀ : State} {s : State} (Hs : b₀.Follows s) (p : Nat) : b₀.Follows (partitionReady s p) := by
  unfold partitionReady
  try dsimp only
  repeat' first
    | with_reducible assumption | with_reducible apply setPartState_follows | with_reducible apply State.setReg_follows | split

theorem dieRegs_follows {b₀ : State} {s : State} (Hs : b₀.Follows s) (d : Nat) : b₀.Follows (dieRegs s d) := by
  unfold dieRegs
  try dsimp only
  repeat' first
    | with_reducible assumption | (with_reducible refine forEach_follows _ _ ?_ (fun _ _ _ => ?_)) | with_reducible apply setChan_follows
    | with_reducible apply State.put_follows | split | with_reducible apply State.Follows.regsDrop

theorem dieState_follows {b₀ : State} {s : State} (Hs : b₀.Follows s) (d : Nat) : b₀.Follows (dieState s d) := by
  unfold dieState
  try dsimp only
  repeat' first
    | with_reducible assumption | with_reducible apply State.Follows.drops

theorem dieLinks_follows {b₀ : State} {s : State} (Hs : b₀.Follows s) (d : Nat) : b₀.Follows (dieLinks s d) := by
  unfold dieLinks
  try dsimp only
  repeat' first
    | with_reducible assumption | (with_reducible refine forEach_follows _ _ ?_ (fun _ _ _ => ?_)) | with_reducible apply State.put_follows | split
    | with_reducible apply State.Follows.with

theorem dieUnready_follows {b₀ : State} {s : State} (Hs : b₀.Follows s) (d : Nat) : b₀.Follows (dieUnready s d) := by
  unfold dieUnready
  try dsimp only
  repeat' first
    | with_reducible assumption | with_reducible apply State.put_follows

theorem dieResetRun_follows {b₀ : State} {s : State} (Hs : b₀.Follows s) (d : Nat) : b₀.Follows (dieResetRun s d) := by
  unfold dieResetRun
  try dsimp only
  repeat' first
    | with_reducible assumption | with_reducible apply coresOut_follows | (with_reducible refine forEach_follows _ _ ?_ (fun _ _ _ => ?_))
    | with_reducible apply drainSlice_follows | with_reducible apply mapDirs_follows | with_reducible apply setRefresh_follows
    | with_reducible apply dieState_follows | with_reducible apply dieRegs_follows | with_reducible apply dieLinks_follows
    | with_reducible apply linksBegin_follows | with_reducible apply dieUnready_follows | with_reducible apply State.setFlag_follows

theorem dieReset_follows {b₀ : State} {s : State} (Hs : b₀.Follows s) (d : Nat) : b₀.Follows (dieReset s d) := by
  unfold dieReset
  try dsimp only
  repeat' first
    | with_reducible assumption | with_reducible apply dieResetRun_follows | with_reducible apply State.setFlag_follows | split

theorem dieImage_follows {b₀ : State} {s : State} (Hs : b₀.Follows s) (d : Nat) : b₀.Follows (dieImage s d) := by
  unfold dieImage
  try dsimp only
  repeat' first
    | with_reducible assumption | (with_reducible refine forEach_follows _ _ ?_ (fun _ _ _ => ?_)) | with_reducible apply applyRow_follows
    | with_reducible apply applyHalf_follows | with_reducible apply applySlices_follows | with_reducible apply applyModuleDie_follows
    | with_reducible apply applyDie_follows | with_reducible apply applyMasks_follows | split

theorem diePins_follows {b₀ : State} {d : Nat} {ps : List (Nat × PartSec)} {s t : State} (e : diePins s d ps = some t) (Hs : b₀.Follows s) :
    b₀.Follows t := by
  induction ps generalizing s with
  | nil => cases e; exact Hs
  | cons x xs ih =>
    obtain ⟨p, b⟩ := x
    unfold diePins at e
    split at e
    · cases e
    · exact ih e (applyPins_follows (by assumption) Hs)

theorem dieResetEnd_follows {b₀ : State} {s : State} (Hs : b₀.Follows s) (lanes : List (Nat × Nat)) :
    b₀.Follows (dieResetEnd s lanes) := by
  unfold dieResetEnd
  split
  · exact Hs
  · split
    · exact Hs
    · extract_lets +onlyGivenNames s1
      have h1 : b₀.Follows s1 := forEach_follows _ _ (setRefresh_follows Hs _ _) (fun t c h => chanRetrain_follows h _ _)
      clear_value s1
      split
      · exact Hs
      · rename_i h
        dsimp only
        exact State.setFlag_follows (dieReadyCheck_follows (State.setReg_follows (State.Follows.with
          (diePins_follows h (linesCheck_follows (dieImage_follows h1 _) _))) _ _) _) _ _ _

theorem tripNow_follows {b₀ : State} {s : State} (Hs : b₀.Follows s) (die : Nat) (sensor : Nat) : b₀.Follows (tripNow s die sensor) := by
  unfold tripNow
  dsimp only
  refine powerLost_follows (State.Follows.flashes Hs ?_) _ _ _
  refine ⟨fun _ h => h, Nat.le_refl _, fun h => h, fun _ h => h, ?_⟩
  have := s.flash.tripCount.isLt
  simp only [BitVec.toNat_ofNat, satInc]
  split <;> omega

theorem junctionRead_follows {b₀ : State} {s : State} (Hs : b₀.Follows s) (die : Nat) (h : Nat) (t : Nat) (sensor : Nat) : b₀.Follows (junctionRead s die h t sensor) := by
  unfold junctionRead
  try dsimp only
  repeat' first
    | with_reducible assumption | with_reducible apply tripNow_follows | with_reducible apply markSlow_follows
    | with_reducible apply junction_follows | split

theorem execJunctionRead_follows {b₀ s : State} (Hs : b₀.Follows s) (die : DieIx) (half : Bool) (t : BitVec 8) (sensor : BitVec 12) : ∃ u₁, (execJunctionRead die half t sensor s) = .next u₁ ∧ b₀.Follows u₁ := by
  unfold execJunctionRead
  try dsimp only
  repeat' first
    | with_reducible assumption | with_reducible apply junctionRead_follows | (with_reducible refine ⟨_, rfl, ?_⟩)

theorem execTripHoldEnd_follows {b₀ s : State} (Hs : b₀.Follows s)  : ∃ u₁, (execTripHoldEnd s) = .next u₁ ∧ b₀.Follows u₁ := by
  unfold execTripHoldEnd
  try dsimp only
  repeat' first
    | with_reducible assumption | with_reducible apply moduleReset_follows | (with_reducible refine ⟨_, rfl, ?_⟩) | split

theorem execInputRise_follows {b₀ s : State} (Hs : b₀.Follows s)  : ∃ u₁, (execInputRise s) = .next u₁ ∧ b₀.Follows u₁ := by
  unfold execInputRise
  try dsimp only
  repeat' first
    | with_reducible assumption | with_reducible apply powerLost_follows | (with_reducible refine ⟨_, rfl, ?_⟩) | split

theorem execRailPowerGood_follows {b₀ s : State} (Hs : b₀.Follows s) (die : Option (Fin 8)) (step : Fin 5) : ∃ u₁, (execRailPowerGood die step s) = .next u₁ ∧ b₀.Follows u₁ := by
  unfold execRailPowerGood
  try dsimp only
  repeat' first
    | with_reducible assumption | with_reducible apply railGood_follows | (with_reducible refine ⟨_, rfl, ?_⟩)

theorem execInputLoss_follows {b₀ s : State} (Hs : b₀.Follows s) (us : Nat) : ∃ u₁, (execInputLoss us s) = .next u₁ ∧ b₀.Follows u₁ := by
  unfold execInputLoss
  try dsimp only
  repeat' first
    | with_reducible assumption | with_reducible apply powerLost_follows | (with_reducible refine ⟨_, rfl, ?_⟩) | split

theorem execInputOvervoltage_follows {b₀ s : State} (Hs : b₀.Follows s) (us : Nat) : ∃ u₁, (execInputOvervoltage us s) = .next u₁ ∧ b₀.Follows u₁ := by
  unfold execInputOvervoltage
  try dsimp only
  repeat' first
    | with_reducible assumption | with_reducible apply powerLost_follows | (with_reducible refine ⟨_, rfl, ?_⟩) | split

theorem execBootModuleReset_follows {b₀ s : State} (Hs : b₀.Follows s) (key : BitVec 16) : ∃ u₁, (execBootModuleReset key s) = .next u₁ ∧ b₀.Follows u₁ := by
  unfold execBootModuleReset
  try dsimp only
  repeat' first
    | with_reducible assumption | with_reducible apply moduleReset_follows | (with_reducible refine ⟨_, rfl, ?_⟩) | split

theorem execShedyModuleReset_follows {b₀ s : State} (Hs : b₀.Follows s) (key : BitVec 16) : ∃ u₁, (execShedyModuleReset key s) = .next u₁ ∧ b₀.Follows u₁ := by
  unfold execShedyModuleReset
  try dsimp only
  repeat' first
    | with_reducible assumption | with_reducible apply moduleReset_follows | (with_reducible refine ⟨_, rfl, ?_⟩) | split

theorem execStrapReport_follows {b₀ s : State} (Hs : b₀.Follows s) (die : DieIx) (role : BitVec 2) (id : BitVec 3) (par : Bool) : ∃ u₁, (execStrapReport die role id par s) = .next u₁ ∧ b₀.Follows u₁ := by
  unfold execStrapReport
  try dsimp only
  repeat' first
    | with_reducible assumption | with_reducible apply strapReport_follows | (with_reducible refine ⟨_, rfl, ?_⟩)

theorem execBootStageAdvance_follows {b₀ s : State} (Hs : b₀.Follows s) (ms : Nat) : ∃ u₁, (execBootStageAdvance ms s) = .next u₁ ∧ b₀.Follows u₁ := by
  unfold execBootStageAdvance
  try dsimp only
  repeat' first
    | with_reducible assumption | with_reducible apply stageAdvance_follows | (with_reducible refine ⟨_, rfl, ?_⟩)

theorem execDieRelease_follows {b₀ s : State} (Hs : b₀.Follows s) (die : DieIx) : ∃ u₁, (execDieRelease die s) = .next u₁ ∧ b₀.Follows u₁ := by
  unfold execDieRelease
  try dsimp only
  repeat' first
    | with_reducible assumption | with_reducible apply dieRelease_follows | (with_reducible refine ⟨_, rfl, ?_⟩)

theorem execStackTrainingComplete_follows {b₀ s : State} (Hs : b₀.Follows s) (stack : StackId) (data : List (Fin 32 × Fin 64)) (check : List (Fin 32 × Fin 8)) : ∃ u₁, (execStackTrainingComplete stack data check s) = .next u₁ ∧ b₀.Follows u₁ := by
  unfold execStackTrainingComplete
  try dsimp only
  repeat' first
    | with_reducible assumption | with_reducible apply stackTrained_follows | (with_reducible refine ⟨_, rfl, ?_⟩)

theorem execPartitionReady_follows {b₀ s : State} (Hs : b₀.Follows s) (p : PartId) : ∃ u₁, (execPartitionReady p s) = .next u₁ ∧ b₀.Follows u₁ := by
  unfold execPartitionReady
  try dsimp only
  repeat' first
    | with_reducible assumption | with_reducible apply partitionReady_follows | (with_reducible refine ⟨_, rfl, ?_⟩)

theorem execBootDieReset_follows {b₀ s : State} (Hs : b₀.Follows s) (die : BitVec 4) : ∃ u₁, (execBootDieReset die s) = .next u₁ ∧ b₀.Follows u₁ := by
  unfold execBootDieReset
  try dsimp only
  repeat' first
    | with_reducible assumption | with_reducible apply dieReset_follows | (with_reducible refine ⟨_, rfl, ?_⟩)

theorem execDieResetComplete_follows {b₀ s : State} (Hs : b₀.Follows s) (data : List (ChanId × Fin 64)) (check : List (ChanId × Fin 8)) : ∃ u₁, (execDieResetComplete data check s) = .next u₁ ∧ b₀.Follows u₁ := by
  unfold execDieResetComplete
  try dsimp only
  repeat' first
    | with_reducible assumption | with_reducible apply dieResetEnd_follows | (with_reducible refine ⟨_, rfl, ?_⟩)

end Sys2Proof.Machine
end

