-- ==== Sys2Proof/Laws/FollowImageCmd.lean ====
section
/-!
SUPPORT. Every operation of Machine/ImageCmd.lean gives a state that follows the one it is given.
-/
namespace Sys2Proof.Machine

theorem imgStart_follows {b₀ : State} {s : State} (Hs : b₀.Follows s) (op : Nat) : b₀.Follows (imgStart s op) := by
  unfold imgStart
  try dsimp only
  repeat' first
    | with_reducible assumption | with_reducible apply bootAsk_follows | with_reducible apply beginTurn_follows
    | with_reducible apply State.setFlag_follows | split | with_reducible apply State.Follows.with

theorem imgRun_follows {b₀ : State} {s : State} (Hs : b₀.Follows s) (op : Nat) (f : State → State) (Hf : ∀ (x0 : State), b₀.Follows x0 → b₀.Follows (f x0)) : b₀.Follows (imgRun s op f) := by
  unfold imgRun
  try dsimp only
  repeat' first
    | with_reducible assumption | with_reducible apply State.setFlag_follows | with_reducible apply Hf | split

theorem storeImage_follows {b₀ : State} {s : State} (Hs : b₀.Follows s) (bs : List Byte) : b₀.Follows (storeImage s bs) := by
  unfold storeImage
  try dsimp only
  repeat' first
    | with_reducible assumption | with_reducible apply State.put_follows | with_reducible apply State.setFlag_follows
    | with_reducible apply State.Follows.flashes | with_reducible apply Flash.Keeps.other

theorem imgCheck_follows {b₀ : State} {s : State} (Hs : b₀.Follows s) (d : Option (List Byte)) : b₀.Follows (imgCheck s d) := by
  unfold imgCheck
  try dsimp only
  repeat' first
    | with_reducible assumption | with_reducible apply imgEnd_follows | split

theorem imgStore_follows {b₀ : State} {s : State} (Hs : b₀.Follows s) (d : Option (List Byte)) : b₀.Follows (imgStore s d) := by
  unfold imgStore
  try dsimp only
  repeat' first
    | with_reducible assumption | with_reducible apply imgEnd_follows | with_reducible apply storeImage_follows | split

theorem imgApply_follows {b₀ : State} {s : State} (Hs : b₀.Follows s) (d : Option (List Byte)) : b₀.Follows (imgApply s d) := by
  unfold imgApply
  try dsimp only
  repeat' first
    | with_reducible assumption | with_reducible apply imgEnd_follows | (with_reducible refine applyImage_follows (by assumption) ?_)
    | with_reducible apply portReady_follows | with_reducible apply stageRun_follows | with_reducible apply storeImage_follows | split

theorem imgReload_follows {b₀ : State} {s : State} (Hs : b₀.Follows s) (p : Nat) (d : Option (List Byte)) : b₀.Follows (imgReload s p d) := by
  unfold imgReload
  try dsimp only
  repeat' first
    | with_reducible assumption | with_reducible apply imgEnd_follows | (with_reducible refine reloadPart_follows (by assumption) ?_)
    | with_reducible apply abortsGo_follows | split

theorem execImgCheck_follows {b₀ s : State} (Hs : b₀.Follows s) (d : Option (List Byte)) : ∃ u₁, (execImgCheck d s) = .next u₁ ∧ b₀.Follows u₁ := by
  unfold execImgCheck
  try dsimp only
  repeat' first
    | with_reducible assumption | (with_reducible refine imgRun_follows ?_ _ _ (fun _ _ => ?_)) | with_reducible apply imgCheck_follows
    | (with_reducible refine ⟨_, rfl, ?_⟩)

theorem execImgStore_follows {b₀ s : State} (Hs : b₀.Follows s) (d : Option (List Byte)) : ∃ u₁, (execImgStore d s) = .next u₁ ∧ b₀.Follows u₁ := by
  unfold execImgStore
  try dsimp only
  repeat' first
    | with_reducible assumption | (with_reducible refine imgRun_follows ?_ _ _ (fun _ _ => ?_)) | with_reducible apply imgStore_follows
    | (with_reducible refine ⟨_, rfl, ?_⟩)

theorem execImgApply_follows {b₀ s : State} (Hs : b₀.Follows s) (d : Option (List Byte)) : ∃ u₁, (execImgApply d s) = .next u₁ ∧ b₀.Follows u₁ := by
  unfold execImgApply
  try dsimp only
  repeat' first
    | with_reducible assumption | (with_reducible refine imgRun_follows ?_ _ _ (fun _ _ => ?_)) | with_reducible apply imgApply_follows
    | (with_reducible refine ⟨_, rfl, ?_⟩)

theorem execImgReload_follows {b₀ s : State} (Hs : b₀.Follows s) (p : PartId) (d : Option (List Byte)) : ∃ u₁, (execImgReload p d s) = .next u₁ ∧ b₀.Follows u₁ := by
  unfold execImgReload
  try dsimp only
  repeat' first
    | with_reducible assumption | (with_reducible refine imgRun_follows ?_ _ _ (fun _ _ => ?_)) | with_reducible apply imgReload_follows
    | (with_reducible refine ⟨_, rfl, ?_⟩)

end Sys2Proof.Machine
end

