-- ==== Sys2Proof/Laws/FollowRegSpace.lean ====
section
/-!
SUPPORT. Every operation of Machine/RegSpace.lean gives a state that follows the one it is given.
-/
namespace Sys2Proof.Machine

theorem countSeam_follows {b₀ : State} {s : State} (Hs : b₀.Follows s) (d : Nat) : b₀.Follows (countSeam s d) := by
  unfold countSeam
  try dsimp only
  repeat' first
    | with_reducible assumption | with_reducible apply State.growFree_follows | split

theorem regTouch_follows {b₀ : State} {s : State} (Hs : b₀.Follows s) (base : Nat) (ix : List Nat) : b₀.Follows (regTouch s base ix) := by
  unfold regTouch
  try dsimp only
  repeat' first
    | with_reducible assumption | with_reducible apply countCycles_follows | with_reducible apply countSeam_follows
    | with_reducible apply countTimer_follows | with_reducible apply State.growFree_follows | with_reducible apply State.put_follows
    | with_reducible apply State.drawn_follows | split

theorem regRead_follows {b₀ : State} {s : State} (Hs : b₀.Follows s) (p : Nat) (off : Nat) (n : Nat) : b₀.Follows (regRead s p off n).1 := by
  unfold regRead
  try dsimp only
  repeat' first
    | with_reducible assumption | with_reducible apply regTouch_follows | split

theorem msixStore_follows {b₀ : State} {s : State} (Hs : b₀.Follows s) (p : Nat) (x : Nat) (be : W64) (v : W64) : b₀.Follows (msixStore s p x be v) := by
  unfold msixStore
  try dsimp only
  repeat' first
    | with_reducible assumption | with_reducible apply msixGo_follows | with_reducible apply State.setPort_follows | split

theorem lockedChange_follows {b₀ : State} {s : State} (Hs : b₀.Follows s) (i : Nat) (changed : Bool) : b₀.Follows (lockedChange s i changed) := by
  unfold lockedChange
  try dsimp only
  repeat' first
    | with_reducible assumption | with_reducible apply tdiError_follows | split

theorem hifStore_follows {b₀ : State} {s : State} (Hs : b₀.Follows s) (base : Nat) (off : Nat) (ix : List Nat) (old : W64) (new : W64) : b₀.Follows (hifStore s base off ix old new) := by
  unfold hifStore
  try dsimp only
  repeat' first
    | with_reducible assumption | with_reducible apply setLevel_follows | with_reducible apply lockedChange_follows
    | with_reducible apply State.setReg_follows | split

theorem mbxRequest_follows {b₀ : State} {s : State} (Hs : b₀.Follows s) (i : Nat) (op : Nat) : b₀.Follows (mbxRequest s i op) := by
  unfold mbxRequest
  try dsimp only
  repeat' first
    | with_reducible assumption | with_reducible apply tenantOwn_follows | with_reducible apply tenantRelease_follows
    | with_reducible apply tenantAbort_follows | split

theorem mbxSlotStore_follows {b₀ : State} {s : State} (Hs : b₀.Follows s) (i : Nat) (m2t : Bool) (n : Nat) (w : Nat) (be : W64) (v : W64) : b₀.Follows (mbxSlotStore s i m2t n w be v) := by
  unfold mbxSlotStore
  try dsimp only
  repeat' first
    | with_reducible assumption | with_reducible apply mbxPost_follows | with_reducible apply mbxDrop_follows
    | with_reducible apply mbxPayload_follows | split

theorem mbxStore_follows {b₀ : State} {s : State} (Hs : b₀.Follows s) (via : Via) (base : Nat) (off : Nat) (ix : List Nat) (old : W64) (new : W64) (be : W64) (v : W64) : b₀.Follows (mbxStore s via base off ix old new be v) := by
  unfold mbxStore
  try dsimp only
  repeat' first
    | with_reducible assumption | with_reducible apply mbxVersion_follows | with_reducible apply mbxRequest_follows
    | with_reducible apply mbxReturn_follows | with_reducible apply mbxSlotStore_follows | with_reducible apply lockedChange_follows
    | with_reducible apply State.setReg_follows | split

theorem frmStore_follows {b₀ : State} {s : State} (Hs : b₀.Follows s) (base : Nat) (off : Nat) (ix : List Nat) (old : W64) (new : W64) (be : W64) (v : W64) : b₀.Follows (frmStore s base off ix old new be v) := by
  unfold frmStore
  try dsimp only
  repeat' first
    | with_reducible assumption | with_reducible apply frmAbort_follows | with_reducible apply lockedChange_follows
    | with_reducible apply slotActive_follows | with_reducible apply State.setReg_follows | split | with_reducible apply State.Follows.with

theorem ownStore_follows {b₀ : State} {s : State} (Hs : b₀.Follows s) (p : Nat) (be : W64) (v : W64) : b₀.Follows (ownStore s p be v) := by
  unfold ownStore
  try dsimp only
  repeat' first
    | with_reducible assumption | with_reducible apply ownRequest_follows | with_reducible apply ownEnd_follows
    | with_reducible apply State.put_follows | with_reducible apply State.setFlag_follows | split

theorem instStore_follows {b₀ : State} {s : State} (Hs : b₀.Follows s) (i : Nat) (new : W64) (be : W64) (v : W64) : b₀.Follows (instStore s i new be v) := by
  unfold instStore
  try dsimp only
  repeat' first
    | with_reducible assumption | with_reducible apply instanceUnbind_follows | with_reducible apply instanceBind_follows
    | with_reducible apply State.put_follows | with_reducible apply State.setFlag_follows | split

theorem prtStore_follows {b₀ : State} {s : State} (Hs : b₀.Follows s) (base : Nat) (off : Nat) (ix : List Nat) (new : W64) (be : W64) (v : W64) : b₀.Follows (prtStore s base off ix new be v) := by
  unfold prtStore
  try dsimp only
  repeat' first
    | with_reducible assumption | with_reducible apply partHold_follows | with_reducible apply partRelease_follows
    | with_reducible apply ownStore_follows | with_reducible apply instStore_follows | with_reducible apply State.setReg_follows | split

theorem cacheStore_follows {b₀ : State} {s : State} (Hs : b₀.Follows s) (base : Nat) (off : Nat) (ix : List Nat) (old : W64) (new : W64) (be : W64) (v : W64) : b₀.Follows (cacheStore s base off ix old new be v) := by
  unfold cacheStore
  try dsimp only
  repeat' first
    | with_reducible assumption | with_reducible apply setLevel_follows | with_reducible apply probeStart_follows
    | with_reducible apply State.setReg_follows | split

theorem optStore_follows {b₀ : State} {s : State} (Hs : b₀.Follows s) (f : Family) (off : Nat) (ix : List Nat) (be : W64) (v : W64) : b₀.Follows (optStore s f off ix be v) := by
  unfold optStore
  try dsimp only
  repeat' first
    | with_reducible assumption | with_reducible apply State.setReg_follows | split | with_reducible apply State.Follows.with

theorem evcStore_follows {b₀ : State} {s : State} (Hs : b₀.Follows s) (via : Via) (base : Nat) (off : Nat) (ix : List Nat) (old : W64) (new : W64) (be : W64) (v : W64) : b₀.Follows (evcStore s via base off ix old new be v) := by
  unfold evcStore
  try dsimp only
  repeat' first
    | with_reducible assumption | with_reducible apply hostAck_follows | with_reducible apply raiseEdge_follows
    | with_reducible apply evcComplete_follows | with_reducible apply evcFastComplete_follows | with_reducible apply evcSrcWrite_follows
    | with_reducible apply watchWake_follows | with_reducible apply State.setReg_follows | split

theorem pwrRequest_follows {b₀ : State} {s : State} (Hs : b₀.Follows s) (target : Nat) : b₀.Follows (pwrRequest s target) := by
  unfold pwrRequest
  try dsimp only
  repeat' first
    | with_reducible assumption | with_reducible apply pwrRun_follows | with_reducible apply pwrRefuse_follows
    | with_reducible apply pwrEnter_follows | split

theorem pwrErrStore_follows {b₀ : State} {s : State} (Hs : b₀.Follows s) (base : Nat) (off : Nat) (ix : List Nat) (new : W64) (be : W64) (v : W64) : b₀.Follows (pwrErrStore s base off ix new be v) := by
  unfold pwrErrStore
  try dsimp only
  repeat' first
    | with_reducible assumption | with_reducible apply pwrRequest_follows | with_reducible apply errConsume_follows
    | with_reducible apply errArm_follows | with_reducible apply State.setReg_follows | split

theorem bootSecStore_follows {b₀ : State} {s : State} (Hs : b₀.Follows s) (base : Nat) (off : Nat) (new : W64) (be : W64) (v : W64) : b₀.Follows (bootSecStore s base off new be v) := by
  unfold bootSecStore
  try dsimp only
  repeat' first
    | with_reducible assumption | with_reducible apply moduleReset_follows | with_reducible apply dieReset_follows
    | with_reducible apply imgStart_follows | with_reducible apply secStart_follows | with_reducible apply attestRequest_follows
    | with_reducible apply State.setReg_follows | split

theorem keptStore_follows {b₀ : State} {s : State} (Hs : b₀.Follows s) (via : Via) (off : Nat) (be : W64) (v : W64) :
    b₀.Follows (keptStore s via off be v) := by
  unfold keptStore
  cases regFamily off with
  | none => exact Hs
  | some x =>
    dsimp only
    generalize swWord x.1.fields (s.reg off) be v = new
    generalize s.reg off = old
    repeat' first
      | with_reducible assumption | with_reducible apply State.setReg_follows | with_reducible apply hifStore_follows
      | with_reducible apply mbxStore_follows | with_reducible apply frmStore_follows | with_reducible apply prtStore_follows
      | with_reducible apply cacheStore_follows | with_reducible apply optStore_follows | with_reducible apply evcStore_follows
      | with_reducible apply pwrErrStore_follows | with_reducible apply bootSecStore_follows
      | with_reducible refine iteInduction (fun _ => ?_) (fun _ => ?_)

theorem regStore_follows {b₀ : State} {s : State} (Hs : b₀.Follows s) (via : Via) (p : Nat) (off : Nat) (be : W64) (v : W64) : b₀.Follows (regStore s via p off be v) := by
  unfold regStore
  try dsimp only
  repeat' first
    | with_reducible assumption | with_reducible apply msixStore_follows | with_reducible apply keptStore_follows | split

theorem regWrite_follows {b₀ : State} {s : State} (Hs : b₀.Follows s) (via : Via) (p : Nat) (off : Nat) (n : Nat) (v : Nat) : b₀.Follows (regWrite s via p off n v) := by
  unfold regWrite
  try dsimp only
  repeat' first
    | with_reducible assumption | with_reducible apply regStore_follows | split

theorem execDirProbe_follows {b₀ s : State} (Hs : b₀.Follows s) (die : Fin 8) (l : LineNo) : ∃ u₁, (execDirProbe die l s) = .next u₁ ∧ b₀.Follows u₁ := by
  unfold execDirProbe
  try dsimp only
  repeat' first
    | with_reducible assumption | with_reducible apply probeStart_follows | (with_reducible refine ⟨_, rfl, ?_⟩) | split

theorem execRegisterWrite_follows {b₀ s : State} (Hs : b₀.Follows s) (off : BitVec 28) (wide : Bool) (v : W64) (fw : Bool) : ∃ u₁, (execRegisterWrite off wide v fw s) = .next u₁ ∧ b₀.Follows u₁ := by
  unfold execRegisterWrite
  try dsimp only
  repeat' first
    | with_reducible assumption | with_reducible apply abortsGo_follows | with_reducible apply regWrite_follows
    | (with_reducible refine ⟨_, rfl, ?_⟩)

end Sys2Proof.Machine
end

