-- ==== Sys2Proof/Laws/FollowMemInstr.lean ====
section
/-!
SUPPORT. Every operation of Machine/MemInstr.lean gives a state that follows the one it is given.
-/
namespace Sys2Proof.Machine

theorem faultOn_follows {b₀ : State} {s : State} (Hs : b₀.Follows s) (c : Nat) (x : Nat) : b₀.Follows (faultOn s c x) := by
  unfold faultOn
  try dsimp only
  repeat' first
    | with_reducible assumption | with_reducible apply advance_follows | with_reducible apply addrErr_follows

theorem endAccess_follows {b₀ : State} {s : State} (Hs : b₀.Follows s) (c : Nat) (bad : Option Nat) : b₀.Follows (endAccess s c bad) := by
  unfold endAccess
  try dsimp only
  repeat' first
    | with_reducible assumption | with_reducible apply faultOn_follows | with_reducible apply advance_follows | split

theorem openLoad_follows {b₀ : State} {s : State} (Hs : b₀.Follows s) (c : Nat) (sd : Nat) (n : Nat) (a : Nat) (dest : Nat → LoadDest) (far : Bool) : b₀.Follows (openLoad s c sd n a dest far).1 := by
  unfold openLoad
  try dsimp only
  repeat' first
    | with_reducible assumption | with_reducible apply newLoad_follows | with_reducible apply State.modCore_follows

theorem zeroRest_follows {b₀ : State} {s : State} (Hs : b₀.Follows s) (c : Nat) (id : Nat) (n : Nat) (lo : Nat) (len : Nat) : b₀.Follows (zeroRest s c id n lo len) := by
  unfold zeroRest
  try dsimp only
  repeat' first
    | with_reducible assumption | with_reducible apply loadPart_follows | split

theorem windowLoad_follows {b₀ : State} {s : State} (Hs : b₀.Follows s) (c : Nat) (id : Nat) (a : Nat) (n : Nat) (pos : Nat) : b₀.Follows (windowLoad s c id a n pos) := by
  unfold windowLoad
  try dsimp only
  repeat' first
    | with_reducible assumption | (with_reducible refine forEach_follows _ _ ?_ (fun _ _ _ => ?_)) | with_reducible apply hostAsk_follows
    | with_reducible apply loadDead_follows | split

theorem seqLoad_follows {b₀ : State}  {s : State} {c : Nat} {sd : Nat} {n : Nat} {a : Nat} {lo : Nat} {len : Nat} {sx : Bool} {dest : Nat → LoadDest} {t₁ : State} (e : seqLoad s c sd n a lo len sx dest = some t₁) (Hs : b₀.Follows s) : b₀.Follows t₁ := by
  unfold seqLoad at e
  try dsimp only at e
  repeat' first
    | cases e | split at e | with_reducible assumption | with_reducible apply scratchRead_follows | with_reducible apply seqPoison_follows
    | with_reducible apply setS_follows | with_reducible apply openLoad_follows | with_reducible apply memLoadAt_follows
    | with_reducible apply zeroRest_follows | with_reducible apply regRead_follows | with_reducible apply windowLoad_follows
    | with_reducible apply remoteLoadAt_follows | split

theorem ldIssue_follows {b₀ : State} {s : State} (Hs : b₀.Follows s) (c : Nat) (sd : Nat) (n : Nat) (a : Nat) (sx : Bool) : b₀.Follows (ldIssue s c sd n a sx) := by
  unfold ldIssue
  try dsimp only
  repeat' first
    | with_reducible assumption | with_reducible apply endAccess_follows | with_reducible apply setS_follows | with_reducible apply stall_follows
    | (with_reducible refine seqLoad_follows (by assumption) ?_) | with_reducible apply loadCounted_follows | split

theorem windowFlush_follows {b₀ : State} {s : State} (Hs : b₀.Follows s) (c : Nat) (p : Nat) : b₀.Follows (windowFlush s c p) := by
  unfold windowFlush
  try dsimp only
  repeat' first
    | with_reducible assumption | with_reducible apply hostFlush_follows | with_reducible apply State.modCore_follows

theorem windowWrite_follows {b₀ : State} {s : State} (Hs : b₀.Follows s) (c : Nat) (p : Nat) (bus : Nat) (n : Nat) (v : Nat) (isFlag : Bool) : b₀.Follows (windowWrite s c p bus n v isFlag) := by
  unfold windowWrite
  try dsimp only
  repeat' first
    | with_reducible assumption | with_reducible apply hostWrite_follows | with_reducible apply State.modCore_follows

theorem remoteStore_follows {b₀ : State} {s : State} (Hs : b₀.Follows s) (c : Nat) (a : Nat) (n : Nat) (v : Nat) (counted : Bool) : b₀.Follows (remoteStore s c a n v counted) := by
  unfold remoteStore
  try dsimp only
  repeat' first
    | with_reducible assumption | (with_reducible refine forEach_follows _ _ ?_ (fun _ _ _ => ?_)) | with_reducible apply remoteSend_follows
    | with_reducible apply State.modCore_follows | split

theorem seqStore_follows {b₀ : State} {s : State} (Hs : b₀.Follows s) (c : Nat) (n : Nat) (a : Nat) (v : Nat) (isFlag : Bool) (counted : Bool) (fin : State → State) (Hfin : ∀ (x0 : State), b₀.Follows x0 → b₀.Follows (fin x0)) : b₀.Follows (seqStore s c n a v isFlag counted fin) := by
  unfold seqStore
  try dsimp only
  repeat' first
    | with_reducible assumption | with_reducible apply scratchWrite_follows | with_reducible apply wsdWrite_follows
    | with_reducible apply memStore_follows | with_reducible apply abortsGo_follows | with_reducible apply regWrite_follows
    | with_reducible apply windowFlush_follows | (with_reducible refine forEach_follows _ _ ?_ (fun _ _ _ => ?_))
    | with_reducible apply windowWrite_follows | with_reducible apply remoteStore_follows | with_reducible apply Hfin | split

theorem stIssue_follows {b₀ : State} {s : State} (Hs : b₀.Follows s) (c : Nat) (n : Nat) (a : Nat) (v : Nat) : b₀.Follows (stIssue s c n a v) := by
  unfold stIssue
  try dsimp only
  repeat' first
    | with_reducible assumption | with_reducible apply endAccess_follows | with_reducible apply stall_follows
    | (with_reducible refine seqStore_follows ?_ _ _ _ _ _ _ _ (fun _ _ => ?_)) | split

theorem remoteAmo_follows {b₀ : State} {s : State} (Hs : b₀.Follows s) (c : Nat) (sd : Nat) (a : Nat) (op : Nat) (w : Bool) (y : W64) (z : W64) : b₀.Follows (remoteAmo s c sd a op w y z) := by
  unfold remoteAmo
  try dsimp only
  repeat' first
    | with_reducible assumption | with_reducible apply advance_follows | with_reducible apply remoteSend_follows
    | with_reducible apply State.modCore_follows | split

theorem scratchAmo_follows {b₀ : State} {s : State} (Hs : b₀.Follows s) (c : Nat) (sd : Nat) (a : Nat) (n : Nat) (op : Nat) (w : Bool) (y : W64) (z : W64) : b₀.Follows (scratchAmo s c sd a n op w y z) := by
  unfold scratchAmo
  try dsimp only
  repeat' first
    | with_reducible assumption | with_reducible apply scratchRead_follows | with_reducible apply seqPoison_follows
    | with_reducible apply setS_follows | with_reducible apply scratchWrite_follows | split

theorem memAmo_follows {b₀ : State} {s : State} (Hs : b₀.Follows s) (c : Nat) (sd : Nat) (a : Nat) (m : Nat) (n : Nat) (op : BitVec 4) (w : Bool) (y : W64) (z : W64) : b₀.Follows (memAmo s c sd a m n op w y z) := by
  unfold memAmo
  try dsimp only
  repeat' first
    | with_reducible assumption | with_reducible apply advance_follows | with_reducible apply setS_follows
    | with_reducible apply writeFailed_follows | with_reducible apply wsdWrite_follows | with_reducible apply openLoad_follows
    | with_reducible apply l1Access_follows | split

theorem amoIssue_follows {b₀ : State} {s : State} (Hs : b₀.Follows s) (c : Nat) (sd : Nat) (a : Nat) (op : BitVec 4) (w : Bool) (y : W64) (z : W64) : b₀.Follows (amoIssue s c sd a op w y z) := by
  unfold amoIssue
  try dsimp only
  repeat' first
    | with_reducible assumption | with_reducible apply faultOn_follows | with_reducible apply setS_follows | with_reducible apply advance_follows
    | with_reducible apply scratchAmo_follows | with_reducible apply memAmo_follows | with_reducible apply stall_follows
    | with_reducible apply remoteAmo_follows | split

theorem raddPoison_follows {b₀ : State} {s : State} (Hs : b₀.Follows s) (c : Nat) (poison : Bool) : b₀.Follows (raddPoison s c poison) := by
  unfold raddPoison
  try dsimp only
  repeat' first
    | with_reducible assumption | with_reducible apply markPoisoned_follows | split

theorem memRadd_follows {b₀ : State} {s : State} (Hs : b₀.Follows s) (c : Nat) (m : Nat) (typ : BitVec 2) (d : Line × Bool) : b₀.Follows (memRadd s c m typ d) := by
  unfold memRadd
  try dsimp only
  repeat' first
    | with_reducible assumption | with_reducible apply advance_follows | with_reducible apply writeFailed_follows
    | with_reducible apply wsdWrite_follows | with_reducible apply raddPoison_follows | with_reducible apply State.toHome_follows
    | with_reducible apply State.modCore_follows | split

theorem remoteRaddSend_follows {b₀ : State} {s : State} (Hs : b₀.Follows s) (c : Nat) (a : Nat) (typ : BitVec 2) (d : Line × Bool) : b₀.Follows (remoteRaddSend s c a typ d) := by
  unfold remoteRaddSend
  try dsimp only
  repeat' first
    | with_reducible assumption | with_reducible apply advance_follows | with_reducible apply remoteSend_follows
    | with_reducible apply raddPoison_follows | split

theorem raddIssue_follows {b₀ : State} {s : State} (Hs : b₀.Follows s) (c : Nat) (addr : Nat) (typ : BitVec 2) (d : Line × Bool) : b₀.Follows (raddIssue s c addr typ d) := by
  unfold raddIssue
  try dsimp only
  repeat' first
    | with_reducible assumption | with_reducible apply faultOn_follows | with_reducible apply memRadd_follows | with_reducible apply stall_follows
    | with_reducible apply remoteRaddSend_follows | split

theorem bufsOut_follows {b₀ : State} {s : State} (Hs : b₀.Follows s) (c : Nat) (p : Nat) (a : Nat) (n : Nat) : b₀.Follows (bufsOut s c p a n) := by
  unfold bufsOut
  try dsimp only
  repeat' first
    | with_reducible assumption | (with_reducible refine forEach_follows _ _ ?_ (fun _ _ _ => ?_)) | with_reducible apply wsdWrite_follows

theorem cacheInv_follows {b₀ : State} {s : State} (Hs : b₀.Follows s) (c : Nat) (p : Nat) (a : Nat) (n : Nat) : b₀.Follows (cacheInv s c p a n) := by
  unfold cacheInv
  try dsimp only
  repeat' first
    | with_reducible assumption | (with_reducible refine forEach_follows _ _ ?_ (fun _ _ _ => ?_)) | with_reducible apply l1Offer_follows | split

theorem cacheClean_follows {b₀ : State} {s : State} (Hs : b₀.Follows s) (c : Nat) (p : Nat) (a : Nat) (n : Nat) : b₀.Follows (cacheClean s c p a n) := by
  unfold cacheClean
  try dsimp only
  repeat' first
    | with_reducible assumption | (with_reducible refine forEach_follows _ _ ?_ (fun _ _ _ => ?_)) | with_reducible apply State.toHome_follows
    | with_reducible apply State.modCore_follows | split

theorem homeClean_follows {b₀ : State} {s : State} (Hs : b₀.Follows s) (p : Nat) (a : Nat) (n : Nat) : b₀.Follows (homeClean s p a n) := by
  unfold homeClean
  try dsimp only
  repeat' first
    | with_reducible assumption | (with_reducible refine forEach_follows _ _ ?_ (fun _ _ _ => ?_)) | with_reducible apply wayDecode_follows
    | with_reducible apply memWrite_follows | with_reducible apply State.setWayAt_follows | split

theorem cacheEnd_follows {b₀ : State} {s : State} (Hs : b₀.Follows s) (c : Nat) (sd : Nat) (bad : Option Nat) (v : Nat) : b₀.Follows (cacheEnd s c sd bad v) := by
  unfold cacheEnd
  try dsimp only
  repeat' first
    | with_reducible assumption | with_reducible apply setS_follows | with_reducible apply faultOn_follows | with_reducible apply advance_follows
    | split

theorem cacheIssue_follows {b₀ : State} {s : State} (Hs : b₀.Follows s) (c : Nat) (sd : Nat) (a : Nat) (n : Nat) (act : State → PartId → Option Nat → State) (Hact : ∀ (x0 : State) (x1 : PartId) (x2 : Option Nat), b₀.Follows x0 → b₀.Follows (act x0 x1 x2)) : b₀.Follows (cacheIssue s c sd a n act) := by
  unfold cacheIssue
  try dsimp only
  repeat' first
    | with_reducible assumption | with_reducible apply cacheEnd_follows | with_reducible apply Hact | split

theorem invIssue_follows {b₀ : State} {s : State} (Hs : b₀.Follows s) (c : Nat) (sd : Nat) (a : Nat) (n : Nat) : b₀.Follows (invIssue s c sd a n) := by
  unfold invIssue
  try dsimp only
  repeat' first
    | with_reducible assumption | (with_reducible refine cacheIssue_follows ?_ _ _ _ _ _ (fun _ _ _ _ => ?_)) | with_reducible apply bufsOut_follows
    | with_reducible apply cacheEnd_follows | with_reducible apply cacheInv_follows | split

theorem cleanIssue_follows {b₀ : State} {s : State} (Hs : b₀.Follows s) (c : Nat) (sd : Nat) (a : Nat) (n : Nat) (lvl : Bool) : b₀.Follows (cleanIssue s c sd a n lvl) := by
  unfold cleanIssue
  try dsimp only
  repeat' first
    | with_reducible assumption | (with_reducible refine cacheIssue_follows ?_ _ _ _ _ _ (fun _ _ _ _ => ?_)) | with_reducible apply bufsOut_follows
    | with_reducible apply cacheClean_follows | with_reducible apply cacheEnd_follows | with_reducible apply homeClean_follows | split

theorem pinIssue_follows {b₀ : State} {s : State} (Hs : b₀.Follows s) (c : Nat) (sd : Nat) (a : Nat) (n : Nat) : b₀.Follows (pinIssue s c sd a n) := by
  unfold pinIssue
  try dsimp only
  repeat' first
    | with_reducible assumption | (with_reducible refine cacheIssue_follows ?_ _ _ _ _ _ (fun _ _ _ _ => ?_))
    | (with_reducible refine pinAll_follows (by assumption) ?_) | with_reducible apply cacheEnd_follows | split

theorem unpinIssue_follows {b₀ : State} {s : State} (Hs : b₀.Follows s) (c : Nat) (sd : Nat) (a : Nat) (n : Nat) : b₀.Follows (unpinIssue s c sd a n) := by
  unfold unpinIssue
  try dsimp only
  repeat' first
    | with_reducible assumption | (with_reducible refine cacheIssue_follows ?_ _ _ _ _ _ (fun _ _ _ _ => ?_))
    | with_reducible apply cacheEnd_follows | with_reducible apply unpinAll_follows

theorem execLd_follows {b₀ s : State} (Hs : b₀.Follows s) (c : CoreId) (pg : BitVec 3) (sd : BitVec 5) (sa : BitVec 5) (size : BitVec 2) (sx : Bool) (imm : BitVec 32) : ∃ u₁, (execLd c pg sd sa size sx imm s) = .next u₁ ∧ b₀.Follows u₁ := by
  unfold execLd
  try dsimp only
  repeat' first
    | with_reducible assumption | (with_reducible refine issue_follows ?_ _ _ _ _ _ (fun _ _ => ?_)) | with_reducible apply ldIssue_follows
    | (with_reducible refine ⟨_, rfl, ?_⟩)

theorem execSt_follows {b₀ s : State} (Hs : b₀.Follows s) (c : CoreId) (pg : BitVec 3) (sb : BitVec 5) (sa : BitVec 5) (size : BitVec 2) (imm : BitVec 32) : ∃ u₁, (execSt c pg sb sa size imm s) = .next u₁ ∧ b₀.Follows u₁ := by
  unfold execSt
  try dsimp only
  repeat' first
    | with_reducible assumption | (with_reducible refine issue_follows ?_ _ _ _ _ _ (fun _ _ => ?_)) | with_reducible apply stIssue_follows
    | (with_reducible refine ⟨_, rfl, ?_⟩)

theorem execAmo_follows {b₀ s : State} (Hs : b₀.Follows s) (c : CoreId) (pg : BitVec 3) (sd : BitVec 5) (sa : BitVec 5) (sb : BitVec 5) (sc : BitVec 5) (op : BitVec 4) (w : Bool) : ∃ u₁, (execAmo c pg sd sa sb sc op w s) = .next u₁ ∧ b₀.Follows u₁ := by
  unfold execAmo
  try dsimp only
  repeat' first
    | with_reducible assumption | (with_reducible refine issue_follows ?_ _ _ _ _ _ (fun _ _ => ?_)) | with_reducible apply amoIssue_follows
    | (with_reducible refine ⟨_, rfl, ?_⟩)

theorem execRadd_follows {b₀ s : State} (Hs : b₀.Follows s) (c : CoreId) (pg : BitVec 3) (sa : BitVec 5) (oc : BitVec 7) (half : Bool) (typ : BitVec 2) (imm : BitVec 32) : ∃ u₁, (execRadd c pg sa oc half typ imm s) = .next u₁ ∧ b₀.Follows u₁ := by
  unfold execRadd
  try dsimp only
  repeat' first
    | with_reducible assumption | (with_reducible refine issue_follows ?_ _ _ _ _ _ (fun _ _ => ?_)) | with_reducible apply raddIssue_follows
    | (with_reducible refine ⟨_, rfl, ?_⟩)

theorem execCacheInv_follows {b₀ s : State} (Hs : b₀.Follows s) (c : CoreId) (pg : BitVec 3) (sd : BitVec 5) (sa : BitVec 5) (sb : BitVec 5) (lvl : Bool) : ∃ u₁, (execCacheInv c pg sd sa sb lvl s) = .next u₁ ∧ b₀.Follows u₁ := by
  unfold execCacheInv
  try dsimp only
  repeat' first
    | with_reducible assumption | (with_reducible refine issue_follows ?_ _ _ _ _ _ (fun _ _ => ?_)) | with_reducible apply invIssue_follows
    | (with_reducible refine ⟨_, rfl, ?_⟩)

theorem execCacheClean_follows {b₀ s : State} (Hs : b₀.Follows s) (c : CoreId) (pg : BitVec 3) (sd : BitVec 5) (sa : BitVec 5) (sb : BitVec 5) (lvl : Bool) : ∃ u₁, (execCacheClean c pg sd sa sb lvl s) = .next u₁ ∧ b₀.Follows u₁ := by
  unfold execCacheClean
  try dsimp only
  repeat' first
    | with_reducible assumption | (with_reducible refine issue_follows ?_ _ _ _ _ _ (fun _ _ => ?_)) | with_reducible apply cleanIssue_follows
    | (with_reducible refine ⟨_, rfl, ?_⟩)

theorem execCachePin_follows {b₀ s : State} (Hs : b₀.Follows s) (c : CoreId) (pg : BitVec 3) (sd : BitVec 5) (sa : BitVec 5) (sb : BitVec 5) (lvl : Bool) : ∃ u₁, (execCachePin c pg sd sa sb lvl s) = .next u₁ ∧ b₀.Follows u₁ := by
  unfold execCachePin
  try dsimp only
  repeat' first
    | with_reducible assumption | (with_reducible refine issue_follows ?_ _ _ _ _ _ (fun _ _ => ?_)) | with_reducible apply pinIssue_follows
    | (with_reducible refine ⟨_, rfl, ?_⟩)

theorem execCacheUnpin_follows {b₀ s : State} (Hs : b₀.Follows s) (c : CoreId) (pg : BitVec 3) (sd : BitVec 5) (sa : BitVec 5) (sb : BitVec 5) (lvl : Bool) : ∃ u₁, (execCacheUnpin c pg sd sa sb lvl s) = .next u₁ ∧ b₀.Follows u₁ := by
  unfold execCacheUnpin
  try dsimp only
  repeat' first
    | with_reducible assumption | (with_reducible refine issue_follows ?_ _ _ _ _ _ (fun _ _ => ?_)) | with_reducible apply unpinIssue_follows
    | (with_reducible refine ⟨_, rfl, ?_⟩)

end Sys2Proof.Machine
end

