-- ==== Sys2Proof/Laws/FollowSync.lean ====
section
/-!
SUPPORT. Every operation of Machine/Sync.lean gives a state that follows the one it is given.
-/
namespace Sys2Proof.Machine

theorem syncHold_follows {b₀ : State} {s : State} (Hs : b₀.Follows s) (c : Nat) (i : Instr) : b₀.Follows (syncHold s c i) := by
  unfold syncHold
  try dsimp only
  repeat' first
    | with_reducible assumption | with_reducible apply hold_follows | with_reducible apply State.countFree_follows

theorem acqFinish_follows {b₀ : State} {s : State} (Hs : b₀.Follows s) (c : Nat) (i : Instr) : b₀.Follows (acqFinish s c i) := by
  unfold acqFinish
  try dsimp only
  repeat' first
    | with_reducible assumption | with_reducible apply syncHold_follows | with_reducible apply advance_follows
    | with_reducible apply acquire_follows | split

theorem acqFault_follows {b₀ : State} {s : State} (Hs : b₀.Follows s) (c : Nat) (sd : Nat) (x : Nat) (i : Instr) : b₀.Follows (acqFault s c sd x i) := by
  unfold acqFault
  try dsimp only
  repeat' first
    | with_reducible assumption | with_reducible apply acqFinish_follows | with_reducible apply addrErr_follows | with_reducible apply setS_follows

theorem acqIssue_follows {b₀ : State} {s : State} (Hs : b₀.Follows s) (c : Nat) (i : Instr) (sd : Nat) (n : Nat) (a : Nat) (ld : Bool) : b₀.Follows (acqIssue s c i sd n a ld) := by
  unfold acqIssue
  try dsimp only
  repeat' first
    | with_reducible assumption | with_reducible apply acqFinish_follows | with_reducible apply acqFault_follows
    | with_reducible apply stall_follows | (with_reducible refine seqLoad_follows (by assumption) ?_) | split

theorem relStore_follows {b₀ : State} {s : State} (Hs : b₀.Follows s) (c : Nat) (n : Nat) (a : Nat) (v : Nat) : b₀.Follows (relStore s c n a v) := by
  unfold relStore
  try dsimp only
  repeat' first
    | with_reducible assumption | with_reducible apply faultOn_follows | with_reducible apply countRel_follows | with_reducible apply stall_follows
    | (with_reducible refine seqStore_follows ?_ _ _ _ _ _ _ _ (fun _ _ => ?_)) | with_reducible apply advance_follows | split

theorem relIssue_follows {b₀ : State} {s : State} (Hs : b₀.Follows s) (c : Nat) (i : Instr) (tier : Nat) (n : Nat) (a : Nat) (v : Nat) (st : Bool) : b₀.Follows (relIssue s c i tier n a v st) := by
  unfold relIssue
  try dsimp only
  repeat' first
    | with_reducible assumption | with_reducible apply releaseWait_follows | with_reducible apply syncHold_follows
    | with_reducible apply advance_follows | with_reducible apply countRel_follows | with_reducible apply suppress_follows
    | with_reducible apply relStore_follows | split

theorem fenceIssue_follows {b₀ : State} {s : State} (Hs : b₀.Follows s) (c : Nat) (i : Instr) (tier : Nat) : b₀.Follows (fenceIssue s c i tier) := by
  unfold fenceIssue
  try dsimp only
  repeat' first
    | with_reducible assumption | with_reducible apply releaseWait_follows | with_reducible apply syncHold_follows
    | with_reducible apply advance_follows | with_reducible apply countRel_follows | with_reducible apply suppress_follows | split

theorem barEnd_follows {b₀ : State} {s : State} (Hs : b₀.Follows s) (c : Nat) (i : Instr) (f : Bool) : b₀.Follows (barEnd s c i f) := by
  unfold barEnd
  try dsimp only
  repeat' first
    | with_reducible assumption | with_reducible apply syncHold_follows | with_reducible apply advance_follows
    | with_reducible apply acquire_follows | with_reducible apply State.modCore_follows | split

theorem barArrive_follows {b₀ : State} {s : State} (Hs : b₀.Follows s) (c : Nat) (scope : Nat) (id : Nat) (i : Instr) (stay : Bool) (f : Bool) : b₀.Follows (barArrive s c scope id i stay f) := by
  unfold barArrive
  try dsimp only
  repeat' first
    | with_reducible assumption | with_reducible apply barCheck_follows | with_reducible apply hold_follows | with_reducible apply barEnd_follows
    | with_reducible apply advance_follows | with_reducible apply State.modCore_follows | split

theorem barRelease_follows {b₀ : State} {s : State} (Hs : b₀.Follows s) (c : Nat) (scope : Nat) (id : Nat) (i : Instr) : b₀.Follows (barRelease s c scope id i) := by
  unfold barRelease
  try dsimp only
  repeat' first
    | with_reducible assumption | with_reducible apply releaseWait_follows | with_reducible apply syncHold_follows
    | with_reducible apply suppress_follows | with_reducible apply barArrive_follows | with_reducible apply countRel_follows
    | with_reducible apply State.modCore_follows | split

theorem barIssue_follows {b₀ : State} {s : State} (Hs : b₀.Follows s) (c : Nat) (i : Instr) (scope : Nat) (id : Nat) (w : Bool) (f : Bool) : b₀.Follows (barIssue s c i scope id w f) := by
  unfold barIssue
  try dsimp only
  repeat' first
    | with_reducible assumption | with_reducible apply hold_follows | with_reducible apply barEnd_follows | with_reducible apply barRelease_follows
    | with_reducible apply barArrive_follows | split

theorem execAcq_follows {b₀ s : State} (Hs : b₀.Follows s) (c : CoreId) (pg : BitVec 3) (sd : BitVec 5) (sa : BitVec 5) (scope : BitVec 3) (ld : Bool) (w : Bool) (imm : BitVec 32) : ∃ u₁, (execAcq c pg sd sa scope ld w imm s) = .next u₁ ∧ b₀.Follows u₁ := by
  unfold execAcq
  try dsimp only
  repeat' first
    | with_reducible assumption | (with_reducible refine issue_follows ?_ _ _ _ _ _ (fun _ _ => ?_)) | with_reducible apply acqIssue_follows
    | (with_reducible refine ⟨_, rfl, ?_⟩)

theorem execRel_follows {b₀ s : State} (Hs : b₀.Follows s) (c : CoreId) (pg : BitVec 3) (sb : BitVec 5) (sa : BitVec 5) (scope : BitVec 3) (st : Bool) (w : Bool) (imm : BitVec 32) : ∃ u₁, (execRel c pg sb sa scope st w imm s) = .next u₁ ∧ b₀.Follows u₁ := by
  unfold execRel
  try dsimp only
  repeat' first
    | with_reducible assumption | (with_reducible refine issue_follows ?_ _ _ _ _ _ (fun _ _ => ?_)) | with_reducible apply relIssue_follows
    | (with_reducible refine ⟨_, rfl, ?_⟩)

theorem execFence_follows {b₀ s : State} (Hs : b₀.Follows s) (c : CoreId) (pg : BitVec 3) (scope : BitVec 3) : ∃ u₁, (execFence c pg scope s) = .next u₁ ∧ b₀.Follows u₁ := by
  unfold execFence
  try dsimp only
  repeat' first
    | with_reducible assumption | (with_reducible refine issue_follows ?_ _ _ _ _ _ (fun _ _ => ?_)) | with_reducible apply fenceIssue_follows
    | (with_reducible refine ⟨_, rfl, ?_⟩)

theorem execBar_follows {b₀ s : State} (Hs : b₀.Follows s) (c : CoreId) (pg : BitVec 3) (scope : BitVec 3) (id : BitVec 2) (w : Bool) (f : Bool) : ∃ u₁, (execBar c pg scope id w f s) = .next u₁ ∧ b₀.Follows u₁ := by
  unfold execBar
  try dsimp only
  repeat' first
    | with_reducible assumption | (with_reducible refine issue_follows ?_ _ _ _ _ _ (fun _ _ => ?_)) | with_reducible apply barIssue_follows
    | (with_reducible refine ⟨_, rfl, ?_⟩)

end Sys2Proof.Machine
end

