-- ==== Sys2Proof/Laws/FollowCoherence.lean ====
section
/-!
SUPPORT. Every operation of Machine/Coherence.lean gives a state that follows the one it is given.
-/
namespace Sys2Proof.Machine

theorem portData_follows {b₀ : State} {s : State} (Hs : b₀.Follows s) : b₀.Follows (portData s) := by
  unfold portData
  try dsimp only
  repeat' first
    | with_reducible assumption | (with_reducible refine forEach_follows _ _ ?_ (fun _ _ _ => ?_)) | with_reducible apply moverData_follows
    | with_reducible apply inbData_follows | with_reducible apply State.recv_follows | split

theorem coherent_follows {b₀ : State} {s : State} (Hs : b₀.Follows s) : b₀.Follows (coherent s) := by
  unfold coherent
  try dsimp only
  repeat' first
    | with_reducible assumption | with_reducible apply portData_follows | with_reducible apply settleAll_follows

theorem onMsg_follows {b₀ s : State} (Hs : b₀.Follows s) (src : Ep) (dst : Ep) (l : LineNo) (b : MsgBody) (f : State → State) (Hf : ∀ (x0 : State), b₀.Follows x0 → b₀.Follows (f x0)) : ∃ u₁, (onMsg s src dst l b f) = .next u₁ ∧ b₀.Follows u₁ := by
  unfold onMsg
  try dsimp only
  repeat' first
    | with_reducible assumption | (with_reducible refine State.arrive_follows (by assumption) ?_) | with_reducible apply coherent_follows
    | with_reducible apply Hf | (with_reducible refine ⟨_, rfl, ?_⟩) | split

theorem onMsgTo_follows {b₀ s : State} (Hs : b₀.Follows s) (dst : Ep) (l : LineNo) (b : MsgBody) (f : State → State) (Hf : ∀ (x0 : State), b₀.Follows x0 → b₀.Follows (f x0)) : ∃ u₁, (onMsgTo s dst l b f) = .next u₁ ∧ b₀.Follows u₁ := by
  unfold onMsgTo
  try dsimp only
  repeat' first
    | with_reducible assumption | (with_reducible refine State.arriveTo_follows (by assumption) ?_) | with_reducible apply coherent_follows
    | with_reducible apply Hf | (with_reducible refine ⟨_, rfl, ?_⟩) | split

theorem onReq_follows {b₀ s : State} (Hs : b₀.Follows s) (src : Ep) (l : LineNo) (num : ReqNum) (key : Key) (b : MsgBody) (op : ReqOp) (cyc : Nat) (f : State → State) (Hf : ∀ (x0 : State), b₀.Follows x0 → b₀.Follows (f x0)) : ∃ u₁, (onReq s src l num key b op cyc f) = .next u₁ ∧ b₀.Follows u₁ := by
  unfold onReq
  try dsimp only
  repeat' first
    | with_reducible assumption | (with_reducible refine onMsg_follows ?_ _ _ _ _ _ (fun _ _ => ?_)) | with_reducible apply enter_follows
    | with_reducible apply Hf

theorem execGets_follows {b₀ s : State} (Hs : b₀.Follows s) (src : Ep) (sl : SliceId) (l : LineNo) (num : ReqNum) (key : Key) (ifetch : Bool) (cyc : Nat) : ∃ u₁, (execGets src sl l num key ifetch cyc s) = .next u₁ ∧ b₀.Follows u₁ := by
  unfold execGets
  try dsimp only
  repeat' first
    | with_reducible assumption | (with_reducible refine onMsg_follows ?_ _ _ _ _ _ (fun _ _ => ?_)) | with_reducible apply enter_follows
    | with_reducible apply repGets_follows | split

theorem execGetx_follows {b₀ s : State} (Hs : b₀.Follows s) (src : Ep) (l : LineNo) (num : ReqNum) (key : Key) (cyc : Nat) : ∃ u₁, (execGetx src l num key cyc s) = .next u₁ ∧ b₀.Follows u₁ :=
  onReq_follows Hs _ _ _ _ _ _ _ id (fun _ h => h)

theorem execUpg_follows {b₀ s : State} (Hs : b₀.Follows s) (src : Ep) (l : LineNo) (num : ReqNum) (key : Key) (cyc : Nat) : ∃ u₁, (execUpg src l num key cyc s) = .next u₁ ∧ b₀.Follows u₁ :=
  onReq_follows Hs _ _ _ _ _ _ _ id (fun _ h => h)

theorem execMrd_follows {b₀ s : State} (Hs : b₀.Follows s) (src : Ep) (l : LineNo) (num : ReqNum) (key : Key) (cyc : Nat) : ∃ u₁, (execMrd src l num key cyc s) = .next u₁ ∧ b₀.Follows u₁ :=
  onReq_follows Hs _ _ _ _ _ _ _ id (fun _ h => h)

theorem execMwr_follows {b₀ s : State} (Hs : b₀.Follows s) (src : Ep) (l : LineNo) (num : ReqNum) (key : Key) (d : Line) (be : BitVec 128) (poison : Bool) (cyc : Nat) : ∃ u₁, (execMwr src l num key d be poison cyc s) = .next u₁ ∧ b₀.Follows u₁ :=
  onReq_follows Hs _ _ _ _ _ _ _ id (fun _ h => h)

theorem execMwrs_follows {b₀ s : State} (Hs : b₀.Follows s) (src : Ep) (l : LineNo) (num : ReqNum) (key : Key) (d : Line) (be : BitVec 128) (poison : Bool) (cyc : Nat) : ∃ u₁, (execMwrs src l num key d be poison cyc s) = .next u₁ ∧ b₀.Follows u₁ :=
  onReq_follows Hs _ _ _ _ _ _ _ id (fun _ h => h)

theorem execAmoH_follows {b₀ s : State} (Hs : b₀.Follows s) (src : Ep) (l : LineNo) (num : ReqNum) (key : Key) (off : BitVec 7) (op : BitVec 4) (w : Bool) (x : W64) (y : W64) (cyc : Nat) : ∃ u₁, (execAmoH src l num key off op w x y cyc s) = .next u₁ ∧ b₀.Follows u₁ :=
  onReq_follows Hs _ _ _ _ _ _ _ id (fun _ h => h)

theorem refusedWrite_follows {b₀ : State} {s : State} (Hs : b₀.Follows s) (c : Nat) (l : LineNo) : b₀.Follows (refusedWrite s c l) := by
  unfold refusedWrite
  try dsimp only
  repeat' first
    | with_reducible assumption | with_reducible apply writeFailed_follows | split

theorem execSwr_follows {b₀ s : State} (Hs : b₀.Follows s) (c : CoreId) (l : LineNo) (d : Line) (be : BitVec 128) (poison : Bool) (cyc : Nat) : ∃ u₁, (execSwr c l d be poison cyc s) = .next u₁ ∧ b₀.Follows u₁ := by
  unfold execSwr
  try dsimp only
  repeat' first
    | with_reducible assumption | (with_reducible refine onReq_follows ?_ _ _ _ _ _ _ _ _ (fun _ _ => ?_))
    | with_reducible apply refusedWrite_follows | with_reducible apply State.modCore_follows

theorem raddEntered_follows {b₀ : State} {s : State} (Hs : b₀.Follows s) (src : Ep) (l : LineNo) : b₀.Follows (raddEntered s src l) := by
  unfold raddEntered
  try dsimp only
  repeat' first
    | with_reducible assumption | with_reducible apply refusedWrite_follows | with_reducible apply inbDone_follows
    | with_reducible apply State.modCore_follows | split

theorem execRaddMsg_follows {b₀ s : State} (Hs : b₀.Follows s) (src : Ep) (l : LineNo) (num : ReqNum) (key : Key) (typ : BitVec 2) (d : Line) (poison : Bool) (cyc : Nat) : ∃ u₁, (execRaddMsg src l num key typ d poison cyc s) = .next u₁ ∧ b₀.Follows u₁ := by
  unfold execRaddMsg
  try dsimp only
  repeat' first
    | with_reducible assumption | (with_reducible refine onReq_follows ?_ _ _ _ _ _ _ _ _ (fun _ _ => ?_))
    | with_reducible apply raddEntered_follows

theorem execVictC_follows {b₀ s : State} (Hs : b₀.Follows s) (c : CoreId) (l : LineNo) (key : Key) : ∃ u₁, (execVictC c l key s) = .next u₁ ∧ b₀.Follows u₁ := by
  unfold execVictC
  try dsimp only
  repeat' first
    | with_reducible assumption | (with_reducible refine onMsg_follows ?_ _ _ _ _ _ (fun _ _ => ?_)) | with_reducible apply victim_follows | split

theorem dirtyArrives_follows {b₀ s : State} (Hs : b₀.Follows s) (l : LineNo) (r : Result) (Hr : ∃ u₁, r = .next u₁ ∧ b₀.Follows u₁) :
    ∃ u₁, dirtyArrives s l r = .next u₁ ∧ b₀.Follows u₁ := by
  unfold dirtyArrives
  split
  · exact ⟨_, rfl, State.countFree_follows Hs _⟩
  · exact Hr

theorem execVictD_follows {b₀ s : State} (Hs : b₀.Follows s) (c : CoreId) (l : LineNo) (d : Line) (poison : Bool) : ∃ u₁, (execVictD c l d poison s) = .next u₁ ∧ b₀.Follows u₁ := by
  unfold execVictD
  try dsimp only
  repeat' first
    | with_reducible assumption | with_reducible apply dirtyArrives_follows | (with_reducible refine onMsg_follows ?_ _ _ _ _ _ (fun _ _ => ?_))
    | with_reducible apply victim_follows

theorem execCleanD_follows {b₀ s : State} (Hs : b₀.Follows s) (c : CoreId) (l : LineNo) (d : Line) (poison : Bool) : ∃ u₁, (execCleanD c l d poison s) = .next u₁ ∧ b₀.Follows u₁ := by
  unfold execCleanD
  try dsimp only
  repeat' first
    | with_reducible assumption | with_reducible apply dirtyArrives_follows | (with_reducible refine onMsg_follows ?_ _ _ _ _ _ (fun _ _ => ?_))
    | with_reducible apply cleanData_follows

theorem offerSettled_follows {b₀ : State} {s : State} (Hs : b₀.Follows s) (c : Nat) (l : LineNo) : b₀.Follows (offerSettled s c l) := by
  unfold offerSettled
  try dsimp only
  repeat' first
    | with_reducible assumption | with_reducible apply sendMiss_follows | with_reducible apply State.modCore_follows | split

theorem execWbAck_follows {b₀ s : State} (Hs : b₀.Follows s) (c : CoreId) (l : LineNo) (accepted : Bool) : ∃ u₁, (execWbAck c l accepted s) = .next u₁ ∧ b₀.Follows u₁ := by
  unfold execWbAck
  try dsimp only
  repeat' first
    | with_reducible assumption | (with_reducible refine onMsgTo_follows ?_ _ _ _ _ (fun _ _ => ?_)) | with_reducible apply offerSettled_follows

theorem dirLost_follows {b₀ : State} {s : State} (Hs : b₀.Follows s) (l : LineNo) : b₀.Follows (dirLost s l) := by
  unfold dirLost
  try dsimp only
  repeat' first
    | with_reducible assumption | with_reducible apply purge_follows | with_reducible apply setDir_follows
    | (with_reducible refine forEach_follows _ _ ?_ (fun _ _ _ => ?_)) | with_reducible apply State.count_follows
    | with_reducible apply errRecord_follows | with_reducible apply writeThrough_follows | with_reducible apply containPart_follows
    | with_reducible apply State.addWrap_follows | split

theorem fatalFound_follows {b₀ : State} {s : State} (Hs : b₀.Follows s) (die : Nat) (r : ErrRec) : b₀.Follows (fatalFound s die r) := by
  unfold fatalFound
  try dsimp only
  repeat' first
    | with_reducible assumption | with_reducible apply reloadStop_follows | with_reducible apply fatalError_follows
    | with_reducible apply errRecord_follows

theorem hwError_follows {b₀ : State} {s : State} (Hs : b₀.Follows s) (e : HwErr) : b₀.Follows (hwError s e) := by
  unfold hwError
  try dsimp only
  repeat' first
    | with_reducible assumption | with_reducible apply containCar_follows | with_reducible apply errRecord_follows
    | with_reducible apply State.setBad_follows | (with_reducible refine forEach_follows _ _ ?_ (fun _ _ _ => ?_))
    | with_reducible apply State.setWayAt_follows | with_reducible apply dirLost_follows | with_reducible apply fatalFound_follows
    | with_reducible apply State.setReg_follows | with_reducible apply State.modCore_follows | split | with_reducible apply State.Follows.with

theorem execTransactionBegin_follows {b₀ s : State} (Hs : b₀.Follows s) (l : LineNo) (ue : Bool) : ∃ u₁, (execTransactionBegin l ue s) = .next u₁ ∧ b₀.Follows u₁ := by
  unfold execTransactionBegin
  try dsimp only
  repeat' first
    | with_reducible assumption | with_reducible apply abortsGo_follows | with_reducible apply coherent_follows
    | with_reducible apply takeNext_follows | with_reducible apply dirLost_follows | (with_reducible refine ⟨_, rfl, ?_⟩) | split

theorem execDataS_follows {b₀ s : State} (Hs : b₀.Follows s) (c : CoreId) (l : LineNo) (d : Line) (poison : Bool) : ∃ u₁, (execDataS c l d poison s) = .next u₁ ∧ b₀.Follows u₁ := by
  unfold execDataS
  try dsimp only
  repeat' first
    | with_reducible assumption | (with_reducible refine onMsgTo_follows ?_ _ _ _ _ (fun _ _ => ?_)) | with_reducible apply l1Fill_follows

theorem execDataE_follows {b₀ s : State} (Hs : b₀.Follows s) (c : CoreId) (l : LineNo) (d : Line) (poison : Bool) : ∃ u₁, (execDataE c l d poison s) = .next u₁ ∧ b₀.Follows u₁ := by
  unfold execDataE
  try dsimp only
  repeat' first
    | with_reducible assumption | (with_reducible refine onMsgTo_follows ?_ _ _ _ _ (fun _ _ => ?_)) | with_reducible apply l1Fill_follows

theorem execDataM_follows {b₀ s : State} (Hs : b₀.Follows s) (c : CoreId) (l : LineNo) (d : Line) (poison : Bool) : ∃ u₁, (execDataM c l d poison s) = .next u₁ ∧ b₀.Follows u₁ := by
  unfold execDataM
  try dsimp only
  repeat' first
    | with_reducible assumption | (with_reducible refine onMsgTo_follows ?_ _ _ _ _ (fun _ _ => ?_)) | with_reducible apply l1Fill_follows

theorem execGrant_follows {b₀ s : State} (Hs : b₀.Follows s) (c : CoreId) (l : LineNo) : ∃ u₁, (execGrant c l s) = .next u₁ ∧ b₀.Follows u₁ := by
  unfold execGrant
  try dsimp only
  repeat' first
    | with_reducible assumption | (with_reducible refine onMsgTo_follows ?_ _ _ _ _ (fun _ _ => ?_)) | with_reducible apply l1Grant_follows

theorem onForward_follows {b₀ s : State} (Hs : b₀.Follows s) (c : CoreId) (l : LineNo) (b : MsgBody) : ∃ u₁, (onForward s c l b) = .next u₁ ∧ b₀.Follows u₁ := by
  unfold onForward
  try dsimp only
  repeat' first
    | with_reducible assumption | (with_reducible refine onMsgTo_follows ?_ _ _ _ _ (fun _ _ => ?_)) | with_reducible apply l1Forward_follows

theorem execFwdGets_follows {b₀ s : State} (Hs : b₀.Follows s) (c : CoreId) (l : LineNo) (num : ReqNum) (ifetch : Bool) : ∃ u₁, (execFwdGets c l num ifetch s) = .next u₁ ∧ b₀.Follows u₁ := by
  unfold execFwdGets
  try dsimp only
  repeat' first
    | with_reducible assumption | with_reducible apply onForward_follows

theorem execFwdGetx_follows {b₀ s : State} (Hs : b₀.Follows s) (c : CoreId) (l : LineNo) (num : ReqNum) : ∃ u₁, (execFwdGetx c l num s) = .next u₁ ∧ b₀.Follows u₁ := by
  unfold execFwdGetx
  try dsimp only
  repeat' first
    | with_reducible assumption | with_reducible apply onForward_follows

theorem execFwdRd_follows {b₀ s : State} (Hs : b₀.Follows s) (c : CoreId) (l : LineNo) : ∃ u₁, (execFwdRd c l s) = .next u₁ ∧ b₀.Follows u₁ := by
  unfold execFwdRd
  try dsimp only
  repeat' first
    | with_reducible assumption | with_reducible apply onForward_follows

theorem execRecall_follows {b₀ s : State} (Hs : b₀.Follows s) (c : CoreId) (l : LineNo) (keepS : Bool) : ∃ u₁, (execRecall c l keepS s) = .next u₁ ∧ b₀.Follows u₁ := by
  unfold execRecall
  try dsimp only
  repeat' first
    | with_reducible assumption | with_reducible apply onForward_follows

theorem invArrives_follows {b₀ : State} {s : State} (Hs : b₀.Follows s) (src : Ep) (c : Nat) (l : LineNo) : b₀.Follows (invArrives s src c l) := by
  unfold invArrives
  try dsimp only
  repeat' first
    | with_reducible assumption | with_reducible apply l1Inv_follows | with_reducible apply State.send_follows

theorem execInv_follows {b₀ s : State} (Hs : b₀.Follows s) (src : Ep) (c : CoreId) (l : LineNo) : ∃ u₁, (execInv src c l s) = .next u₁ ∧ b₀.Follows u₁ := by
  unfold execInv
  try dsimp only
  repeat' first
    | with_reducible assumption | (with_reducible refine onMsg_follows ?_ _ _ _ _ _ (fun _ _ => ?_)) | with_reducible apply invArrives_follows

theorem execHoldExpire_follows {b₀ s : State} (Hs : b₀.Follows s) (c : CoreId) (l : LineNo) : ∃ u₁, (execHoldExpire c l s) = .next u₁ ∧ b₀.Follows u₁ := by
  unfold execHoldExpire
  try dsimp only
  repeat' first
    | with_reducible assumption | with_reducible apply coherent_follows | with_reducible apply holdEnd_follows
    | (with_reducible refine ⟨_, rfl, ?_⟩)

theorem execBinv_follows {b₀ s : State} (Hs : b₀.Follows s) (die : Fin 8) (l : LineNo) : ∃ u₁, (execBinv die l s) = .next u₁ ∧ b₀.Follows u₁ := by
  unfold execBinv
  try dsimp only
  repeat' first
    | with_reducible assumption | (with_reducible refine onMsg_follows ?_ _ _ _ _ _ (fun _ _ => ?_)) | with_reducible apply pathBinv_follows

theorem execInvAck_follows {b₀ s : State} (Hs : b₀.Follows s) (c : CoreId) (dst : Ep) (l : LineNo) : ∃ u₁, (execInvAck c dst l s) = .next u₁ ∧ b₀.Follows u₁ := by
  unfold execInvAck
  try dsimp only
  repeat' first
    | with_reducible assumption | (with_reducible refine onMsg_follows ?_ _ _ _ _ _ (fun _ _ => ?_)) | with_reducible apply homeInvAck_follows
    | with_reducible apply repInvAck_follows | with_reducible apply pathInvAck_follows | split

theorem execBinvAck_follows {b₀ s : State} (Hs : b₀.Follows s) (die : Fin 8) (l : LineNo) : ∃ u₁, (execBinvAck die l s) = .next u₁ ∧ b₀.Follows u₁ := by
  unfold execBinvAck
  try dsimp only
  repeat' first
    | with_reducible assumption | (with_reducible refine onMsg_follows ?_ _ _ _ _ _ (fun _ _ => ?_)) | with_reducible apply homeBinvAck_follows

theorem execFwdDone_follows {b₀ s : State} (Hs : b₀.Follows s) (c : CoreId) (l : LineNo) (dirty : Bool) (st : Option Moesi) (d : Option (Line × Bool)) : ∃ u₁, (execFwdDone c l dirty st d s) = .next u₁ ∧ b₀.Follows u₁ := by
  unfold execFwdDone
  try dsimp only
  repeat' first
    | with_reducible assumption | (with_reducible refine onMsg_follows ?_ _ _ _ _ _ (fun _ _ => ?_)) | with_reducible apply homeFwdDone_follows

theorem execFwdMiss_follows {b₀ s : State} (Hs : b₀.Follows s) (c : CoreId) (l : LineNo) : ∃ u₁, (execFwdMiss c l s) = .next u₁ ∧ b₀.Follows u₁ := by
  unfold execFwdMiss
  try dsimp only
  repeat' first
    | with_reducible assumption | (with_reducible refine onMsg_follows ?_ _ _ _ _ _ (fun _ _ => ?_)) | with_reducible apply homeFwdMiss_follows

theorem execRecallData_follows {b₀ s : State} (Hs : b₀.Follows s) (c : CoreId) (l : LineNo) (d : Line) (poison : Bool) (dirty : Bool) : ∃ u₁, (execRecallData c l d poison dirty s) = .next u₁ ∧ b₀.Follows u₁ := by
  unfold execRecallData
  try dsimp only
  repeat' first
    | with_reducible assumption | (with_reducible refine onMsg_follows ?_ _ _ _ _ _ (fun _ _ => ?_)) | with_reducible apply homeRecall_follows

theorem execRepData_follows {b₀ s : State} (Hs : b₀.Follows s) (sl : SliceId) (l : LineNo) (d : Line) (poison : Bool) (num : ReqNum) (key : Key) (ifetch : Bool) : ∃ u₁, (execRepData sl l d poison num key ifetch s) = .next u₁ ∧ b₀.Follows u₁ := by
  unfold execRepData
  try dsimp only
  repeat' first
    | with_reducible assumption | (with_reducible refine onMsgTo_follows ?_ _ _ _ _ (fun _ _ => ?_)) | with_reducible apply repFill_follows

theorem execRepFwd_follows {b₀ s : State} (Hs : b₀.Follows s) (sl : SliceId) (l : LineNo) (num : ReqNum) (key : Key) (ifetch : Bool) (dst : Option SliceId) : ∃ u₁, (execRepFwd sl l num key ifetch dst s) = .next u₁ ∧ b₀.Follows u₁ := by
  unfold execRepFwd
  try dsimp only
  repeat' first
    | with_reducible assumption | (with_reducible refine onMsgTo_follows ?_ _ _ _ _ (fun _ _ => ?_)) | with_reducible apply repServe_follows

theorem execRepInv_follows {b₀ s : State} (Hs : b₀.Follows s) (sl : SliceId) (l : LineNo) : ∃ u₁, (execRepInv sl l s) = .next u₁ ∧ b₀.Follows u₁ := by
  unfold execRepInv
  try dsimp only
  repeat' first
    | with_reducible assumption | (with_reducible refine onMsg_follows ?_ _ _ _ _ _ (fun _ _ => ?_)) | with_reducible apply repInvalidate_follows

theorem execRepAck_follows {b₀ s : State} (Hs : b₀.Follows s) (sl : SliceId) (l : LineNo) : ∃ u₁, (execRepAck sl l s) = .next u₁ ∧ b₀.Follows u₁ := by
  unfold execRepAck
  try dsimp only
  repeat' first
    | with_reducible assumption | (with_reducible refine onMsg_follows ?_ _ _ _ _ _ (fun _ _ => ?_)) | with_reducible apply homeRepAck_follows

theorem execRepDrop_follows {b₀ s : State} (Hs : b₀.Follows s) (sl : SliceId) (l : LineNo) : ∃ u₁, (execRepDrop sl l s) = .next u₁ ∧ b₀.Follows u₁ := by
  unfold execRepDrop
  try dsimp only
  repeat' first
    | with_reducible assumption | (with_reducible refine onMsg_follows ?_ _ _ _ _ _ (fun _ _ => ?_)) | with_reducible apply homeRepDrop_follows

theorem receiptDone_follows {b₀ : State} {s : State} (Hs : b₀.Follows s) (l : LineNo) : b₀.Follows (receiptDone s l) := by
  unfold receiptDone
  try dsimp only
  repeat' first
    | with_reducible assumption | with_reducible apply unbindCheck_follows | with_reducible apply receiptMsix_follows
    | with_reducible apply State.modInst_follows | split

theorem execDone_follows {b₀ s : State} (Hs : b₀.Follows s) (dst : Ep) (l : LineNo) (status : BitVec 4) (old : OldVal) : ∃ u₁, (execDone dst l status old s) = .next u₁ ∧ b₀.Follows u₁ := by
  unfold execDone
  try dsimp only
  repeat' first
    | with_reducible assumption | (with_reducible refine onMsgTo_follows ?_ _ _ _ _ (fun _ _ => ?_)) | with_reducible apply moverDone_follows
    | with_reducible apply receiptDone_follows | with_reducible apply inbDone_follows | split

theorem execPieceIssue_follows {b₀ s : State} (Hs : b₀.Follows s) (c : CoreId) (tag : BitVec 8) (found : List HwErr) (now : Nat) : ∃ u₁, (execPieceIssue c tag found now s) = .next u₁ ∧ b₀.Follows u₁ := by
  unfold execPieceIssue
  try dsimp only
  repeat' first
    | with_reducible assumption | with_reducible apply pieceIssue_follows | with_reducible apply abortsGo_follows
    | with_reducible apply coherent_follows | (with_reducible refine forEach_follows _ _ ?_ (fun _ _ _ => ?_))
    | with_reducible apply hwError_follows | with_reducible apply State.at_follows | (with_reducible refine ⟨_, rfl, ?_⟩) | split

theorem execVictimBufferWrite_follows {b₀ s : State} (Hs : b₀.Follows s) (sl : SliceId) (l : LineNo) : ∃ u₁, (execVictimBufferWrite sl l s) = .next u₁ ∧ b₀.Follows u₁ := by
  unfold execVictimBufferWrite
  try dsimp only
  repeat' first
    | with_reducible assumption | with_reducible apply coherent_follows | with_reducible apply bufIssue_follows
    | (with_reducible refine ⟨_, rfl, ?_⟩)

theorem execMemoryReadReturn_follows {b₀ s : State} (Hs : b₀.Follows s) (l : LineNo) (pri : List ReadRes) (copy : List ReadRes) (found : List HwErr) (now : Nat) : ∃ u₁, (execMemoryReadReturn l pri copy found now s) = .next u₁ ∧ b₀.Follows u₁ := by
  unfold execMemoryReadReturn
  try dsimp only
  repeat' first
    | with_reducible assumption | with_reducible apply abortsGo_follows | with_reducible apply coherent_follows
    | (with_reducible refine forEach_follows _ _ ?_ (fun _ _ _ => ?_)) | with_reducible apply memReturn_follows
    | with_reducible apply hwError_follows | with_reducible apply State.at_follows | (with_reducible refine ⟨_, rfl, ?_⟩)

theorem execMemoryWriteComplete_follows {b₀ s : State} (Hs : b₀.Follows s) (l : LineNo) : ∃ u₁, (execMemoryWriteComplete l s) = .next u₁ ∧ b₀.Follows u₁ := by
  unfold execMemoryWriteComplete
  try dsimp only
  repeat' first
    | with_reducible assumption | with_reducible apply coherent_follows | with_reducible apply memWriteDone_follows
    | (with_reducible refine ⟨_, rfl, ?_⟩)

end Sys2Proof.Machine
end

