-- ==== Sys2Proof/Laws/FollowInbound.lean ====
section
/-!
SUPPORT. Every operation of Machine/Inbound.lean gives a state that follows the one it is given.
-/
namespace Sys2Proof.Machine

theorem denied_follows {b₀ : State} {s : State} (Hs : b₀.Follows s) (p : Nat) : b₀.Follows (denied s p) := by
  unfold denied
  try dsimp only
  repeat' first
    | with_reducible assumption | with_reducible apply State.incSat_follows

theorem enterPosted_follows {b₀ : State} {s : State} (Hs : b₀.Follows s) (p : Nat) : b₀.Follows (enterPosted s p) := by
  unfold enterPosted
  try dsimp only
  repeat' first
    | with_reducible assumption | (with_reducible refine forEach_follows _ _ ?_ (fun _ _ _ => ?_)) | with_reducible apply enter_follows
    | with_reducible apply State.recv_follows | split

theorem bar2Write_follows {b₀ : State} {s : State} (Hs : b₀.Follows s) (p : Nat) (rq : InReq) (a : Nat) (d : List Byte) (ep : Bool) : b₀.Follows (bar2Write s p rq a d ep) := by
  unfold bar2Write
  try dsimp only
  repeat' first
    | with_reducible assumption | with_reducible apply enterPosted_follows | (with_reducible refine forEach_follows _ _ ?_ (fun _ _ _ => ?_))
    | with_reducible apply inbOpen_follows | with_reducible apply State.send_follows | split

theorem bar2Read_follows {b₀ : State} {s : State} (Hs : b₀.Follows s) (p : Nat) (a : Nat) (n : Nat) : b₀.Follows (bar2Read s p a n) := by
  unfold bar2Read
  try dsimp only
  repeat' first
    | with_reducible assumption | with_reducible apply enterPosted_follows | (with_reducible refine forEach_follows _ _ ?_ (fun _ _ _ => ?_))
    | with_reducible apply inbOpen_follows | with_reducible apply State.send_follows | with_reducible apply State.out_follows | split

theorem bar2Atomic_follows {b₀ : State} {s : State} (Hs : b₀.Follows s) (p : Nat) (a : Nat) (n : Nat) (op : BitVec 4) (x : W64) (y : W64) : b₀.Follows (bar2Atomic s p a n op x y) := by
  unfold bar2Atomic
  try dsimp only
  repeat' first
    | with_reducible assumption | with_reducible apply enterPosted_follows | with_reducible apply inbOpen_follows
    | with_reducible apply State.send_follows

theorem inboundWrite_follows {b₀ : State} {s : State} (Hs : b₀.Follows s) (p : Nat) (rq : InReq) (bar : Nat) (x : Nat) (d : List Byte) (ep : Bool) : b₀.Follows (inboundWrite s p rq bar x d ep) := by
  unfold inboundWrite
  try dsimp only
  repeat' first
    | with_reducible assumption | with_reducible apply bar2Write_follows | with_reducible apply aerLog_follows | with_reducible apply denied_follows
    | with_reducible apply enterPosted_follows | with_reducible apply regWrite_follows | split

theorem inboundRead_follows {b₀ : State} {s : State} (Hs : b₀.Follows s) (p : Nat) (rq : InReq) (bar : Nat) (x : Nat) (n : Nat) : b₀.Follows (inboundRead s p rq bar x n) := by
  unfold inboundRead
  try dsimp only
  repeat' first
    | with_reducible assumption | with_reducible apply bar2Read_follows | with_reducible apply denied_follows
    | with_reducible apply enterPosted_follows | with_reducible apply regRead_follows | with_reducible apply State.out_follows | split

theorem inboundAtomic_follows {b₀ : State} {s : State} (Hs : b₀.Follows s) (p : Nat) (rq : InReq) (bar : Nat) (off : Nat) (op : Nat) (wid : Nat) (x : W64) (y : W64) (ep : Bool) : b₀.Follows (inboundAtomic s p rq bar off op wid x y ep) := by
  unfold inboundAtomic
  try dsimp only
  repeat' first
    | with_reducible assumption | with_reducible apply denied_follows | with_reducible apply enterPosted_follows
    | with_reducible apply bar2Atomic_follows | with_reducible apply State.out_follows | split

theorem execInboundWrite_follows {b₀ s : State} (Hs : b₀.Follows s) (p : PortId) (rq : InReq) (bar : BitVec 3) (off : BitVec 42) (d : List Byte) (ep : Bool) : ∃ u₁, (execInboundWrite p rq bar off d ep s) = .next u₁ ∧ b₀.Follows u₁ := by
  unfold execInboundWrite
  try dsimp only
  repeat' first
    | with_reducible assumption | with_reducible apply abortsGo_follows | with_reducible apply inboundWrite_follows
    | (with_reducible refine ⟨_, rfl, ?_⟩) | split

theorem execInboundRead_follows {b₀ s : State} (Hs : b₀.Follows s) (p : PortId) (rq : InReq) (bar : BitVec 3) (off : BitVec 42) (len : Nat) : ∃ u₁, (execInboundRead p rq bar off len s) = .next u₁ ∧ b₀.Follows u₁ := by
  unfold execInboundRead
  try dsimp only
  repeat' first
    | with_reducible assumption | with_reducible apply inboundRead_follows | (with_reducible refine ⟨_, rfl, ?_⟩) | split

theorem execInboundAtomicop_follows {b₀ s : State} (Hs : b₀.Follows s) (p : PortId) (rq : InReq) (bar : BitVec 3) (off : BitVec 42) (op : BitVec 2) (wid : BitVec 2) (x : W64) (y : W64) (ep : Bool) : ∃ u₁, (execInboundAtomicop p rq bar off op wid x y ep s) = .next u₁ ∧ b₀.Follows u₁ := by
  unfold execInboundAtomicop
  try dsimp only
  repeat' first
    | with_reducible assumption | with_reducible apply inboundAtomic_follows | (with_reducible refine ⟨_, rfl, ?_⟩) | split

end Sys2Proof.Machine
end

