-- ==== Sys2Proof/Laws/Issue.lean ====
section
/-!
SUPPORT. What the sequencer's shared operations do: one issue attempt (R82), the writes of an s, p or m register with the step to the next
instruction, a branch, and the entry that an engine instruction leaves in its queue (R83).
-/
namespace Sys2Proof.Machine

/-! ### One issue attempt -/

/-- An instruction that issues acts. -/
theorem issue_run {s : State} {c : CoreId} {i : Instr} {pg : BitVec 3} {reads : List PendReg} (h : s.Issues c i pg reads) (go : State → State) :
    issue s c i pg reads go = go s := by
  simp [issue, h.issuing, h.legal, h.guard, h.ready, h.reads]

/-- A reserved encoding is a bad operation. -/
theorem issue_reserved {s : State} {c : CoreId} {i : Instr} {pg : BitVec 3} {reads : List PendReg} (h : (s.core c.toNat).issuing i = true)
    (r : reservedOp i = true) (go : State → State) : issue s c i pg reads go = badOp s c.toNat := by
  simp [issue, h, r]

/-- A guard that waits for its writer stalls issue. -/
theorem issue_pending {s : State} {c : CoreId} {i : Instr} {pg : BitVec 3} {reads : List PendReg} (h : (s.core c.toNat).issuing i = true)
    (r : reservedOp i = false) (p : (s.core c.toNat).pPend pg.toNat = true) (go : State → State) :
    issue s c i pg reads go = stall s c.toNat Fld.CORE_STALL_reg_wait := by
  simp [issue, h, r, p]

/-- A false guard only takes the issue cycle. -/
theorem issue_false {s : State} {c : CoreId} {i : Instr} {pg : BitVec 3} {reads : List PendReg} (h : (s.core c.toNat).issuing i = true)
    (r : reservedOp i = false) (p : (s.core c.toNat).pPend pg.toNat = false) (g : (s.core c.toNat).pr pg.toNat = false) (go : State → State) :
    issue s c i pg reads go = advance s c.toNat := by
  simp [issue, h, r, p, g]

/-! ### What changes -/

theorem State.OnlyCore.refl (s : State) (c : Nat) : s.OnlyCore s c := ⟨rfl, fun _ _ => rfl⟩

theorem State.OnlyCore.modCore {s t : State} {c : Nat} (h : s.OnlyCore t c) (f : Core → Core) : s.OnlyCore (t.modCore c f) c :=
  ⟨by conv => lhs; rw [h.rest]
      rfl,
   fun d hd => (State.core_modCore_ne t f (Ne.symm hd)).trans (h.others d hd)⟩

theorem State.OnlyCore.drawn {s t : State} {c : Nat} (h : s.OnlyCore t c) : s.OnlyCore t.drawn c :=
  ⟨by conv => lhs; rw [h.rest]
      rfl,
   fun d hd => h.others d hd⟩

theorem Core.SeqOnly.refl (k : Core) : k.SeqOnly k := rfl

theorem Core.SeqOnly.dropPend {k k' : Core} (h : k.SeqOnly k') (r : PendReg) : k.SeqOnly (k'.dropPend r) := by
  unfold Core.SeqOnly at *; conv => lhs; rw [h]
  rfl

theorem Core.SeqOnly.setSr {k k' : Core} (h : k.SeqOnly k') (n : Nat) (v : W64) : k.SeqOnly (k'.setSr n v) := by
  unfold Core.SeqOnly Core.setSr at *
  split
  · exact h
  · conv => lhs; rw [h]

theorem Core.SeqOnly.setPr {k k' : Core} (h : k.SeqOnly k') (n : Nat) (b : Bool) : k.SeqOnly (k'.setPr n b) := by
  unfold Core.SeqOnly Core.setPr at *
  split
  · exact h
  · conv => lhs; rw [h]

theorem Core.SeqOnly.setMr {k k' : Core} (h : k.SeqOnly k') (n : Nat) (v : W64) : k.SeqOnly (k'.setMr n v) := by
  unfold Core.SeqOnly Core.setMr at *
  conv => lhs; rw [h]

theorem Core.SeqOnly.go {k k' : Core} (h : k.SeqOnly k') (x : Phase) (y : BitVec 52) : k.SeqOnly { k' with phase := x, pc := y } := by
  unfold Core.SeqOnly at *; conv => lhs; rw [h]

/-! ### Register writes -/

theorem written_sr (k : Core) (n j : Nat) (v : W64) : (k.setSr n v).sr j = written k.sr n (some 0) v j := by
  rw [Core.sr_setSr]
  unfold written
  by_cases h : j = n
  · subst h; by_cases hn : j = 0 <;> simp [hn]
  · simp [h]

theorem written_pr (k : Core) (n j : Nat) (b : Bool) (hn : n < 8) (hj : j < 8) : (k.setPr n b).pr j = written k.pr n (some 0) b j := by
  rw [Core.pr_setPr k n j b hn hj]
  unfold written
  by_cases h : j = n
  · subst h; by_cases hn : j = 0 <;> simp [hn]
  · simp [h]

theorem written_mr (k : Core) (n j : Nat) (v : W64) : (k.setMr n v).mr j = written k.mr n none v j := by
  rw [Core.mr_setMr]
  unfold written
  by_cases h : j = n
  · subst h; simp
  · simp [h, Ne.symm h]

/-- The next instruction follows. -/
theorem ran_advance (s : State) (c : CoreId) :
    s.Ran (advance s c.toNat) c ((s.core c.toNat).pc + 8) (s.core c.toNat).sr (s.core c.toNat).pr (s.core c.toNat).mr :=
  { only := (State.OnlyCore.refl s _).modCore _
    seq := by simp only [advance, State.core_modCore]; exact (Core.SeqOnly.refl _).go _ _
    phase := by simp [advance]
    pc := by simp [advance]
    sr := fun _ _ => by simp [advance]; rfl
    pr := fun _ _ => by simp [advance]; rfl
    mr := fun _ _ => by simp [advance]; rfl }

/-- An s register is written and the next instruction follows. -/
theorem ran_setS (s : State) (c : CoreId) (n : Nat) (v : W64) :
    s.Ran (advance (setS s c.toNat n v) c.toNat) c ((s.core c.toNat).pc + 8) (written (s.core c.toNat).sr n (some 0) v) (s.core c.toNat).pr
      (s.core c.toNat).mr :=
  { only := ((State.OnlyCore.refl s _).modCore _).modCore _
    seq := by simp only [advance, setS, State.core_modCore]; exact (((Core.SeqOnly.refl _).dropPend _).setSr _ _).go _ _
    phase := by simp [advance]
    pc := by simp only [advance, setS, State.core_modCore, Core.setSr]; split <;> rfl
    sr := fun j _ => by
      simp only [advance, setS, State.core_modCore]
      exact written_sr ((s.core c.toNat).dropPend (.s n)) n j v
    pr := fun j _ => by simp only [advance, setS, State.core_modCore]; exact Core.pr_setSr ((s.core c.toNat).dropPend (.s n)) n v j
    mr := fun j _ => by simp only [advance, setS, State.core_modCore]; exact Core.mr_setSr ((s.core c.toNat).dropPend (.s n)) n v j }

/-- An s register is written and issue goes on at `target`. -/
theorem ran_branch (s : State) (c : CoreId) (n : Nat) (target : BitVec 52) :
    s.Ran (branch s c.toNat n target) c target (written (s.core c.toNat).sr n (some 0) (((s.core c.toNat).pc + 8).setWidth 64)) (s.core c.toNat).pr
      (s.core c.toNat).mr :=
  { only := by unfold branch setS; exact ((State.OnlyCore.refl s _).modCore _).modCore _
    seq := by simp only [branch, setS, State.core_modCore]; exact (((Core.SeqOnly.refl _).dropPend _).setSr _ _).go _ _
    phase := by simp [branch]
    pc := by simp [branch]
    sr := fun j _ => by
      simp only [branch, setS, State.core_modCore]
      exact written_sr ((s.core c.toNat).dropPend (.s n)) n j _
    pr := fun j _ => by simp only [branch, setS, State.core_modCore]; exact Core.pr_setSr ((s.core c.toNat).dropPend (.s n)) n _ j
    mr := fun j _ => by simp only [branch, setS, State.core_modCore]; exact Core.mr_setSr ((s.core c.toNat).dropPend (.s n)) n _ j }

/-- An m register is written and the next instruction follows. -/
theorem ran_setM (s : State) (c : CoreId) (n : Nat) (v : W64) :
    s.Ran (advance (setM s c.toNat n v) c.toNat) c ((s.core c.toNat).pc + 8) (s.core c.toNat).sr (s.core c.toNat).pr
      (written (s.core c.toNat).mr n none v) :=
  { only := ((State.OnlyCore.refl s _).modCore _).modCore _
    seq := by simp only [advance, setM, State.core_modCore]; exact (((Core.SeqOnly.refl _).dropPend _).setMr _ _).go _ _
    phase := by simp [advance]
    pc := by simp only [advance, setM, State.core_modCore]; rfl
    sr := fun j _ => by simp only [advance, setM, State.core_modCore]; rfl
    pr := fun j _ => by simp only [advance, setM, State.core_modCore]; rfl
    mr := fun j _ => by
      simp only [advance, setM, State.core_modCore]
      exact written_mr ((s.core c.toNat).dropPend (.m n)) n j v }

/-- A p register is written and the next instruction follows. -/
theorem ran_setP (s : State) (c : CoreId) (n : Nat) (b : Bool) (hn : n < 8) :
    s.Ran (advance (setP s c.toNat n b) c.toNat) c ((s.core c.toNat).pc + 8) (s.core c.toNat).sr (written (s.core c.toNat).pr n (some 0) b)
      (s.core c.toNat).mr :=
  { only := ((State.OnlyCore.refl s _).modCore _).modCore _
    seq := by simp only [advance, setP, State.core_modCore]; exact (((Core.SeqOnly.refl _).dropPend _).setPr _ _).go _ _
    phase := by simp [advance]
    pc := by simp only [advance, setP, State.core_modCore, Core.setPr]; split <;> rfl
    sr := fun j _ => by simp only [advance, setP, State.core_modCore]; exact Core.sr_setPr ((s.core c.toNat).dropPend (.p n)) n b j
    pr := fun j hj => by
      simp only [advance, setP, State.core_modCore]
      exact written_pr ((s.core c.toNat).dropPend (.p n)) n j b hn hj
    mr := fun j _ => by simp only [advance, setP, State.core_modCore]; exact Core.mr_setPr ((s.core c.toNat).dropPend (.p n)) n b j }

/-- A comparison writes pd, then pn. -/
theorem ran_compare (s : State) (c : CoreId) (pd pn : BitVec 3) (r : Bool) :
    s.Ran (compare s c.toNat pd pn r) c ((s.core c.toNat).pc + 8) (s.core c.toNat).sr
      (written (written (s.core c.toNat).pr pd.toNat (some 0) r) pn.toNat (some 0) (!r)) (s.core c.toNat).mr :=
  { only := by unfold compare advance setP; exact (((State.OnlyCore.refl s _).modCore _).modCore _).modCore _
    seq := by
      simp only [compare, advance, setP, State.core_modCore]
      exact (((((Core.SeqOnly.refl _).dropPend _).setPr _ _).dropPend _).setPr _ _).go _ _
    phase := by simp [compare, advance]
    pc := by simp only [compare, advance, setP, State.core_modCore, Core.setPr, Core.dropPend]; split <;> split <;> rfl
    sr := fun j _ => by
      simp only [compare, advance, setP, State.core_modCore]
      refine (Core.sr_setPr _ _ _ j).trans ?_
      exact Core.sr_setPr ((s.core c.toNat).dropPend (.p pd.toNat)) _ _ j
    pr := fun j hj => by
      simp only [compare, advance, setP, State.core_modCore]
      refine (written_pr _ pn.toNat j (!r) pn.isLt hj).trans ?_
      unfold written
      split
      · rfl
      · exact written_pr ((s.core c.toNat).dropPend (.p pd.toNat)) pd.toNat j r pd.isLt hj
    mr := fun j _ => by
      simp only [compare, advance, setP, State.core_modCore]
      refine (Core.mr_setPr _ _ _ j).trans ?_
      exact Core.mr_setPr ((s.core c.toNat).dropPend (.p pd.toNat)) _ _ j }

end Sys2Proof.Machine
end

