-- ==== Sys2Proof/Laws/Memory.lean ====
section
/-!
SUPPORT. Memory keeps its canonical form: it has it at reset, and each of the operations that change memory (one byte, a run of bytes, the clearing
of a scratchpad, of a range and of a die's scratchpads) keeps it. Laws/State.lean says what a read gives after a write.
-/
namespace Sys2Proof.Machine

theorem memory_wf_reset : Memory.wf State.reset.mem = true := rfl

theorem memory_wf_setByte (s : State) (a : Nat) (v : Byte) (h : Memory.wf s.mem = true) : Memory.wf (s.setByte a v).mem = true :=
  mapWf_mapSet _ _ _ _ h

theorem memory_wf_setBytes (s : State) (a : Nat) (bs : List Byte) (h : Memory.wf s.mem = true) : Memory.wf (s.setBytes a bs).mem = true := by
  induction bs generalizing s a with
  | nil => exact h
  | cons b bs ih => exact ih (s.setByte a b) (a + 1) (memory_wf_setByte s a b h)

theorem memory_wf_clearRange (s : State) (a n : Nat) (h : Memory.wf s.mem = true) : Memory.wf (clearRange s a n).mem = true :=
  mapWf_filter _ _ _ h

theorem memory_wf_clearArrays (s : State) (c : Nat) (h : Memory.wf s.mem = true) : Memory.wf (clearArrays s c).mem = true :=
  mapWf_filter _ _ _ h

theorem memory_wf_dieState (s : State) (d : Nat) (h : Memory.wf s.mem = true) : Memory.wf (dieState s d).mem = true :=
  mapWf_filter _ _ _ h

/-- A filter of a map in canonical form reads, at the keys it keeps, as the map did, and elsewhere as unlisted. -/
theorem mapFind_filter {α : Type} (p : Nat → Bool) (m : List (Nat × α)) (k : Nat) :
    mapFind (m.filter (fun e => p e.1)) k = if p k then mapFind m k else none := by
  induction m with
  | nil => simp [mapFind]
  | cons e m ih =>
    obtain ⟨j, v⟩ := e
    by_cases hj : j = k
    · subst hj
      cases hp : p j with
      | true => simp [hp, mapFind]
      | false => simpa [hp, mapFind] using ih
    · cases hp : p j with
      | true => simpa [hp, mapFind, hj] using ih
      | false => simpa [hp, mapFind, hj] using ih

/-- What a byte reads as after a range was cleared. -/
theorem byte_clearRange (s : State) (a n x : Nat) : (clearRange s a n).byte x = if a ≤ x ∧ x < a + n then 0 else s.byte x := by
  have h := mapFind_filter (fun y => !(decide (a ≤ y) && decide (y < a + n))) s.mem x
  have hm : mapFind (clearRange s a n).mem x = _ := h
  unfold State.byte mapGet
  rw [hm]
  by_cases hx : a ≤ x ∧ x < a + n
  · simp [hx, Memory.unlisted]
  · have hf : (!(decide (a ≤ x) && decide (x < a + n))) = true := by simp; omega
    rw [if_pos hf, if_neg hx]

end Sys2Proof.Machine
end

