-- ==== Sys2Proof/Laws/PerInstr.lean ====
section
/-!
SUPPORT. Laws of every command as syntax, one lemma per constructor: exactly the instructions of a core have a word, and a well-formed one names a core.
-/
namespace Sys2Proof.Laws
open Sys2Proof Sys2Proof.Machine

set_option Elab.async false

/-- A command has a word exactly where it is an instruction of a core; well-formed, it names a core in use. -/
def CoreWord.Statement (i : Instr) : Prop :=
  (encodeWord i).isSome = (siteOf i).isSome ∧ ∀ c pg, siteOf i = some (c, pg) → operandsOk i = true → coreOk c = true

theorem CoreWord.instructionFetch : ∀ x0 x1 x2 x3 x4, CoreWord.Statement (.instructionFetch x0 x1 x2 x3 x4) := by intros; exact ⟨rfl, nofun⟩
theorem CoreWord.alu : ∀ x0 x1 x2 x3 x4 x5, CoreWord.Statement (.alu x0 x1 x2 x3 x4 x5) := by intros; refine ⟨rfl, ?_⟩; intro c pg h ok; cases h; simpa [operandsOk] using ok
theorem CoreWord.alui : ∀ x0 x1 x2 x3 x4 x5, CoreWord.Statement (.alui x0 x1 x2 x3 x4 x5) := by intros; refine ⟨rfl, ?_⟩; intro c pg h ok; cases h; simpa [operandsOk] using ok
theorem CoreWord.movi : ∀ x0 x1 x2 x3 x4, CoreWord.Statement (.movi x0 x1 x2 x3 x4) := by intros; refine ⟨rfl, ?_⟩; intro c pg h ok; cases h; simpa [operandsOk] using ok
theorem CoreWord.cmp : ∀ x0 x1 x2 x3 x4 x5 x6, CoreWord.Statement (.cmp x0 x1 x2 x3 x4 x5 x6) := by intros; refine ⟨rfl, ?_⟩; intro c pg h ok; cases h; simpa [operandsOk] using ok
theorem CoreWord.cmpi : ∀ x0 x1 x2 x3 x4 x5 x6, CoreWord.Statement (.cmpi x0 x1 x2 x3 x4 x5 x6) := by intros; refine ⟨rfl, ?_⟩; intro c pg h ok; cases h; simpa [operandsOk] using ok
theorem CoreWord.pred : ∀ x0 x1 x2 x3 x4 x5, CoreWord.Statement (.pred x0 x1 x2 x3 x4 x5) := by intros; refine ⟨rfl, ?_⟩; intro c pg h ok; cases h; simpa [operandsOk] using ok
theorem CoreWord.mask : ∀ x0 x1 x2 x3 x4 x5 x6, CoreWord.Statement (.mask x0 x1 x2 x3 x4 x5 x6) := by intros; refine ⟨rfl, ?_⟩; intro c pg h ok; cases h; simpa [operandsOk] using ok
theorem CoreWord.sys : ∀ x0 x1 x2 x3, CoreWord.Statement (.sys x0 x1 x2 x3) := by intros; refine ⟨rfl, ?_⟩; intro c pg h ok; cases h; simpa [operandsOk] using ok
theorem CoreWord.b : ∀ x0 x1 x2, CoreWord.Statement (.b x0 x1 x2) := by intros; refine ⟨rfl, ?_⟩; intro c pg h ok; cases h; simpa [operandsOk] using ok
theorem CoreWord.bl : ∀ x0 x1 x2 x3, CoreWord.Statement (.bl x0 x1 x2 x3) := by intros; refine ⟨rfl, ?_⟩; intro c pg h ok; cases h; simpa [operandsOk] using ok
theorem CoreWord.br : ∀ x0 x1 x2 x3, CoreWord.Statement (.br x0 x1 x2 x3) := by intros; refine ⟨rfl, ?_⟩; intro c pg h ok; cases h; simpa [operandsOk] using ok
theorem CoreWord.endLeg : ∀ x0 x1, CoreWord.Statement (.endLeg x0 x1) := by intros; refine ⟨rfl, ?_⟩; intro c pg h ok; cases h; simpa [operandsOk] using ok
theorem CoreWord.legPartEnd : ∀ x0, CoreWord.Statement (.legPartEnd x0) := by intros; exact ⟨rfl, nofun⟩
theorem CoreWord.ld : ∀ x0 x1 x2 x3 x4 x5 x6, CoreWord.Statement (.ld x0 x1 x2 x3 x4 x5 x6) := by intros; refine ⟨rfl, ?_⟩; intro c pg h ok; cases h; simpa [operandsOk] using ok
theorem CoreWord.st : ∀ x0 x1 x2 x3 x4 x5, CoreWord.Statement (.st x0 x1 x2 x3 x4 x5) := by intros; refine ⟨rfl, ?_⟩; intro c pg h ok; cases h; simpa [operandsOk] using ok
theorem CoreWord.amo : ∀ x0 x1 x2 x3 x4 x5 x6 x7, CoreWord.Statement (.amo x0 x1 x2 x3 x4 x5 x6 x7) := by intros; refine ⟨rfl, ?_⟩; intro c pg h ok; cases h; simpa [operandsOk] using ok
theorem CoreWord.radd : ∀ x0 x1 x2 x3 x4 x5 x6, CoreWord.Statement (.radd x0 x1 x2 x3 x4 x5 x6) := by intros; refine ⟨rfl, ?_⟩; intro c pg h ok; cases h; simpa [operandsOk] using ok
theorem CoreWord.cacheInv : ∀ x0 x1 x2 x3 x4 x5, CoreWord.Statement (.cacheInv x0 x1 x2 x3 x4 x5) := by intros; refine ⟨rfl, ?_⟩; intro c pg h ok; cases h; simpa [operandsOk] using ok
theorem CoreWord.cacheClean : ∀ x0 x1 x2 x3 x4 x5, CoreWord.Statement (.cacheClean x0 x1 x2 x3 x4 x5) := by intros; refine ⟨rfl, ?_⟩; intro c pg h ok; cases h; simpa [operandsOk] using ok
theorem CoreWord.cachePin : ∀ x0 x1 x2 x3 x4 x5, CoreWord.Statement (.cachePin x0 x1 x2 x3 x4 x5) := by intros; refine ⟨rfl, ?_⟩; intro c pg h ok; cases h; simpa [operandsOk] using ok
theorem CoreWord.cacheUnpin : ∀ x0 x1 x2 x3 x4 x5, CoreWord.Statement (.cacheUnpin x0 x1 x2 x3 x4 x5) := by intros; refine ⟨rfl, ?_⟩; intro c pg h ok; cases h; simpa [operandsOk] using ok
theorem CoreWord.cacheIinv : ∀ x0 x1 x2 x3 x4 x5, CoreWord.Statement (.cacheIinv x0 x1 x2 x3 x4 x5) := by intros; refine ⟨rfl, ?_⟩; intro c pg h ok; cases h; simpa [operandsOk] using ok
theorem CoreWord.acq : ∀ x0 x1 x2 x3 x4 x5 x6 x7, CoreWord.Statement (.acq x0 x1 x2 x3 x4 x5 x6 x7) := by intros; refine ⟨rfl, ?_⟩; intro c pg h ok; cases h; simpa [operandsOk] using ok
theorem CoreWord.rel : ∀ x0 x1 x2 x3 x4 x5 x6 x7, CoreWord.Statement (.rel x0 x1 x2 x3 x4 x5 x6 x7) := by intros; refine ⟨rfl, ?_⟩; intro c pg h ok; cases h; simpa [operandsOk] using ok
theorem CoreWord.fence : ∀ x0 x1 x2, CoreWord.Statement (.fence x0 x1 x2) := by intros; refine ⟨rfl, ?_⟩; intro c pg h ok; cases h; simpa [operandsOk] using ok
theorem CoreWord.waitTokens : ∀ x0 x1 x2 x3 x4, CoreWord.Statement (.waitTokens x0 x1 x2 x3 x4) := by intros; refine ⟨rfl, ?_⟩; intro c pg h ok; cases h; simpa [operandsOk] using ok
theorem CoreWord.waitWake : ∀ x0 x1 x2 x3 x4, CoreWord.Statement (.waitWake x0 x1 x2 x3 x4) := by intros; refine ⟨rfl, ?_⟩; intro c pg h ok; cases h; simpa [operandsOk] using ok
theorem CoreWord.waitBarrier : ∀ x0 x1 x2 x3 x4, CoreWord.Statement (.waitBarrier x0 x1 x2 x3 x4) := by intros; refine ⟨rfl, ?_⟩; intro c pg h ok; cases h; simpa [operandsOk] using ok
theorem CoreWord.waitTimeout : ∀ x0, CoreWord.Statement (.waitTimeout x0) := by intros; exact ⟨rfl, nofun⟩
theorem CoreWord.bar : ∀ x0 x1 x2 x3 x4 x5, CoreWord.Statement (.bar x0 x1 x2 x3 x4 x5) := by intros; refine ⟨rfl, ?_⟩; intro c pg h ok; cases h; simpa [operandsOk] using ok
theorem CoreWord.toll : ∀ x0 x1 x2 x3, CoreWord.Statement (.toll x0 x1 x2 x3) := by intros; refine ⟨rfl, ?_⟩; intro c pg h ok; cases h; simpa [operandsOk] using ok
theorem CoreWord.heavy : ∀ x0 x1 x2 x3, CoreWord.Statement (.heavy x0 x1 x2 x3) := by intros; refine ⟨rfl, ?_⟩; intro c pg h ok; cases h; simpa [operandsOk] using ok
theorem CoreWord.nop : ∀ x0 x1, CoreWord.Statement (.nop x0 x1) := by intros; refine ⟨rfl, ?_⟩; intro c pg h ok; cases h; simpa [operandsOk] using ok
theorem CoreWord.mld : ∀ x0 x1, CoreWord.Statement (.mld x0 x1) := by intros; refine ⟨rfl, ?_⟩; intro c pg h ok; cases h; simpa [operandsOk] using ok
theorem CoreWord.mma : ∀ x0 x1, CoreWord.Statement (.mma x0 x1) := by intros; refine ⟨rfl, ?_⟩; intro c pg h ok; cases h; simpa [operandsOk] using ok
theorem CoreWord.mswap : ∀ x0 x1, CoreWord.Statement (.mswap x0 x1) := by intros; refine ⟨rfl, ?_⟩; intro c pg h ok; cases h; simpa [operandsOk] using ok
theorem CoreWord.mdrain : ∀ x0 x1, CoreWord.Statement (.mdrain x0 x1) := by intros; refine ⟨rfl, ?_⟩; intro c pg h ok; cases h; simpa [operandsOk] using ok
theorem CoreWord.vop : ∀ x0 x1 x2, CoreWord.Statement (.vop x0 x1 x2) := by intros; refine ⟨rfl, ?_⟩; intro c pg h ok; cases h; simp only [operandsOk, Bool.and_eq_true] at ok; exact ok.1
theorem CoreWord.vcvt : ∀ x0 x1, CoreWord.Statement (.vcvt x0 x1) := by intros; refine ⟨rfl, ?_⟩; intro c pg h ok; cases h; simpa [operandsOk] using ok
theorem CoreWord.vacc : ∀ x0 x1, CoreWord.Statement (.vacc x0 x1) := by intros; refine ⟨rfl, ?_⟩; intro c pg h ok; cases h; simpa [operandsOk] using ok
theorem CoreWord.vargmax : ∀ x0 x1, CoreWord.Statement (.vargmax x0 x1) := by intros; refine ⟨rfl, ?_⟩; intro c pg h ok; cases h; simpa [operandsOk] using ok
theorem CoreWord.vtopk : ∀ x0 x1, CoreWord.Statement (.vtopk x0 x1) := by intros; refine ⟨rfl, ?_⟩; intro c pg h ok; cases h; simpa [operandsOk] using ok
theorem CoreWord.vld : ∀ x0 x1, CoreWord.Statement (.vld x0 x1) := by intros; refine ⟨rfl, ?_⟩; intro c pg h ok; cases h; simpa [operandsOk] using ok
theorem CoreWord.vst : ∀ x0 x1, CoreWord.Statement (.vst x0 x1) := by intros; refine ⟨rfl, ?_⟩; intro c pg h ok; cases h; simpa [operandsOk] using ok
theorem CoreWord.vcomp : ∀ x0 x1, CoreWord.Statement (.vcomp x0 x1) := by intros; refine ⟨rfl, ?_⟩; intro c pg h ok; cases h; simpa [operandsOk] using ok
theorem CoreWord.vexp : ∀ x0 x1, CoreWord.Statement (.vexp x0 x1) := by intros; refine ⟨rfl, ?_⟩; intro c pg h ok; cases h; simpa [operandsOk] using ok
theorem CoreWord.vred : ∀ x0 x1, CoreWord.Statement (.vred x0 x1) := by intros; refine ⟨rfl, ?_⟩; intro c pg h ok; cases h; simpa [operandsOk] using ok
theorem CoreWord.engineInstructionStart : ∀ x0 x1, CoreWord.Statement (.engineInstructionStart x0 x1) := by intros; exact ⟨rfl, nofun⟩
theorem CoreWord.engineInstructionComplete : ∀ x0 x1, CoreWord.Statement (.engineInstructionComplete x0 x1) := by intros; exact ⟨rfl, nofun⟩
theorem CoreWord.move : ∀ x0 x1, CoreWord.Statement (.move x0 x1) := by intros; refine ⟨rfl, ?_⟩; intro c pg h ok; cases h; simpa [operandsOk] using ok
theorem CoreWord.moveStart : ∀ x0, CoreWord.Statement (.moveStart x0) := by intros; exact ⟨rfl, nofun⟩
theorem CoreWord.descriptorStart : ∀ x0 x1, CoreWord.Statement (.descriptorStart x0 x1) := by intros; exact ⟨rfl, nofun⟩
theorem CoreWord.pieceIssue : ∀ x0 x1 x2 x3, CoreWord.Statement (.pieceIssue x0 x1 x2 x3) := by intros; exact ⟨rfl, nofun⟩
theorem CoreWord.piecePerformed : ∀ x0 x1, CoreWord.Statement (.piecePerformed x0 x1) := by intros; exact ⟨rfl, nofun⟩
theorem CoreWord.moverFinalStatus : ∀ x0 x1, CoreWord.Statement (.moverFinalStatus x0 x1) := by intros; exact ⟨rfl, nofun⟩
theorem CoreWord.mwait : ∀ x0 x1 x2 x3 x4, CoreWord.Statement (.mwait x0 x1 x2 x3 x4) := by intros; refine ⟨rfl, ?_⟩; intro c pg h ok; cases h; simpa [operandsOk] using ok
theorem CoreWord.mabort : ∀ x0 x1 x2 x3, CoreWord.Statement (.mabort x0 x1 x2 x3) := by intros; refine ⟨rfl, ?_⟩; intro c pg h ok; cases h; simpa [operandsOk] using ok
theorem CoreWord.moverAbortReceive : ∀ x0 x1, CoreWord.Statement (.moverAbortReceive x0 x1) := by intros; exact ⟨rfl, nofun⟩
theorem CoreWord.gets : ∀ x0 x1 x2 x3 x4 x5 x6, CoreWord.Statement (.gets x0 x1 x2 x3 x4 x5 x6) := by intros; exact ⟨rfl, nofun⟩
theorem CoreWord.getx : ∀ x0 x1 x2 x3 x4, CoreWord.Statement (.getx x0 x1 x2 x3 x4) := by intros; exact ⟨rfl, nofun⟩
theorem CoreWord.upg : ∀ x0 x1 x2 x3 x4, CoreWord.Statement (.upg x0 x1 x2 x3 x4) := by intros; exact ⟨rfl, nofun⟩
theorem CoreWord.victC : ∀ x0 x1 x2, CoreWord.Statement (.victC x0 x1 x2) := by intros; exact ⟨rfl, nofun⟩
theorem CoreWord.victD : ∀ x0 x1 x2 x3, CoreWord.Statement (.victD x0 x1 x2 x3) := by intros; exact ⟨rfl, nofun⟩
theorem CoreWord.cleanD : ∀ x0 x1 x2 x3, CoreWord.Statement (.cleanD x0 x1 x2 x3) := by intros; exact ⟨rfl, nofun⟩
theorem CoreWord.swr : ∀ x0 x1 x2 x3 x4 x5, CoreWord.Statement (.swr x0 x1 x2 x3 x4 x5) := by intros; exact ⟨rfl, nofun⟩
theorem CoreWord.mrd : ∀ x0 x1 x2 x3 x4, CoreWord.Statement (.mrd x0 x1 x2 x3 x4) := by intros; exact ⟨rfl, nofun⟩
theorem CoreWord.mwr : ∀ x0 x1 x2 x3 x4 x5 x6 x7, CoreWord.Statement (.mwr x0 x1 x2 x3 x4 x5 x6 x7) := by intros; exact ⟨rfl, nofun⟩
theorem CoreWord.mwrs : ∀ x0 x1 x2 x3 x4 x5 x6 x7, CoreWord.Statement (.mwrs x0 x1 x2 x3 x4 x5 x6 x7) := by intros; exact ⟨rfl, nofun⟩
theorem CoreWord.amoH : ∀ x0 x1 x2 x3 x4 x5 x6 x7 x8 x9, CoreWord.Statement (.amoH x0 x1 x2 x3 x4 x5 x6 x7 x8 x9) := by intros; exact ⟨rfl, nofun⟩
theorem CoreWord.raddMsg : ∀ x0 x1 x2 x3 x4 x5 x6 x7, CoreWord.Statement (.raddMsg x0 x1 x2 x3 x4 x5 x6 x7) := by intros; exact ⟨rfl, nofun⟩
theorem CoreWord.transactionBegin : ∀ x0 x1, CoreWord.Statement (.transactionBegin x0 x1) := by intros; exact ⟨rfl, nofun⟩
theorem CoreWord.dataS : ∀ x0 x1 x2 x3, CoreWord.Statement (.dataS x0 x1 x2 x3) := by intros; exact ⟨rfl, nofun⟩
theorem CoreWord.dataE : ∀ x0 x1 x2 x3, CoreWord.Statement (.dataE x0 x1 x2 x3) := by intros; exact ⟨rfl, nofun⟩
theorem CoreWord.dataM : ∀ x0 x1 x2 x3, CoreWord.Statement (.dataM x0 x1 x2 x3) := by intros; exact ⟨rfl, nofun⟩
theorem CoreWord.grant : ∀ x0 x1, CoreWord.Statement (.grant x0 x1) := by intros; exact ⟨rfl, nofun⟩
theorem CoreWord.fwdGets : ∀ x0 x1 x2 x3, CoreWord.Statement (.fwdGets x0 x1 x2 x3) := by intros; exact ⟨rfl, nofun⟩
theorem CoreWord.fwdGetx : ∀ x0 x1 x2, CoreWord.Statement (.fwdGetx x0 x1 x2) := by intros; exact ⟨rfl, nofun⟩
theorem CoreWord.fwdRd : ∀ x0 x1, CoreWord.Statement (.fwdRd x0 x1) := by intros; exact ⟨rfl, nofun⟩
theorem CoreWord.recall : ∀ x0 x1 x2, CoreWord.Statement (.recall x0 x1 x2) := by intros; exact ⟨rfl, nofun⟩
theorem CoreWord.inv : ∀ x0 x1 x2, CoreWord.Statement (.inv x0 x1 x2) := by intros; exact ⟨rfl, nofun⟩
theorem CoreWord.binv : ∀ x0 x1, CoreWord.Statement (.binv x0 x1) := by intros; exact ⟨rfl, nofun⟩
theorem CoreWord.invAck : ∀ x0 x1 x2, CoreWord.Statement (.invAck x0 x1 x2) := by intros; exact ⟨rfl, nofun⟩
theorem CoreWord.binvAck : ∀ x0 x1, CoreWord.Statement (.binvAck x0 x1) := by intros; exact ⟨rfl, nofun⟩
theorem CoreWord.fwdDone : ∀ x0 x1 x2 x3 x4, CoreWord.Statement (.fwdDone x0 x1 x2 x3 x4) := by intros; exact ⟨rfl, nofun⟩
theorem CoreWord.fwdMiss : ∀ x0 x1, CoreWord.Statement (.fwdMiss x0 x1) := by intros; exact ⟨rfl, nofun⟩
theorem CoreWord.recallData : ∀ x0 x1 x2 x3 x4, CoreWord.Statement (.recallData x0 x1 x2 x3 x4) := by intros; exact ⟨rfl, nofun⟩
theorem CoreWord.wbAck : ∀ x0 x1 x2, CoreWord.Statement (.wbAck x0 x1 x2) := by intros; exact ⟨rfl, nofun⟩
theorem CoreWord.holdExpire : ∀ x0 x1, CoreWord.Statement (.holdExpire x0 x1) := by intros; exact ⟨rfl, nofun⟩
theorem CoreWord.repData : ∀ x0 x1 x2 x3 x4 x5 x6, CoreWord.Statement (.repData x0 x1 x2 x3 x4 x5 x6) := by intros; exact ⟨rfl, nofun⟩
theorem CoreWord.repFwd : ∀ x0 x1 x2 x3 x4 x5, CoreWord.Statement (.repFwd x0 x1 x2 x3 x4 x5) := by intros; exact ⟨rfl, nofun⟩
theorem CoreWord.repInv : ∀ x0 x1, CoreWord.Statement (.repInv x0 x1) := by intros; exact ⟨rfl, nofun⟩
theorem CoreWord.repAck : ∀ x0 x1, CoreWord.Statement (.repAck x0 x1) := by intros; exact ⟨rfl, nofun⟩
theorem CoreWord.repDrop : ∀ x0 x1, CoreWord.Statement (.repDrop x0 x1) := by intros; exact ⟨rfl, nofun⟩
theorem CoreWord.done : ∀ x0 x1 x2 x3, CoreWord.Statement (.done x0 x1 x2 x3) := by intros; exact ⟨rfl, nofun⟩
theorem CoreWord.victimBufferWrite : ∀ x0 x1, CoreWord.Statement (.victimBufferWrite x0 x1) := by intros; exact ⟨rfl, nofun⟩
theorem CoreWord.memoryReadReturn : ∀ x0 x1 x2 x3 x4, CoreWord.Statement (.memoryReadReturn x0 x1 x2 x3 x4) := by intros; exact ⟨rfl, nofun⟩
theorem CoreWord.patrolScrubRead : ∀ x0 x1 x2 x3, CoreWord.Statement (.patrolScrubRead x0 x1 x2 x3) := by intros; exact ⟨rfl, nofun⟩
theorem CoreWord.stackTemperatureRead : ∀ x0 x1, CoreWord.Statement (.stackTemperatureRead x0 x1) := by intros; exact ⟨rfl, nofun⟩
theorem CoreWord.ceWindowEnd : ∀ x0, CoreWord.Statement (.ceWindowEnd x0) := by intros; exact ⟨rfl, nofun⟩
theorem CoreWord.mapoutRecordWrite : ∀ x0, CoreWord.Statement (.mapoutRecordWrite x0) := by intros; exact ⟨rfl, nofun⟩
theorem CoreWord.frameTick : ∀ x0, CoreWord.Statement (.frameTick x0) := by intros; exact ⟨rfl, nofun⟩
theorem CoreWord.frameRefEdge : ∀ x0, CoreWord.Statement (.frameRefEdge x0) := by intros; exact ⟨rfl, nofun⟩
theorem CoreWord.frameRefLost : ∀ x0, CoreWord.Statement (.frameRefLost x0) := by intros; exact ⟨rfl, nofun⟩
theorem CoreWord.waybillRead : ∀ x0 x1 x2 x3, CoreWord.Statement (.waybillRead x0 x1 x2 x3) := by intros; exact ⟨rfl, nofun⟩
theorem CoreWord.admitCaravans : ∀ x0 x1, CoreWord.Statement (.admitCaravans x0 x1) := by intros; exact ⟨rfl, nofun⟩
theorem CoreWord.caravanStart : ∀ x0 x1, CoreWord.Statement (.caravanStart x0 x1) := by intros; exact ⟨rfl, nofun⟩
theorem CoreWord.caravanEnd : ∀ x0 x1, CoreWord.Statement (.caravanEnd x0 x1) := by intros; exact ⟨rfl, nofun⟩
theorem CoreWord.receiptWrite : ∀ x0 x1, CoreWord.Statement (.receiptWrite x0 x1) := by intros; exact ⟨rfl, nofun⟩
theorem CoreWord.frmAbort : ∀ x0 x1, CoreWord.Statement (.frmAbort x0 x1) := by intros; exact ⟨rfl, nofun⟩
theorem CoreWord.frmCountLoad : ∀ x0, CoreWord.Statement (.frmCountLoad x0) := by intros; exact ⟨rfl, nofun⟩
theorem CoreWord.instanceBind : ∀ x0 x1 x2 x3, CoreWord.Statement (.instanceBind x0 x1 x2 x3) := by intros; exact ⟨rfl, nofun⟩
theorem CoreWord.instanceUnbind : ∀ x0, CoreWord.Statement (.instanceUnbind x0) := by intros; exact ⟨rfl, nofun⟩
theorem CoreWord.ownRequest : ∀ x0 x1, CoreWord.Statement (.ownRequest x0 x1) := by intros; exact ⟨rfl, nofun⟩
theorem CoreWord.ownEnd : ∀ x0, CoreWord.Statement (.ownEnd x0) := by intros; exact ⟨rfl, nofun⟩
theorem CoreWord.partitionHold : ∀ x0, CoreWord.Statement (.partitionHold x0) := by intros; exact ⟨rfl, nofun⟩
theorem CoreWord.partitionRelease : ∀ x0, CoreWord.Statement (.partitionRelease x0) := by intros; exact ⟨rfl, nofun⟩
theorem CoreWord.caravanSave : ∀ x0, CoreWord.Statement (.caravanSave x0) := by intros; exact ⟨rfl, nofun⟩
theorem CoreWord.remoteWaitExpire : ∀ x0, CoreWord.Statement (.remoteWaitExpire x0) := by intros; exact ⟨rfl, nofun⟩
theorem CoreWord.coreSaved : ∀ x0, CoreWord.Statement (.coreSaved x0) := by intros; exact ⟨rfl, nofun⟩
theorem CoreWord.caravanRestore : ∀ x0 x1, CoreWord.Statement (.caravanRestore x0 x1) := by intros; exact ⟨rfl, nofun⟩
theorem CoreWord.crlFlitReceive : ∀ x0 x1 x2 x3 x4, CoreWord.Statement (.crlFlitReceive x0 x1 x2 x3 x4) := by intros; exact ⟨rfl, nofun⟩
theorem CoreWord.crlNak : ∀ x0 x1 x2 x3, CoreWord.Statement (.crlNak x0 x1 x2 x3) := by intros; exact ⟨rfl, nofun⟩
theorem CoreWord.crlAckTimer : ∀ x0 x1 x2, CoreWord.Statement (.crlAckTimer x0 x1 x2) := by intros; exact ⟨rfl, nofun⟩
theorem CoreWord.crlWindowEnd : ∀ x0 x1, CoreWord.Statement (.crlWindowEnd x0 x1) := by intros; exact ⟨rfl, nofun⟩
theorem CoreWord.bundleQuiesceComplete : ∀ x0 x1 x2, CoreWord.Statement (.bundleQuiesceComplete x0 x1 x2) := by intros; exact ⟨rfl, nofun⟩
theorem CoreWord.crlLinkTraining : ∀ x0 x1 x2 x3, CoreWord.Statement (.crlLinkTraining x0 x1 x2 x3) := by intros; exact ⟨rfl, nofun⟩
theorem CoreWord.inboundWrite : ∀ x0 x1 x2 x3 x4 x5, CoreWord.Statement (.inboundWrite x0 x1 x2 x3 x4 x5) := by intros; exact ⟨rfl, nofun⟩
theorem CoreWord.inboundRead : ∀ x0 x1 x2 x3 x4, CoreWord.Statement (.inboundRead x0 x1 x2 x3 x4) := by intros; exact ⟨rfl, nofun⟩
theorem CoreWord.inboundAtomicop : ∀ x0 x1 x2 x3 x4 x5 x6 x7 x8, CoreWord.Statement (.inboundAtomicop x0 x1 x2 x3 x4 x5 x6 x7 x8) := by intros; exact ⟨rfl, nofun⟩
theorem CoreWord.hostCompletion : ∀ x0 x1 x2 x3 x4, CoreWord.Statement (.hostCompletion x0 x1 x2 x3 x4) := by intros; exact ⟨rfl, nofun⟩
theorem CoreWord.invalidateRequest : ∀ x0 x1 x2 x3 x4, CoreWord.Statement (.invalidateRequest x0 x1 x2 x3 x4) := by intros; exact ⟨rfl, nofun⟩
theorem CoreWord.invalidateCompletion : ∀ x0 x1, CoreWord.Statement (.invalidateCompletion x0 x1) := by intros; exact ⟨rfl, nofun⟩
theorem CoreWord.hostLinkDown : ∀ x0, CoreWord.Statement (.hostLinkDown x0) := by intros; exact ⟨rfl, nofun⟩
theorem CoreWord.hostLinkUp : ∀ x0 x1 x2 x3 x4 x5 x6, CoreWord.Statement (.hostLinkUp x0 x1 x2 x3 x4 x5 x6) := by intros; exact ⟨rfl, nofun⟩
theorem CoreWord.perstN : ∀ x0, CoreWord.Statement (.perstN x0) := by intros; exact ⟨rfl, nofun⟩
theorem CoreWord.msixUnmask : ∀ x0 x1, CoreWord.Statement (.msixUnmask x0 x1) := by intros; exact ⟨rfl, nofun⟩
theorem CoreWord.mailboxPost : ∀ x0 x1 x2 x3, CoreWord.Statement (.mailboxPost x0 x1 x2 x3) := by intros; exact ⟨rfl, nofun⟩
theorem CoreWord.mailboxAck : ∀ x0 x1, CoreWord.Statement (.mailboxAck x0 x1) := by intros; exact ⟨rfl, nofun⟩
theorem CoreWord.mailboxConsume : ∀ x0 x1, CoreWord.Statement (.mailboxConsume x0 x1) := by intros; exact ⟨rfl, nofun⟩
theorem CoreWord.mbxVer : ∀ x0 x1 x2, CoreWord.Statement (.mbxVer x0 x1 x2) := by intros; exact ⟨rfl, nofun⟩
theorem CoreWord.mbxOwn : ∀ x0, CoreWord.Statement (.mbxOwn x0) := by intros; exact ⟨rfl, nofun⟩
theorem CoreWord.mbxRelease : ∀ x0, CoreWord.Statement (.mbxRelease x0) := by intros; exact ⟨rfl, nofun⟩
theorem CoreWord.mbxAbortTag : ∀ x0, CoreWord.Statement (.mbxAbortTag x0) := by intros; exact ⟨rfl, nofun⟩
theorem CoreWord.mbxAbortAll : ∀ x0, CoreWord.Statement (.mbxAbortAll x0) := by intros; exact ⟨rfl, nofun⟩
theorem CoreWord.lockInterface : ∀ x0 x1, CoreWord.Statement (.lockInterface x0 x1) := by intros; exact ⟨rfl, nofun⟩
theorem CoreWord.startInterface : ∀ x0, CoreWord.Statement (.startInterface x0) := by intros; exact ⟨rfl, nofun⟩
theorem CoreWord.stopInterface : ∀ x0, CoreWord.Statement (.stopInterface x0) := by intros; exact ⟨rfl, nofun⟩
theorem CoreWord.tdiZeroingComplete : ∀ x0, CoreWord.Statement (.tdiZeroingComplete x0) := by intros; exact ⟨rfl, nofun⟩
theorem CoreWord.getDeviceInterfaceReport : ∀ x0 x1, CoreWord.Statement (.getDeviceInterfaceReport x0 x1) := by intros; exact ⟨rfl, nofun⟩
theorem CoreWord.ideKm : ∀ x0 x1 x2, CoreWord.Statement (.ideKm x0 x1 x2) := by intros; exact ⟨rfl, nofun⟩
theorem CoreWord.getVersion : ∀ x0, CoreWord.Statement (.getVersion x0) := by intros; exact ⟨rfl, nofun⟩
theorem CoreWord.getCapabilities : ∀ x0, CoreWord.Statement (.getCapabilities x0) := by intros; exact ⟨rfl, nofun⟩
theorem CoreWord.negotiateAlgorithms : ∀ x0 x1 x2 x3 x4, CoreWord.Statement (.negotiateAlgorithms x0 x1 x2 x3 x4) := by intros; exact ⟨rfl, nofun⟩
theorem CoreWord.getDigests : ∀ x0, CoreWord.Statement (.getDigests x0) := by intros; exact ⟨rfl, nofun⟩
theorem CoreWord.getCertificate : ∀ x0 x1 x2 x3, CoreWord.Statement (.getCertificate x0 x1 x2 x3) := by intros; exact ⟨rfl, nofun⟩
theorem CoreWord.challenge : ∀ x0 x1 x2, CoreWord.Statement (.challenge x0 x1 x2) := by intros; exact ⟨rfl, nofun⟩
theorem CoreWord.getMeasurements : ∀ x0 x1 x2 x3, CoreWord.Statement (.getMeasurements x0 x1 x2 x3) := by intros; exact ⟨rfl, nofun⟩
theorem CoreWord.keyExchange : ∀ x0 x1 x2, CoreWord.Statement (.keyExchange x0 x1 x2) := by intros; exact ⟨rfl, nofun⟩
theorem CoreWord.finish : ∀ x0 x1, CoreWord.Statement (.finish x0 x1) := by intros; exact ⟨rfl, nofun⟩
theorem CoreWord.endSession : ∀ x0, CoreWord.Statement (.endSession x0) := by intros; exact ⟨rfl, nofun⟩
theorem CoreWord.dlogCasComplete : ∀ x0 x1 x2 x3 x4, CoreWord.Statement (.dlogCasComplete x0 x1 x2 x3 x4) := by intros; exact ⟨rfl, nofun⟩
theorem CoreWord.optFlitReceive : ∀ x0 x1 x2 x3 x4, CoreWord.Statement (.optFlitReceive x0 x1 x2 x3 x4) := by intros; exact ⟨rfl, nofun⟩
theorem CoreWord.optNak : ∀ x0 x1, CoreWord.Statement (.optNak x0 x1) := by intros; exact ⟨rfl, nofun⟩
theorem CoreWord.heartbeat : ∀ x0 x1 x2, CoreWord.Statement (.heartbeat x0 x1 x2) := by intros; exact ⟨rfl, nofun⟩
theorem CoreWord.heartbeatSend : ∀ x0, CoreWord.Statement (.heartbeatSend x0) := by intros; exact ⟨rfl, nofun⟩
theorem CoreWord.heartbeatTimeout : ∀ x0, CoreWord.Statement (.heartbeatTimeout x0) := by intros; exact ⟨rfl, nofun⟩
theorem CoreWord.optLossOfSignal : ∀ x0 x1, CoreWord.Statement (.optLossOfSignal x0 x1) := by intros; exact ⟨rfl, nofun⟩
theorem CoreWord.loss : ∀ x0 x1, CoreWord.Statement (.loss x0 x1) := by intros; exact ⟨rfl, nofun⟩
theorem CoreWord.optPortTraining : ∀ x0 x1 x2 x3 x4, CoreWord.Statement (.optPortTraining x0 x1 x2 x3 x4) := by intros; exact ⟨rfl, nofun⟩
theorem CoreWord.rd : ∀ x0 x1, CoreWord.Statement (.rd x0 x1) := by intros; exact ⟨rfl, nofun⟩
theorem CoreWord.wr : ∀ x0 x1 x2 x3, CoreWord.Statement (.wr x0 x1 x2 x3) := by intros; exact ⟨rfl, nofun⟩
theorem CoreWord.wrs : ∀ x0 x1 x2 x3, CoreWord.Statement (.wrs x0 x1 x2 x3) := by intros; exact ⟨rfl, nofun⟩
theorem CoreWord.remoteAmo : ∀ x0 x1 x2, CoreWord.Statement (.remoteAmo x0 x1 x2) := by intros; exact ⟨rfl, nofun⟩
theorem CoreWord.remoteRadd : ∀ x0 x1 x2, CoreWord.Statement (.remoteRadd x0 x1 x2) := by intros; exact ⟨rfl, nofun⟩
theorem CoreWord.rdData : ∀ x0 x1 x2, CoreWord.Statement (.rdData x0 x1 x2) := by intros; exact ⟨rfl, nofun⟩
theorem CoreWord.remoteDone : ∀ x0 x1 x2, CoreWord.Statement (.remoteDone x0 x1 x2) := by intros; exact ⟨rfl, nofun⟩
theorem CoreWord.eventRaise : ∀ x0 x1, CoreWord.Statement (.eventRaise x0 x1) := by intros; exact ⟨rfl, nofun⟩
theorem CoreWord.levelChange : ∀ x0 x1 x2, CoreWord.Statement (.levelChange x0 x1 x2) := by intros; exact ⟨rfl, nofun⟩
theorem CoreWord.eventDeliver : ∀ x0 x1, CoreWord.Statement (.eventDeliver x0 x1) := by intros; exact ⟨rfl, nofun⟩
theorem CoreWord.fastEventDeliver : ∀ x0 x1, CoreWord.Statement (.fastEventDeliver x0 x1) := by intros; exact ⟨rfl, nofun⟩
theorem CoreWord.evcDone : ∀ x0 x1 x2, CoreWord.Statement (.evcDone x0 x1 x2) := by intros; exact ⟨rfl, nofun⟩
theorem CoreWord.evcFastDone : ∀ x0 x1 x2, CoreWord.Statement (.evcFastDone x0 x1 x2) := by intros; exact ⟨rfl, nofun⟩
theorem CoreWord.evcHostAck : ∀ x0 x1, CoreWord.Statement (.evcHostAck x0 x1) := by intros; exact ⟨rfl, nofun⟩
theorem CoreWord.evcSwSet : ∀ x0 x1, CoreWord.Statement (.evcSwSet x0 x1) := by intros; exact ⟨rfl, nofun⟩
theorem CoreWord.evcSrc : ∀ x0 x1 x2 x3, CoreWord.Statement (.evcSrc x0 x1 x2 x3) := by intros; exact ⟨rfl, nofun⟩
theorem CoreWord.watchTimer : CoreWord.Statement (.watchTimer) := by exact ⟨rfl, nofun⟩
theorem CoreWord.pwrReqRun : CoreWord.Statement (.pwrReqRun) := by exact ⟨rfl, nofun⟩
theorem CoreWord.pwrReqGated : CoreWord.Statement (.pwrReqGated) := by exact ⟨rfl, nofun⟩
theorem CoreWord.pwrReqStandby : CoreWord.Statement (.pwrReqStandby) := by exact ⟨rfl, nofun⟩
theorem CoreWord.powerEntryContinue : CoreWord.Statement (.powerEntryContinue) := by exact ⟨rfl, nofun⟩
theorem CoreWord.powerReturnComplete : ∀ x0 x1, CoreWord.Statement (.powerReturnComplete x0 x1) := by intros; exact ⟨rfl, nofun⟩
theorem CoreWord.powerLoopTick : ∀ x0 x1 x2, CoreWord.Statement (.powerLoopTick x0 x1 x2) := by intros; exact ⟨rfl, nofun⟩
theorem CoreWord.currentSample : ∀ x0 x1, CoreWord.Statement (.currentSample x0 x1) := by intros; exact ⟨rfl, nofun⟩
theorem CoreWord.ageingReading : ∀ x0 x1, CoreWord.Statement (.ageingReading x0 x1) := by intros; exact ⟨rfl, nofun⟩
theorem CoreWord.fmaxFlashWrite : CoreWord.Statement (.fmaxFlashWrite) := by exact ⟨rfl, nofun⟩
theorem CoreWord.droopOnset : ∀ x0 x1 x2, CoreWord.Statement (.droopOnset x0 x1 x2) := by intros; exact ⟨rfl, nofun⟩
theorem CoreWord.droopRecover : ∀ x0 x1 x2, CoreWord.Statement (.droopRecover x0 x1 x2) := by intros; exact ⟨rfl, nofun⟩
theorem CoreWord.junctionRead : ∀ x0 x1 x2 x3, CoreWord.Statement (.junctionRead x0 x1 x2 x3) := by intros; exact ⟨rfl, nofun⟩
theorem CoreWord.tripHoldEnd : CoreWord.Statement (.tripHoldEnd) := by exact ⟨rfl, nofun⟩
theorem CoreWord.coolantFaultAssert : ∀ x0, CoreWord.Statement (.coolantFaultAssert x0) := by intros; exact ⟨rfl, nofun⟩
theorem CoreWord.coolantFaultDeassert : CoreWord.Statement (.coolantFaultDeassert) := by exact ⟨rfl, nofun⟩
theorem CoreWord.inputRise : CoreWord.Statement (.inputRise) := by exact ⟨rfl, nofun⟩
theorem CoreWord.railPowerGood : ∀ x0 x1, CoreWord.Statement (.railPowerGood x0 x1) := by intros; exact ⟨rfl, nofun⟩
theorem CoreWord.inputLoss : ∀ x0, CoreWord.Statement (.inputLoss x0) := by intros; exact ⟨rfl, nofun⟩
theorem CoreWord.inputOvervoltage : ∀ x0, CoreWord.Statement (.inputOvervoltage x0) := by intros; exact ⟨rfl, nofun⟩
theorem CoreWord.bootModuleReset : ∀ x0, CoreWord.Statement (.bootModuleReset x0) := by intros; exact ⟨rfl, nofun⟩
theorem CoreWord.shedyModuleReset : ∀ x0, CoreWord.Statement (.shedyModuleReset x0) := by intros; exact ⟨rfl, nofun⟩
theorem CoreWord.pldmFirmwareUpdate : ∀ x0 x1, CoreWord.Statement (.pldmFirmwareUpdate x0 x1) := by intros; exact ⟨rfl, nofun⟩
theorem CoreWord.strapReport : ∀ x0 x1 x2 x3, CoreWord.Statement (.strapReport x0 x1 x2 x3) := by intros; exact ⟨rfl, nofun⟩
theorem CoreWord.bootStageAdvance : ∀ x0, CoreWord.Statement (.bootStageAdvance x0) := by intros; exact ⟨rfl, nofun⟩
theorem CoreWord.dieRelease : ∀ x0, CoreWord.Statement (.dieRelease x0) := by intros; exact ⟨rfl, nofun⟩
theorem CoreWord.stackTrainingComplete : ∀ x0 x1 x2, CoreWord.Statement (.stackTrainingComplete x0 x1 x2) := by intros; exact ⟨rfl, nofun⟩
theorem CoreWord.partitionReady : ∀ x0, CoreWord.Statement (.partitionReady x0) := by intros; exact ⟨rfl, nofun⟩
theorem CoreWord.bootDieReset : ∀ x0, CoreWord.Statement (.bootDieReset x0) := by intros; exact ⟨rfl, nofun⟩
theorem CoreWord.dieResetComplete : ∀ x0 x1, CoreWord.Statement (.dieResetComplete x0 x1) := by intros; exact ⟨rfl, nofun⟩
theorem CoreWord.imgCheck : ∀ x0, CoreWord.Statement (.imgCheck x0) := by intros; exact ⟨rfl, nofun⟩
theorem CoreWord.imgStore : ∀ x0, CoreWord.Statement (.imgStore x0) := by intros; exact ⟨rfl, nofun⟩
theorem CoreWord.imgApply : ∀ x0, CoreWord.Statement (.imgApply x0) := by intros; exact ⟨rfl, nofun⟩
theorem CoreWord.imgReload : ∀ x0 x1, CoreWord.Statement (.imgReload x0 x1) := by intros; exact ⟨rfl, nofun⟩
theorem CoreWord.fwStore : ∀ x0, CoreWord.Statement (.fwStore x0) := by intros; exact ⟨rfl, nofun⟩
theorem CoreWord.keyEnroll : ∀ x0, CoreWord.Statement (.keyEnroll x0) := by intros; exact ⟨rfl, nofun⟩
theorem CoreWord.keyRevoke : ∀ x0, CoreWord.Statement (.keyRevoke x0) := by intros; exact ⟨rfl, nofun⟩
theorem CoreWord.arbAdvance : ∀ x0, CoreWord.Statement (.arbAdvance x0) := by intros; exact ⟨rfl, nofun⟩
theorem CoreWord.debugKill : ∀ x0, CoreWord.Statement (.debugKill x0) := by intros; exact ⟨rfl, nofun⟩
theorem CoreWord.secAttest : ∀ x0, CoreWord.Statement (.secAttest x0) := by intros; exact ⟨rfl, nofun⟩
theorem CoreWord.debugUnlock : ∀ x0, CoreWord.Statement (.debugUnlock x0) := by intros; exact ⟨rfl, nofun⟩
theorem CoreWord.dirProbe : ∀ x0 x1, CoreWord.Statement (.dirProbe x0 x1) := by intros; exact ⟨rfl, nofun⟩
theorem CoreWord.errRingConsume : ∀ x0 x1, CoreWord.Statement (.errRingConsume x0 x1) := by intros; exact ⟨rfl, nofun⟩
theorem CoreWord.errInject : ∀ x0 x1 x2 x3, CoreWord.Statement (.errInject x0 x1 x2 x3) := by intros; exact ⟨rfl, nofun⟩
theorem CoreWord.registerWrite : ∀ x0 x1 x2 x3, CoreWord.Statement (.registerWrite x0 x1 x2 x3) := by intros; exact ⟨rfl, nofun⟩
theorem CoreWord.optAckTimer : ∀ x0, CoreWord.Statement (.optAckTimer x0) := by intros; exact ⟨rfl, nofun⟩
theorem CoreWord.memoryWriteComplete : ∀ x0, CoreWord.Statement (.memoryWriteComplete x0) := by intros; exact ⟨rfl, nofun⟩
theorem CoreWord.coreRestored : ∀ x0, CoreWord.Statement (.coreRestored x0) := by intros; exact ⟨rfl, nofun⟩
theorem CoreWord.dirtyBitmapUpdate : ∀ x0, CoreWord.Statement (.dirtyBitmapUpdate x0) := by intros; exact ⟨rfl, nofun⟩

end Sys2Proof.Laws
end

