-- ==== Sys2Proof/Tests/Slice0.lean ====
section
/-!
SUPPORT. Tests of the model: an ill-formed term for each check of well-formedness, words written out from the spec's encodings, worked examples and tables
of the spec, and for every statement with hypotheses a concrete state and operands that meet them.
-/
namespace Sys2Proof.Tests
open Sys2Proof Sys2Proof.Machine

set_option Elab.async false

/-! ### Small states -/

/-- A core that runs at 0x100 with s1 = 5, s2 = 3 and m1 = 6. -/
def core0 : Core := { Core.reset with phase := .run, pc := 0x100, s := [(1, 5), (2, 3)], m := [(1, 6)] }

/-- The module after reset with core 0 as `k`. -/
def one (k : Core) : State := { State.reset with cores := [(0, k)] }

/-- Core 0 runs and nothing else has happened. -/
def st0 : State := one core0

/-- The registers `rs`, in rising order, read as given. -/
def withRegs (s : State) (rs : List (Nat × W64)) : State := { s with regs := rs }

def leg0 : Leg := { car := 1, ix := 0, rank := 2, size := 4, part := 3, inst := 7, lc := true }

/-- Caravan 1 of partition 3 in phase `ph`: one leg on row 0. -/
def car0 (ph : CarPhase) : Caravan :=
  { id := 1, inst := 7, part := 3, lc := true, tag := 0x55, cycles := 1000, tolls := 10, dram := 0, link := 0, legs := [⟨1, 0x100, 0, 0⟩], phase := ph, resume := ph,
    level := none, since := 0, elapsed := 0, overruns := 0, ovCause := 0, ledWait := false, slow := false, ending := none, poisoned := false,
    spent := 0, leaves := [], last := [], done := [] }

/-! ### Witnesses: sequencer -/

theorem wit_EmptyQueue : State.reset.pending = [] := rfl

theorem wit_CoreWords : siteOf (.alu 4095 7 31 30 29 0x1F) = some (4095, 7) ∧ (Instr.alu 9 7 31 30 29 0x12).wf = true := by decide

theorem wit_ReservedEncoding : siteOf (.alu 0 1 1 2 3 0x3F) = some (0, 1) ∧ (st0.core 0).issuing (.alu 0 1 1 2 3 0x3F) = true ∧
    reservedOp (.alu 0 1 1 2 3 0x3F) = true := ⟨rfl, rfl, rfl⟩

theorem wit_Guards_false : siteOf (.nop 0 7) = some (0, 7) ∧ (st0.core 0).issuing (.nop 0 7) = true ∧ reservedOp (.nop 0 7) = false ∧
    (st0.core 0).pPend 7 = false ∧ (st0.core 0).pr 7 = false := ⟨rfl, rfl, rfl, rfl, rfl⟩

theorem wit_Guards_pending : siteOf (.endLeg 0 1) = some (0, 1) ∧
    ((one { core0 with pend := [⟨.p 1, 0⟩] }).core 0).issuing (.endLeg 0 1) = true ∧ reservedOp (.endLeg 0 1) = false ∧
    ((one { core0 with pend := [⟨.p 1, 0⟩] }).core 0).pPend 1 = true := ⟨rfl, rfl, rfl, rfl⟩

theorem wit_Scalar : st0.Issues 0 (.alu 0 0 0 1 2 0x12) 0 [.s 1, .s 2] ∧ st0.Issues 0 (.alui 0 0 31 1 0 0xFFFFFFFF) 0 [.s 1] ∧
    st0.Issues 0 (.movi 0 0 3 false 0x80000000) 0 [] ∧ st0.Issues 0 (.movi 0 0 31 true 1) 0 [.s 31] ∧ st0.Issues 0 (.sys 0 0 4 8) 0 [] ∧
    st0.Issues 0 (.sys 0 0 31 1) 0 [] := by
  refine ⟨?_, ?_, ?_, ?_, ?_, ?_⟩ <;> constructor <;> rfl

theorem wit_Sys : ((one { core0 with leg := some leg0 }).core 0).leg = some leg0 := rfl

theorem wit_Predicates : st0.Issues 0 (.cmp 0 0 0 7 1 2 5) 0 [.s 1, .s 2] ∧ st0.Issues 0 (.cmpi 0 0 3 3 1 0 5) 0 [.s 1] ∧
    st0.Issues 0 (.pred 0 0 7 0 1 4) 0 [.p 0, .p 1] := by
  refine ⟨?_, ?_, ?_⟩ <;> constructor <;> rfl

theorem wit_Mask (fn : Fin 7) : st0.Issues 0 (.mask 0 0 7 1 0 31 (BitVec.ofNat 3 fn.val)) 0 [.s 31, .m 1, .m 0] := by
  revert fn; intro ⟨n, h⟩
  match n, h with
  | 0, _ => constructor <;> rfl
  | 1, _ => constructor <;> rfl
  | 2, _ => constructor <;> rfl
  | 3, _ => constructor <;> rfl
  | 4, _ => constructor <;> rfl
  | 5, _ => constructor <;> rfl
  | 6, _ => constructor <;> rfl

theorem wit_Branches : st0.Issues 0 (.b 0 0 0x80000000) 0 [] ∧ st0.Issues 0 (.bl 0 0 31 1) 0 [] ∧ st0.Issues 0 (.br 0 0 0 1) 0 [.s 1] ∧
    st0.Issues 0 (.endLeg 0 0) 0 [] := by
  refine ⟨?_, ?_, ?_, ?_⟩ <;> constructor <;> rfl

theorem wit_Waits_complete : st0.Issues 0 (.waitTokens 0 0 3 0 0xFFFE) 0 [.s 0] ∧
    (∀ n, 1 ≤ n → n ≤ 15 → (0xFFFE#16).getLsbD n = true → (st0.core 0).tokDone n = true) ∧
    (one { core0 with wf := 0x8000 }).Issues 0 (.waitWake 0 0 3 1 0x8001) 0 [.s 1] ∧ ((one { core0 with wf := 0x8000 }).core 0).wf &&& 0x8001 ≠ 0 ∧
    st0.Issues 0 (.waitBarrier 0 0 0 0 13) 0 [.s 0] ∧ (st0.core 0).barArrived (barKey 3 1) = false := by
  refine ⟨by constructor <;> rfl, ?_, by constructor <;> rfl, by decide, by constructor <;> rfl, rfl⟩
  intro n _ _ _; rfl

theorem wit_Waits_hold : (one { core0 with toks := [(15, ⟨1, 0, some .me⟩)] }).Issues 0 (.waitTokens 0 0 3 1 0x8000) 0 [.s 1] ∧
    ((one { core0 with toks := [(15, ⟨1, 0, some .me⟩)] }).core 0).tokDone 15 = false ∧
    st0.Issues 0 (.waitWake 0 0 3 1 0xFFFF) 0 [.s 1] ∧ (st0.core 0).wf &&& 0xFFFF = 0 ∧
    (one { core0 with bars := [(barKey 3 3, (true, false))] }).Issues 0 (.waitBarrier 0 0 3 1 15) 0 [.s 1] ∧
    ((one { core0 with bars := [(barKey 3 3, (true, false))] }).core 0).barArrived (barKey (15 / 4 % 8) (15 % 4)) = true := by
  refine ⟨by constructor <;> rfl, rfl, by constructor <;> rfl, rfl, by constructor <;> rfl, rfl⟩

theorem wit_WaitTimeout : ((one { core0 with phase := .wait (.waitTokens 0 0 3 1 2) }).core 0).phase = .wait (.waitTokens 0 0 3 1 2) ∧
    ((one { core0 with phase := .wait (.waitWake 0 0 3 1 2) }).core 0).phase = .wait (.waitWake 0 0 3 1 2) ∧
    ((one { core0 with phase := .wait (.waitBarrier 0 0 3 1 2) }).core 0).phase = .wait (.waitBarrier 0 0 3 1 2) ∧
    ((one { core0 with phase := .wait (.waitTokens 0 0 3 1 2) }).core 0).held = false := ⟨rfl, rfl, rfl, rfl⟩

theorem wit_Hints : st0.Issues 0 (.toll 0 0 3 0xFFFF) 0 [] ∧ st0.Issues 0 (.heavy 0 0 7 0) 0 [] ∧ st0.Issues 0 (.nop 0 0) 0 [] ∧
    st0.Issues 0 (.cacheIinv 0 0 3 1 2 false) 0 [] := by
  refine ⟨?_, ?_, ?_, ?_⟩ <;> constructor <;> rfl

def move0 : MoveF := { pg := 0, twait := 0, tag := 255, sa := 1, imm := 64 }

/-! ### Witnesses: accesses -/

/-- `s` with register `o` at `v`. -/
def reg (s : State) (o : Nat) (v : W64) : State := s.setReg o v

/-- Core 0, in service, runs a leg of partition 3, which owns GiB 0; no channel is mapped out. -/
def world (k : Core) : State :=
  let s : State := { one { k with leg := some leg0 } with stk := { State.reset.stk with mapped := [] } }
  reg (reg s (Reg.CORE_ID 0) 0x4000) (Reg.PRT_GMAP 0) 0x8003

/-- s1: the last eight bytes of core 0's own scratchpad. s2: the last eight bytes of line 0 of GiB 0. s3: 3. -/
def coreA : Core := { core0 with s := [(1, 0xFFF01000000FFFF8), (2, 0xFFF0000000000078), (3, 3)] }

theorem own_last : (world coreA).OwnBytes 0 ((core0.sr 0) + 0xFFF01000000FFFF8) 0xFFFF8 8 :=
  by constructor <;> decide +kernel

theorem wit_OwnScratchpad : (world coreA).Issues 0 (.ld 0 0 31 1 3 true 0) 0 [.s 1] ∧ (world coreA).Issues 0 (.st 0 0 3 1 3 0) 0 [.s 1, .s 3] ∧
    (world coreA).Issues 0 (.amo 0 0 0 1 3 3 9 true) 0 [.s 1, .s 3, .s 3] ∧
    (world coreA).OwnBytes 0 (((world coreA).core 0).sr 1 + (0#32).signExtend 64) 0xFFFF8 (2 ^ 3) ∧
    (world coreA).OwnBytes 0 (((world coreA).core 0).sr 1) 0xFFFF8 8 ∧ (((world coreA).core 0).sr 1).toNat % 8 = 0 ∧
    (world coreA).armed 0 3 0 = none := by
  refine ⟨by constructor <;> rfl, by constructor <;> rfl, by constructor <;> rfl, ?_, ?_, by decide +kernel, by decide +kernel⟩ <;>
    constructor <;> decide +kernel

theorem wit_AddressErrors : st0.Issues 0 (.ld 0 0 0 1 3 true 0) 0 [.s 1] ∧ st0.Issues 0 (.st 0 0 2 1 3 0) 0 [.s 1, .s 2] ∧
    (∀ j, j < 2 ^ 3 → st0.seqBad 0 (((st0.core 0).sr 1 + (0#32).signExtend 64).toNat + j) false = true) ∧
    (∀ j, j < 2 ^ 3 → st0.seqBad 0 (((st0.core 0).sr 1 + (0#32).signExtend 64).toNat + j) true = true) ∧
    st0.Issues 0 (.amo 0 0 0 1 2 2 0 false) 0 [.s 1, .s 2, .s 2] ∧ ((st0.core 0).sr 1).toNat % 4 ≠ 0 ∧
    st0.Issues 0 (.radd 0 0 1 127 true 1 0) 0 [.s 1] ∧ st0.seqBad 0 (((st0.core 0).sr 1 + (0#32).signExtend 64).toNat / 128 * 128) true = true := by
  refine ⟨by constructor <;> rfl, by constructor <;> rfl, by decide +kernel, by decide +kernel, by constructor <;> rfl, by decide +kernel,
    by constructor <;> rfl, by decide +kernel⟩

/-- Line 0 of GiB 0 in way 0 of core 0's L1. -/
def x0 (st : Moesi) : L1Line := ⟨0, st, ⟨7, false⟩⟩
def coreL (st : Moesi) : Core := { coreA with l1 := [(0, some (x0 st))] }

theorem hit0 : (world (coreL .e)).HitBytes 0 (((world (coreL .e)).core 0).sr 2) 0x78 8 true (x0 .e) :=
  by constructor <;> decide +kernel

theorem wit_L1Hits : (world (coreL .s)).Issues 0 (.ld 0 0 31 2 3 true 0) 0 [.s 2] ∧ (world (coreL .m)).Issues 0 (.st 0 0 3 2 3 0) 0 [.s 2, .s 3] ∧
    (world (coreL .e)).Issues 0 (.amo 0 0 0 2 3 3 9 true) 0 [.s 2, .s 3, .s 3] ∧
    (world (coreL .s)).HitBytes 0 (((world (coreL .s)).core 0).sr 2 + (0#32).signExtend 64) 0x78 (2 ^ 3) false (x0 .s) ∧
    (world (coreL .m)).HitBytes 0 (((world (coreL .m)).core 0).sr 2 + (0#32).signExtend 64) 0x78 (2 ^ 3) true (x0 .m) ∧
    (world (coreL .m)).lineRefuses (0x78 / 128 * 128) = false ∧ (world (coreL .e)).lineRefuses 0x78 = false ∧
    (((world (coreL .e)).core 0).sr 2).toNat % 8 = 0 := by
  refine ⟨by constructor <;> rfl, by constructor <;> rfl, by constructor <;> rfl, ?_, ?_, by decide +kernel, by decide +kernel, by decide +kernel⟩ <;>
    constructor <;> decide +kernel

theorem wit_Reductions : (world coreA).Issues 0 (.radd 0 0 2 127 true 2 0) 0 [.s 2] ∧
    (world coreA).place 0 ((((world coreA).core 0).sr 2 + (0#32).signExtend 64).toNat / 128 * 128) = .mem 0 ∧ (world coreA).coreReach 0 0 true = true ∧
    (world coreA).lineRefuses 0 = false ∧ ((world coreA).core 0).buffered (lineOf 0).toNat = false ∧ (world coreA).unordered 0 0 1 = false ∧
    ((world coreA).core 0).missOf (lineOf 0) = none ∧ (((world coreA).core 0).raddVec 127 true).2 = false := by
  refine ⟨by constructor <;> rfl, ?_, ?_, ?_, ?_, ?_, ?_, ?_⟩ <;> decide +kernel

/-- The home way of line 0 of GiB 0, pinned by `p`. -/
def way0 (p : Option PartId) : Way := ⟨0, ⟨7, false⟩, false, none, .home (Dir.ownedBy 0) p false⟩
def worldW (k : Core) (p : Option PartId) : State :=
  reg { world k with llc := { Llc.reset with ways := [(0, some (way0 p))] } } (Reg.LLC_WMASK_B 0 3) 0xFFFFFFFFFFFF

theorem wit_Cache : let k : Core := { coreL .m with s := [(1, 0xFFF0000000000000), (2, 128)] }
    let i : Bool → BitVec 5 → Instr := fun l d => .cachePin 0 0 d 1 2 l
    (worldW k none).Issues 0 (.cacheInv 0 0 31 1 2 false) 0 [.s 1, .s 2] ∧ (worldW k none).Issues 0 (.cacheClean 0 0 31 1 2 false) 0 [.s 1, .s 2] ∧
    (worldW k none).Issues 0 (.cacheUnpin 0 0 31 1 2 true) 0 [.s 1, .s 2] ∧ (worldW k none).Issues 0 (i true 31) 0 [.s 1, .s 2] ∧
    (worldW k none).Issues 0 (.cacheInv 0 0 31 1 0 false) 0 [.s 1, .s 0] := by
  refine ⟨?_, ?_, ?_, ?_, ?_⟩ <;> constructor <;> rfl

theorem wit_CacheRange : let s := worldW { coreL .m with s := [(1, 0xFFF0000000000000), (2, 128)] } none
    s.partOf 0 = some 3 ∧ s.cacheFault 3 0xFFF0000000000000 128 = none ∧ (s.core 0).wsd.bufs = [] ∧ s.rangeBusy 0 3 0xFFF0000000000000 128 = false ∧
    (s.core 0).l1At 0 = some (x0 .m) ∧ s.inRange 3 0xFFF0000000000000 128 0 = true ∧ s.cacheRange 0xFFF0000000000000 128 = some (0, 128) ∧
    s.homeWay 0 = some 0 ∧ s.wayAt 0 = some (way0 none) ∧ s.pinFloor [0] 0 = false ∧ s.pinNoWays [0] 3 0 = false ∧
    bit (s.pinMask (s.home 0) 3) 0 = true := by
  decide +kernel

theorem wit_Fence : st0.Issues 0 (.fence 0 0 4) 0 [] ∧ st0.Issues 0 (.rel 0 0 1 2 0 false true 0) 0 [] ∧
    (st0.core 0).wsd.bufs = [] ∧ st0.performed 0 4 = true ∧ (st0.core 0).failedWithin 4 = false ∧
    (one { core0 with swrOut := [0] }).Issues 0 (.fence 0 0 0) 0 [] ∧ (one { core0 with swrOut := [0] }).performed 0 0 = false := by
  refine ⟨by constructor <;> rfl, by constructor <;> rfl, rfl, by decide +kernel, rfl, by constructor <;> rfl, by decide +kernel⟩

theorem wit_ReleaseStore : (world coreA).Issues 0 (.rel 0 0 3 1 6 true true 0) 0 [.s 1, .s 3] ∧ ((world coreA).core 0).wsd.bufs = [] ∧
    ((world coreA).core 0).winPorts = [] ∧ (world coreA).flushing 0 = false ∧ (world coreA).performed 0 6 = true ∧
    ((world coreA).core 0).failedWithin 6 = false ∧ (world coreA).writeFailedSet 0 = false ∧ (world coreA).armed 0 3 0 = none := by
  refine ⟨by constructor <;> rfl, ?_, ?_, ?_, ?_, ?_, ?_, ?_⟩ <;> decide +kernel

theorem wit_AcquireLoad : (world coreA).Issues 0 (.acq 0 0 31 1 0 true true 0) 0 [.s 1] ∧ ((world coreA).core 0).phase = .run ∧
    ((world coreA).core 0).acqLoading = false ∧ ((world coreA).core 0).upgInFlight = false := by
  refine ⟨by constructor <;> rfl, rfl, rfl, rfl⟩

theorem wit_Acquire : st0.Issues 0 (.acq 0 0 31 1 6 false true 0) 0 [] ∧ (st0.core 0).acqLoading = false ∧ (st0.core 0).upgInFlight = false := by
  refine ⟨by constructor <;> rfl, rfl, rfl⟩

theorem wit_Suppressed : (one { core0 with fails := [1] }).Issues 0 (.rel 0 0 2 1 4 true true 0) 0 [.s 1, .s 2] ∧
    (one { core0 with fails := [1] }).performed 0 4 = true ∧ ((one { core0 with fails := [1] }).core 0).failedWithin 4 = true ∧
    (reg st0 (Reg.CORE_ERR 0) 0x8000000000000000).Issues 0 (.rel 0 0 2 1 4 true true 0) 0 [.s 1, .s 2] ∧
    (reg st0 (Reg.CORE_ERR 0) 0x8000000000000000).writeFailedSet 0 = true ∧ (reg st0 (Reg.CORE_ERR 0) 0x8000000000000000).performed 0 4 = true := by
  refine ⟨by constructor <;> rfl, by decide +kernel, rfl, by constructor <;> rfl, by decide +kernel, by decide +kernel⟩

/-- Cores 0 and 1 run one leg. -/
def two : State := { State.reset with cores := [(0, { core0 with leg := some leg0 }), (1, { core0 with leg := some { leg0 with rank := 3 } })] }

theorem wit_Barrier : two.Issues 0 (.bar 0 0 3 3 true false) 0 [] ∧ (two.core 0).barArrived (barKey 3 3) = false ∧ 1 ∈ two.barMembers 0 3 ∧
    0 ∈ two.barMembers 0 3 ∧ (two.core 1).barArrived (barKey 3 3) = false ∧ (two.core 1).ended = false ∧
    (one { core0 with leg := some leg0 }).Issues 0 (.bar 0 0 1 0 false false) 0 [] ∧ (one { core0 with leg := some leg0 }).barMembers 0 1 = [0] ∧
    ((one { core0 with leg := some leg0 }).core 0).barFail = [] := by
  refine ⟨by constructor <;> rfl, rfl, by decide +kernel, by decide +kernel, rfl, rfl, by constructor <;> rfl, by decide +kernel, rfl⟩

theorem wit_BarrierFence : let s := one { core0 with leg := some leg0 }
    s.Issues 0 (.bar 0 0 4 3 true true) 0 [] ∧ (s.core 0).phase = .run ∧ (s.core 0).barArrived (barKey 4 3) = false ∧ s.barMembers 0 4 = [0] ∧
    (s.core 0).wsd.bufs = [] ∧ s.performed 0 4 = true ∧ (s.core 0).failedWithin 4 = false ∧ s.writeFailedSet 0 = false ∧
    (s.core 0).upgInFlight = false := by
  refine ⟨by constructor <;> rfl, rfl, rfl, ?_, rfl, ?_, rfl, ?_, rfl⟩ <;> decide +kernel

/-! ### Witnesses: engines and the mover -/

def mldF : MldF := ⟨0, 1, 2, false, 0, 1, 2⟩
def vopF : VopF := ⟨0, 0, 15, 127, 1, 2, 3, 7, true, false, 12, false⟩
def moveF : MoveF := ⟨0, 0, 255, 1, 64⟩
def qent (i : Instr) : QEnt := ⟨i, 0x80, 0, 0, 0, 0, 0, 0, 0, 0⟩

theorem wit_EngineQueue : siteOf (.mld 0 mldF) = some (0, 0) ∧ engineForm core0 (.mld 0 mldF) = some ⟨.me, 1, 2, [.s 1, .s 2], 5, 3, 0, 0, 0, 0, []⟩ ∧
    st0.Issues 0 (.mld 0 mldF) 0 [.s 1, .s 2] ∧ (st0.core 0).tokClash 2 .me = false ∧ ((st0.core 0).queue .me).length < 8 ∧
    (one { core0 with mvq := List.replicate 7 (qent (.move 0 moveF)) }).Issues 0 (.move 0 moveF) 0 [.s 1] ∧
    ((one { core0 with mvq := List.replicate 7 (qent (.move 0 moveF)) }).core 0).tokClash 0 .mv = false := by
  refine ⟨rfl, rfl, by constructor <;> rfl, rfl, by decide +kernel, by constructor <;> rfl, rfl⟩

theorem wit_EngineStalls : (one { core0 with toks := [(2, ⟨1, 0, some .ve⟩)] }).Issues 0 (.mld 0 mldF) 0 [.s 1, .s 2] ∧
    ((one { core0 with toks := [(2, ⟨1, 0, some .ve⟩)] }).core 0).tokClash 2 .me = true ∧
    (one { core0 with meq := List.replicate 8 (qent (.mld 0 mldF)) }).Issues 0 (.mld 0 mldF) 0 [.s 1, .s 2] ∧
    8 ≤ (((one { core0 with meq := List.replicate 8 (qent (.mld 0 mldF)) }).core 0).queue .me).length := by
  refine ⟨by constructor <;> rfl, rfl, by constructor <;> rfl, by decide +kernel⟩

/-- Core 0 with a MSWAP at the front of the matrix queue and a VOP at the front of the vector queue. -/
def coreQ : Core := { core0 with meq := [qent (.mswap 0 ⟨0, 0, 3⟩)], veq := [qent (.vop 0 0 vopF)], toks := [(3, ⟨1, 0, some .me⟩), (15, ⟨1, 0, some .ve⟩)] }

theorem wit_EngineStart : ((one coreQ).core 0).meq = qent (.mswap 0 ⟨0, 0, 3⟩) :: [] ∧ ((one coreQ).core 0).frozen = false ∧
    ((one coreQ).core 0).tokMet 0 0 = true ∧ ((one coreQ).core 0).meReady (.mswap 0 ⟨0, 0, 3⟩) = true ∧
    ((one coreQ).core 0).veq = qent (.vop 0 0 vopF) :: [] ∧ (one coreQ).veReady 0 (qent (.vop 0 0 vopF)) = true ∧
    ((one { core0 with meq := [{ qent (.mld 0 mldF) with need := 1 }] }).core 0).tokMet 1 1 = false := by
  refine ⟨rfl, rfl, rfl, by decide +kernel, rfl, by decide +kernel, rfl⟩

theorem wit_EngineComplete : ((one { coreQ with meq := [], meRun := [⟨qent (.mswap 0 ⟨0, 0, 3⟩), .mswap⟩] }).core 0).meRun = ⟨qent (.mswap 0 ⟨0, 0, 3⟩), .mswap⟩ :: [] ∧
    ((one { coreQ with meRun := [⟨qent (.mma 0 ⟨0, 0, 3, true, 0, 2⟩), .mma true 0 2 OpBuf.empty OpBuf.empty⟩] }).core 0).meRun =
      ⟨qent (.mma 0 ⟨0, 0, 3, true, 0, 2⟩), .mma true 0 2 OpBuf.empty OpBuf.empty⟩ :: [] ∧
    ((one { coreQ with veRun := [⟨qent (.vop 0 0 vopF), .vec [(127, 1, 0)] none [] false⟩] }).core 0).veCan ⟨qent (.vop 0 0 vopF), .vec [(127, 1, 0)] none [] false⟩ = true :=
  ⟨rfl, rfl, by decide +kernel⟩


/-- The home of line `l`'s fill to core 0, with `d` in flight. -/
def filled (s : State) (l : LineNo) (d : LineData) : State := { s with net := [⟨epSlice 0, epCore 0, l, .dataI d⟩] }
/-- Core 0 runs at the last instruction of line 1 of GiB 0. -/
def coreP : Core := { coreA with pc := 0xF8 }

theorem wit_Fetch : let s := world coreP
    s.net = [] ∧ lineOf coreP.pc.toNat = 1 ∧ (s.core 0).fetchesAt 1 = true ∧
    s.fetchable 0 (s.core 0).pc.toNat = true ∧ (s.core 0).icLine 1 = none ∧ setHas (s.core 0).fetch 1 = false ∧
    s.fetchable 0 ((1 + 1 : LineNo).toNat * 128) = true := by
  decide +kernel

theorem wit_Fill : let s := filled (world { coreP with fetch := [1] }) 1 ⟨7, true⟩
    s.mayCross ⟨epSlice 0, epCore 0, 1, .dataI ⟨7, true⟩⟩ = true ∧ setHas (s.core 0).fetch 1 = true ∧ setHas (s.core 0).fetchOnce 1 = false := by
  decide +kernel

theorem wit_EndOfPart : let s : State := { one { core0 with leg := some leg0, phase := .stopped } with sched := { Sched.reset with cars := [car0 .running] } }
    (s.core 0).leg = some leg0 ∧ s.carOf leg0.car = some (car0 .running) ∧ (s.core 0).phase = .stopped ∧ (s.core 0).ended = false ∧ (s.core 0).mvq = [] ∧
    (s.core 0).anyOut = false ∧ (s.core 0).wsd.bufs = [] ∧ s.performed 0 6 = true ∧ (s.core 0).winPorts = [] ∧ s.flushing 0 = false := by
  decide +kernel

/-- Tag 255 of core 0 as `x`. -/
def tagged (x : TagSt) (q : List QEnt) : Core := { core0 with tags := [(255, x)], mvq := q }

theorem wit_MoverTags : let s := one (tagged { TagSt.idle with out := true } [])
    let u := one (tagged { TagSt.idle with out := true, used := true } [])
    st0.Issues 0 (.mwait 0 0 31 255 true) 0 [] ∧ (st0.core 0).moveQueued 255 true = false ∧ (st0.core 0).anyOut = false ∧
    s.Issues 0 (.mwait 0 0 0 255 false) 0 [] ∧ (s.core 0).tag 255 = { TagSt.idle with out := true } ∧
    st0.Issues 0 (.mabort 0 0 31 255) 0 [] ∧ ((st0.core 0).tag 255).used = false ∧
    u.Issues 0 (.mabort 0 0 31 255) 0 [] ∧ (u.core 0).tag 255 = { TagSt.idle with out := true, used := true } ∧
    (u.core 0).moveQueued 255 true = false := by
  refine ⟨?_, rfl, rfl, ?_, ?_, ?_, rfl, ?_, ?_, rfl⟩ <;> first | decide +kernel | (constructor <;> rfl)

/-- A descriptor that copies `len` bytes from `src` to `dst`: rank 1, no transform, requests no wake and no event. -/
def descOf (src dst len : Nat) : Desc := BitVec.ofNat 512 (src * 2 ^ 64 + dst * 2 ^ 128 + len * 2 ^ 192 + 2 ^ 224 + 2 ^ 240 + 2 ^ 48)

theorem wit_MoverStarts : let s := one (tagged TagSt.idle [qent (.move 0 moveF)])
    (s.core 0).mvq = [qent (.move 0 moveF)] ∧ (s.core 0).frozen = false ∧ (s.core 0).tokMet 0 0 = true ∧ ((s.core 0).tag 255).out = false := by
  decide +kernel

theorem wit_MoverSteps : let s := one (tagged { TagSt.idle with runs := [⟨65535, 0, 0, 0, none, true, [⟨128, .ready⟩]⟩] } [])
    let f := one (tagged { TagSt.idle with out := true, lastRead := true } [])
    let a := one (tagged { TagSt.idle with out := true, abort := 1 } [])
    takeReadyRun ((s.core 0).tag 255).runs = some (128, [⟨65535, 0, 0, 0, none, true, []⟩]) ∧
    f.tagWaits 0 255 = false ∧ (f.core 0).sourcesIn 255 = true ∧ ({ TagSt.idle with out := true, lastRead := true } : TagSt).final = some 1 ∧
    (a.core 0).tag 255 = { TagSt.idle with out := true, abort := 1 } := by
  decide +kernel

/-- The descriptor of the list that tag 255 is at lies at the last 64 bytes of core 0's scratchpad. -/
def tagD : TagSt := { TagSt.idle with out := true, base := 0xFFF01000000FFFC0 }
def desc0 : Desc := descOf 0xFFF01000000FFFF8 0xFFF0000000000078 8
def listD : State := (world (tagged tagD [])).setBytes (scrBase 0 + 0xFFFC0) ((List.range 64).map (fun j => desc0.extractLsb' (8 * j) 8))

theorem wit_DescriptorStart : (listD.core 0).tag 255 = tagD ∧ (listD.core 0).moverStopped = false ∧
    (tagD.base.toNat / 64 * 64 + 64 * tagD.next) % 2 ^ 64 = 0xFFF01000000FFFC0 ∧ listD.OwnBytes 0 (BitVec.ofNat 64 0xFFF01000000FFFC0) 0xFFFC0 64 ∧
    tagD.runs.all DescRun.done = true ∧ listD.num (scrBase 0 + 0xFFFC0) 64 = desc0.toNat ∧ listD.descRefused 0 desc0 = false := by
  refine ⟨?_, ?_, ?_, ?_, rfl, ?_, ?_⟩ <;> first | decide +kernel | (constructor <;> decide +kernel)

/-- A run of the descriptor that copies the last eight bytes of core 0's scratchpad to the last eight bytes of line 0 of GiB 0. -/
def run0 : DescRun := ⟨0, desc0, 0, 0, none, false, []⟩
def tagP : TagSt := { TagSt.idle with out := true, runs := [run0] }

theorem wit_MoverPiece : let s := world (tagged tagP [])
    let d : Desc := desc0
    (s.core 0).tag 255 = tagP ∧ (s.core 0).moverStopped = false ∧ (s.core 0).tags = [(255, tagP)] ∧ 255 ∉ (s.core 0).before 255 ∧
    d.xform = 0 ∧ d.srcSpace = 0 ∧ d.dstSpace = 0 ∧
    (d.n1, d.n2, d.n3) = (1, 1, 1) ∧ d.len0 = 8 ∧ s.OwnBytes 0 (BitVec.ofNat 64 (d.word 1)) 0xFFFF8 8 ∧
    (∀ j, j < 8 → s.place 0 ((d.word 2 + j) % 2 ^ 64) = .mem (0x78 + j)) ∧ d.word 2 % 128 = 0x78 ∧ s.place 0 (d.word 2 / 128 * 128) = .mem 0 ∧
    s.coreReach 0 0 true = true := by
  refine ⟨?_, ?_, rfl, ?_, ?_, ?_, ?_, ?_, ?_, ?_, ?_, ?_, ?_, ?_⟩ <;> first | decide +kernel | (constructor <;> decide +kernel)

/-! ### Witnesses: coherence -/

/-- `s` with message `m` in flight. -/
def sent0 (s : State) (src dst : Ep) (b : MsgBody) : State := { s with net := [⟨src, dst, 0, b⟩] }
/-- The links on the way from `src` to `dst` are up, with the bundle that carries their messages FULL. -/
def joined (s : State) (src dst : Ep) : State :=
  { s with regs := (((s.path (epDie dst) 10 (epDie src)).getD []).foldl (fun s h =>
      (s.put (Reg.CRL_LINK h.1 h.2) Fld.CRL_LINK_state 2).put (Reg.CRL_BUN_STATUS h.1 h.2 (s.bundleFor h.1 h.2 src dst))
        Fld.CRL_BUN_STATUS_state 1) s).regs }
def sent (s : State) (src dst : Ep) (b : MsgBody) : State := joined (sent0 s src dst b) src dst
def keyA : Key := ⟨some 3, true, false⟩
def reqA (op : ReqOp) : Req := ⟨0, 0, keyA, op, some 5⟩
/-- `s` with line 0's order at its home as `q`. -/
def homes (s : State) (q : LineQ) : State := { s with llc := { s.llc with lineq := [(0, q)] } }

/-- `b` is data for a mover or a port. -/
def isP (b : MsgBody) : Bool := match b with | .dataP _ => true | _ => false
theorem not_isP {b : MsgBody} (h : isP b = false) (ld : LineData) : b ≠ .dataP ld := by intro e; subst e; simp [isP] at h

theorem homes_none (src dst : Ep) (b : MsgBody) (hb : isP b = false) : (sent (world coreA) src dst b).Homes [] :=
  ⟨rfl, by intro m hm ld; simp [sent, joined, sent0] at hm; subst hm; exact not_isP hb ld, by intro f hf; exact absurd hf (List.not_mem_nil)⟩
theorem homes_q (q : LineQ) (src dst : Ep) (b : MsgBody) (hb : isP b = false) : (homes (sent (worldW coreA none) src dst b) q).Homes [(0, q)] :=
  ⟨rfl, by intro m hm ld; simp [homes, sent, joined, sent0] at hm; subst hm; exact not_isP hb ld, by intro f hf; exact absurd hf (List.not_mem_nil)⟩
/-- Nothing at the homes goes on by itself where only requests wait. -/
theorem quiet_q (w : List Req) (tie : Option Nat) (src dst : Ep) (b : MsgBody) (hb : isP b = false) :
    (homes (sent (world coreA) src dst b) ⟨none, w, tie⟩).Quiet := by
  refine ⟨?_, by intro m hm ld; simp [homes, sent, joined, sent0] at hm; subst hm; exact not_isP hb ld, by intro f hf; exact absurd hf (List.not_mem_nil)⟩
  intro l t h
  simp only [State.lineq, homes, mapGet, mapFind] at h
  by_cases e : 0 = l.toNat <;> simp [e] at h

/-- Message `b` from `src` to the home of line 0 is the next of its sender, and the home is quiet with requests `w` waiting. -/
def askN (src : Ep) (b : MsgBody) (w : List Req) : State := homes (sent (world coreA) src (epSlice 0) b) ⟨none, w, none⟩

theorem wit_RequestsEnter : (world coreA).home 0 = 0 ∧
    (∀ src b, isP b = false → (askN src b []).Quiet) ∧
    (∀ x, x ∈ [(0, MsgBody.gets 0 keyA false), (0, .getx 0 keyA), (0, .upg 0 keyA), (0x1230, .mrd 0x1000 keyA), (0, .mwr 0 keyA 7 1 false),
      (0, .mwrs 0 keyA 7 1 false), (0x1230, .amoH 0x1000 keyA 8 0 true 1 2), (0, .swr 7 1 false), (0, .radd 0 keyA 3 7 false)] →
      (askN x.1 x.2 []).isNext ⟨x.1, epSlice 0, 0, x.2⟩ = true ∧ (askN x.1 x.2 []).lineRefuses (lineBase 0) = false) := by
  refine ⟨by decide +kernel, fun src b h => quiet_q [] none src _ b h, by decide +kernel⟩

/-- A request that waits since cycle 5 meets one that arrives in cycle 5. -/
def waiting5 : Req := ⟨1, 1, keyA, .mrd, some 5⟩
theorem wit_Ties : (askN 0 (.getx 0 keyA) [waiting5]).Quiet ∧ (askN 0 (.getx 0 keyA) [waiting5]).isNext ⟨0, epSlice 0, 0, .getx 0 keyA⟩ = true ∧
    (askN 0 (.getx 0 keyA) [waiting5]).lineq 0 = ⟨none, [] ++ [waiting5], none⟩ := by
  refine ⟨quiet_q _ _ _ _ _ rfl, ?_, ?_⟩ <;> decide +kernel

/-- The home way of line 0 with entry `d`, and the module that holds it. -/
def wayD (d : Dir) : Way := ⟨0, ⟨7, false⟩, false, none, .home d none false⟩
def worldD (d : Dir) : State := { world coreA with llc := { Llc.reset with ways := [(0, some (wayD d))] } }

/-- Cores 0 and 5 share the line. -/
def shared05 : Dir := ⟨.shared, false, 0, 0x1000 + 0x1005 * 0x4000⟩

theorem wit_TransactionsBegin : let m : State := homes (world coreA) ⟨none, [reqA .mrd], none⟩
    let o : State := homes (worldD (Dir.ownedBy 5)) ⟨none, [reqA (.gets false none)], none⟩
    let u : State := homes (worldD shared05) ⟨none, [reqA .upg], none⟩
    m.sched.abortQ = [] ∧ m.armed (sliceDie (m.home 0)) 2 0 = none ∧ m.HomeEmpty 0 ∧ o.HomeHolds 0 0 (wayD (Dir.ownedBy 5)) (Dir.ownedBy 5) ∧
    (Dir.ownedBy 5).owner = some 5 ∧ (Dir.ownedBy 5).isFull (reqA .mrd).core = false ∧ u.HomeHolds 0 0 (wayD shared05) shared05 ∧
    shared05.owner = none ∧ shared05.coarse = false ∧ shared05.reps = 0 ∧
    shared05.sharers.filter (fun c => some c != some (reqA .upg).core) = [5] ∧ (reqA (.gets false none)).op = .gets false none := by
  refine ⟨?_, ?_, ?_, ?_, ?_, ?_, ?_, ?_, ?_, ?_, ?_, rfl⟩ <;> first | decide +kernel | (constructor <;> decide +kernel)

/-- The line orders, the messages in flight and the fills of a state built here. -/
theorem homes_net (s : State) (q : List (Nat × LineQ)) (h : s.llc.lineq = q) (hn : ∀ m, m ∈ s.net → isP m.body = false)
    (hf : s.llc.fills = []) : s.Homes q :=
  ⟨h, fun m hm ld => not_isP (hn m hm) ld, by simp [hf]⟩
theorem wit_TransactionsBegin_homes : (homes (world coreA) ⟨none, [reqA .mrd], none⟩).Homes [(0, ⟨none, [reqA .mrd], none⟩)] :=
  homes_net _ _ rfl (by simp [homes, world, reg, one, State.setReg, State.reset]) rfl

def missA (a : List MemAcc) : Miss := ⟨0, true, true, true, false, a⟩

/-- Core 0 holds line 0 of GiB 0 in S with a store waiting for the grant, or waits for its data with a load. -/
def fillS : State := world { coreL .s with miss := [missA [⟨120, 8, 0, .store 9 false, false⟩]] }
def fillD : State := world { coreA with miss := [missA [⟨120, 8, 0, .load 0, false⟩]] }

theorem quiet_net (s : State) (h : s.llc.lineq = []) (hn : s.net = []) (hf : s.llc.fills = []) : s.Homes [] := homes_net s [] h (by simp [hn]) hf

theorem wit_Fills : fillD.Homes [] ∧ fillD.arriveTo (epCore 0) 0 (.dataE ⟨7, true⟩) = some fillD ∧ fillD.arriveTo (epCore 0) 0 (.dataM ⟨7, true⟩) = some fillD ∧
    fillD.arriveTo (epCore 0) 0 (.dataS ⟨7, true⟩) = some fillD ∧ (fillD.core 0).missOf 0 = some (missA [⟨120, 8, 0, .load 0, false⟩]) ∧
    fillS.Homes [] ∧ fillS.arriveTo (epCore 0) 0 .grant = some fillS ∧ (fillS.core 0).missOf 0 = some (missA [⟨120, 8, 0, .store 9 false, false⟩]) ∧
    (fillS.core 0).l1Line 0 = some (x0 .s) := by
  refine ⟨quiet_net _ rfl rfl rfl, rfl, rfl, rfl, ?_, quiet_net _ rfl rfl rfl, rfl, ?_, ?_⟩ <;> decide +kernel

theorem wit_Owners : let w := world (coreL .m)
    w.Homes [] ∧ w.L1Holds 0 0 0 (x0 .m) ∧ (w.core 0).winning 0 = false ∧ coreDie 0x1FF = coreDie 0 ∧
    w.arriveTo (epCore 0) 0 (.fwdGets 0x1FF false) = some w ∧ w.arriveTo (epCore 0) 0 (.fwdGetx 0x1FF) = some w ∧
    w.arriveTo (epCore 0) 0 .fwdRd = some w ∧ w.arriveTo (epCore 0) 0 (.recall false) = some w := by
  refine ⟨quiet_net _ rfl rfl rfl, ?_, ?_, ?_, rfl, rfl, rfl, rfl⟩ <;> first | decide +kernel | (constructor <;> decide +kernel)

theorem wit_Inv : (sent (world (coreL .s)) (epSlice 0) (epCore 0) .inv).isNext ⟨epSlice 0, epCore 0, 0, .inv⟩ = true ∧
    (sent (world (coreL .s)) (epSlice 0) (epCore 0) .inv).L1Holds 0 0 0 (x0 .s) := by
  constructor
  · decide +kernel
  · constructor <;> decide +kernel

theorem wit_ForwardMisses : let s := world coreA
    s.Homes [] ∧ (s.core 0).l1Line 0 = none ∧ (s.core 0).missOf 0 = none ∧ (s.core 0).isHeld 0 = false ∧ (s.core 0).kept = [] ∧
    s.arriveTo (epCore 0) 0 (.recall true) = some s := by
  refine ⟨quiet_net _ rfl rfl rfl, ?_, ?_, ?_, rfl, rfl⟩ <;> decide +kernel

def txnA (op : ReqOp) : Txn := Txn.of (reqA op)
/-- The home's state while a transaction waits, with the answer `b` from `src` next; core 5 owns the line. -/
def waits (tx : Txn) (src : Ep) (b : MsgBody) : State := homes (sent (worldD (Dir.ownedBy 5)) src (epSlice 0) b) ⟨some tx, [], none⟩
theorem waits_homes (tx : Txn) (src : Ep) (b : MsgBody) (h : isP b = false) : (waits tx src b).Homes [(0, ⟨some tx, [], none⟩)] :=
  homes_net _ _ rfl (by intro m hm; simp [waits, homes, sent, joined, sent0] at hm; subst hm; exact h) rfl

/-- `b` from `src` is the next message of its sender to the home of line 0 while `tx` waits there. -/
abbrev Answers (tx : Txn) (src : Ep) (b : MsgBody) : Prop := (waits tx src b).isNext ⟨src, epSlice 0, 0, b⟩ = true

theorem wit_Answers : (world coreA).home 0 = 0 ∧ Answers { txnA .getx with invs := [0, 5] } (epCore 5) .invAck ∧
    ({ txnA .getx with invs := [0] } : Txn).ready = false ∧
    Answers { txnA .getx with binv := some 7, binvNext := [0] } (epBroadcast 7) .binvAck ∧
    Answers { txnA .getx with fwdNext := some 5, invs := [9] } (epCore 9) .invAck ∧
    (waits { txnA .getx with fwdNext := some 5, invs := [9] } (epCore 9) .invAck).HomeHolds 0 0 (wayD (Dir.ownedBy 5)) (Dir.ownedBy 5) ∧
    Answers { txnA .getx with owner := some 5 } (epCore 5) (.fwdDone true none (some ⟨7, true⟩)) ∧
    (waits { txnA .getx with owner := some 5 } (epCore 5) (.fwdDone true none none)).HomeHolds 0 0 (wayD (Dir.ownedBy 5)) (Dir.ownedBy 5) ∧
    (waits { txnA .getx with owner := some 5 } (epCore 5) (.fwdDone true none none)).homeIsolated 0 = false := by
  refine ⟨?_, ?_, ?_, ?_, ?_, ?_, ?_, ?_, ?_⟩ <;> first | decide +kernel | (constructor <;> decide +kernel)

theorem wit_OwnerGone : Answers { txnA .getx with owner := some 6, invs := [0] } (epCore 6) .fwdMiss ∧
    ((waits { txnA .getx with owner := some 6, invs := [0] } (epCore 6) .fwdMiss).dirOf 0).owner ≠ some 6 ∧
    (let s : State := { waits { txnA .getx with owner := some 5, invs := [0] } (epCore 5) (.recallData ⟨7, false⟩ true) with
        llc := { Llc.reset with shadows := [(0, some ⟨0, Dir.ownedBy 5⟩)] } }
     s.isNext ⟨epCore 5, epSlice 0, 0, .recallData ⟨7, false⟩ true⟩ = true ∧ s.homeWay 0 = none ∧ s.findShadow 0 = some 0) ∧
    Answers { txnA .upg with invs := [5], upgHit := true } (epCore 5) .invAck ∧ shared05.list.any (fun p => p.2.2 == (reqA .upg).core) = true ∧
    (homes (sent (worldD shared05) (epCore 5) (epSlice 0) .invAck) ⟨some { txnA .upg with invs := [5], upgHit := true }, [], none⟩).HomeHolds
      0 0 (wayD shared05) shared05 := by
  refine ⟨?_, ?_, ?_, ?_, ?_, ?_⟩ <;> first | decide +kernel | (constructor <;> decide +kernel)

theorem wit_Broadcasts : (sent (world coreA) (epSlice 0) (epBroadcast 7) .binv).Homes [] ∧
    (sent (world coreA) (epSlice 0) (epBroadcast 7) .binv).isNext ⟨epSlice 0, epBroadcast 7, 0, .binv⟩ = true ∧
    (world coreA).dieCores 0 = [0] ∧ (world coreA).dieCores 7 = [] := by
  refine ⟨homes_none _ _ _ rfl, ?_, ?_, ?_⟩ <;> decide +kernel

/-- Replica way of line 0 at slice 0 of die 1, with rows marked. -/
def repSl : Nat := 64
def repWay (rows : BitVec 32) : Way := ⟨0, ⟨7, false⟩, false, none, .replica rows 0⟩
def worldR (rows : BitVec 32) (b : MsgBody) : State :=
  sent { world coreA with llc := { Llc.reset with ways := [(64 * 131072, some (repWay rows))] } } (epSlice 0) (epSlice repSl) b
theorem repHomes (rows : BitVec 32) (b : MsgBody) (h : isP b = false) : (worldR rows b).Homes [] :=
  homes_net _ _ rfl (by intro m hm; simp [worldR, sent, joined, sent0] at hm; subst hm; exact h) rfl

/-- Core 0 has offered line 0 as a dirty victim, with message `b` of its to the home next. -/
def offers (d : Dir) (b : MsgBody) : State :=
  sent { worldD d with cores := (world { coreA with offered := [(0, ⟨9, true⟩)] }).cores } 0 (epSlice 0) b
abbrev Offers (d : Dir) (b : MsgBody) : Prop := (offers d b).HomeHolds 0 0 (wayD d) d ∧ (offers d b).isNext ⟨0, epSlice 0, 0, b⟩ = true

theorem offers_homes (d : Dir) (b : MsgBody) (h : isP b = false) : (offers d b).Homes [] :=
  homes_net _ _ rfl (by intro m hm; simp [offers, sent, joined, sent0] at hm; subst hm; exact h) rfl

theorem wit_Victims : Offers (Dir.ownedBy 0) (.victD ⟨9, true⟩) ∧ Offers (Dir.ownedBy 0) (.victC keyA) ∧ Offers (Dir.ownedBy 5) (.cleanD ⟨9, true⟩) ∧
    ((offers (Dir.ownedBy 0) (.victC keyA)).core 0).offered.find? (fun e => e.1 == 0) = some (0, ⟨9, true⟩) ∧ (Dir.ownedBy 5).owner ≠ some 0 := by
  refine ⟨⟨?_, ?_⟩, ⟨?_, ?_⟩, ⟨?_, ?_⟩, ?_, ?_⟩ <;> first | decide +kernel | (constructor <;> decide +kernel)

theorem wit_OffersSettled : let s := world { coreA with offered := [(0, ⟨9, true⟩)] }
    s.Homes [] ∧ s.arriveTo (epCore 0) 0 (.wbAck false) = some s ∧ (s.core 0).isOffered 0 = true ∧ (s.core 0).missOf 0 = none := by
  refine ⟨quiet_net _ rfl rfl rfl, rfl, ?_, ?_⟩ <;> decide +kernel

theorem wit_PieceDone : let r : DescRun := { run0 with flight := [⟨8, .line 0⟩] }
    let s := world (tagged { TagSt.idle with out := true, runs := [r] } [])
    s.Homes [] ∧ s.arriveTo (epCore 0) 0 (.done 0 0 true) = some s ∧ ((s.core 0).tag 255).runs = [r] ∧ (s.core 0).tags.filter (fun e => e.1 != 255) = [] := by
  refine ⟨quiet_net _ rfl rfl rfl, rfl, ?_, ?_⟩ <;> decide +kernel

theorem wit_ReplicaSlice : let g : MsgBody := .gets 0x210 keyA false
    let s := sent (world coreA) (epCore 0x210) (epSlice repSl) g
    s.Homes [] ∧ s.home 0 = 0 ∧ s.findWay repSl 0 true = none ∧ s.isNext ⟨epCore 0x210, epSlice repSl, 0, g⟩ = true := by
  refine ⟨homes_none _ _ _ rfl, ?_, ?_, ?_⟩ <;> decide +kernel

theorem wit_ReplicaInvalidate (rows : BitVec 32) : (worldR rows .repInv).Homes [] ∧ (worldR 0 .repInv).findWay repSl 0 true = some (64 * 131072) ∧
    (worldR 0 .repInv).wayAt (64 * 131072) = some (repWay 0) ∧ (worldR 0x80000000 .repInv).wayAt (64 * 131072) = some (repWay 0x80000000) ∧
    (worldR 0 .repInv).removing repSl 0 = false ∧ (worldR 0 .repInv).isNext ⟨epSlice 0, epSlice repSl, 0, .repInv⟩ = true ∧
    markedSlots (sliceDie repSl) 0x80000000 = [1008, 1009, 1010, 1011, 1012, 1013, 1014, 1015, 1016, 1017] := by
  refine ⟨repHomes _ _ rfl, ?_, ?_, ?_, ?_, ?_, ?_⟩ <;> decide +kernel

theorem wit_ReplicaAnswers : Answers { txnA .getx with invs := [0], reps := [1] } (epSlice repSl) .repAck ∧
    (waits { txnA .getx with invs := [0], reps := [1] } (epSlice repSl) .repAck).HomeHolds 0 0 (wayD (Dir.ownedBy 5)) (Dir.ownedBy 5) ∧
    (sent (worldD (Dir.ownedBy 0)) (epSlice repSl) (epSlice 0) .repDrop).isNext ⟨epSlice repSl, epSlice 0, 0, .repDrop⟩ = true := by
  refine ⟨?_, ?_, ?_⟩ <;> first | decide +kernel | (constructor <;> decide +kernel)

theorem wit_ReplicaServes : let f := worldR 1 (.repFwd 0x210 keyA false none)
    let d := worldR 1 (.repData ⟨7, true⟩ 0x210 keyA true)
    f.Homes [] ∧ coreDie (0x210 % 4096) = sliceDie repSl ∧ f.wayAt (64 * 131072) = some (repWay 1) ∧ f.findWay repSl 0 true = some (64 * 131072) ∧
    f.removing repSl 0 = false ∧ (f.arriveTo (epSlice repSl) 0 (.repFwd 0x210 keyA false none)).isSome = true ∧
    d.Homes [] ∧ d.llc.fills = [] ∧ (d.arriveTo (epSlice repSl) 0 (.repData ⟨7, true⟩ 0x210 keyA true)).isSome = true := by
  refine ⟨repHomes _ _ rfl, ?_, ?_, ?_, ?_, ?_, repHomes _ _ rfl, rfl, ?_⟩ <;> decide +kernel

/-- Line 0's home waits for memory; its channel is ACTIVE. -/
def memW : State := let s : State := homes (world coreA) ⟨some { txnA (.gets false none) with mem := true }, [], none⟩
  reg (reg { s with stk := { s.stk with fills := [0] } } (Reg.LLC_WMASK_A 0 3) 0xFFFFFFFFFFFF) (chanReg Reg.MEM_CH_STATUS (s.chanOf (lineBase 0))) 1

theorem wit_MemoryReturn : memW.Homes [(0, ⟨some { txnA (.gets false none) with mem := true }, [], none⟩)] ∧ memW.HomeEmpty 0 ∧ 0 ∈ memW.stk.fills ∧
    memW.sched.abortQ = [] ∧ memW.stk.wr = [] ∧ memW.chanGone (memW.chanOf (lineBase 0)) = false ∧ memW.lineBad (lineBase 0) = .clean ∧
    memW.homeIsolated 0 = false ∧ memW.chanWaits (lineBase 0) = false ∧ memW.llc.promises = [] ∧ memW.home 0 = 0 ∧
    memW.noAlloc 0 (setOf 0) (memW.homeMask 0 keyA) keyA = false ∧
    (memW.freeWay 0 (setOf 0) (memW.homeMask 0 keyA)).isSome = true ∧ memW.armed 0 2 0 = none := by
  refine ⟨homes_net _ _ rfl (by simp [memW, homes, world, reg, one, State.setReg, State.reset]) rfl, ?_, ?_, rfl, rfl, ?_, ?_, ?_, ?_, rfl, ?_, ?_, ?_, ?_⟩ <;>
    first | decide +kernel | (constructor <;> decide +kernel)

theorem wit_MemoryWrites : let s : State := { world coreA with llc := { Llc.reset with vbuf := [(0, [⟨0, ⟨7, true⟩, false⟩])] } }
    let w : State := { memW with llc := Llc.reset, stk := { memW.stk with wr := [(0, ⟨7, true⟩)] } }
    s.Homes [] ∧ s.vbuf 0 = [⟨0, ⟨7, true⟩, false⟩] ∧ s.rbuf 0 = [] ∧ s.mirrored (lineBase 0) = false ∧
    w.Homes [] ∧ w.stk.wr = (0, ⟨7, true⟩) :: [] ∧ w.gmap (lineBase 0 / 2 ^ 30) Fld.PRT_GMAP_mirrored ≠ 1 ∧
    w.chanGone (w.chanOf (lineBase 0)) = false ∧ w.chanState (w.chanOf (lineBase 0)) ≠ 0 ∧ w.armed (w.chanOf (lineBase 0) / 128) 1 0 = none := by
  refine ⟨quiet_net _ rfl rfl rfl, rfl, rfl, ?_, quiet_net _ rfl rfl rfl, rfl, ?_, ?_, ?_, ?_⟩ <;> decide +kernel

theorem wit_MemoryUpkeep : (reg State.reset (Reg.MEM_DIE_CTL 7) 1).flag (Reg.MEM_DIE_CTL 7) Fld.MEM_DIE_CTL_scrub_en = true ∧ (105#8).toNat ≤ 105 ∧
    State.reset.chanState 1023 = 0 ∧ State.reset.chanState 1023 ≠ 2 ∧ 1023 ∈ ({ State.reset.stk with claims := [1023] } : Mem).claims ∧
    (let s := reg { State.reset with stk := { State.reset.stk with win := [(1023, 4)], good := [(1023, 15)] } } (Reg.MEM_CH_STATUS 7 3 31) 2
     s.chanState 1023 = 2 ∧ 1023 ∉ s.stk.skipWin ∧
      mapGet (fun _ => 0) s.stk.win 1023 < s.get (Reg.MEM_CE (1023 / 128)) Fld.MEM_CE_thresh ∧ mapGet (fun _ => 0) s.stk.good 1023 = 15) := by
  decide +kernel

/-- Stack 31 in each refresh band, and throttled. -/
def bandAt (n : Nat) : State := State.reset.put (Reg.MEM_STK_STATUS 7 3) Fld.MEM_STK_STATUS_refresh n
theorem wit_Bands : (bandAt 1).get (Reg.MEM_STK_STATUS 7 3) Fld.MEM_STK_STATUS_refresh = 1 ∧ (bandAt 2).get (Reg.MEM_STK_STATUS 7 3) Fld.MEM_STK_STATUS_refresh = 2 ∧
    (bandAt 1).flag (Reg.MEM_STK_STATUS 7 3) Fld.MEM_STK_STATUS_throttled = false ∧
    ((bandAt 2).put (Reg.MEM_STK_STATUS 7 3) Fld.MEM_STK_STATUS_throttled 1).flag (Reg.MEM_STK_STATUS 7 3) Fld.MEM_STK_STATUS_throttled = true := by
  decide +kernel

/-! ### Witnesses: frames, caravans, partitions, saves -/

/-- The module with scheduler `x`. -/
def schd (s : State) (x : Sched) : State := { s with sched := x }
def refd (x : Sched) : State := reg (schd State.reset x) Reg.FRM_REF 1

theorem wit_Frames : State.reset.refMode = false ∧ (refd { Sched.reset with len := 1 }).refMode = true ∧ (refd { Sched.reset with len := 1 }).sched.lastEdge = none ∧
    (refd { Sched.reset with len := 1, lastEdge := some 500, badEdges := 1 }).sched.lastEdge = some 500 ∧
    (500 + 1 * 1000 ≤ 500 + 1000 ∧ 500 ≤ 500 + 1 * 1000 + 1000) ∧ 500 + 1 * 1000 + 1000 < 2501 ∧
    (refd { Sched.reset with len := 1, lastEdge := some 500, badEdges := 1 }).sched.badEdges = 1 ∧ (refd { Sched.reset with len := 1, lastEdge := some 500 }).sched.badEdges = 0 ∧
    (refd { Sched.reset with len := 1, badEdges := 1 }).sched.badEdges < 2 ∧ State.reset.sched.run = false := by
  decide +kernel

/-- Ticks are produced and caravan 1 runs on core 0. -/
def runs0 (ph : CarPhase) : State :=
  reg (schd (world core0) { Sched.reset with run := true, cars := [car0 ph], parts := [(3, { PartSt.empty with lcq := [1], admitDue := true })] })
    (Reg.PRT_DESC 3) 0x2700000000000000

theorem cutOff_none (s : State) (h : s.get Reg.BOOT_READY0 Fld.BOOT_READY0_die = 0) : s.cutOff = [] := by
  simp [State.cutOff, h, bit]

theorem wit_FrameTick : let s := reg (runs0 .running) Reg.FRM_CTL 2
    s.sched.run = true ∧ s.sched.abort = none ∧ s.sched.abortQ = [] ∧ s.opt.newRoute = [] ∧ s.opt.newWin = [] ∧ s.opt.routeHold = [] ∧ s.pwr.held = [] ∧
    s.pwr.newMax = [] ∧ s.get Reg.BOOT_READY0 Fld.BOOT_READY0_die = 0 ∧ (∀ i, i < 10 → ∀ l, l < 3 → ∀ b, b < 64 → s.get (Reg.CRL_BUN_STATUS i l b) Fld.CRL_BUN_STATUS_pending = 0) ∧
    s.sched.cars = [car0 .running] ∧ (car0 .running).ending = none ∧ s.committed (car0 .running) = false ∧
    (car0 .running).overruns < s.get Reg.FRM_CTL Fld.FRM_CTL_overrun_max ∧
    (schd State.reset { Sched.reset with run := true }).get Reg.BOOT_READY0 Fld.BOOT_READY0_die = 0 ∧ (schd State.reset { Sched.reset with run := true }).sched.cars = [] := by
  decide +kernel

/-- Instance 7's reader at `st`; its slot lies at 0x100 in stacked memory. -/
def reads (st : ReadStage) : State :=
  reg (reg (schd (world core0) { Sched.reset with insts := [(7, { InstRd.empty with stage := st, slot := { SlotInfo.empty with lc := true } })] })
    (Reg.FRM_SLOT 7) 0xFFF0000000000101) (Reg.PRT_INST 7) 0x8000000000000000

/-- `s` with the bytes of `v` at `a` of stacked memory. -/
def mems (s : State) (a n v : Nat) : State := s.setBytes a (bytesOf n v)

/-- A slot: one LC caravan, format 1, ring of 16 entries at 0x1000. -/
def slot1 (count : Nat) : Nat := 0x10 * 2 ^ 8 + count * 2 ^ 24 + 0x400 * 2 ^ 32 + 0x1000 * 2 ^ 96 + 4 * 2 ^ 160

theorem wit_Waybill : (reads .idle).instRd 7 = { InstRd.empty with slot := { SlotInfo.empty with lc := true } } ∧
    ((mems (reads .gen) 0x100 4 9).instRd 7).stage = .gen ∧ ((mems (reads .gen) 0x100 4 9).wayRead 7 0 0xFFF0000000000100 4 [] true false) = some ([9, 0, 0, 0], false) ∧
    (reads .gen).wayRead 7 1 0x100 4 [] true false = none ∧
    (mems (reads (.slot 9)) 0x104 28 (slot1 64)).wayRead 7 0 0xFFF0000000000104 28 [] true false = some (bytesOf 28 (slot1 64), false) ∧
    numAt (bytesOf 28 (slot1 64)) (7 - 4) 1 = 64 ∧ numAt (bytesOf 28 (slot1 1)) (7 - 4) 1 = 1 ∧ numAt (bytesOf 28 (slot1 1)) (0x18 - 4) 1 = 4 ∧
    numAt (bytesOf 28 (slot1 1)) (5 - 4) 1 / 16 = 1 ∧ numAt (bytesOf 28 (slot1 1)) (0x10 - 4) 8 = 0x1000 ∧ numAt (bytesOf 28 (slot1 1)) (8 - 4) 8 = 0x400 ∧
    ((reads (.slot 9)).instRd 7).owed = 0 ∧
    (reads (.header 9 0 [some 0xFFF0000000000400])).wayClean 7 0 0xFFF0000000000400 64 [] true false = some (List.replicate 64 0) ∧
    numAt (List.replicate 64 (0 : Byte)) 8 4 = 0 ∧ ((reads (.header 9 0 [some 0xFFF0000000000400])).instRd 7).slot.lc = true := by
  decide +kernel

/-- Instance 7's slot lies in host memory of port 0, which is up. -/
def readsHost (st : ReadStage) (req : Option Nat) : State :=
  reg (reg (reg (schd (world core0) { Sched.reset with insts := [(7, { InstRd.empty with stage := st, req := req })] }) (Reg.FRM_SLOT 7) 0x1003)
    (Reg.PRT_INST 7) 0x8000000000000000) (Reg.HIF_PORT 0) 0x8000000000000000

theorem wit_WaybillHost : (readsHost .gen none).wayPort 7 = some (0, 0x1000, 4) ∧ ((readsHost .gen none).instRd 7).req = none ∧
    (readsHost .gen none).portRoom 0 1 = true ∧ (reads .gen).wayPort 7 = none ∧
    numAt (bytesOf 28 (0x10 * 2 ^ 8 + 64 * 2 ^ 24)) (0x18 - 4) 1 = 0 := by
  decide +kernel

theorem wit_Admit : let s := schd (runs0 .admitted) { Sched.reset with
        insts := [(7, { InstRd.empty with taken := [.car (car0 .admitted)] })], parts := [(3, { PartSt.empty with admitDue := true })] }
    let s := reg s (Reg.PRT_INST 7) 0x8003000000000000
    s.instPart 7 = 3 ∧ s.admitReady 3 = true ∧ s.visitOrder 3 = [7] ∧ s.sched.cars = [] ∧ (s.instRd 7).taken = [.car (car0 .admitted)] ∧
    State.reset.admitReady 0 = false ∧ (s.budgetAt 3 0).fits (car0 .admitted) = false ∧ (s.budgetAt 3 0).fits { car0 .admitted with cycles := 0, tolls := 0 } = true := by
  decide +kernel

theorem wit_Start : let s := runs0 .admitted
    let v := car0 .admitted
    (s.at 5).carOf 1 = some v ∧ (s.at 5).lcTurn v = true ∧ (s.at 5).canStart v = true ∧ (s.at 5).freeLevel v = some 0 ∧ s.legCores 1 = [0] ∧
    (schd st0 { Sched.reset with cars := [v] }).canStart v = false := by
  decide +kernel

theorem wit_StartQueued : let v : Caravan := { car0 .queued with lc := false }
    let s : State := schd (runs0 .queued) { (runs0 .queued).sched with cars := [v], parts := [(3, { PartSt.empty with beq := [1] })] }
    (s.at 5).carOf 1 = some v ∧ (s.at 5).queueTurn v = true ∧ (s.at 5).canStart v = true ∧ ((s.at 5).freeLevel v).isSome = true := by
  decide +kernel

theorem wit_End : let v : Caravan := { car0 .running with level := some 0, last := [0] }
    let s := schd (world { core0 with ended := true }) { Sched.reset with cars := [v] }
    (s.at 9).carOf 1 = some v ∧ s.sched.abort = none ∧ s.sched.abortQ = [] ∧ v.started = true ∧ s.committed v = true ∧ s.inCar 1 0 = true ∧
    s.committed { v with last := [] } = false := by
  decide +kernel

def rcpt : Receipt := ⟨0x55, 1, 0, 0, true, false, 1000, 0, 10, 0, 0, 0⟩

theorem wit_Receipts : let s := schd (world core0) { Sched.reset with
        dueq := [7], insts := [(7, { InstRd.empty with due := [rcpt], owed := 1, slot := { SlotInfo.empty with ring := 0xFFF0000000001000, ringLog2 := 16 } })] }
    let s := reg s (Reg.FRM_INST_STATE 7) 0xFFFF00000000
    (s.instRd 7).due = rcpt :: [] ∧ s.sched.dueq.head? = some 7 ∧ (s.instRd 7).slot.ringFits = true ∧ (s.instRd 7).slot.ringSpace = 0 ∧ s.dlogPending 7 = false ∧ (s.instRd 7).slot.irq = false ∧ s.flag (Reg.PRT_INST 7) Fld.PRT_INST_unbinding = false ∧
    s.get (Reg.FRM_INST_STATE 7) Fld.FRM_INST_STATE_produced = 0xFFFF ∧ s.ownMem (0xFFF0000000001000 + 32 * 0xFFFF) 32 = some (0x1000 + 32 * 0xFFFF) ∧
    ((schd st0 { Sched.reset with abort := some ⟨none, [1], false⟩ }).sched.abort).isSome = true ∧ s.sched.abort = none ∧ (s.instRd 7).taken = [] ∧
    s.abortNames 7 true 0 = [] ∧
    (schd st0 { Sched.reset with cars := [car0 .admitted] }).abortNames 7 true 0 = [1] ∧ (car0 .admitted).level = none := by
  decide +kernel

theorem wit_Binding : (reg (runs0 .ended) (Reg.PRT_INST 1023) 0x8000000000000000).instBound 1023 = true ∧ (runs0 .ended).instBound 1023 = false ∧
    (runs0 .ended).bindRefused 1023 2 0 3 = true ∧ (runs0 .ended).bindRefused 1023 1 0xFFFFF 3 = false ∧
    (let s := reg (schd (world core0) Sched.reset) (Reg.PRT_INST 1023) 0x8000000000000000
     s.instBound 1023 = true ∧ s.flag (Reg.PRT_INST 1023) Fld.PRT_INST_unbinding = false ∧ s.tdiLocked 1023 = false ∧ s.host.zeroing = [] ∧
     s.carsOf 1023 = [] ∧ (s.instRd 1023) = InstRd.empty ∧ s.owning (s.instPart 1023) 1023 = false) := by
  decide +kernel

theorem wit_Ownership : State.reset.ownRefused 31 0 = true ∧ (let s := reg (world core0) (Reg.PRT_INST 1023) 0x8000000000000000
    s.ownRefused (s.instPart 1023) 1023 = false ∧ s.flag (Reg.PRT_OWN (s.instPart 1023)) Fld.PRT_OWN_owned = false ∧
    (reg s (Reg.PRT_OWN (s.instPart 1023)) 0x80000000000003FF).ownRefused (s.instPart 1023) 1023 = false ∧
    (reg s (Reg.PRT_OWN (s.instPart 1023)) 0x80000000000003FF).flag (Reg.PRT_OWN (s.instPart 1023)) Fld.PRT_OWN_owned = true) := by
  decide +kernel

/-- A held LC caravan of a partition that is held. -/
def heldCar : Caravan := { car0 .held with level := some 0 }
def heldS : State := reg (schd (world core0) { Sched.reset with cars := [heldCar] }) (Reg.PRT_DESC 3) 0x4700000000000000
def savedCar : Caravan := { car0 .saved with level := some 0 }
def savedS (l : List Ledger) : State :=
  reg (schd (world core0) { Sched.reset with cars := [savedCar], ledger := l, parts := [(3, { PartSt.empty with lcq := [1] })] })
    (Reg.PRT_DESC 3) 0x2700000000000000
def led : Ledger := ⟨1, 7, 0, 0, 0, 5, none, none, .lost, 0, false, false⟩
/-- A line of a store to module 5. -/
def put5 : RemReq := ⟨0, 0, 5, .write 0 0 none false⟩

theorem wit_Saves : heldS.carOf 1 = some heldCar ∧ heldS.preempts heldCar = true ∧ (savedS []).preempts savedCar = false ∧
    (let s := world { core0 with phase := .save, remote := [put5] }
     (s.core 0).leg = some leg0 ∧ (s.core 0).phase = .save ∧ (s.core 0).remote = [put5] ∧ put5.isRead = false ∧
     s.sched.ledger.length < 4096) ∧
    ((savedS []).at 3).carOf 1 = some savedCar ∧ ((savedS []).at 3).restorable savedCar = true ∧ (savedS []).carLost 1 = false ∧
    ((savedS [led]).at 3).restorable savedCar = true ∧ (savedS [led]).carLost 1 = true ∧ ((savedS []).at 3).restorable (car0 .running) = false := by
  decide +kernel

/-- What the save keeps of core 0. -/
def keep0 : CoreKeep := ⟨0, 0, 0, [], [], false, false, .run, none, [], [], [], []⟩
def savingCar (ph : CarPhase) : Caravan := { car0 ph with level := some 0, leaves := [keep0] }
def savingS (cp : CarPhase) (kp : Phase) : State := schd (world { core0 with phase := kp }) { Sched.reset with cars := [savingCar cp] }

theorem wit_SaveAreas : let s := savingS .saving .save
    let r := mems (mems (savingS .restoring .restore) 0x110058 8 (15 * 2 ^ 60)) 0x110060 8 (15 * 2 ^ 60)
    (s.core 0).leg = some leg0 ∧ s.carOf 1 = some (savingCar .saving) ∧ (savingCar .saving).leaves.find? (fun z => z.core == 0) = some keep0 ∧
    s.saveArea 3 0 0 = 0 ∧ s.areaGone 0 = [] ∧ s.saveReady 0 = true ∧ (r.core 0).phase = .restore ∧ r.carOf 1 = some (savingCar .restoring) ∧ r.sched.ledger = [] ∧
    (∀ n, n < 32 → r.num (0x110080 + n) 1 = 0) ∧ bits (r.num 0x110058 8) 63 60 = 0xF ∧ bits (r.num 0x110060 8) 63 60 = 0xF ∧
    Memory.wf r.mem = true := by
  decide +kernel

theorem wit_StillCore : (savingS .saving .save).StillCore 0 ∧ (savingS .restoring .restore).StillCore 0 := by
  constructor <;> constructor <;> decide +kernel

/-! ### Witnesses: links, events, host ports -/

/-- A flit with 188 bytes as `p` and its CRC. -/
def flitOf (p : Nat) : BitVec 1536 := BitVec.ofNat 1536 (p + crc32 (bytesOf 188 p) * 2 ^ 1504)
/-- MSG flit with seq 4095 and ack 0: one message of class 0, no credits returned. -/
def flit1 : BitVec 1536 := flitOf (2 ^ 60 + 4095 * 2 ^ 48 + 3 * 2 ^ 34 + 2 ^ 21)

/-- Link 2 of dies 0 and 4 is UP with bundle 63 in full width; both ends' direction from die 4 to die 0 stands at seq 4095. -/
def linked (near far : BunEnd) : State :=
  let s := reg (reg (reg (reg State.reset (Reg.CRL_LINK 0 2) 0) (Reg.CRL_LINK 4 2) 0) (Reg.CRL_BUN_STATUS 0 2 63) 0) (Reg.CRL_BUN_STATUS 4 2 63) 0
  let s := (s.put (Reg.CRL_LINK 0 2) Fld.CRL_LINK_state 2).put (Reg.CRL_LINK 4 2) Fld.CRL_LINK_state 2
  let s := (s.put (Reg.CRL_BUN_STATUS 0 2 63) Fld.CRL_BUN_STATUS_state 1).put (Reg.CRL_BUN_STATUS 4 2 63) Fld.CRL_BUN_STATUS_state 1
  (s.setBun 0 2 63 near).setBun 4 2 63 far

/-- The far end is at seq 4095 with one credit of class 0. -/
def far1 : BunEnd := { BunEnd.reset with txNext := 4095, credits := [(0, 1)] }

theorem wit_Flits : let e : BunEnd := { BunEnd.reset with rxExp := 4095, sinceAck := 31 }
    let s := linked e far1
    peerOf 0 2 = some (4, 2) ∧ s.linkUp 0 2 = true ∧ s.bunState 0 2 63 ≠ 0 ∧ s.bun 0 2 63 = e ∧ s.bun 4 2 63 = far1 ∧
    far1.sends (s.bunQuiet 4 2 63) flit1 = true ∧ crcGood 192 flit1.toNat = true ∧ flitNumbered flit1 = true ∧ flitSeq flit1 = 4095 ∧
    flitReplay flit1 = false ∧ e.moved = [] ∧ crcGood 192 (flit1 ^^^ 1).toNat = false ∧ BunEnd.reset.sends false flit1 = false ∧
    flitSeq flit1 ≠ BunEnd.reset.rxExp := by
  decide +kernel

/-- The near end has flit 4095 unacknowledged, sent `n` times; the far end expects it. -/
def near1 (n : Nat) : BunEnd := { BunEnd.reset with buf := [(flit1, n)] }
def nakS (n : Nat) : State := linked (near1 n) { BunEnd.reset with rxExp := 4095 }

theorem wit_Nak : (nakS 1).cutOff = [] ∧ (retire ((nakS 17).setBun 0 2 63 (near1 17)) 0 2 63 3).cutOff = [] ∧
    ackMay 4096 ((nakS 17).bun 4 2 63).rxExp 4095 = true ∧ ackTrim flitSeq 4096 4095 (near1 17).buf = [(flit1, 17)] ∧
    (nakS 17).get (Reg.CRL_CTL 0) Fld.CRL_CTL_replay_max < 17 ∧ ¬(nakS 1).get (Reg.CRL_CTL 0) Fld.CRL_CTL_replay_max < 1 ∧
    ackMay 4096 ((linked (near1 1) BunEnd.reset).bun 4 2 63).rxExp 1 = false := by
  refine ⟨cutOff_none _ (by decide +kernel), cutOff_none _ (by decide +kernel), ?_, ?_, ?_, ?_, ?_⟩ <;> decide +kernel

theorem primary_ne {d : Nat} (h : d < 8) : ¬ d = primaryDie := by simp only [primaryDie]; omega

/-- Dies 0 and 8 run, every die is ready, and every link is UP but the one between them, which has yet to train. -/
def downS : State :=
  let s : State := { State.reset with
    boot := { Boot.reset with rails := [12], released := [0, 8] }, ceral := { State.reset.ceral with untrained := [0] } }
  let s := [0, 1, 2, 3, 4, 5, 6, 7, 8, 9].foldl (fun s i => [0, 1, 2].foldl (fun s l =>
    if i % 8 = 0 ∧ l = 0 then s else s.put (Reg.CRL_LINK i l) Fld.CRL_LINK_state 2) s) s
  let s := (s.put Reg.BOOT_STAGE Fld.BOOT_STAGE_stage 1).put Reg.BOOT_READY0 Fld.BOOT_READY0_die 0x3FF
  { s with regs := s.regs ++ [(Reg.BOOT_STRAP 8, 0x10)] }

def tests0 : List LaneTest := List.replicate 64 ⟨0, 0, false⟩
theorem hopsTo_all {ok : Nat → Nat → Bool} (h : ∀ i, i < 10 → ∀ l, (peerOf i l).isSome = true → ok i l = true) (p n : Nat) :
    hopsTo ok p n = hopsTo (fun _ _ => true) p n := by
  induction n with
  | zero => rfl
  | succ n ih =>
    simp only [hopsTo, ih]
    refine List.map_congr_left fun i hi => ?_
    have hi := List.mem_range.mp hi
    congr 1
    funext best l
    cases e : peerOf i l with
    | none => rfl
    | some x => simp [h i hi l (by rw [e]; rfl)]

/-- With every link UP no die is cut off, whichever of the two I/O dies is the primary one. -/
theorem cutOff_joined {s : State} (h : ∀ i, i < 10 → ∀ l, (peerOf i l).isSome = true → s.linkUp i l = true) : s.cutOff = [] := by
  have far (p : Nat) (hp : p = 8 ∨ p = 9) : ∀ i, i < 10 → (hopsTo (fun _ _ => true) p 10).getD i 99 ≠ 99 := by
    rcases hp with rfl | rfl <;> decide +kernel
  rw [State.cutOff, hopsTo_all (fun i hi l hl => by rw [h i hi l hl, Bool.true_or]), List.filter_eq_nil_iff]
  intro i hi
  have f := far primaryDie (by simp only [primaryDie]; omega) i (List.mem_range.mp hi)
  simp only [beq_eq_false_iff_ne.mpr f, Bool.and_false, Bool.not_eq_true]

theorem peer_lt {i l : Nat} (h : (peerOf i l).isSome = true) : l < 3 := by
  by_cases c : l < 3
  · exact c
  have h0 : l ≠ 0 := by omega
  have h1 : l ≠ 1 := by omega
  have h2 : l ≠ 2 := by omega
  have h3 : ¬ l < 2 := by omega
  simp [peerOf, h0, h1, h2, h3] at h

def trained : State := readyCheck (linkTrain downS 0 0 tests0 ⟨1, 1, 0⟩)
theorem trained_up : ((List.range 10).all fun i => (List.range 3).all fun l => (peerOf i l).isNone || trained.linkUp i l) = true := by decide +kernel
theorem trained_joined : (readyCheck (linkTrain downS 0 0 tests0 ⟨1, 1, 0⟩)).cutOff = [] := by
  refine cutOff_joined fun i hi l hl => ?_
  have h := List.all_eq_true.mp (List.all_eq_true.mp trained_up i (List.mem_range.mpr hi)) l (List.mem_range.mpr (peer_lt hl))
  rw [Bool.or_eq_true] at h
  rcases h with h | h
  · rw [Option.isNone_iff_eq_none] at h; rw [h] at hl; cases hl
  · exact h

theorem wit_Training : downS.dieRuns 0 = true ∧ downS.dieRuns 8 = true ∧ downS.linkDue 0 0 = true ∧ downS.ceral.isolated = [] ∧ downS.ceral.keep = [] ∧
    (∀ b, b < linkBundles 0 0 → tests0[b]? = some ⟨0, 0, false⟩) ∧ versionFits ⟨1, 1, 0⟩ = true ∧
    State.reset.dieRuns 0 = false ∧ downS.linkDue 0 1 = false := by
  refine ⟨?_, ?_, by decide +kernel, rfl, rfl, by decide +kernel, rfl, ?_, by decide +kernel⟩
  · rw [State.dieRuns, if_neg (primary_ne (by decide))]; decide +kernel
  · rw [State.dieRuns]; split <;> decide +kernel
  · rw [State.dieRuns, if_neg (primary_ne (by decide))]; decide +kernel

theorem wit_Quiesce : let s := (linked { BunEnd.reset with target := 3 } BunEnd.reset).setFlag (Reg.CRL_BUN_STATUS 0 2 63) Fld.CRL_BUN_STATUS_quiesce true
    63 < linkBundles 0 2 ∧ s.cutOff = [] ∧ s.bunQuiet 0 2 63 = true ∧ (s.bun 0 2 63).target = 3 ∧ s.exhausted 0 2 63 = false ∧ s.exhausted 4 2 63 = false ∧
    (s.bun 0 2 63).moved = [] ∧ (s.bun 4 2 63).moved = [] ∧ downS.bunQuiet 0 2 63 = false := by
  refine ⟨?_, cutOff_none _ (by decide +kernel), ?_, ?_, ?_, ?_, ?_, ?_, ?_⟩ <;> decide +kernel

/-- Source 1 of die 3 as `v`, edge or level. -/
def src (v : W64) : State := reg State.reset (Reg.EVC_SRC 3 1) v
def evF (fs : List (Fld × Nat)) : W64 := fs.foldl (fun a f => f.1.put a f.2) 0

theorem wit_EventRoutes : sourceListed 3 0x1FF = true ∧ sourceListed 8 1 = false ∧ (src 0).isLevel 3 1 = false ∧
    (let s := src (evF [(Fld.EVC_SRC_host_en, 1), (Fld.EVC_SRC_host_port, 1), (Fld.EVC_SRC_vector, 2047)])
     let s : State := { s with host := { s.host with p1 := { s.host.p1 with msixEn := true, msix := [(2047, ⟨0, 0, false⟩)] } } }
     s.flag (Reg.EVC_SRC 3 1) Fld.EVC_SRC_host_wait = false ∧ s.vecOwned 1 2047 none = true ∧ (s.port 1).msixEn = true ∧ ((s.port 1).vec 2047).mask = false ∧
      (s.port 1).fmask = false) ∧
    (world core0).inService 0 = true ∧ State.reset.inService 4095 = false ∧
    (src (evF [(Fld.EVC_SRC_level, 1), (Fld.EVC_SRC_asserted, 1)])).isLevel 3 1 = true ∧
    (src (evF [(Fld.EVC_SRC_level, 1), (Fld.EVC_SRC_asserted, 1)])).flag (Reg.EVC_SRC 3 1) Fld.EVC_SRC_host_en = false ∧
    (src (evF [(Fld.EVC_SRC_level, 1), (Fld.EVC_SRC_asserted, 1)])).flag (Reg.EVC_SRC 3 1) Fld.EVC_SRC_asserted = !false := by
  decide +kernel

/-- Sources 1023 and 5 of die 3 are pending at die controller processor 3 with priority 7. -/
def pend2 (fast : Nat) : State :=
  let v := evF [(Fld.EVC_SRC_dc_en, 1), (Fld.EVC_SRC_pending, 1), (Fld.EVC_SRC_cpu, 3), (Fld.EVC_SRC_prio, 7), (Fld.EVC_SRC_fast, fast)]
  reg (src v) (Reg.EVC_SRC 3 5) v

/-- No source of die 3 is pending at reset. -/
theorem quiet_all : (List.range 1024).all (fun m => Fld.EVC_SRC_pending.get (Reg.resetVal (Reg.EVC_SRC 3 m)) == 0) = true := by decide +kernel
theorem quiet {s : State} {m c : Nat} {f : Bool} (h : m < 1024) (hs : s.reg (Reg.EVC_SRC 3 m) = Reg.resetVal (Reg.EVC_SRC 3 m)) :
    s.pendingFor 3 c f m = false := by
  have q := (List.all_eq_true.mp quiet_all) m (List.mem_range.mpr h)
  simp only [beq_iff_eq] at q
  simp [State.pendingFor, State.flag, State.get, evSrc, hs, q]
theorem pend2_reg (f : Nat) {m : Nat} (h : m ≠ 1) (h' : m ≠ 5) : (pend2 f).reg (Reg.EVC_SRC 3 m) = Reg.resetVal (Reg.EVC_SRC 3 m) := by
  have e (n : Nat) (hn : m ≠ n) : Reg.EVC_SRC 3 n ≠ Reg.EVC_SRC 3 m := by simp only [Reg.EVC_SRC]; omega
  simp only [pend2, reg, src, State.reg_setReg_ne _ _ (e 5 h'), State.reg_setReg_ne _ _ (e 1 h)]
  rfl

theorem wit_EventDelivery : (pend2 0).pendingFor 3 3 false 1 = true ∧
    (∀ m, m < 1024 → m ≠ 1 → (pend2 0).pendingFor 3 3 false m = true →
      (pend2 0).get (evSrc 3 m) Fld.EVC_SRC_prio < (pend2 0).get (evSrc 3 1) Fld.EVC_SRC_prio ∨
        ((pend2 0).get (evSrc 3 m) Fld.EVC_SRC_prio = (pend2 0).get (evSrc 3 1) Fld.EVC_SRC_prio ∧ 1 < m)) ∧
    ((pend2 0).cpu 3 3).fast = none ∧ ((pend2 0).cpu 3 3).stack = [] ∧ (pend2 0).evcAsleep 3 = false ∧
    (pend2 1).pendingFor 3 3 true 1 = true ∧ (∀ m, m < 1 → (pend2 1).pendingFor 3 3 true m = false) ∧
    (∀ f m, m < 1024 → State.reset.pendingFor 3 3 f m = false) := by
  refine ⟨by decide +kernel, ?_, by decide +kernel, by decide +kernel, by decide +kernel, by decide +kernel, by decide +kernel,
    fun f m h => quiet h rfl⟩
  intro m h h1 hp
  by_cases h5 : m = 5
  · subst h5; exact .inr (by decide +kernel)
  · rw [quiet h (pend2_reg 0 h1 h5)] at hp; simp at hp

theorem wit_EventEnds : (src 0).copyDark 3 = true ∧
    (let s := reg (src (evF [(Fld.EVC_SRC_host_en, 1), (Fld.EVC_SRC_host_wait, 1), (Fld.EVC_SRC_host_again, 1), (Fld.EVC_SRC_host_port, 1)])) Reg.BOOT_READY0 0x3FF
     let s : State := { s with host := { s.host with p1 := { s.host.p1 with msixEn := true, msix := [(0, ⟨0, 0, false⟩)] } } }
     s.copyDark 3 = false ∧ s.flag (Reg.EVC_SRC 3 1) Fld.EVC_SRC_host_wait = true ∧ s.flag (Reg.EVC_SRC 3 1) Fld.EVC_SRC_host_again = true ∧
      s.vecOwned 1 0 none = true ∧ (s.port 1).msixEn = true ∧ ((s.port 1).vec 0).mask = false ∧ (s.port 1).fmask = false) ∧
    ((State.reset.setCpu 9 3 ⟨[(1023, 7)], some 5⟩).cpu 9 3).stack = (1023, 7) :: [] ∧ ((State.reset.setCpu 9 3 ⟨[(1023, 7)], some 5⟩).cpu 9 3).fast = some 5 ∧
    State.reset.pwr.entry = none ∧ (reg State.reset Reg.PWR_STATE 2).get Reg.PWR_STATE Fld.PWR_STATE_state = 2 ∧
    (reg State.reset Reg.EVC_WATCH_TIMER 1).get Reg.EVC_WATCH_TIMER Fld.EVC_WATCH_TIMER_ms ≠ 0 := by
  decide +kernel

/-- Host port 1 is up; BAR2 opens at GiB 0. -/
def hostUp : State := reg (world coreA) (Reg.HIF_PORT 1) 0 |>.setFlag (Reg.HIF_PORT 1) Fld.HIF_PORT_up true
def rq0 : InReq := ⟨0, none, none, false, false⟩

theorem wit_Inbound : hostUp.portUp 1 = true ∧ State.reset.portUp 1 = false ∧ hostUp.sched.abort = none ∧ hostUp.sched.abortQ = [] ∧
    hostUp.net.filter (fun m => m.src == epHost 1) = [] ∧ hostUp.barHolds 1 0 (2 ^ 28 - 8) 8 = true ∧ hostUp.barHolds 1 0 (2 ^ 28 - 7) 8 = false ∧ hostUp.barHolds 1 2 (2 ^ 42 - 1) 1 = true ∧
    hostUp.barHolds 1 4 0 8 = true ∧ hostUp.bar0Serves 1 rq0 (2 ^ 28 - 8) = true ∧ hostUp.bar0Serves 1 { rq0 with pasid := some 0 } 0 = false ∧ hostUp.bar2Addr 1 120 = 120 ∧
    hostUp.bar2Serves 1 rq0 120 8 false = true ∧ hostUp.bar2Serves 1 rq0 120 8 true = true ∧ hostUp.bar2Serves 1 { rq0 with pasid := some 0 } 120 8 true = false := by
  decide +kernel

/-- Requests outstanding at port 1: flush reads, a window load, a read of the waybill reader and one of the mover. -/
def hostReqs : List HostReq := [⟨1, none, 0, 0, .flush 0, false⟩, ⟨2, none, 0, 0, .flush 0, true⟩, ⟨3, some 5, 0x1000, 8, .winLoad 0 5 0 8, false⟩,
  ⟨4, some 5, 0x1000, 4, .waybill 7, false⟩, ⟨5, some 5, 0x1000, 128, .source 0 255 9, false⟩]
def hostS : State := { State.reset with
  sched := { Sched.reset with insts := [(7, { InstRd.empty with stage := .gen, req := some 4 })] },
  host := { State.reset.host with p1 := { HostPort.reset with reqs := hostReqs, inval := [⟨31, []⟩] } } }

theorem wit_HostSide : (∀ r, r ∈ hostReqs → (hostS.port 1).reqs.find? (fun x => x.id == r.id) = some r) ∧ (hostS.instRd 7).req = some 4 ∧
    hostS.sched.abort = none ∧ hostS.sched.abortQ = [] ∧ (hostS.port 1).reqs.find? (fun r => r.id == 6) = none ∧ hostS.portRoom 1 1 = true ∧
    (hostS.port 1).inval.find? (fun x => x.itag == 31 && x.wait.isEmpty) = some ⟨31, []⟩ ∧ (hostS.port 1).inval.length < 32 ∧
    32 ≤ (List.replicate 32 (⟨31, [1]⟩ : Inval)).length ∧ (hostUp.port 1).reqs = [] ∧ hostUp.host.dlog = [] ∧ State.reset.portUp 0 = false := by
  decide +kernel

theorem wit_StreamFails : let s : State := { State.reset with host := { State.reset.host with p1 := { HostPort.reset with streams := [0, 3] }, tdiStream := [(1023, 2)] } }
    let s := (reg s (Reg.PRT_INST 1023) 0x8100000000000000).put (Reg.MBX_ID 1023) Fld.MBX_ID_tdi_state 2
    s.sched.cars = [] ∧ s.instBound 1023 = true ∧ s.instPort 1023 = 1 ∧ (1023, 2) ∈ s.host.tdiStream ∧ s.tdiState 1023 = 2 ∧
    setHas (s.port 1).streams 3 = true := by
  decide +kernel

theorem wit_NoInstance : ∀ i, i < 1024 → (hostUp.instRd i).stage = .idle ∧ hostUp.instBound i = false := by
  intro i hi
  refine ⟨rfl, ?_⟩
  have q := (List.all_eq_true.mp (by decide +kernel : (List.range 1024).all (fun i => !hostUp.instBound i) = true)) i (List.mem_range.mpr hi)
  simpa using q

theorem wit_HostLinkUp : let s : State := { reg State.reset Reg.BOOT_STAGE 1 with boot := { Boot.reset with released := [8, 9] } }
    s.portUp 1 = false ∧ s.portTrains 1 = true ∧ s.portTrains 0 = true := by
  refine ⟨by decide +kernel, ?_, ?_⟩
  · simp only [State.portTrains, Bool.and_eq_true, Bool.or_eq_true]; refine ⟨by decide +kernel, .inr (by decide +kernel)⟩
  · simp only [State.portTrains, Bool.and_eq_true, Bool.or_eq_true]; refine ⟨by decide +kernel, .inr (by decide +kernel)⟩
theorem wit_RecoveryLink : let s : State := { reg State.reset Reg.BOOT_STAGE 8 with boot := { Boot.reset with released := [8, 9] } }
    s.portUp 1 = false ∧ s.portTrains 1 = true ∧ s.stage = 8 ∧ (if s.stage = 8 then 5 else 7) < (6 : BitVec 4).toNat := by
  refine ⟨by decide +kernel, ?_, by decide +kernel, by decide +kernel⟩
  simp only [State.portTrains, Bool.and_eq_true, Bool.or_eq_true]; refine ⟨by decide +kernel, .inr (by decide +kernel)⟩


/-! ### Witnesses: host side, sessions, optical links -/

def port1 (h : HostPort) (s : State) : State := { s with host := { s.host with p1 := h } }
def dw (bits : W64) (out : Option W64) : DlogWord := ⟨0, 15, 3, 5, bits, out⟩

theorem wit_Vectors : let s := port1 { HostPort.reset with msixEn := true, pba := [2047] } State.reset
    (s.port 1).msixEn = true ∧ (s.port 1).fmask = false ∧ (s.port 1).pba = [2047] ∧ ((port1 { HostPort.reset with msixEn := true } State.reset).port 1).pba = [] ∧
    (let d : State := { State.reset with host := { State.reset.host with dlog := [dw 8 none] } }
     let d := (reg d (Reg.HIF_PORT 0) 0).setFlag (Reg.HIF_PORT 0) Fld.HIF_PORT_up true
     d.host.dlog = [dw 8 none] ∧ (dw 8 none).bits ≠ 0 ∧ (dw 8 none).out = none ∧ d.portUp (d.instPort 0) = true) ∧
    (dw 0 (some 8)).out = some 8 ∧ (dw 0 (some 8)).bits = 0 ∧ (dw 0 (some 8)).last = 5 ∧ State.reset.host.dlog = [] := by
  decide +kernel

theorem wit_Mailboxes : let s := reg (reg State.reset (Reg.MBX_T2M 1023) 0xFFF0FFFF) (Reg.MBX_VER 1023) 0x1110
    s.mbxSeq 1023 false = (0xFFFF, 0xFFF0) ∧ seqGap 0xFFF0 0xFFFF < 16 ∧ 0xFFFF % 16 = 15 ∧ s.get (Reg.MBX_VER 1023) Fld.MBX_VER_major ≠ 0 ∧
    s.flag (Reg.MBX_IRQ 1023) Fld.MBX_IRQ_t2m_en = false ∧ seqGap 0xFFF0 0xFFFF ≤ seqGap 0xFFF0 0xFFFF ∧ seqGap 0xFFF0 0xFFFF < seqGap 0xFFF0 0 ∧
    s.ownRefused (s.instPart 1023) 1023 = true ∧
    (reg s (Reg.PRT_INST 1023) 0x8000000000000000).ownRefused ((reg s (Reg.PRT_INST 1023) 0x8000000000000000).instPart 1023) 1023 = false ∧
    (schd s { Sched.reset with abort := some ⟨some 1023, [], false⟩ }).abortOpen 1023 = true ∧ s.sched.abort = none ∧ (s.instRd 1023).taken = [] ∧
    s.abortNames 1023 true (s.reg (Reg.MBX_ABORT_TAG 1023)) = [] := by
  decide +kernel

/-- Instance 7 of partition 3 is bound to port 0, whose selective stream 7 is up. -/
def tdi (st : Nat) : State :=
  let s := reg (reg (runs0 .ended) (Reg.PRT_INST 7) 0x8003000000000000) (Reg.MBX_ID 7) (Fld.MBX_ID_tdi_state.put 0 st)
  schd { s with host := { s.host with p0 := { HostPort.reset with streams := [8] } } } Sched.reset

theorem wit_Tdi : (tdi 0).mayLock 7 6 = false ∧ (tdi 0).mayLock 7 7 = true ∧ (tdi 1).tdiState 7 = 1 ∧ (tdi 0).tdiState 7 = 0 ∧ (tdi 2).tdiState 7 ≠ 0 ∧
    (tdi 2).sched.abort = none ∧ (tdi 2).carsOf 7 = [] ∧ ((tdi 2).instRd 7).taken = [] ∧ (tdi 2).host.zeroing = [] ∧
    (let s : State := { tdi 3 with host := { (tdi 3).host with zeroing := [(7, true)] } }
     s.host.zeroing = [(7, true)] ∧ s.carsOf 7 = [] ∧ s.flag (Reg.PRT_INST 7) Fld.PRT_INST_unbinding = false ∧ 0 ∈ s.normalGibs (s.instPart 7)) := by
  decide +kernel

theorem wit_Spdm : let s := reg (port1 { HostPort.reset with session := 1 } hostUp) Reg.BOOT_STAGE 1
    State.reset.spdmServed 0 = false ∧ s.spdmServed 1 = true ∧ (s.port 1).session = 1 ∧ ((port1 { HostPort.reset with session := 2 } s).port 1).session = 2 := by
  decide +kernel

/-- Optical port 15 is UP with end `e`; the module's ID is 5. -/
def optS (e : OptEnd) : State :=
  let s := reg (reg (State.reset.setOptEnd 15 e) (Reg.OPT_PORT 15) 0) Reg.OPT_ID 0
  ((s.put (Reg.OPT_PORT 15) Fld.OPT_PORT_state 2).put Reg.OPT_ID Fld.OPT_ID_module_id 5).setFlag Reg.OPT_ID Fld.OPT_ID_valid true

/-- MSG flit with seq 65535 and its CRC. -/
def oflit1 : BitVec 2048 := BitVec.ofNat 2048 (2 ^ 92 + 65535 * 2 ^ 72 + 4060839182 * 2 ^ 2016)
theorem oflit1_good : crcGood 256 oflit1.toNat = true := by decide +kernel

/-- The end with flit 65535 unacknowledged, sent `n` times, and `us` waiting for channel 0 with `c` credits. -/
def oend (n c : Nat) (us : List (BitVec 128)) : OptEnd :=
  { OptEnd.reset with rxExp := 65535, sinceAck := 63, buf := [(oflit1, n)], queue := [(0, us)], credits := [(0, c)], lanes := 0x80 }

theorem wit_OpticalFlits : let e := oend 17 14 [1, 2]
    (optS e).optUp 15 = true ∧ State.reset.optUp 15 = false ∧ (optS e).optEnd 15 = e ∧ optNumbered oflit1 = true ∧ optSeq oflit1 = 65535 ∧
    ackTrim optSeq 65536 65535 e.buf = [(oflit1, 17)] ∧ (reg (optS e) Reg.OPT_CTL 0xF0000).get Reg.OPT_CTL Fld.OPT_CTL_replay_max = 15 ∧
    (0x80#8).getLsbD 7 = true ∧ crcGood 256 (oflit1 ^^^ 1).toNat = false := by
  decide +kernel

theorem wit_OpticalQueue : (oend 1 15 [1, 2]).queue = [(0, [1, 2])] ∧ 15 ≤ mapGet (fun _ => 0) (oend 1 15 [1, 2]).credits 0 ∧
    (oend 1 15 [1, 2]).buf.length < 4096 ∧ mapGet (fun _ => 0) (oend 1 14 [1, 2]).credits 0 < 15 ∧ OptEnd.reset.queue = [] := by
  decide +kernel

theorem wit_OpticalTraining : let s := (optS OptEnd.reset).put (Reg.OPT_PORT 15) Fld.OPT_PORT_state 0
    s.pwr.trip = false ∧ s.ceral.isolated = [] ∧ s.flag Reg.OPT_ID Fld.OPT_ID_valid = true ∧ s.optUp 15 = false ∧ (0x77#8) &&& 0x0F ≠ 0x0F ∧
    (0x77#8) &&& 0xF0 ≠ 0xF0 ∧ (0x0F#8) &&& 0x0F = 0x0F ∧ s.moduleId = 5 ∧ State.reset.flag Reg.OPT_ID Fld.OPT_ID_valid = false ∧
    s.sched.ledger = [] ∧ (optS OptEnd.reset).noticeSeen ⟨4095, 0, 0, 65535⟩ = false ∧
    ({ optS OptEnd.reset with opt := { (optS OptEnd.reset).opt with seen := [(4095, 65535)] } } : State).noticeSeen ⟨4095, 0, 0, 65535⟩ = true := by
  decide +kernel

theorem wit_NoRemote (c : Nat) : ((optS OptEnd.reset).core c).remote = [] := rfl

/-! ### Witnesses: remote operations -/

/-- Port 15 is UP; GiB 0 and the scratchpads of partition 3 are exported to every module. -/
def expo : State :=
  let s := world coreA
  let s := reg (reg s (Reg.OPT_PORT 15) 0) Reg.OPT_ID 0
  let s := ((s.put (Reg.OPT_PORT 15) Fld.OPT_PORT_state 2).put Reg.OPT_ID Fld.OPT_ID_module_id 5).setFlag Reg.OPT_ID Fld.OPT_ID_valid true
  reg (reg (reg s (Reg.OPT_EXPORT 0) 0xC000000000001000) (Reg.OPT_EXPORT 1) 0xE000000000000003) (Reg.PRT_ROWS 3 0) 1
def hdr (a : BitVec 52) (tag : BitVec 8) (arg : BitVec 8) : RemHdr := ⟨arg, 0, false, 0, 5, 9, a, tag, 0, 0, 0, 0⟩

theorem wit_RemoteRequests : expo.optUp 15 = true ∧ expo.moduleId = 5 ∧ expo.remoteServes 1 (hdr 0x3FFFFF80 0 0) 0x3FFFFF80 128 = true ∧
    expo.remoteServes 2 (hdr 0 0 0) 0 128 = true ∧ expo.remoteServes 4 (hdr 8 0 0x19) 8 8 = true ∧ 8 % 8 = 0 ∧ (hdr 8 0 0x19).arg.toNat % 16 < 10 ∧
    (hdr 8 0 0x19).arg.getLsbD 4 = true ∧ expo.remoteServes 1 (hdr 0x40000000 0 0) 0x40000000 128 = false ∧
    expo.remoteServes 2 (hdr 0x1000000FFF80 64 0) 0x1000000FFF80 128 = true ∧ expo.stk.bad = [] ∧ expo.errs.inj = [] := by
  decide +kernel

/-- Core 0 has request `k` to module 9 outstanding. -/
def askR (k : RemKind) : RemReq := ⟨0, 0, 9, k⟩
def asks (k : RemKind) : State := { expo with cores := [(0, { coreA with remote := [askR k] })] }

theorem wit_RemoteAnswers : let e : Ledger := ⟨2, 7, 0, 0, 0, 9, none, none, .waiting, 0, false, false⟩
    expo.opt.routeHold = [] ∧ 0 = expo.get Reg.OPT_DOMAIN Fld.OPT_DOMAIN_epoch ∧ (expo.core 0).remote = [] ∧ expo.sched.ledger = [] ∧
    (schd expo { Sched.reset with ledger := [e] }).sched.ledger = [e] ∧ (schd expo { Sched.reset with ledger := [e] }).ledgerRuns e = false ∧
    (∀ k, k ∈ [RemKind.read 0 0 8 120, .amo 31 true 4, .write 1 0x80 none false, .write 1 0x80 (some 0x81) false, .write 1 0x80 (some 0x81) true] →
      ((asks k).core 0).remote = [askR k] ∧ (asks k).staleRead 0 (askR k) = false) := by
  decide +kernel

/-! ### Witnesses: power, bring-up, resets -/

/-- No die is held in reset. -/
def strapped (s : State) : State := { s with regs := s.regs ++ [(Reg.BOOT_STRAP 8, 0x10)] }
/-- The primary I/O die, whichever it is, reports ready. -/
def readyS : State := strapped (reg State.reset Reg.BOOT_READY0 0x3FF0)

/-- What holds of both I/O dies holds of the primary one. -/
theorem of_primary {P : Nat → Prop} (h8 : P 8) (h9 : P 9) : P primaryDie := by
  have h : primaryDie = 8 ∨ primaryDie = 9 := by simp only [primaryDie]; omega
  rcases h with h | h <;> rw [h] <;> assumption

theorem primary_works : readyS.copyDark primaryDie = false := of_primary (P := fun d => readyS.copyDark d = false) (by decide +kernel) (by decide +kernel)
theorem primary_dark : State.reset.copyDark primaryDie = true :=
  of_primary (P := fun d => State.reset.copyDark d = true) (by decide +kernel) (by decide +kernel)

theorem wit_PowerRequests : readyS.copyDark primaryDie = false ∧ State.reset.copyDark primaryDie = true ∧ readyS.pwr.entry = none ∧ readyS.pwr.ret = none ∧
    readyS.pwrState < 2 ∧ (reg readyS Reg.PWR_STATE 2).pwrState = 2 ∧ (reg readyS Reg.PWR_STATE 3).pwrState = 3 ∧ readyS.pwr.halt = false := by
  refine ⟨primary_works, primary_dark, rfl, rfl, ?_, ?_, ?_, rfl⟩ <;> decide +kernel

theorem wit_PowerEntry : let s (e : PwrEntry) : State := { State.reset with pwr := { Power.reset with entry := some e } }
    (s ⟨3, 2, false⟩).pwr.entry = some ⟨3, 2, false⟩ ∧ (reg (s ⟨3, 2, false⟩) (Reg.PRT_DESC 31) 0x2000000000000000).partState 31 = 1 ∧
    (s ⟨3, 3, true⟩).net = [] ∧ (s ⟨3, 3, true⟩).llc = Llc.reset ∧ (s ⟨2, 2, false⟩).reloading = false ∧ (s ⟨3, 3, true⟩).pwr.wakeNext = none ∧
    (∀ w, w < 64 → (s ⟨3, 3, true⟩).flag (Reg.EVC_WATCH w) Fld.EVC_WATCH_en = false) ∧
    (let r : State := { State.reset with pwr := { Power.reset with ret := some 3 } }
     r.pwr.ret = some 3 ∧ r.pwr.woke = none ∧ r.pwr.entry = none) := by
  decide +kernel

theorem wit_Coolant : State.reset.pwr.coolant = false ∧ State.reset.reloading = false ∧ State.reset.sched.cars = [] ∧ State.reset.sched.abort = none ∧
    State.reset.sched.abortQ = [] ∧ 2 ≤ (reg State.reset Reg.BOOT_STAGE 4).stage ∧ (reg State.reset Reg.BOOT_STAGE 4).stage ≠ 8 ∧
    (reg State.reset Reg.BOOT_STAGE 4).pwr.halt = false := by
  decide +kernel

/-- Core 0, in service with a revised maximum of 1800 MHz, runs a leg of its class at `rate` under a cap of 1000 W; fg is 900 MHz and there is no BE power limit. -/
def loopS (lc : Bool) (rate : Nat) : State :=
  withRegs { one { core0 with leg := some { leg0 with lc := lc } } with pwr := { Power.reset with rates := [(0, rate)] } }
    [(Reg.PRT_DESC 3, BitVec.ofNat 64 (900 * 2 ^ 35)), (Reg.CORE_ID 0, 0x4000), (Reg.CORE_FMAX 0, Fld.CORE_FMAX_revised.put 0 1800),
     (Reg.PWR_CAP, Fld.PWR_CAP_cap_w.put 0 1000), (Reg.PWR_TOLL 0, 0)]

theorem wit_PowerLoop : (loopS false 1200).beLimit = 0 ∧ (loopS false 1200).get Reg.PWR_CAP Fld.PWR_CAP_cap_w < 1001 ∧ (loopS false 1200).inService 0 = true ∧
    (loopS false 1200).runsBe 0 = true ∧ 450 < (loopS false 1200).setRateOf 0 ∧ (loopS true 1200).runsLc 0 = true ∧ (loopS true 1200).fgOf 0 = 900 ∧
    900 < (loopS true 1200).setRateOf 0 ∧ (loopS true 900).setRateOf 0 = 900 ∧ (loopS true 1200).runsBe 0 = false := by
  decide +kernel

/-- The same core on a reserved row of partition 3, where an LC caravan runs. -/
def keptS (rate : Nat) : State := schd (reg (loopS true rate) (Reg.PRT_LCROWS 3 0) 1) { Sched.reset with cars := [car0 .running] }

theorem wit_PowerFloor : 0 ∈ (keptS 900).reservedCores 3 ∧ (car0 .running).lc = true ∧ (car0 .running).part = 3 ∧ (keptS 900).runsBe 0 = false ∧
    (keptS 900).fgNow 3 = 900 ∧ (keptS 900).setRateOf 0 = 900 ∧ 0 ∉ (keptS 900).pwr.capLow := by
  decide +kernel

theorem wit_Currents : (world core0).inService 0 = true ∧ State.reset.inService 4095 = false ∧ State.reset.pwr.trip = false ∧
    ({ State.reset with pwr := { Power.reset with trip := true } } : State).pwr.trip = true ∧ State.reset.sched.cars = [] ∧
    ((reg State.reset (Reg.PWR_HALF 7 1) 0).setFlag (Reg.PWR_HALF 7 1) Fld.PWR_HALF_gated true).flag (Reg.PWR_HALF 7 1) Fld.PWR_HALF_gated = true ∧
    State.reset.flag (Reg.PWR_HALF 7 1) Fld.PWR_HALF_gated = false ∧
    (let s := reg State.reset (Reg.PWR_HALF 7 1) 0 |>.put (Reg.PWR_HALF 7 1) Fld.PWR_HALF_therm_mhz 451
     let s : State := { s with pwr := { Power.reset with alarm := [15], cool := [(15, 9)], thermLc := [(15, 2050)] } }
     450 < s.get (Reg.PWR_HALF 7 1) Fld.PWR_HALF_therm_mhz ∧ mapGet (fun _ => 2100) s.pwr.thermLc 15 < 2100 ∧ 9 ≤ mapGet (fun _ => 0) s.pwr.cool 15 ∧ 15 ∈ s.pwr.alarm ∧
      15 ∉ State.reset.pwr.alarm ∧ mapGet (fun _ => 0) State.reset.pwr.cool 15 < 9 ∧ 5 ≤ s.get Reg.PWR_THERM Fld.PWR_THERM_throttle_c) := by
  decide +kernel

theorem wit_ModuleReset : State.reset.boot.inputOk = true ∧ 1 ∈ State.reset.boot.rails ∧ 2 ∈ State.reset.boot.rails ∧ State.reset.pwr.trip = false ∧
    ({ State.reset with boot := { Boot.reset with inputOk := false } } : State).boot.inputOk = false := by
  decide

theorem wit_Straps : let s : State := { strapped State.reset with boot := { Boot.reset with released := [7] } }
    s.boot.released.contains 7 = true ∧ s.dieHeld 7 = false ∧ (popCount 2 0 + popCount 3 7 + b2n false) % 2 = 1 ∧
    (popCount 2 0 + popCount 3 7 + b2n true) % 2 = 0 ∧ (∀ l, l < 3 → s.linkUp 7 l = false) ∧
    (s.put (Reg.CRL_LINK 7 2) Fld.CRL_LINK_state 2).linkUp 7 2 = true ∧ 7 ∉ s.boot.reported := by
  decide +kernel

/-- Stage `n` of bring-up, with no die held. -/
def stageS (n : W64) : State := strapped (reg State.reset Reg.BOOT_STAGE n)

theorem wit_Release : (stageS 2).dcGood = true ∧ (stageS 2).dcSpeaks = true ∧ (stageS 2).dieOut 0 = false ∧ 0 ∉ (stageS 2).boot.released ∧
    (stageS 2).stage = 2 ∧ (stageS 2).pwr.coolant = false ∧ (0 : Nat) ≠ primaryDie := by
  refine ⟨rfl, rfl, ?_, ?_, ?_, rfl, ?_⟩
  · decide +kernel
  · decide +kernel
  · decide +kernel
  · exact (primary_ne (by decide))

theorem wit_Stages : (stageS 0).pwr.trip = false ∧ (stageS 0).boot.inputOk = true ∧ (stageS 0).pwrState < 2 ∧ (stageS 0).pwr.entry = none ∧
    (stageS 0).pwr.ret = none ∧ (stageS 0).stage = 0 ∧ 1 ∈ (stageS 0).boot.rails ∧ 2 ∈ (stageS 0).boot.rails ∧ (stageS 1).stage = 1 ∧
    (stageS 2).stage = 2 ∧ (stageS 3).stage = 3 ∧ (stageS 4).stage = 4 ∧
    (let g : State := { stageS 0 with flash := { State.reset.flash with fw := [(0, none), (1, none)] } }
     g.fwGood 0 = false ∧ g.fwGood 1 = false) ∧
    (let g : State := { stageS 3 with flash := { State.reset.flash with img := [(0, none), (1, none)], floor := 0, booted := 0 } }
     g.copyGood 0 = false ∧ g.copyGood 1 = false) ∧
    (∀ d, d < 8 → (stageS 2).dieOut d = false) ∧
    (let r : State := { strapped (reg (reg State.reset Reg.BOOT_STAGE 2) Reg.BOOT_READY0 0x3FF0) with boot := { Boot.reset with trained := List.range 32 } }
     ∀ d, d < 8 → r.dieReady d = true ∧ ∀ m, m < 4 → 4 * d + m ∈ r.boot.trained) := by
  decide +kernel

theorem stage_primary : (stageS 0).dieHeld primaryDie = false :=
  of_primary (P := fun d => (stageS 0).dieHeld d = false) (by decide +kernel) (by decide +kernel)

theorem wit_StackTraining : let s : State := { State.reset with
      boot := { Boot.reset with released := [7], rails := [68] }, stk := { State.reset.stk with mapped := [] } }
    31 ∉ s.boot.trained ∧ s.boot.dieReset ≠ some 7 ∧ 1023 ∉ s.stk.mapped ∧ s.stk.mapped.length < 64 ∧ s.dieRuns 7 = true ∧ State.reset.dieRuns 7 = false := by
  refine ⟨by decide, by decide, List.not_mem_nil, by decide, ?_, ?_⟩
  all_goals rw [State.dieRuns, if_neg (primary_ne (by decide))]; decide +kernel

theorem wit_PartitionReady : let s : State := { reg (reg (reg State.reset Reg.BOOT_READY0 0) Reg.BOOT_READY_STK 0xFFFFFFFF) (Reg.PRT_DESC 31) 0x8000000000000000 with
        img := { Image.reset with applied := true } }
    let s := s.put Reg.BOOT_READY0 Fld.BOOT_READY0_slices 0xFFFF
    s.img.applied = true ∧ s.partState 31 = 4 ∧ (s.part 31).reloaded = false ∧ s.get Reg.BOOT_READY0 Fld.BOOT_READY0_slices = 0xFFFF ∧
    (∀ n, n < 64 → (s.reg Reg.BOOT_READY_STK).getLsbD n = decide (n < 32)) := by
  decide +kernel

theorem wit_DieReset : State.reset.boot.dieReset = none ∧ (∀ p, p < 32 → State.reset.partState p = 0) ∧ State.reset.dieHeld 7 = false ∧ 7 ∉ State.reset.ceral.isolated ∧
    State.reset.pwrState < 2 ∧ State.reset.pwr.entry = none ∧ State.reset.pwr.ret = none ∧ State.reset.reloading = false ∧
    (let s : State := { reg (reg (reg State.reset (Reg.CRL_LINK 7 0) 2) (Reg.CRL_LINK 7 1) 2) (Reg.CRL_LINK 7 2) 0 with boot := { Boot.reset with dieReset := some 7 } }
     (∀ l, l < 3 → (s.put (Reg.CRL_LINK 7 0) Fld.CRL_LINK_state 2 |>.put (Reg.CRL_LINK 7 1) Fld.CRL_LINK_state 2 |>.put (Reg.CRL_LINK 7 2) Fld.CRL_LINK_state 2).linkSettled 7 l = true) ∧
      s.linkSettled 7 2 = false ∧ s.img.applied = false ∧ s.img.parts = []) := by
  decide +kernel

/-! ### Witnesses: images, security, registers -/

theorem wit_Images : State.reset.sec.attest = none ∧ State.reset.sec.turns = [] ∧
    (reg State.reset (Reg.HIF_PORT 0) 0x8000000000000000).flag (Reg.HIF_PORT (State.reset.get Reg.BOOT_IMG_CTL Fld.BOOT_IMG_CTL_port)) Fld.HIF_PORT_up = true ∧ State.reset.stageOne = false ∧ (reg State.reset Reg.BOOT_STAGE 1).stageOne = true ∧
    (reg State.reset Reg.BOOT_STAGE 9).stage = 9 ∧
    (let s : State := (reg State.reset Reg.BOOT_IMG_STATUS 0).setFlag Reg.BOOT_IMG_STATUS Fld.BOOT_IMG_STATUS_busy true
     let s : State := { s with img := { Image.reset with op := some 3 } }
     s.flag Reg.BOOT_IMG_STATUS Fld.BOOT_IMG_STATUS_busy = true ∧ s.img.op ≠ some 1) ∧
    ({ State.reset with flash := { State.reset.flash with floor := 0 } } : State).verifyImage [] ≠ ImgResult.of 0 ∧
    ({ reg (reg State.reset Reg.BOOT_STAGE 4) Reg.PWR_STATE 0 with img := { Image.reset with flags := 1 } } : State).reloadAllowed 31 = true ∧
    State.reset.reloadAllowed 31 = false := by
  decide +kernel

/-- A signed command of `op` for target 0 and nonce 9, not enrolled, with signer 3. -/
def cmdOf (op : Nat) : List Byte := bytesOf 128 (0x444D4353 + op * 2 ^ 32 + 3 * 2 ^ 48 + 9 * 2 ^ 64)
/-- The module with nonce 9, serial number 0 and no key. -/
def secS : State :=
  let s := withRegs State.reset [(Reg.HIF_PORT 0, 0x8000000000000000), (Reg.BOOT_SERIAL0, 0), (Reg.BOOT_SERIAL1, 0), (Reg.BOOT_STAGE, 1), (Reg.SEC_NONCE, 9), (Reg.SEC_CMD_STATUS, 0)]
  { s with flash := { s.flash with keys := (List.range 16).map (fun n => (n, none)), revoked := 0, arb := 0, debugKill := false } }

theorem wit_Security : secS.sec.attest = none ∧ secS.sec.turns = [] ∧ ({ secS with sec := { secS.sec with turns := [0] } } : State).sec.turns.head? ≠ some 1 ∧
    secS.flag (Reg.HIF_PORT (secS.get Reg.SEC_CMD_CTL Fld.SEC_CMD_CTL_port)) Fld.HIF_PORT_up = true ∧ secS.flag Reg.SEC_CMD_STATUS Fld.SEC_CMD_STATUS_busy = false ∧ secS.stageOne = true ∧ (cmdOf 2).length = 128 ∧ numAt (cmdOf 2) 0 4 = 0x444D4353 ∧ numAt (cmdOf 2) 4 1 = 2 ∧
    zeroAt (cmdOf 2) 7 1 = true ∧ zeroAt (cmdOf 2) 0x1C 4 = true ∧ numAt (cmdOf 2) 8 8 = (secS.reg Reg.SEC_NONCE).toNat ∧ slice (cmdOf 2) 0x10 12 = secS.serial ∧
    secS.signerGood (cmdOf 2) 2 = false ∧ fwCheck [] 0 = 2 ∧ secS.targetGood 2 0 = true ∧ secS.targetGood 4 0 = false ∧ secS.targetGood 5 0 = true ∧
    (let f : State := { secS with flash := { secS.flash with keys := [] } }
     f.sec.op ≠ some 1) := by
  decide +kernel

theorem wit_Enrol : let bs : List Byte := bytesOf 128 (0x444D4353 + 2 * 2 ^ 32 + 0xFF * 2 ^ 48 + 9 * 2 ^ 64 + 7 * 2 ^ 256)
    secS.signerGood bs 2 = true ∧ numAt bs 4 1 = 2 ∧ numAt bs 5 1 = 0 ∧ secS.targetGood 2 0 = true ∧ numAt bs 0x20 32 = 7 := by
  decide +kernel

theorem wit_Attest : let r := Reg.SEC_ATTEST_STATUS
    State.reset.flag r Fld.SEC_ATTEST_STATUS_busy = false ∧ State.reset.sec.turns = [] ∧ State.reset.flag (Reg.PRT_INST 1023) Fld.PRT_INST_bound = false ∧
    ((reg State.reset r 0).setFlag r Fld.SEC_ATTEST_STATUS_busy true).flag r Fld.SEC_ATTEST_STATUS_busy = true ∧
    secS.stage ≠ 0 := by
  decide +kernel

theorem wit_Registers : State.reset.sched.abortQ = [] ∧ State.reset.regDark 0x1000900 = false ∧ (regFamily 0x1000900).isSome = true ∧ readyS.regDark (Reg.DIR_PROBE_ADDR 7) = false ∧
    State.reset.regDark (Reg.DIR_PROBE_ADDR 7) = true ∧ readyS.copyDark 9 = false ∧ State.reset.copyDark 9 = true ∧
    (let s := reg readyS (Reg.ERR_RING 9) 0 |>.put (Reg.ERR_RING 9) Fld.ERR_RING_produced 2
     (2 + 2 ^ 32 - s.get (Reg.ERR_RING 9) Fld.ERR_RING_consumed) % 2 ^ 32 ≤
        (s.get (Reg.ERR_RING 9) Fld.ERR_RING_produced + 2 ^ 32 - s.get (Reg.ERR_RING 9) Fld.ERR_RING_consumed) % 2 ^ 32 ∧
      ¬ (3 + 2 ^ 32 - s.get (Reg.ERR_RING 9) Fld.ERR_RING_consumed) % 2 ^ 32 ≤
        (s.get (Reg.ERR_RING 9) Fld.ERR_RING_produced + 2 ^ 32 - s.get (Reg.ERR_RING 9) Fld.ERR_RING_consumed) % 2 ^ 32) ∧
    (worldD (Dir.ownedBy 0)).lineBusy 0 = false ∧ (homes (worldD (Dir.ownedBy 0)) ⟨some (txnA .getx), [], none⟩).lineBusy 0 = true ∧
    sliceDie ((worldD (Dir.ownedBy 0)).home 0) = 0 := by
  decide +kernel

theorem wit_NoRegister : regFamily (keptAt 0x1001FF8) = none := by
  unfold keptAt
  split
  · rw [if_neg (by decide), if_neg (by decide)]; decide +kernel
  · decide +kernel

/-- Die 9 with `p` records written and none returned. -/
def ringS (p : W64) : State := reg readyS (Reg.ERR_RING 9) p

theorem wit_ErrorRecords :
    (readyS.errMerges 9 (ErrRec.plain 0 1 4 4 0) = false ∧
      (readyS.get (Reg.ERR_RING 9) Fld.ERR_RING_produced + 2 ^ 32 - readyS.get (Reg.ERR_RING 9) Fld.ERR_RING_consumed) % 2 ^ 32 ≠ 512) ∧
    ((ringS 512).errMerges 9 (ErrRec.plain 0 1 4 4 0) = false ∧ (ringS 512).errMerges 9 (ErrRec.plain 3 0x82 10 0 0) = false ∧
      ((ringS 512).get (Reg.ERR_RING 9) Fld.ERR_RING_produced + 2 ^ 32 - (ringS 512).get (Reg.ERR_RING 9) Fld.ERR_RING_consumed) % 2 ^ 32 = 512) ∧
    (let s := reg (reg (ringS 512) (Reg.ERR_REC 9 511 0) 0x80010409000001FF) (Reg.ERR_REC 9 511 1) 4
     s.errMerges 9 (ErrRec.plain 0 1 4 4 0) = true ∧ s.errMerges 9 (ErrRec.plain 0 1 4 5 0) = false ∧
      s.errMerges 9 (ErrRec.plain 1 1 4 4 0) = false) := by
  decide +kernel

/-- The header word of the worked example of R479: deferred, WORD_UE, block memory, die 3, seq 0x107. -/
theorem test_record_header : (ErrRec.plain 1 0x040 4 0x1D4 0x8029A200).header 3 0x107 = 0x9040043000000107 := by decide

/-! ### Well-formedness: an ill-formed term for each check -/

/-- Slot 15 names no core (Table 1-10). -/
theorem test_wf_core : (Instr.nop 0x00F 0).wf = false ∧ (Instr.nop 0x009 0).wf = true := by decide
/-- fn 0x3F of ALU, a division by an immediate code that is register-only, scope 7 and BAR scope 0 are reserved (R90, R91, R102). -/
theorem test_wf_reserved : (Instr.alu 0 0 1 2 3 0x3F).wf = false ∧ (Instr.fence 0 0 7).wf = false ∧ (Instr.cacheInv 0 0 1 2 3 true).wf = false ∧
    (Instr.fence 0 0 6).wf = true := by decide
/-- An op code with a row of its own is no VOP row. -/
theorem test_wf_vopNamed : (Instr.vop 0 0x38 { vopF with typ := 12 }).wf = false ∧ (Instr.vargmax 0 { vopF with typ := 12 }).wf = true := by decide
/-- Endpoint 0x1208, requester number 0x1022 (R229, R351). -/
theorem test_wf_endpoints : (Instr.getx 0x1208 0 0 keyA 0).wf = false ∧ (Instr.getx 0 0 0x1022 keyA 0).wf = false ∧ (Instr.getx 0x1231 0 0x1021 keyA 0).wf = true := by
  decide
/-- AMO op 10 has no meaning at a home (R59). -/
theorem test_wf_amo : (Instr.amoH 0 0 0 keyA 0 10 true 0 0 0).wf = false ∧ (Instr.amoH 0 0 0 keyA 0 9 true 0 0 0).wf = true := by decide +kernel
/-- BAR 1 is no BAR of a port; a request never crosses a 4 KiB boundary (R377, R378). -/
theorem test_wf_host : (Instr.inboundRead 0 rq0 1 0 4).wf = false ∧ (Instr.inboundRead 0 rq0 2 4093 4).wf = false ∧ (Instr.inboundRead 0 rq0 2 4092 4).wf = true ∧
    (Instr.inboundAtomicop 0 rq0 2 0 3 0 0 0 false).wf = false := by decide
/-- A message has the lines that its header says; DONE has three statuses; a module-wide rail step is 1 or 2. -/
theorem test_wf_links : (Instr.rdData 0 (hdr 0 0 0) []).wf = false ∧ (Instr.remoteDone 0 (hdr 0 0 0) 3).wf = false ∧ (Instr.railPowerGood none 3).wf = false ∧
    (Instr.railPowerGood none 2).wf = true ∧ (Instr.remoteAmo 0 (hdr 0 0 10) 0).wf = false ∧ (Instr.memoryReadReturn 0 [] [] [.core 0x00A] 0).wf = false ∧ (Instr.pieceIssue 0 0 [.core 0x00A] 0).wf = false ∧
    (Instr.errInject 0 0x00A 1 1).wf = false := by decide

/-! ### Words written out field by field from Tables 3-1, 3-2 and 3-5 -/

theorem test_decode_scalar : decodeWord 7 (0x03#6 ++ 1#3 ++ 9#5 ++ 1#1 ++ 0#17 ++ 0x80000001#32) = some (.movi 7 1 9 true 0x80000001) ∧
    decodeWord 7 (0x04#6 ++ 0#3 ++ 1#3 ++ 2#3 ++ 3#5 ++ 4#5 ++ 5#4 ++ 0#35) = some (.cmp 7 0 1 2 3 4 5) ∧
    decodeWord 7 (0x05#6 ++ 0#3 ++ 1#3 ++ 2#3 ++ 3#5 ++ 4#4 ++ 0#8 ++ 6#32) = some (.cmpi 7 0 1 2 3 4 6) ∧
    decodeWord 7 (0x06#6 ++ 0#3 ++ 1#3 ++ 2#3 ++ 3#3 ++ 4#3 ++ 0#43) = some (.pred 7 0 1 2 3 4) ∧
    decodeWord 7 (0x07#6 ++ 0#3 ++ 1#3 ++ 2#3 ++ 3#3 ++ 17#5 ++ 4#3 ++ 0#38) = some (.mask 7 0 1 2 3 17 4) ∧
    decodeWord 7 (0x08#6 ++ 0#3 ++ 17#5 ++ 5#6 ++ 0#44) = some (.sys 7 0 17 5) ∧ decodeWord 7 (0x3F#6 ++ 5#3 ++ 0#55) = some (.nop 7 5) := by decide

theorem test_decode_control : decodeWord 7 (0x0D#6 ++ 0#3 ++ 17#5 ++ 0#18 ++ 3#32) = some (.bl 7 0 17 3) ∧
    decodeWord 7 (0x0E#6 ++ 0#3 ++ 17#5 ++ 9#5 ++ 0#45) = some (.br 7 0 17 9) ∧
    decodeWord 7 (0x1B#6 ++ 0#3 ++ 0#2 ++ 17#5 ++ 9#5 ++ 0#27 ++ 0x8002#16) = some (.waitTokens 7 0 17 9 0x8002) ∧
    decodeWord 7 (0x1B#6 ++ 0#3 ++ 1#2 ++ 17#5 ++ 9#5 ++ 0#27 ++ 0x8001#16) = some (.waitWake 7 0 17 9 0x8001) ∧
    decodeWord 7 (0x1C#6 ++ 0#3 ++ 3#3 ++ 2#2 ++ 1#1 ++ 0#1 ++ 0#48) = some (.bar 7 0 3 2 true false) ∧
    decodeWord 7 (0x1E#6 ++ 0#3 ++ 0#37 ++ 2#2 ++ 9#16) = some (.toll 7 0 2 9) ∧
    decodeWord 7 (0x1F#6 ++ 0#3 ++ 4#3 ++ 2#2 ++ 0#50) = some (.heavy 7 0 4 2) := by decide

theorem test_decode_memory : decodeWord 7 (0x11#6 ++ 0#3 ++ 17#5 ++ 9#5 ++ 1#2 ++ 0#11 ++ 0xFFFFFFFF#32) = some (.st 7 0 17 9 1 0xFFFFFFFF) ∧
    decodeWord 7 (0x12#6 ++ 0#3 ++ 17#5 ++ 9#5 ++ 5#5 ++ 6#5 ++ 8#4 ++ 1#1 ++ 0#30) = some (.amo 7 0 17 9 5 6 8 true) ∧
    decodeWord 7 (0x13#6 ++ 0#3 ++ 17#5 ++ 100#7 ++ 1#1 ++ 2#2 ++ 0#8 ++ 4#32) = some (.radd 7 0 17 100 true 2 4) ∧
    decodeWord 7 (0x14#6 ++ 0#3 ++ 17#5 ++ 9#5 ++ 5#5 ++ 2#3 ++ 1#1 ++ 0#36) = some (.cachePin 7 0 17 9 5 true) ∧
    decodeWord 7 (0x18#6 ++ 0#3 ++ 17#5 ++ 9#5 ++ 5#3 ++ 1#1 ++ 0#1 ++ 0#8 ++ 4#32) = some (.acq 7 0 17 9 5 true false 4) ∧
    decodeWord 7 (0x19#6 ++ 0#3 ++ 17#5 ++ 9#5 ++ 5#3 ++ 0#1 ++ 1#1 ++ 0#8 ++ 4#32) = some (.rel 7 0 17 9 5 false true 4) ∧
    decodeWord 7 (0x1A#6 ++ 0#3 ++ 6#3 ++ 0#52) = some (.fence 7 0 6) := by decide

theorem test_decode_matrix : decodeWord 7 (0x20#6 ++ 0#3 ++ 1#4 ++ 2#4 ++ 1#1 ++ 2#4 ++ 17#5 ++ 9#5 ++ 0#32) = some (.mld 7 ⟨0, 1, 2, true, 2, 17, 9⟩) ∧
    decodeWord 7 (0x22#6 ++ 0#3 ++ 1#4 ++ 2#4 ++ 0#47) = some (.mswap 7 ⟨0, 1, 2⟩) ∧
    decodeWord 7 (0x23#6 ++ 0#3 ++ 1#4 ++ 2#4 ++ 12#4 ++ 0#1 ++ 1#1 ++ 0#1 ++ 17#5 ++ 9#5 ++ 5#5 ++ 6#5 ++ 0#20) =
      some (.mdrain 7 ⟨0, 1, 2, 12, false, true, false, 17, 9, 5, 6⟩) := by decide

theorem test_decode_vector : decodeWord 7 (0x28#6 ++ 0#3 ++ 1#4 ++ 2#4 ++ 3#8 ++ 10#7 ++ 11#7 ++ 12#7 ++ 13#7 ++ 4#3 ++ 1#1 ++ 0#1 ++ 12#4 ++ 1#1 ++ 0#1) =
      some (.vop 7 3 ⟨0, 1, 2, 10, 11, 12, 13, 4, true, false, 12, true⟩) ∧
    decodeWord 7 (0x28#6 ++ 0#3 ++ 1#4 ++ 2#4 ++ 0x38#8 ++ 10#7 ++ 11#7 ++ 12#7 ++ 13#7 ++ 4#3 ++ 0#1 ++ 0#1 ++ 12#4 ++ 0#2) =
      some (.vargmax 7 ⟨0, 1, 2, 10, 11, 12, 13, 4, false, false, 12, false⟩) ∧
    decodeWord 7 (0x29#6 ++ 0#3 ++ 1#4 ++ 2#4 ++ 10#7 ++ 17#5 ++ 9#5 ++ 2#2 ++ 4#3 ++ 1#1 ++ 0#8 ++ 0xFFFF#16) = some (.vld 7 ⟨0, 1, 2, 10, 17, 9, 2, 4, true, 0xFFFF⟩) ∧
    decodeWord 7 (0x2A#6 ++ 0#3 ++ 1#4 ++ 2#4 ++ 10#7 ++ 17#5 ++ 9#5 ++ 1#2 ++ 4#3 ++ 0#1 ++ 0#8 ++ 6#16) = some (.vst 7 ⟨0, 1, 2, 10, 17, 9, 1, 4, false, 6⟩) ∧
    decodeWord 7 (0x2B#6 ++ 0#3 ++ 1#4 ++ 2#4 ++ 10#7 ++ 11#7 ++ 4#3 ++ 17#5 ++ 1#1 ++ 0#24) = some (.vcomp 7 ⟨0, 1, 2, 10, 11, 4, 17, true⟩) ∧
    decodeWord 7 (0x2C#6 ++ 0#3 ++ 1#4 ++ 2#4 ++ 10#7 ++ 11#7 ++ 4#3 ++ 1#1 ++ 0#29) = some (.vexp 7 ⟨0, 1, 2, 10, 11, 4, true⟩) ∧
    decodeWord 7 (0x2D#6 ++ 0#3 ++ 1#4 ++ 2#4 ++ 10#7 ++ 11#7 ++ 4#3 ++ 1#1 ++ 17#5 ++ 2#3 ++ 12#4 ++ 0#17) = some (.vred 7 ⟨0, 1, 2, 10, 11, 4, true, 17, 2, 12⟩) := by
  decide

theorem test_decode_mover : decodeWord 7 (0x30#6 ++ 0#3 ++ 1#4 ++ 0#4 ++ 255#8 ++ 17#5 ++ 0#2 ++ 64#32) = some (.move 7 ⟨0, 1, 255, 17, 64⟩) ∧
    decodeWord 7 (0x31#6 ++ 0#3 ++ 17#5 ++ 254#8 ++ 1#1 ++ 0#41) = some (.mwait 7 0 17 254 true) ∧
    decodeWord 7 (0x32#6 ++ 0#3 ++ 17#5 ++ 254#8 ++ 0#42) = some (.mabort 7 0 17 254) := by decide

/-! ### Worked examples of the spec -/

/-- Chapter 1: the scratchpad of core C3.E.r12.k4, index 0x7C4. -/
theorem test_scratch_window : scrBase 0x7C4 = 0x10007C400000 := by decide
/-- Chapter 2: the same core's random source starts at 0xC2B5_0000_0000_7C41. -/
theorem test_lfsr_start : Reg.resetVal (Reg.CORE_LFSR 0x7C4) = 0xC2B5000000007C41 := by decide +kernel
/-- Chapter 2, the first example: header and the codes of elements 0, 1, 2, 3, 16, 17, 40 and 41. -/
def exampleXs : List Machine.Num := (List.range 64).map (fun i => FP32.decode (if i = 0 then 0x3F3851EC else if i = 1 then 0xBE4CCCCD else if i = 2 then 0x3D4CCCCD
  else if i = 16 then 0x3E9EB852 else if i = 17 then 0x415E6666 else if i = 40 then 0xC089999A else if i = 41 then 0xBEE147AE else 0))
theorem test_s4_block : (encodeS4 false exampleXs 1).1 = 0x60A13461 ∧
    [0, 1, 2, 3, 16, 17, 40, 41].map (fun i => (encodeS4 false exampleXs 1).2.1.getD i 99) = [7, 0xB, 1, 0, 4, 7, 0xF, 0xE] := by decide +kernel
/-- Chapter 2, the second example: scale byte 0x80, element 0 is 0.5 and element 17 saturates to 6. -/
theorem test_mxfp4_block : (encodeMx .mxfp4 false (exampleXs.take 32) 1).1 = 0x80 ∧
    [0, 1, 2, 16, 17].map (fun i => (encodeMx .mxfp4 false (exampleXs.take 32) 1).2.1.getD i 99 % 8) = [1, 0, 0, 0, 7] := by decide +kernel
/-- Chapter 2, the third example: 0.3 rounds to 0x2A under RNE. -/
theorem test_e4m3_rne : E4M3.round (FP32.decode 0x3E99999A) = 0x2A := by decide +kernel
/-- Chapter 7: the home of MPA 0x0_0040_0000_1280 is C0.E.s21 with set 0. -/
theorem test_home : homeLogical (lineOf 0x4000001280) = 53 ∧ setOf (lineOf 0x4000001280) = 0 := by decide
/-- Table 12-2: the primary position of MPA 0x0_0000_8029_A200, and Table 12-3: the same with M14.ch20 mapped out. -/
theorem test_position : (world core0).pos 0x8029A200 = (468, 2, 5) ∧
    ({ world core0 with stk := { Mem.reset with mapped := [468] } } : State).pos 0x8029A200 = (9, 3069, 4) := by decide +kernel
/-- Chapter 14: with acked 0xFFFE and next 0x0003 five messages are outstanding; acked may move to 0x0001, not to 0x0004. -/
theorem test_mailbox_window : seqGap 0xFFFE 3 = 5 ∧ seqGap 0xFFFE 1 ≤ seqGap 0xFFFE 3 ∧ seqGap 0xFFFE 3 < seqGap 0xFFFE 4 := by decide
/-- Chapter 15: the route hash of the example is 63. -/
theorem test_route_hash : routeHash 0x4000001280 0x7C4 1 = 63 := by decide
/-- Chapter 20: a partner that states majors 1 to 3 meets this device's major 1. -/
theorem test_versions : versionFits ⟨3, 1, 2⟩ = true ∧ versionFits ⟨3, 2, 2⟩ = false := by decide
/-- Register 3 of core 0 after one step with `i` in front, from s1 and s2. -/
def sr3 (a b : W64) (i : Instr) : W64 :=
  match step { one { core0 with s := [(1, a), (2, b)] } with pending := [i] } with
  | .next t => (t.core 0).sr 3
  | _ => 0
/-- Table 2-9: a signed and an unsigned division by zero, the most negative number by -1, and the remainders. -/
theorem test_division : sr3 (BitVec.ofInt 64 (-5)) 0 (.alu 0 0 3 1 2 0x0B) = 0x7FFFFFFFFFFFFFFF ∧ sr3 5 0 (.alu 0 0 3 1 2 0x0C) = 0xFFFFFFFFFFFFFFFF ∧
    sr3 0x8000000000000000 (BitVec.ofInt 64 (-1)) (.alu 0 0 3 1 2 0x0B) = 0x8000000000000000 ∧ sr3 5 0 (.alu 0 0 3 1 2 0x0D) = 5 := by decide +kernel

end Sys2Proof.Tests
end

section
/-!
WAIT, the hints, NOP and CACHE IINV (chapter 3): when each WAIT's condition holds and what a WAIT does then, when it does not, and at its timeout
(R104); what an announcement records (R106, R445); the WAIT words that are reserved (R90). The statements O12 and O13 rest on these.
-/
namespace Sys2Proof.Proofs
open Sys2Proof Sys2Proof.Machine

/-! ### WAIT that issues (R104) -/

/-- Token 0 needs no setter, whatever bit 0 of sel says. -/
theorem tokensMet_iff (k : Core) (sel : BitVec 16) :
    k.tokensMet sel = true ↔ ∀ n, 1 ≤ n → n ≤ 15 → sel.getLsbD n = true → k.tokDone n = true := by
  simp only [Core.tokensMet, List.all_eq_true, List.mem_range, Bool.or_eq_true, beq_iff_eq, Bool.not_eq_true']
  constructor
  · intro h n h1 h15 hsel
    rcases h n (by omega) with (h0 | hoff) | hdone
    · omega
    · simp [hsel] at hoff
    · exact hdone
  · intro h n hn
    rcases Nat.eq_zero_or_pos n with h0 | h1
    · exact .inl (.inl h0)
    · cases hsel : sel.getLsbD n with
      | false => exact .inl (.inr rfl)
      | true => exact .inr (h n h1 (by omega) hsel)

theorem tokensMet_eq_false {k : Core} {sel : BitVec 16} (h : ∃ n, 1 ≤ n ∧ n ≤ 15 ∧ sel.getLsbD n = true ∧ k.tokDone n = false) :
    k.tokensMet sel = false := by
  obtain ⟨n, h1, h15, hsel, hdone⟩ := h
  refine Bool.eq_false_iff.mpr fun hmet => ?_
  simp [(tokensMet_iff k sel).mp hmet n h1 h15 hsel] at hdone

section Issue
variable {s : State} {c : CoreId} {pg : BitVec 3} {sd sb : BitVec 5} {sel : BitVec 16}

theorem exec_waitTokens (h : s.Issues c (.waitTokens c pg sd sb sel) pg [.s sb.toNat]) :
    exec (.waitTokens c pg sd sb sel) s = .next (if (s.core c.toNat).tokensMet sel then waitDone s c.toNat sd.toNat 0
      else hold (stall s c.toNat Fld.CORE_STALL_token_wait) c.toNat (.waitTokens c pg sd sb sel)) :=
  congrArg Host.Outcome.next (issue_run h _)

theorem exec_waitWake (h : s.Issues c (.waitWake c pg sd sb sel) pg [.s sb.toNat]) :
    exec (.waitWake c pg sd sb sel) s = .next (if (s.core c.toNat).wf &&& sel = 0 then hold s c.toNat (.waitWake c pg sd sb sel)
      else waitDone (s.modCore c.toNat (fun k => { k with wf := (s.core c.toNat).wf &&& ~~~sel })) c.toNat sd.toNat
        (((s.core c.toNat).wf &&& sel).setWidth 64)) :=
  congrArg Host.Outcome.next (issue_run h _)

theorem exec_waitBarrier (h : s.Issues c (.waitBarrier c pg sd sb sel) pg [.s sb.toNat]) :
    exec (.waitBarrier c pg sd sb sel) s = .next (
      if (s.core c.toNat).barArrived (barKey (sel.toNat / 4 % 8) (sel.toNat % 4)) then hold s c.toNat (.waitBarrier c pg sd sb sel)
      else waitDone s c.toNat sd.toNat 0) := by
  have hid : bits sel.toNat 1 0 = sel.toNat % 4 := by simp [bits]
  rw [← hid]
  exact congrArg Host.Outcome.next (issue_run h _)

end Issue

/-- WAIT kind 1 completes: the wake flags have become `w`, then sd takes `v`. -/
theorem ran_waitDone_wake (s : State) (c : CoreId) (sd : Nat) (w : BitVec 16) (v : W64) :
    (s.modCore c.toNat (fun k => { k with wf := w })).Ran (waitDone (s.modCore c.toNat (fun k => { k with wf := w })) c.toNat sd v) c
      ((s.core c.toNat).pc + 8) (written (s.core c.toNat).sr sd (some 0) v) (s.core c.toNat).pr (s.core c.toNat).mr := by
  have h := ran_setS (s.modCore c.toNat (fun k => { k with wf := w })) c sd v
  rw [State.core_modCore] at h
  exact h

theorem seqOnly_wf {k k' : Core} (h : k.SeqOnly k') : k'.wf = k.wf := by rw [h]

/-! ### The timeout of a WAIT (R104) -/

/-- sd reports the timeout: 1 under kinds 0 and 2, 0 under kind 1. -/
theorem waitExpire_timed {s : State} {c : Nat} {d : CoreId} {pg : BitVec 3} {sd sb : BitVec 5} {sel : BitVec 16} {v : W64}
    (hw : (s.core c).phase = .wait (.waitTokens d pg sd sb sel) ∧ v = 1 ∨ (s.core c).phase = .wait (.waitWake d pg sd sb sel) ∧ v = 0 ∨
      (s.core c).phase = .wait (.waitBarrier d pg sd sb sel) ∧ v = 1) (hsb : sb ≠ 0) :
    waitExpire s c = waitDone s c sd.toNat v := by
  have hn : ¬ sb.toNat = 0 := fun h0 => hsb (BitVec.eq_of_toNat_eq h0)
  rcases hw with ⟨hp, rfl⟩ | ⟨hp, rfl⟩ | ⟨hp, rfl⟩ <;> simp only [waitExpire, hp, if_neg hn]

theorem exec_waitTimeout {s : State} {c : CoreId} (h : (s.core c.toNat).held = false) :
    exec (.waitTimeout c) s = .next (waitExpire s c.toNat) := by
  show execWaitTimeout c s = _
  simp [execWaitTimeout, h]

/-! ### Reserved WAIT words (R90, R104) -/

/-- Kind 3 of WAIT is no instruction. -/
theorem decodeWord_wait_kind3 (c : CoreId) (pg : BitVec 3) (x : BitVec 53) : decodeWord c (0x1B#6 ++ pg ++ 3#2 ++ x) = none := by
  have hmajor : wf (0x1B#6 ++ pg ++ 3#2 ++ x) 58 6 = 0x1B#6 := calc
    _ = (0x1B#6 ++ pg ++ 3#2).extractLsb' 5 6 := BitVec.extractLsb'_append_eq_of_le (by decide)
    _ = (0x1B#6 ++ pg).extractLsb' 3 6 := BitVec.extractLsb'_append_eq_of_le (by decide)
    _ = 0x1B#6 := BitVec.extractLsb'_append_eq_left
  have hkind : wf (0x1B#6 ++ pg ++ 3#2 ++ x) 53 2 = 3#2 := calc
    _ = (0x1B#6 ++ pg ++ 3#2).extractLsb' 0 2 := BitVec.extractLsb'_append_eq_of_le (by decide)
    _ = 3#2 := BitVec.extractLsb'_append_eq_right
  simp [decodeWord, majorOf, hmajor, hkind]

theorem reservedOp_waitBarrier_iff (c : CoreId) (pg : BitVec 3) (sd sb : BitVec 5) (sel : BitVec 16) :
    reservedOp (.waitBarrier c pg sd sb sel) = false ↔ sel.toNat / 4 % 8 = 1 ∨ sel.toNat / 4 % 8 = 3 ∨ sel.toNat / 4 % 8 = 4 := by
  simp only [reservedOp, Bool.not_eq_false', Bool.or_eq_true, beq_iff_eq, or_assoc]

/-! ### Announcements (R106, R445) and the instruction cache (R81) -/

theorem onlyCore_advance_announce (s : State) (c ahead v : Nat) (heavy : Bool) : s.OnlyCore (advance (announce s c ahead v heavy) c) c := by
  unfold advance announce
  exact ((State.OnlyCore.refl s c).modCore _).modCore _

theorem core_advance_announce (s : State) (c ahead v : Nat) (heavy : Bool) :
    (advance (announce s c ahead v heavy) c).core c = { s.core c with
      phase := .run, pc := (s.core c).pc + 8
      ann := (s.core c).ann.filter (fun x => !(x.1 == s.frame + ahead + 1 && x.2.2 == heavy)) ++ [(s.frame + ahead + 1, v, heavy)] } := by
  simp only [advance, announce, State.core_modCore]

/-- CACHE IINV drops the lines held and the fetches asked for, then writes sd. -/
theorem ran_cacheIinv (s : State) (c : CoreId) (sd : Nat) :
    (s.modCore c.toNat (fun k => { k with icache := [], fetch := [], fetchOnce := [] })).Ran
      (advance (setS (icFlush s c.toNat) c.toNat sd 0) c.toNat) c ((s.core c.toNat).pc + 8) (written (s.core c.toNat).sr sd (some 0) 0)
      (s.core c.toNat).pr (s.core c.toNat).mr := by
  have h := ran_setS (icFlush s c.toNat) c sd 0
  rw [icFlush, State.core_modCore] at h
  exact h

theorem seqOnly_icache {k k' : Core} (h : k.SeqOnly k') : k'.icache = k.icache := by rw [h]

theorem seqOnly_fetch {k k' : Core} (h : k.SeqOnly k') : k'.fetch = k.fetch := by rw [h]

/-! ### The statements -/

/-- Settles O12: each kind of WAIT decides on its condition alone, and the timeout and the reserved words have their own lemmas. -/
theorem waitsCompleteOrHold : Obligations.WaitsCompleteOrHold := by
  unfold Obligations.WaitsCompleteOrHold
  refine ⟨⟨?tokensMet, ?wakeFound, ?barrierOpen⟩, ?tokensPending, ?wakeNone, ?barrierArrived, ?timeout, ?reserved⟩
  case tokensMet =>
    intro c pg sd sb sel s h hdone
    refine ⟨_, (exec_waitTokens h).trans ?_, ran_setS s c sd.toNat 0⟩
    rw [if_pos ((tokensMet_iff _ _).mpr hdone), waitDone]
  case wakeFound =>
    intro c pg sd sb sel s h hfound
    have hran := ran_waitDone_wake s c sd.toNat ((s.core c.toNat).wf &&& ~~~sel) (((s.core c.toNat).wf &&& sel).setWidth 64)
    refine ⟨_, (exec_waitWake h).trans (by rw [if_neg hfound]), ?_, hran⟩
    rw [seqOnly_wf hran.seq, State.core_modCore]
  case barrierOpen =>
    intro c pg sd sb sel s h hopen
    refine ⟨_, (exec_waitBarrier h).trans ?_, ran_setS s c sd.toNat 0⟩
    rw [hopen, if_neg Bool.false_ne_true, waitDone]
  case tokensPending =>
    intro c pg sd sb sel s h hpend
    rw [exec_waitTokens h, tokensMet_eq_false hpend, if_neg Bool.false_ne_true, hold, stall]
  case wakeNone =>
    intro c pg sd sb sel s h hnone
    rw [exec_waitWake h, if_pos hnone, hold]
  case barrierArrived =>
    intro c pg sd sb sel s h harrived
    rw [exec_waitBarrier h, if_pos harrived, hold]
  case timeout =>
    intro c d pg sd sb sel s v hw hheld hsb
    refine ⟨_, (exec_waitTimeout hheld).trans ?_, ran_setS s c sd.toNat v⟩
    rw [waitExpire_timed hw hsb, waitDone]
  case reserved =>
    intro c pg sd sb sel x
    exact ⟨decodeWord_wait_kind3 c pg x, rfl, rfl, reservedOp_waitBarrier_iff c pg sd sb sel⟩

/-- Settles O13: each of the four issues, and its effect on the core is the one that its lemma names. -/
theorem hintsAndInstructionCacheInvalidate : Obligations.HintsAndInstructionCacheInvalidate := by
  unfold Obligations.HintsAndInstructionCacheInvalidate
  refine ⟨?toll, ?heavy, ?nop, ?cacheIinv⟩
  case toll =>
    intro c pg ahead tolls s h
    exact ⟨_, congrArg Host.Outcome.next (issue_run h _), onlyCore_advance_announce .., core_advance_announce ..⟩
  case heavy =>
    intro c pg level ahead s h
    exact ⟨_, congrArg Host.Outcome.next (issue_run h _), onlyCore_advance_announce .., core_advance_announce ..⟩
  case nop =>
    intro c pg s h
    exact ⟨_, congrArg Host.Outcome.next (issue_run h _), ran_advance s c⟩
  case cacheIinv =>
    intro c pg sd sa sb lvl s h
    have hran := ran_cacheIinv s c sd.toNat
    refine ⟨_, congrArg Host.Outcome.next (issue_run h _), ?_, ?_, hran⟩
    · rw [seqOnly_icache hran.seq, State.core_modCore]
    · rw [seqOnly_fetch hran.seq, State.core_modCore]

end Sys2Proof.Proofs
end

section
/-!
Mailboxes and the tenant's requests (chapter 14): which posts are taken and what they write (R387), how far the receiver moves (R388), the version
that the tenant negotiates (R389), and the requests of MBX_REQ (R390), where an abort that names no caravan resolves at once. The statement O47
rests on these.
-/
namespace Sys2Proof.Proofs
open Sys2Proof Sys2Proof.Machine

/-! ### The sequence numbers of a direction (R387, R388) -/

/-- The register of a direction's sequence numbers; both directions lay them out alike, with next low and acked or consumed above it. -/
def mbxSeqReg (i : Nat) (m2t : Bool) : Nat := if m2t then Reg.MBX_M2T i else Reg.MBX_T2M i

theorem mbxSeq_eq (s : State) (i : Nat) (m2t : Bool) :
    s.mbxSeq i m2t = (s.get (mbxSeqReg i m2t) Fld.MBX_T2M_next, s.get (mbxSeqReg i m2t) Fld.MBX_T2M_acked) := by
  cases m2t <;> rfl

theorem mbxSeqReg_ne_not (i : Nat) (m2t : Bool) : mbxSeqReg i m2t ≠ mbxSeqReg i (!m2t) := by
  cases m2t <;> simp [mbxSeqReg, Reg.MBX_M2T, Reg.MBX_T2M]

theorem mbxSlotReg_ne_mbxSeqReg (i : Nat) (m2t d : Bool) (n w : Nat) : mbxSlotReg i m2t n w ≠ mbxSeqReg i d := by
  cases m2t <;> cases d <;> simp [mbxSlotReg, mbxSeqReg, Reg.MBX_M2T, Reg.MBX_T2M, Reg.MBX_M2T_SLOT, Reg.MBX_T2M_SLOT] <;> omega

theorem mbxSeqReg_ne_irq (i : Nat) (d : Bool) : mbxSeqReg i d ≠ Reg.MBX_IRQ i := by
  cases d <;> simp [mbxSeqReg, Reg.MBX_M2T, Reg.MBX_T2M, Reg.MBX_IRQ]

theorem mbxSlotReg_ne_irq (i : Nat) (m2t : Bool) (n w : Nat) : mbxSlotReg i m2t n w ≠ Reg.MBX_IRQ i := by
  cases m2t <;> simp [mbxSlotReg, Reg.MBX_IRQ, Reg.MBX_M2T_SLOT, Reg.MBX_T2M_SLOT] <;> omega

theorem mbxSeq_setReg_slot (s : State) (i : Nat) (m2t d : Bool) (n w : Nat) (v : W64) :
    (s.setReg (mbxSlotReg i m2t n w) v).mbxSeq i d = s.mbxSeq i d := by
  simp only [mbxSeq_eq, State.get, State.reg_setReg_ne _ _ (mbxSlotReg_ne_mbxSeqReg i m2t d n w)]

theorem mbxSeq_put_next (s : State) (i : Nat) (m2t : Bool) (v : Nat) :
    (s.put (mbxSeqReg i m2t) Fld.MBX_T2M_next v).mbxSeq i m2t = (v % 65536, (s.mbxSeq i m2t).2) := by
  simp only [mbxSeq_eq, State.get_put _ _ Fld.MBX_T2M_next _ (by decide),
    State.get_put_fld _ _ Fld.MBX_T2M_next Fld.MBX_T2M_acked _ (by decide) (by decide)]
  rfl

theorem mbxSeq_put_acked (s : State) (i : Nat) (m2t : Bool) (v : Nat) :
    (s.put (mbxSeqReg i m2t) Fld.MBX_T2M_acked v).mbxSeq i m2t = ((s.mbxSeq i m2t).1, v % 65536) := by
  simp only [mbxSeq_eq, State.get_put _ _ Fld.MBX_T2M_acked _ (by decide),
    State.get_put_fld _ _ Fld.MBX_T2M_acked Fld.MBX_T2M_next _ (by decide) (by decide)]
  rfl

theorem mbxSeq_put_not (s : State) (i : Nat) (m2t : Bool) (f : Fld) (v : Nat) :
    (s.put (mbxSeqReg i m2t) f v).mbxSeq i (!m2t) = s.mbxSeq i (!m2t) := by
  simp only [mbxSeq_eq, State.get_put_ne _ _ _ _ (mbxSeqReg_ne_not i m2t)]

/-! ### Posts (R387) -/

/-- The posts of word `w` to slot `n` that are taken. -/
def MbxTakes (s : State) (i : Nat) (m2t : Bool) (n : Nat) (w : W64) : Prop :=
  let seq := w.toNat % 65536
  let q := s.mbxSeq i m2t
  seq = q.1 ∧ seq % 16 = n ∧ seqGap q.2 q.1 < 16 ∧ s.get (Reg.MBX_VER i) Fld.MBX_VER_major ≠ 0 ∧ w.toNat / 65536 % 256 ≤ 56

/-- What a post that is taken writes: word 0 of the slot, and next. -/
def mbxPosted (s : State) (i : Nat) (m2t : Bool) (n : Nat) (w : W64) : State :=
  (s.setReg (mbxSlotReg i m2t n 0) w).put (mbxSeqReg i m2t) Fld.MBX_T2M_next (w.toNat % 65536 + 1)

theorem mbxPost_cond_iff (s : State) (i : Nat) (m2t : Bool) (n : Nat) (w : W64) :
    (bits w.toNat 15 0 = (s.mbxSeq i m2t).1 && bits w.toNat 15 0 % 16 = n && seqGap (s.mbxSeq i m2t).2 (s.mbxSeq i m2t).1 < 16 &&
      s.get (Reg.MBX_VER i) Fld.MBX_VER_major != 0 && bits w.toNat 23 16 ≤ 56) = true ↔ MbxTakes s i m2t n w := by
  simp only [Bool.and_eq_true, decide_eq_true_eq, bne_iff_ne, and_assoc]
  simp [MbxTakes, bits]

theorem mbxPost_of_not_takes {s : State} {i : Nat} {m2t : Bool} {n : Nat} {w : W64} (h : ¬ MbxTakes s i m2t n w) :
    mbxPost s i m2t n w = mbxDrop s i :=
  if_neg (mt (mbxPost_cond_iff s i m2t n w).mp h)

theorem mbxPost_of_takes {s : State} {i : Nat} {m2t : Bool} {n : Nat} {w : W64} (h : MbxTakes s i m2t n w) :
    mbxPost s i m2t n w = mbxNotify (mbxPosted s i m2t n w) i m2t := by
  refine (if_pos ((mbxPost_cond_iff s i m2t n w).mpr h)).trans ?_
  have hseq : bits w.toNat 15 0 = w.toNat % 65536 := by simp [bits]
  rw [hseq]
  cases m2t <;> rfl

theorem mbxNotify_of_disabled {s : State} {i : Nat} {m2t : Bool}
    (h : s.flag (Reg.MBX_IRQ i) (if m2t then Fld.MBX_IRQ_m2t_en else Fld.MBX_IRQ_t2m_en) = false) : mbxNotify s i m2t = s := by
  cases m2t <;> simp_all [mbxNotify]

section Posted
variable (s : State) (i : Nat) (m2t : Bool) (n : Nat) (w : W64)

theorem mbxPosted_regs_only : mbxPosted s i m2t n w = { s with regs := (mbxPosted s i m2t n w).regs } := rfl

theorem reg_mbxPosted_slot : (mbxPosted s i m2t n w).reg (mbxSlotReg i m2t n 0) = w := by
  rw [mbxPosted, State.reg_put_ne _ _ _ (mbxSlotReg_ne_mbxSeqReg i m2t m2t n 0).symm, State.reg_setReg]

theorem reg_mbxPosted_irq : (mbxPosted s i m2t n w).reg (Reg.MBX_IRQ i) = s.reg (Reg.MBX_IRQ i) := by
  rw [mbxPosted, State.reg_put_ne _ _ _ (mbxSeqReg_ne_irq i m2t), State.reg_setReg_ne _ _ (mbxSlotReg_ne_irq i m2t n 0)]

theorem mbxSeq_mbxPosted : (mbxPosted s i m2t n w).mbxSeq i m2t = ((w.toNat % 65536 + 1) % 65536, (s.mbxSeq i m2t).2) := by
  rw [mbxPosted, mbxSeq_put_next, mbxSeq_setReg_slot]

theorem mbxSeq_mbxPosted_not : (mbxPosted s i m2t n w).mbxSeq i (!m2t) = s.mbxSeq i (!m2t) := by
  rw [mbxPosted, mbxSeq_put_not, mbxSeq_setReg_slot]

end Posted

/-- Where the receiver is not to be notified, a post that is taken is all of the step. -/
theorem mbxPost_of_takes_disabled {s : State} {i : Nat} {m2t : Bool} {n : Nat} {w : W64} (h : MbxTakes s i m2t n w)
    (hirq : s.flag (Reg.MBX_IRQ i) (if m2t then Fld.MBX_IRQ_m2t_en else Fld.MBX_IRQ_t2m_en) = false) :
    mbxPost s i m2t n w = mbxPosted s i m2t n w := by
  rw [mbxPost_of_takes h, mbxNotify_of_disabled]
  rwa [State.flag, State.get, reg_mbxPosted_irq]

/-! ### The receiver's returns (R388) -/

theorem exec_mbxReturn {i : InstId} {m2t : Bool} {v : BitVec 16} {c : Instr}
    (hc : m2t = false ∧ c = .mailboxAck i v ∨ m2t = true ∧ c = .mailboxConsume i v) (s : State) :
    exec c s = .next (mbxReturn s i.val m2t v.toNat) := by
  rcases hc with ⟨rfl, rfl⟩ | ⟨rfl, rfl⟩ <;> rfl

theorem mbxReturn_of_beyond {s : State} {i : Nat} {m2t : Bool} {v : Nat}
    (h : seqGap (s.mbxSeq i m2t).2 (s.mbxSeq i m2t).1 < seqGap (s.mbxSeq i m2t).2 v) : mbxReturn s i m2t v = s :=
  if_neg (Nat.not_le.mpr h)

theorem mbxReturn_of_posted {s : State} {i : Nat} {m2t : Bool} {v : Nat}
    (h : seqGap (s.mbxSeq i m2t).2 v ≤ seqGap (s.mbxSeq i m2t).2 (s.mbxSeq i m2t).1) :
    mbxReturn s i m2t v = s.put (mbxSeqReg i m2t) Fld.MBX_T2M_acked v :=
  (if_pos h).trans (by cases m2t <;> rfl)

/-! ### Versions (R389) -/

theorem mbxVersion_regs_only (s : State) (i hi lo : Nat) : mbxVersion s i hi lo = { s with regs := (mbxVersion s i hi lo).regs } := rfl

theorem reg_mbxVersion_ne (s : State) {i r : Nat} (hi lo : Nat) (h : r ≠ Reg.MBX_VER i) : (mbxVersion s i hi lo).reg r = s.reg r := by
  simp only [mbxVersion, State.reg_put_ne _ _ _ h.symm]

theorem get_mbxVersion_ten_max (s : State) (i hi lo : Nat) :
    (mbxVersion s i hi lo).get (Reg.MBX_VER i) Fld.MBX_VER_ten_max = hi % 16 := by
  simp only [mbxVersion]
  rw [State.get_put_fld _ _ _ _ _ (by decide) (by decide), State.get_put_fld _ _ _ _ _ (by decide) (by decide),
    State.get_put_fld _ _ _ _ _ (by decide) (by decide), State.get_put _ _ _ _ (by decide)]
  rfl

theorem get_mbxVersion_ten_min (s : State) (i hi lo : Nat) :
    (mbxVersion s i hi lo).get (Reg.MBX_VER i) Fld.MBX_VER_ten_min = lo % 16 := by
  simp only [mbxVersion]
  rw [State.get_put_fld _ _ _ _ _ (by decide) (by decide), State.get_put_fld _ _ _ _ _ (by decide) (by decide),
    State.get_put _ _ _ _ (by decide)]
  rfl

/-- The device supports major 1 alone, so that is the common major, or there is none. -/
theorem get_mbxVersion_major (s : State) (i hi lo : Nat) :
    (mbxVersion s i hi lo).get (Reg.MBX_VER i) Fld.MBX_VER_major = if lo ≤ 1 ∧ 1 ≤ hi then 1 else 0 := by
  simp only [mbxVersion]
  rw [State.get_put_fld _ _ _ _ _ (by decide) (by decide), State.get_put _ _ _ _ (by decide)]
  by_cases hcommon : lo ≤ 1 ∧ 1 ≤ hi <;> simp [hcommon, b2n, Fld.MBX_VER_major]

theorem get_mbxVersion_minor (s : State) (i hi lo : Nat) : (mbxVersion s i hi lo).get (Reg.MBX_VER i) Fld.MBX_VER_minor = 0 :=
  State.get_put _ _ _ _ (by decide)

/-! ### Ownership at the tenant's request (R390, R306, R307) -/

theorem ownRequest_of_refused {s : State} {p i : Nat} (h : s.ownRefused p i = true) :
    ownRequest s p i = s.setFlag (Reg.PRT_OWN p) Fld.PRT_OWN_refused true :=
  if_pos h

theorem tenantOwn_of_refused {s : State} {i : Nat} (h : s.ownRefused (s.instPart i) i = true) :
    tenantOwn s i = (s.setFlag (Reg.PRT_OWN (s.instPart i)) Fld.PRT_OWN_refused true).setFlag (Reg.MBX_STATUS i)
      Fld.MBX_STATUS_own_refused true := by
  rw [← ownRequest_of_refused h]
  exact if_pos h

theorem tenantOwn_of_not_refused {s : State} {i : Nat} (h : s.ownRefused (s.instPart i) i = false) :
    tenantOwn s i = ownRequest s (s.instPart i) i :=
  if_neg (Bool.eq_false_iff.mp h)

/-! ### Aborts at the tenant's request (R390, R287) -/

theorem abortOpen_of_idle {s : State} (habort : s.sched.abort = none) (hq : s.sched.abortQ = []) (i : Nat) : s.abortOpen i = false := by
  simp [State.abortOpen, habort, hq]

theorem abortPump_of_queue_nil {s : State} (habort : s.sched.abort = none) (hq : s.sched.abortQ = []) (n : Nat) : abortPump n s = s := by
  cases n with
  | zero => rfl
  | succ n => simp [abortPump, habort, hq]

/-- The abort engine is idle with one tenant's abort in its queue: that one begins, and the queue goes on from there. -/
theorem abortsGo_of_queue_one {s : State} {i : InstId} {all : Bool} {tag : W64} (habort : s.sched.abort = none)
    (hq : s.sched.abortQ = [(i, all, tag)]) :
    abortsGo s = abortPump 1 (abortStart { s with sched := { s.sched with abortQ := [] } } (some i) i.val all tag) := by
  simp [abortsGo, abortPump, habort, hq]

theorem endCands_of_taken_nil {s : State} {i : Nat} (h : (s.instRd i).taken = []) (status cause : Nat) (p : Caravan → Bool) :
    endCands s i status cause p = (s.modInst i (fun y => { y with taken := [] }), 0) := by
  simp [endCands, State.modInst, forEach, h]

/-- MBX_STATUS reports to tenant `i` an abort that matched nothing. -/
def abortMissed (s : State) (i : Nat) : State :=
  let r := Reg.MBX_STATUS i
  (((s.setFlag r Fld.MBX_STATUS_abort_done false).put r Fld.MBX_STATUS_matched 0).put r Fld.MBX_STATUS_abort_result 2).setFlag r
    Fld.MBX_STATUS_abort_done true

theorem get_abortMissed_result (s : State) (i : Nat) : (abortMissed s i).get (Reg.MBX_STATUS i) Fld.MBX_STATUS_abort_result = 2 := by
  simp only [abortMissed, State.setFlag]
  rw [State.get_put_fld _ _ _ _ _ (by decide) (by decide), State.get_put _ _ _ _ (by decide)]
  rfl

theorem get_abortMissed_matched (s : State) (i : Nat) : (abortMissed s i).get (Reg.MBX_STATUS i) Fld.MBX_STATUS_matched = 0 := by
  simp only [abortMissed, State.setFlag]
  rw [State.get_put_fld _ _ _ _ _ (by decide) (by decide), State.get_put_fld _ _ _ _ _ (by decide) (by decide),
    State.get_put _ _ _ _ (by decide)]
  rfl

theorem flag_abortMissed_done (s : State) (i : Nat) : (abortMissed s i).flag (Reg.MBX_STATUS i) Fld.MBX_STATUS_abort_done = true := by
  rw [State.flag, abortMissed, State.setFlag, State.get_put _ _ _ _ (by decide)]
  rfl

/-- An abort that names no caravan, with nothing taken either, resolves at once. -/
theorem abortStart_of_none_named {s : State} {i : InstId} {all : Bool} {tag : W64} (hnamed : s.abortNames i.val all tag = [])
    (htaken : (s.instRd i.val).taken = []) :
    ∃ u : State, u.mem = s.mem ∧ u.cores = s.cores ∧ u.sched = { s.sched with insts := u.sched.insts } ∧
      abortStart s (some i) i.val all tag = abortMissed u i.val := by
  refine ⟨s.modInst i.val (fun y => { y with taken := [] }), rfl, rfl, rfl, ?_⟩
  simp [abortStart, abortReport, abortMissed, hnamed, endCands_of_taken_nil htaken]

/-- An abort of the tenant is in progress already, and this one is dropped. -/
theorem tenantAbort_of_open {s : State} {i : InstId} {all : Bool} (h : s.abortOpen i.val = true) :
    tenantAbort s i all = s.setFlag (Reg.MBX_STATUS i.val) Fld.MBX_STATUS_abort_busy_drop true :=
  if_pos h

/-- Where the abort engine is idle: the state in which it takes the tenant's abort from its queue. -/
def abortBegun (s : State) (i : Nat) : State :=
  { s.setFlag (Reg.MBX_STATUS i) Fld.MBX_STATUS_abort_done false with sched := { s.sched with abortQ := [] } }

theorem abortBegun_sched {s : State} (hq : s.sched.abortQ = []) (i : Nat) : (abortBegun s i).sched = s.sched := by
  show { s.sched with abortQ := [] } = s.sched
  rw [← hq]

/-- The engine is idle and nothing of the tenant matches: the abort begins and resolves in this step. -/
theorem tenantAbort_of_none_named {s : State} {i : InstId} {all : Bool} (habort : s.sched.abort = none) (hq : s.sched.abortQ = [])
    (htaken : (s.instRd i.val).taken = []) (hnamed : s.abortNames i.val all (s.reg (Reg.MBX_ABORT_TAG i.val)) = []) :
    ∃ u : State, u.mem = s.mem ∧ u.cores = s.cores ∧ u.sched = { s.sched with insts := u.sched.insts } ∧
      tenantAbort s i all = abortMissed u i.val := by
  have hopen : ¬ s.abortOpen i.val = true := by simp [abortOpen_of_idle habort hq]
  have hbegun := abortBegun_sched hq i.val
  obtain ⟨u, hmem, hcores, hsched, hstart⟩ := abortStart_of_none_named (s := abortBegun s i.val) (i := i) (all := all)
    (by rwa [State.abortNames, hbegun]) (by rwa [State.instRd, hbegun])
  rw [hbegun] at hsched
  refine ⟨u, hmem, hcores, hsched, ?_⟩
  have hidle : (abortMissed u i.val).sched = u.sched := rfl
  calc tenantAbort s i all
    _ = abortPump 1 (abortStart (abortBegun s i.val) (some i) i.val all (s.reg (Reg.MBX_ABORT_TAG i.val))) :=
      (if_neg hopen).trans (abortsGo_of_queue_one habort (by simp [hq]))
    _ = abortPump 1 (abortMissed u i.val) := congrArg (abortPump 1) hstart
    _ = abortMissed u i.val := abortPump_of_queue_nil (by rw [hidle, hsched, habort]) (by rw [hidle, hsched, hq]) 1

theorem exec_tenantAbort {i : InstId} {all : Bool} {c : Instr} (hc : c = if all then .mbxAbortAll i else .mbxAbortTag i) (s : State) :
    exec c s = .next (tenantAbort s i all) := by
  subst hc
  cases all <;> rfl

/-! ### The statement -/

/-- Settles O47: each command's clause is the lemma about its operation. -/
theorem mailboxesAndTenantRequests : Obligations.MailboxesAndTenantRequests := by
  unfold Obligations.MailboxesAndTenantRequests
  intro i s
  refine ⟨fun m2t n w => ⟨?drop, ?post⟩, fun m2t v c hc => ⟨?beyond, ?within⟩, ?version, ?ownRefused, ?own, ?release,
    fun all c hc => ⟨?abortOpen, ?abortMissed⟩⟩
  case drop => exact fun hbad => congrArg Host.Outcome.next (mbxPost_of_not_takes hbad)
  case post =>
    intro hgood hirq
    exact ⟨_, congrArg Host.Outcome.next (mbxPost_of_takes_disabled hgood hirq), mbxPosted_regs_only .., reg_mbxPosted_slot ..,
      mbxSeq_mbxPosted .., mbxSeq_mbxPosted_not ..⟩
  case beyond => exact fun hfar => (exec_mbxReturn hc s).trans (congrArg Host.Outcome.next (mbxReturn_of_beyond hfar))
  case within =>
    intro hwithin
    refine ⟨_, (exec_mbxReturn hc s).trans (congrArg Host.Outcome.next (mbxReturn_of_posted hwithin)), rfl, ?_, mbxSeq_put_not ..⟩
    rw [mbxSeq_put_acked, Nat.mod_eq_of_lt v.isLt]
  case version =>
    intro hi lo
    refine ⟨_, rfl, mbxVersion_regs_only .., fun r hr => reg_mbxVersion_ne s _ _ hr, ?_, ?_, get_mbxVersion_major .., get_mbxVersion_minor ..⟩
    · rw [get_mbxVersion_ten_max, Nat.mod_eq_of_lt hi.isLt]
    · rw [get_mbxVersion_ten_min, Nat.mod_eq_of_lt lo.isLt]
  case ownRefused => exact fun hrefused => congrArg Host.Outcome.next (tenantOwn_of_refused hrefused)
  case own =>
    intro p hp hfree
    rw [hp] at hfree
    exact congrArg Host.Outcome.next ((tenantOwn_of_not_refused hfree).trans (by rw [hp]))
  case release =>
    intro p hp
    show Host.Outcome.next (tenantRelease s i.val) = _
    rw [tenantRelease, ← hp, apply_ite Host.Outcome.next]
    rfl
  case abortOpen => exact fun hopen => (exec_tenantAbort hc s).trans (congrArg Host.Outcome.next (tenantAbort_of_open hopen))
  case abortMissed =>
    intro habort hq htaken hnamed
    obtain ⟨u, hmem, hcores, hsched, habortRun⟩ := tenantAbort_of_none_named habort hq htaken hnamed
    have hcars : u.sched.cars = s.sched.cars := by rw [hsched]
    have hqueue : u.sched.abortQ = [] := by rw [hsched, hq]
    exact ⟨_, (exec_tenantAbort hc s).trans (congrArg Host.Outcome.next habortRun), hmem, hcores, hcars, hqueue,
      get_abortMissed_result .., get_abortMissed_matched .., flag_abortMissed_done ..⟩

end Sys2Proof.Proofs
end

section
/-!
Event controllers (chapter 16): which source is delivered and what its delivery writes (R425, R426), what a completion removes and which completion
is an order fault (R427, R428), the host's acknowledgement (R430), the writers of EVC_SRC (R432) and the wake timer (R434). The statement O43 rests
on these.
-/
namespace Sys2Proof.Proofs
open Sys2Proof Sys2Proof.Machine

/-! ### Flags -/

theorem flag_setFlag (s : State) (a : Nat) (f : Fld) (b : Bool) (hwidth : f.width = 1) (hfits : f.lo + f.width ≤ 64) :
    (s.setFlag a f b).flag a f = b := by
  rw [State.flag, State.setFlag, State.get_put _ _ _ _ hfits, hwidth]
  cases b <;> rfl

theorem flag_setFlag_fld (s : State) (a : Nat) (f g : Fld) (b : Bool) (hfits : g.lo + g.width ≤ 64)
    (hbeside : f.lo + f.width ≤ g.lo ∨ g.lo + g.width ≤ f.lo) : (s.setFlag a f b).flag a g = s.flag a g := by
  rw [State.flag, State.setFlag, State.get_put_fld _ _ _ _ _ hfits hbeside, State.flag]

theorem reg_setFlag_ne (s : State) {a x : Nat} (f : Fld) (b : Bool) (h : x ≠ a) : (s.setFlag a f b).reg x = s.reg x :=
  State.reg_put_ne _ _ _ h.symm

/-! ### The registers of a source -/

theorem evSrc_ne_pwrState (die : DieIx) (n : SrcId) : Reg.PWR_STATE ≠ evSrc die.val n.val := by
  simp only [evSrc, Reg.EVC_SRC, Reg.PWR_STATE]
  omega

theorem evSrc_ne_hifVec (die : DieIx) (n : SrcId) {p v : Nat} (hp : p < 2) (hv : v < 2048) : Reg.HIF_VEC p v ≠ evSrc die.val n.val := by
  simp only [evSrc, Reg.EVC_SRC, Reg.HIF_VEC]
  omega

theorem evcAsleep_setFlag_evSrc (s : State) (die : DieIx) (n : SrcId) (f : Fld) (b : Bool) (d : Nat) :
    (s.setFlag (evSrc die.val n.val) f b).evcAsleep d = s.evcAsleep d := by
  rw [State.evcAsleep, State.get, reg_setFlag_ne s f b (evSrc_ne_pwrState die n), State.evcAsleep, State.get]

/-! ### Reads through another component see no difference -/

@[simp] theorem reg_out (s : State) (o : Out) (a : Nat) : (s.out o).reg a = s.reg a := rfl
@[simp] theorem flag_out (s : State) (o : Out) (a : Nat) (f : Fld) : (s.out o).flag a f = s.flag a f := rfl
@[simp] theorem reg_setCpu (s : State) (die c : Nat) (k : EvcCpu) (a : Nat) : (s.setCpu die c k).reg a = s.reg a := rfl
@[simp] theorem flag_setCpu (s : State) (die c : Nat) (k : EvcCpu) (a : Nat) (f : Fld) : (s.setCpu die c k).flag a f = s.flag a f := rfl
@[simp] theorem cpu_setFlag (s : State) (a : Nat) (f : Fld) (b : Bool) (die c : Nat) : (s.setFlag a f b).cpu die c = s.cpu die c := by
  rw [State.cpu, State.setFlag_evc, State.cpu]
@[simp] theorem outbox_out (s : State) (o : Out) : (s.out o).outbox = s.outbox ++ [o] := rfl
@[simp] theorem outbox_setCpu (s : State) (die c : Nat) (k : EvcCpu) : (s.setCpu die c k).outbox = s.outbox := rfl
@[simp] theorem cpu_setCpu (s : State) (die c : Nat) (k : EvcCpu) : (s.setCpu die c k).cpu die c = k := mapGet_mapSet_self ..

/-! ### What an event leaves alone -/

/-- `t` is `s` but for the registers, the records of the die controllers' processors and what has left the module. An operation's frame is built up
from those of its writes: compared whole by `rfl`, two states make the kernel evaluate the register map. -/
def EventFrame (s t : State) : Prop := t = { s with regs := t.regs, evc := t.evc, outbox := t.outbox }

namespace EventFrame
variable {s t : State}

theorem refl (s : State) : EventFrame s s := rfl

theorem setReg (h : EventFrame s t) (a : Nat) (v : W64) : EventFrame s (t.setReg a v) := by
  rw [EventFrame] at h ⊢
  rw [h]
  rfl

theorem put (h : EventFrame s t) (a : Nat) (f : Fld) (v : Nat) : EventFrame s (t.put a f v) := h.setReg a _

theorem setFlag (h : EventFrame s t) (a : Nat) (f : Fld) (b : Bool) : EventFrame s (t.setFlag a f b) := h.put a f _

theorem incSat (h : EventFrame s t) (a : Nat) (f : Fld) : EventFrame s (t.incSat a f) := h.put a f _

theorem out (h : EventFrame s t) (o : Out) : EventFrame s (t.out o) := by
  rw [EventFrame] at h ⊢
  rw [h]
  rfl

theorem setCpu (h : EventFrame s t) (die c : Nat) (k : EvcCpu) : EventFrame s (t.setCpu die c k) := by
  rw [EventFrame] at h ⊢
  rw [h]
  rfl

theorem regs_evc (h : EventFrame s t) (hout : t.outbox = s.outbox) : t = { s with regs := t.regs, evc := t.evc } := by
  rwa [EventFrame, hout] at h

theorem regs_outbox (h : EventFrame s t) (hevc : t.evc = s.evc) : t = { s with regs := t.regs, outbox := t.outbox } := by
  rwa [EventFrame, hevc] at h

theorem regs_only (h : EventFrame s t) (hevc : t.evc = s.evc) (hout : t.outbox = s.outbox) : t = { s with regs := t.regs } := by
  rwa [EventFrame, hevc, hout] at h

end EventFrame

/-! ### The source that is next (R425, R426) -/

theorem foldl_betterSrc_mem {s : State} {die m : Nat} (l : List Nat) (b : Option Nat) (h : l.foldl (s.betterSrc die) b = some m) :
    b = some m ∨ m ∈ l := by
  induction l generalizing b with
  | nil => exact .inl h
  | cons x l ih =>
    rcases ih _ h with hx | hl
    · cases b with
      | none => exact .inr (List.mem_cons.mpr (.inl (Option.some.inj hx).symm))
      | some y =>
        simp only [State.betterSrc] at hx
        split at hx
        · exact .inr (List.mem_cons.mpr (.inl (Option.some.inj hx).symm))
        · exact .inl hx
    · exact .inr (List.mem_cons_of_mem _ hl)

theorem foldl_betterSrc_of_none_higher {s : State} {die n : Nat} (l : List Nat)
    (h : ∀ m ∈ l, s.get (evSrc die m) Fld.EVC_SRC_prio ≤ s.get (evSrc die n) Fld.EVC_SRC_prio) :
    l.foldl (s.betterSrc die) (some n) = some n := by
  induction l with
  | nil => rfl
  | cons x l ih =>
    rw [List.foldl_cons, State.betterSrc, if_neg (Nat.not_lt.mpr (h x List.mem_cons_self)),
      ih fun m hm => h m (List.mem_cons_of_mem _ hm)]

theorem betterSrc_of_higher {s : State} {die n : Nat} {b : Option Nat}
    (h : ∀ m, b = some m → s.get (evSrc die m) Fld.EVC_SRC_prio < s.get (evSrc die n) Fld.EVC_SRC_prio) : s.betterSrc die b n = some n := by
  cases b with
  | none => rfl
  | some m => exact if_pos (h m rfl)

/-- The scan rises through the source numbers: what stands below `n` has a lower priority, so `n` replaces it, and nothing above `n` replaces `n`. -/
theorem firstNormal_eq_some {s : State} {die c n : Nat} (hn : n < 1024) (hpend : s.pendingFor die c false n = true)
    (hbest : ∀ m, m < 1024 → m ≠ n → s.pendingFor die c false m = true →
      s.get (evSrc die m) Fld.EVC_SRC_prio < s.get (evSrc die n) Fld.EVC_SRC_prio ∨
        (s.get (evSrc die m) Fld.EVC_SRC_prio = s.get (evSrc die n) Fld.EVC_SRC_prio ∧ n < m)) :
    s.firstNormal die c = some n := by
  obtain ⟨below, above, hsplit⟩ := List.append_of_mem (List.mem_filter.mpr ⟨List.mem_range.mpr hn, hpend⟩)
  have hrises : (below ++ n :: above).Pairwise (· < ·) := hsplit ▸ List.pairwise_lt_range.filter _
  obtain ⟨-, habove, hbelow⟩ := List.pairwise_append.mp hrises
  have hcand : ∀ m ∈ below ++ n :: above, m ≠ n → s.get (evSrc die m) Fld.EVC_SRC_prio < s.get (evSrc die n) Fld.EVC_SRC_prio ∨
      (s.get (evSrc die m) Fld.EVC_SRC_prio = s.get (evSrc die n) Fld.EVC_SRC_prio ∧ n < m) := by
    intro m hm hne
    rw [← hsplit] at hm
    obtain ⟨hrange, hm⟩ := List.mem_filter.mp hm
    exact hbest m (List.mem_range.mp hrange) hne hm
  rw [State.firstNormal, hsplit, List.foldl_append, List.foldl_cons, betterSrc_of_higher, foldl_betterSrc_of_none_higher]
  · intro m hm
    have hlt : n < m := List.rel_of_pairwise_cons habove hm
    have := hcand m (by simp [hm]) (by omega)
    omega
  · intro m hm
    have hmem : m ∈ below := (foldl_betterSrc_mem _ _ hm).resolve_left nofun
    have hlt : m < n := hbelow m hmem n List.mem_cons_self
    have := hcand m (by simp [hmem]) (by omega)
    omega

theorem firstNormal_eq_none {s : State} {die c : Nat} (h : ∀ m, m < 1024 → s.pendingFor die c false m = false) :
    s.firstNormal die c = none := by
  have hempty : (List.range 1024).filter (s.pendingFor die c false) = [] :=
    List.filter_eq_nil_iff.mpr fun m hm => by simp [h m (List.mem_range.mp hm)]
  rw [State.firstNormal, hempty, List.foldl_nil]

theorem firstFast_eq_some {s : State} {die c n : Nat} (hn : n < 1024) (hpend : s.pendingFor die c true n = true)
    (hlowest : ∀ m, m < n → s.pendingFor die c true m = false) : s.firstFast die c = some n :=
  List.find?_range_eq_some.mpr ⟨hpend, List.mem_range.mpr hn, fun m hm => by simp [hlowest m hm]⟩

theorem firstFast_eq_none {s : State} {die c : Nat} (h : ∀ m, m < 1024 → s.pendingFor die c true m = false) : s.firstFast die c = none :=
  List.find?_eq_none.mpr fun m hm => by simp [h m (List.mem_range.mp hm)]

/-! ### Delivery (R425, R426) -/

/-- What the delivery of source `n` writes, normal or fast, where the processor's record becomes `k`. -/
theorem takeSource_setCpu (s : State) (die c n : Nat) (fast : Bool) (k : EvcCpu) :
    let t := (takeSource s die c n fast).setCpu die c k
    t = { s with regs := t.regs, evc := t.evc, outbox := t.outbox } ∧ t.flag (evSrc die n) Fld.EVC_SRC_pending = false ∧
      t.flag (evSrc die n) Fld.EVC_SRC_in_service = true ∧ (∀ x, x ≠ evSrc die n → t.reg x = s.reg x) ∧
      t.cpu die c = k ∧ t.outbox = s.outbox ++ [.wake die c fast n] := by
  refine ⟨((((EventFrame.refl s).setFlag ..).setFlag ..).out _).setCpu .., ?pending, ?inService, fun x hx => ?others, cpu_setCpu .., ?outbox⟩
  case pending =>
    rw [flag_setCpu, takeSource, flag_out, flag_setFlag_fld _ _ _ _ _ (by decide) (by decide), flag_setFlag _ _ _ _ rfl (by decide)]
  case inService => rw [flag_setCpu, takeSource, flag_out, flag_setFlag _ _ _ _ rfl (by decide)]
  case others => rw [reg_setCpu, takeSource, reg_out, reg_setFlag_ne _ _ _ hx, reg_setFlag_ne _ _ _ hx]
  case outbox => rw [outbox_setCpu, takeSource, outbox_out, State.setFlag_outbox, State.setFlag_outbox]

section Delivery
variable {s : State} {die c n : Nat}

theorem deliverNormal_of_none (h : s.firstNormal die c = none) : deliverNormal s die c = s := by
  unfold deliverNormal
  rw [h]

theorem deliverNormal_of_fast (h : (s.cpu die c).fast ≠ none) : deliverNormal s die c = s := by
  obtain ⟨m, hm⟩ := Option.ne_none_iff_exists'.mp h
  unfold deliverNormal
  cases s.firstNormal die c <;> simp [hm]

theorem deliverNormal_of_first (hfirst : s.firstNormal die c = some n) (hfast : (s.cpu die c).fast = none) :
    deliverNormal s die c =
      if (∀ top, (s.cpu die c).stack.head? = some top → top.2 < s.get (evSrc die n) Fld.EVC_SRC_prio) ∧ s.evcAsleep die = false then
        (takeSource s die c n false).setCpu die c
          { s.cpu die c with stack := (n, s.get (evSrc die n) Fld.EVC_SRC_prio) :: (s.cpu die c).stack }
      else s := by
  unfold deliverNormal
  dsimp only
  rw [hfirst, hfast]
  cases hstack : (s.cpu die c).stack with
  | nil => simp
  | cons top rest => simp

theorem deliverNormal_of_blocked (hfirst : s.firstNormal die c = some n)
    (hblocked : (s.cpu die c).fast ≠ none ∨
      (∃ top, (s.cpu die c).stack.head? = some top ∧ s.get (evSrc die n) Fld.EVC_SRC_prio ≤ top.2) ∨ s.evcAsleep die = true) :
    deliverNormal s die c = s := by
  rcases hblocked with hfast | hblocked
  · exact deliverNormal_of_fast hfast
  by_cases hfast : (s.cpu die c).fast = none
  case neg => exact deliverNormal_of_fast hfast
  rw [deliverNormal_of_first hfirst hfast, if_neg]
  rintro ⟨habove, hawake⟩
  rcases hblocked with ⟨top, hhead, hbelow⟩ | hasleep
  · exact absurd (habove top hhead) (Nat.not_lt.mpr hbelow)
  · exact Bool.false_ne_true (hawake.symm.trans hasleep)

theorem deliverFast_of_none (h : s.firstFast die c = none) : deliverFast s die c = s := by
  unfold deliverFast
  rw [h]

theorem deliverFast_of_fast (h : (s.cpu die c).fast ≠ none) : deliverFast s die c = s := by
  obtain ⟨m, hm⟩ := Option.ne_none_iff_exists'.mp h
  unfold deliverFast
  cases s.firstFast die c <;> simp [hm]

theorem deliverFast_of_first (hfirst : s.firstFast die c = some n) (hfast : (s.cpu die c).fast = none) :
    deliverFast s die c =
      if s.evcAsleep die then s else (takeSource s die c n true).setCpu die c { s.cpu die c with fast := some n } := by
  unfold deliverFast
  dsimp only
  rw [hfirst, hfast]

theorem deliverFast_of_blocked (hfirst : s.firstFast die c = some n) (hblocked : (s.cpu die c).fast ≠ none ∨ s.evcAsleep die = true) :
    deliverFast s die c = s := by
  by_cases hfast : (s.cpu die c).fast = none
  case neg => exact deliverFast_of_fast hfast
  rw [deliverFast_of_first hfirst hfast, if_pos (hblocked.resolve_left (not_not_intro hfast))]

end Delivery

/-! ### Completion (R427) -/

/-- The controller samples source `n` at once when it completes: a level source that is asserted, enabled and seen. -/
def resamples (s : State) (die n : Nat) : Bool :=
  s.isLevel die n && s.flag (evSrc die n) Fld.EVC_SRC_asserted && s.flag (evSrc die n) Fld.EVC_SRC_dc_en && !s.evcAsleep die

theorem completeSource_eq (s : State) (die : DieIx) (n : SrcId) :
    completeSource s die.val n.val =
      let t := s.setFlag (evSrc die.val n.val) Fld.EVC_SRC_in_service false
      if resamples s die.val n.val then t.setFlag (evSrc die.val n.val) Fld.EVC_SRC_pending true else t := by
  simp (disch := decide) only [completeSource, sampleLevel, resamples, State.isLevel, flag_setFlag_fld, evcAsleep_setFlag_evSrc]
  by_cases hlevel : s.flag (evSrc die.val n.val) Fld.EVC_SRC_level = true
  · simp only [hlevel, if_true, Bool.true_and]
  · simp only [hlevel, if_false, Bool.false_and, Bool.false_eq_true]

/-- What a completion of source `n` writes, where the processor's record becomes `k`. -/
theorem completeSource_setCpu (s : State) (die : DieIx) (c : Nat) (n : SrcId) (k : EvcCpu) :
    let t := completeSource (s.setCpu die.val c k) die.val n.val
    (t = { s with regs := t.regs, evc := t.evc } ∧ t.flag (evSrc die.val n.val) Fld.EVC_SRC_in_service = false ∧
      (∀ x, x ≠ evSrc die.val n.val → t.reg x = s.reg x) ∧
      t.flag (evSrc die.val n.val) Fld.EVC_SRC_pending = (s.flag (evSrc die.val n.val) Fld.EVC_SRC_pending || resamples s die.val n.val)) ∧
    t.cpu die.val c = k := by
  have hsame : resamples (s.setCpu die.val c k) die.val n.val = resamples s die.val n.val := rfl
  rw [completeSource_eq, hsame]
  cases resamples s die.val n.val with
  | false =>
    rw [if_neg Bool.false_ne_true]
    refine ⟨⟨(((EventFrame.refl s).setCpu ..).setFlag ..).regs_evc ?_, flag_setFlag _ _ _ _ rfl (by decide),
      fun x hx => reg_setFlag_ne _ _ _ hx, ?_⟩, ?_⟩
    · rw [State.setFlag_outbox, outbox_setCpu]
    · rw [flag_setFlag_fld _ _ _ _ _ (by decide) (by decide), flag_setCpu, Bool.or_false]
    · rw [cpu_setFlag, cpu_setCpu]
  | true =>
    rw [if_pos rfl]
    refine ⟨⟨((((EventFrame.refl s).setCpu ..).setFlag ..).setFlag ..).regs_evc ?_, ?_,
      fun x hx => (reg_setFlag_ne _ _ _ hx).trans (reg_setFlag_ne _ _ _ hx), ?_⟩, ?_⟩
    · rw [State.setFlag_outbox, State.setFlag_outbox, outbox_setCpu]
    · rw [flag_setFlag_fld _ _ _ _ _ (by decide) (by decide), flag_setFlag _ _ _ _ rfl (by decide)]
    · rw [flag_setFlag _ _ _ _ rfl (by decide), Bool.or_true]
    · rw [cpu_setFlag, cpu_setFlag, cpu_setCpu]

/-! ### Order faults (R428) -/

/-- EVC_ORDER after a fault: one more, the processor, the number written and the top of the stack. -/
def orderRecorded (s : State) (die c written : Nat) (top : Option Nat) : State :=
  let r := Reg.EVC_ORDER die
  ((((s.incSat r Fld.EVC_ORDER_count).put r Fld.EVC_ORDER_cpu c).put r Fld.EVC_ORDER_written written).setFlag r Fld.EVC_ORDER_empty
    top.isNone).put r Fld.EVC_ORDER_top (top.getD 0)

theorem orderFault_eq (s : State) (die c written : Nat) (top : Option Nat) :
    orderFault s die c written top = raiseEdge (orderRecorded s die c written top) die 0x148 := rfl

theorem exec_eventRaise (s : State) (die : DieIx) (n : SrcId) : exec (.eventRaise die n) s = .next (raiseEdge s die.val n.val) := rfl

theorem satInc_lt (w x : Nat) : satInc w x < 2 ^ w := by
  have := Nat.two_pow_pos w
  unfold satInc
  split <;> omega

section OrderRecorded
variable (s : State) (die c written : Nat) (top : Option Nat)

theorem orderRecorded_regs_only :
    orderRecorded s die c written top = { s with regs := (orderRecorded s die c written top).regs } := by
  have hframe : EventFrame s (orderRecorded s die c written top) :=
    (((((EventFrame.refl s).incSat ..).put ..).put ..).setFlag ..).put ..
  refine hframe.regs_only ?_ ?_
  · rw [orderRecorded, State.put_evc, State.setFlag_evc, State.put_evc, State.put_evc, State.incSat_evc]
  · rw [orderRecorded, State.put_outbox, State.setFlag_outbox, State.put_outbox, State.put_outbox, State.incSat_outbox]

theorem reg_orderRecorded_ne {x : Nat} (h : x ≠ Reg.EVC_ORDER die) : (orderRecorded s die c written top).reg x = s.reg x := by
  simp only [orderRecorded, State.setFlag, State.incSat, State.reg_put_ne _ _ _ h.symm]

theorem get_orderRecorded_count : (orderRecorded s die c written top).get (Reg.EVC_ORDER die) Fld.EVC_ORDER_count =
    satInc 32 (s.get (Reg.EVC_ORDER die) Fld.EVC_ORDER_count) := by
  simp (disch := decide) only [orderRecorded, State.setFlag, State.incSat, State.get_put_fld, State.get_put]
  exact Nat.mod_eq_of_lt (satInc_lt ..)

theorem get_orderRecorded_cpu : (orderRecorded s die c written top).get (Reg.EVC_ORDER die) Fld.EVC_ORDER_cpu = c % 4 := by
  simp (disch := decide) only [orderRecorded, State.setFlag, State.get_put_fld, State.get_put]
  rfl

theorem get_orderRecorded_written : (orderRecorded s die c written top).get (Reg.EVC_ORDER die) Fld.EVC_ORDER_written = written % 1024 := by
  simp (disch := decide) only [orderRecorded, State.setFlag, State.get_put_fld, State.get_put]
  rfl

theorem flag_orderRecorded_empty : (orderRecorded s die c written top).flag (Reg.EVC_ORDER die) Fld.EVC_ORDER_empty = top.isNone := by
  rw [State.flag, orderRecorded, State.get_put_fld _ _ _ _ _ (by decide) (by decide)]
  exact flag_setFlag _ _ _ _ rfl (by decide)

theorem get_orderRecorded_top : (orderRecorded s die c written top).get (Reg.EVC_ORDER die) Fld.EVC_ORDER_top = top.getD 0 % 1024 :=
  State.get_put _ _ _ _ (by decide)

end OrderRecorded

/-- A command that is an order fault: it records the fault and raises EVC_ORDER's source. -/
theorem exec_of_orderFault {i : Instr} {s : State} {die : DieIx} {c : Fin 4} {n : SrcId} {top : Option Nat}
    (h : exec i s = .next (orderFault s die.val c.val n.val top)) :
    let o := Reg.EVC_ORDER die.val
    ∃ u, exec i s = exec (.eventRaise die 0x148) u ∧ u = { s with regs := u.regs } ∧ (∀ x, x ≠ o → u.reg x = s.reg x) ∧
      u.get o Fld.EVC_ORDER_count = satInc 32 (s.get o Fld.EVC_ORDER_count) ∧ u.get o Fld.EVC_ORDER_cpu = c.val ∧
      u.get o Fld.EVC_ORDER_written = n.val ∧ u.flag o Fld.EVC_ORDER_empty = top.isNone ∧
      ∀ m, top = some m → m < 1024 → u.get o Fld.EVC_ORDER_top = m := by
  refine ⟨orderRecorded s die.val c.val n.val top, by rw [h, orderFault_eq, exec_eventRaise]; rfl, orderRecorded_regs_only ..,
    fun x hx => reg_orderRecorded_ne _ _ _ _ _ hx, get_orderRecorded_count .., ?_, ?_, flag_orderRecorded_empty .., ?_⟩
  · rw [get_orderRecorded_cpu, Nat.mod_eq_of_lt c.isLt]
  · rw [get_orderRecorded_written, Nat.mod_eq_of_lt n.isLt]
  · rintro m rfl hm
    rw [get_orderRecorded_top, Option.getD_some, Nat.mod_eq_of_lt hm]

section Complete
variable {s : State} {die c n : Nat}

theorem evcComplete_of_top {pr : Nat} {rest : List (Nat × Nat)} (h : (s.cpu die c).stack = (n, pr) :: rest) :
    evcComplete s die c n = completeSource (s.setCpu die c { s.cpu die c with stack := rest }) die n := by
  simp [evcComplete, h]

theorem evcComplete_of_not_top (h : ∀ pr, (s.cpu die c).stack.head? ≠ some (n, pr)) :
    evcComplete s die c n = orderFault s die c n ((s.cpu die c).stack.head?.map (·.1)) := by
  cases hstack : (s.cpu die c).stack with
  | nil => simp [evcComplete, hstack]
  | cons e rest =>
    have hne : ¬ e.1 = n := fun he => h e.2 (by rw [hstack, List.head?_cons, ← he])
    simp [evcComplete, hstack, hne]

theorem evcFastComplete_of_fast (h : (s.cpu die c).fast = some n) :
    evcFastComplete s die c n = completeSource (s.setCpu die c { s.cpu die c with fast := none }) die n :=
  if_pos h

theorem evcFastComplete_of_not_fast (h : (s.cpu die c).fast ≠ some n) :
    evcFastComplete s die c n = orderFault s die c n (s.cpu die c).fast :=
  if_neg h

end Complete

/-! ### The host's acknowledgement (R430) -/

theorem sendMsix_of_open {s : State} {p v : Nat} {owner : Option Nat} (howned : s.vecOwned p v owner = true) (hen : (s.port p).msixEn = true)
    (hmask : ((s.port p).vec v).mask = false) (hfmask : (s.port p).fmask = false) :
    sendMsix s p v owner = (s.out (.msix p v (s.msixTlp p v)), true) := by
  simp [sendMsix, howned, hen, hmask, hfmask]

/-- A message of a vector of the manager carries no T bit. -/
theorem msixTlp_of_manager {s : State} {p v : Nat} (h : s.vecOwned p v none = true) :
    s.msixTlp p v = { pasid := none, relaxed := false, ido := false, tee := none } := by
  have hinst : s.flag (Reg.HIF_VEC p v) Fld.HIF_VEC_inst = false := by simpa [State.vecOwned] using h
  simp [State.msixTlp, hinst]

/-- The source no longer waits for the host, and no raise is remembered. -/
def hostAcked (s : State) (die n : Nat) : State :=
  (s.setFlag (evSrc die n) Fld.EVC_SRC_host_wait false).setFlag (evSrc die n) Fld.EVC_SRC_host_again false

section HostAcked
variable (s : State) (die : DieIx) (n : SrcId)

theorem eventFrame_hostAcked : EventFrame s (hostAcked s die.val n.val) := ((EventFrame.refl s).setFlag ..).setFlag ..

theorem evc_hostAcked : (hostAcked s die.val n.val).evc = s.evc := by
  rw [hostAcked, State.setFlag_evc, State.setFlag_evc]

theorem outbox_hostAcked : (hostAcked s die.val n.val).outbox = s.outbox := by
  rw [hostAcked, State.setFlag_outbox, State.setFlag_outbox]

theorem port_hostAcked (p : Nat) : (hostAcked s die.val n.val).port p = s.port p := by
  rw [State.port, hostAcked, State.setFlag_host, State.setFlag_host, State.port]

theorem reg_hostAcked_ne {x : Nat} (h : x ≠ evSrc die.val n.val) : (hostAcked s die.val n.val).reg x = s.reg x :=
  (reg_setFlag_ne _ _ _ h).trans (reg_setFlag_ne _ _ _ h)

theorem get_hostAcked {f : Fld} (h : f.lo + f.width ≤ 58) :
    (hostAcked s die.val n.val).get (evSrc die.val n.val) f = s.get (evSrc die.val n.val) f := by
  have hwait : f.lo + f.width ≤ Fld.EVC_SRC_host_wait.lo := Nat.le_trans h (by decide)
  rw [hostAcked, State.setFlag, State.get_put_fld _ _ _ _ _ (by omega) (.inr h), State.setFlag,
    State.get_put_fld _ _ _ _ _ (by omega) (.inr hwait)]

theorem vecOwned_hostAcked {p v : Nat} (hp : p < 2) (hv : v < 2048) (owner : Option Nat) :
    (hostAcked s die.val n.val).vecOwned p v owner = s.vecOwned p v owner := by
  cases owner <;> simp only [State.vecOwned, State.flag, State.get, reg_hostAcked_ne s die n (evSrc_ne_hifVec die n hp hv)]

end HostAcked

section HostAck
variable {s : State} {die : DieIx} {n : SrcId}

theorem hostAck_of_not_waiting (h : s.flag (evSrc die.val n.val) Fld.EVC_SRC_host_wait = false) : hostAck s die.val n.val = s :=
  if_neg (Bool.eq_false_iff.mp h)

theorem hostAck_of_not_again (hwait : s.flag (evSrc die.val n.val) Fld.EVC_SRC_host_wait = true) (hedge : s.isLevel die.val n.val = false)
    (hagain : s.flag (evSrc die.val n.val) Fld.EVC_SRC_host_again = false) : hostAck s die.val n.val = hostAcked s die.val n.val := by
  simp [hostAck, hwait, hedge, hagain, hostAcked]

theorem hostAck_of_again (hwait : s.flag (evSrc die.val n.val) Fld.EVC_SRC_host_wait = true)
    (hagain : s.flag (evSrc die.val n.val) Fld.EVC_SRC_host_again = true) (hen : s.flag (evSrc die.val n.val) Fld.EVC_SRC_host_en = true) :
    hostAck s die.val n.val = hostMessage (hostAcked s die.val n.val) die.val n.val := by
  have hstill : (hostAcked s die.val n.val).flag (evSrc die.val n.val) Fld.EVC_SRC_host_en = true := by
    rwa [State.flag, get_hostAcked s die n (by decide)]
  rw [hostAcked] at hstill
  simp [hostAck, hwait, hagain, hstill, hostAcked]

/-- The message goes out with the port and the vector that the source names, and the source waits again. -/
theorem hostMessage_hostAcked {p v : Nat} (hp : p = s.get (evSrc die.val n.val) Fld.EVC_SRC_host_port)
    (hv : v = s.get (evSrc die.val n.val) Fld.EVC_SRC_vector) (howned : s.vecOwned p v none = true) (hen : (s.port p).msixEn = true)
    (hmask : ((s.port p).vec v).mask = false) (hfmask : (s.port p).fmask = false) :
    hostMessage (hostAcked s die.val n.val) die.val n.val =
      ((hostAcked s die.val n.val).out (.msix p v (s.msixTlp p v))).setFlag (evSrc die.val n.val) Fld.EVC_SRC_host_wait true := by
  have hp2 : p < 2 := hp ▸ Fld.get_lt _ _
  have hv11 : v < 2048 := hv ▸ Fld.get_lt _ _
  have hstill : (hostAcked s die.val n.val).vecOwned p v none = true := by rwa [vecOwned_hostAcked s die n hp2 hv11]
  have hsend : sendMsix (hostAcked s die.val n.val) p v none = ((hostAcked s die.val n.val).out (.msix p v (s.msixTlp p v)), true) := by
    rw [← port_hostAcked s die n] at hen hmask hfmask
    rw [sendMsix_of_open hstill hen hmask hfmask, msixTlp_of_manager hstill, msixTlp_of_manager howned]
  rw [hostMessage, get_hostAcked s die n (by decide), get_hostAcked s die n (by decide), ← hp, ← hv, hsend]

/-- What the acknowledgement leaves once the message has gone out. -/
theorem hostAcked_out_setFlag (s : State) (die : DieIx) (n : SrcId) (o : Out) :
    let r := evSrc die.val n.val
    let t := ((hostAcked s die.val n.val).out o).setFlag r Fld.EVC_SRC_host_wait true
    t = { s with regs := t.regs, outbox := t.outbox } ∧ t.outbox = s.outbox ++ [o] ∧ t.flag r Fld.EVC_SRC_host_wait = true ∧
      t.flag r Fld.EVC_SRC_host_again = false ∧ ∀ x, x ≠ r → t.reg x = s.reg x := by
  refine ⟨(((eventFrame_hostAcked s die n).out o).setFlag ..).regs_outbox ?evc, ?outbox, flag_setFlag _ _ _ _ rfl (by decide),
    ?again, fun x hx => ?others⟩
  case evc => rw [State.setFlag_evc, State.out_evc, evc_hostAcked]
  case outbox => rw [State.setFlag_outbox, outbox_out, outbox_hostAcked]
  case again => rw [flag_setFlag_fld _ _ _ _ _ (by decide) (by decide), flag_out, hostAcked, flag_setFlag _ _ _ _ rfl (by decide)]
  case others => rw [reg_setFlag_ne _ _ _ hx, reg_out, reg_hostAcked_ne s die n hx]

theorem exec_evcHostAck_of_not_dark (h : s.copyDark die.val = false) : exec (.evcHostAck die n) s = .next (hostAck s die.val n.val) := by
  show execEvcHostAck die n s = _
  simp [execEvcHostAck, h]

theorem exec_evcHostAck_of_idle (h : s.copyDark die.val = true ∨ s.flag (evSrc die.val n.val) Fld.EVC_SRC_host_wait = false) :
    exec (.evcHostAck die n) s = .next s := by
  cases hdark : s.copyDark die.val with
  | true => exact congrArg Host.Outcome.next (if_pos hdark)
  | false => rw [exec_evcHostAck_of_not_dark hdark, hostAck_of_not_waiting (h.resolve_left (by simp [hdark]))]

end HostAck

/-! ### Writes of EVC_SRC (R423, R432) -/

/-- The bits of EVC_SRC that the firmware, or else the manager, writes. -/
def evcSrcMask (fw : Bool) : W64 := if fw then 0x00FFFFFFFFFC0000#64 else 0x0000FFFFFFFC0000#64

/-- The word of EVC_SRC after a write of `v` over `old`. -/
def evcSrcMerged (old v : W64) (fw : Bool) : W64 := (old &&& ~~~evcSrcMask fw) ||| (v &&& evcSrcMask fw)

/-- No writer changes whether a source is a level source. -/
theorem level_evcSrcMerged (old v : W64) (fw : Bool) : Fld.EVC_SRC_level.get (evcSrcMerged old v fw) = Fld.EVC_SRC_level.get old := by
  have hfixed : (evcSrcMask fw)[63] = false := by cases fw <;> decide
  refine Nat.eq_of_testBit_eq fun j => ?_
  rw [Fld.testBit_get, Fld.testBit_get]
  by_cases hj : j < Fld.EVC_SRC_level.width
  · have hbit : Fld.EVC_SRC_level.lo + j = 63 := by
      simp only [Fld.EVC_SRC_level] at hj ⊢
      omega
    simp [hbit, evcSrcMerged, hfixed]
  · simp [hj]

theorem evcSrcWrite_eq (s : State) (die n : Nat) (v : W64) (fw : Bool) :
    evcSrcWrite s die n v fw =
      let s1 := s.setReg (evSrc die n) (evcSrcMerged (s.reg (evSrc die n)) v fw)
      if s1.flag (evSrc die n) Fld.EVC_SRC_dc_en then
        (if Fld.EVC_SRC_dc_en.get (s.reg (evSrc die n)) == 0 && s1.isLevel die n then sampleLevel s1 die n else s1)
      else s1.setFlag (evSrc die n) Fld.EVC_SRC_pending false := by
  cases fw <;> rfl

/-- A source whose route to the die controller is left off forgets that it was pending. -/
theorem evcSrcWrite_of_disabled {s : State} {die n : Nat} {v : W64} {fw : Bool}
    (h : Fld.EVC_SRC_dc_en.get (evcSrcMerged (s.reg (evSrc die n)) v fw) = 0) :
    evcSrcWrite s die n v fw =
      (s.setReg (evSrc die n) (evcSrcMerged (s.reg (evSrc die n)) v fw)).setFlag (evSrc die n) Fld.EVC_SRC_pending false := by
  rw [evcSrcWrite_eq]
  exact if_neg (by simp [State.flag, State.get, h])

/-- A source that is no level source is not sampled when its route is switched on. -/
theorem evcSrcWrite_of_edge {s : State} {die n : Nat} {v : W64} {fw : Bool}
    (hen : Fld.EVC_SRC_dc_en.get (evcSrcMerged (s.reg (evSrc die n)) v fw) ≠ 0) (hedge : s.isLevel die n = false) :
    evcSrcWrite s die n v fw = s.setReg (evSrc die n) (evcSrcMerged (s.reg (evSrc die n)) v fw) := by
  have hlt : Fld.EVC_SRC_dc_en.get (evcSrcMerged (s.reg (evSrc die n)) v fw) < 2 := Fld.get_lt _ _
  have hone : Fld.EVC_SRC_dc_en.get (evcSrcMerged (s.reg (evSrc die n)) v fw) = 1 := by omega
  have hstill : (s.setReg (evSrc die n) (evcSrcMerged (s.reg (evSrc die n)) v fw)).isLevel die n = false := by
    rwa [State.isLevel, State.flag, State.get, State.reg_setReg, level_evcSrcMerged]
  rw [evcSrcWrite_eq]
  simp [hstill, State.flag, State.get, hone]

theorem exec_evcSrc_of_not_dark {s : State} {die : DieIx} (n : SrcId) (v : W64) {fw : Bool} (h : s.srcDark die.val fw = false) :
    exec (.evcSrc die n v fw) s = .next (evcSrcWrite s die.val n.val v fw) := by
  show execEvcSrc die n v fw s = _
  simp [execEvcSrc, h]

/-! ### The wake timer (R434) -/

theorem watchTimerExpire_of_idle {s : State} (h : s.pwr.entry = none ∧ s.get Reg.PWR_STATE Fld.PWR_STATE_state < 2 ∨
    s.get Reg.EVC_WATCH_TIMER Fld.EVC_WATCH_TIMER_ms = 0) : watchTimerExpire s = s := by
  rcases h with ⟨hentry, hrun⟩ | hzero
  · have hunarmed : s.watchArmed = false := by
      rw [State.watchArmed, hentry, Option.isSome_none, Bool.false_or, decide_eq_false (Nat.not_le.mpr hrun)]
    rw [watchTimerExpire, hunarmed, Bool.false_and, if_neg Bool.false_ne_true]
  · rw [watchTimerExpire, hzero, bne_self_eq_false, Bool.and_false, if_neg Bool.false_ne_true]

theorem watchTimerExpire_of_low_power {s : State} (hlow : 2 ≤ s.get Reg.PWR_STATE Fld.PWR_STATE_state)
    (hruns : s.get Reg.EVC_WATCH_TIMER Fld.EVC_WATCH_TIMER_ms ≠ 0) :
    watchTimerExpire s = raiseEdge (s.put Reg.EVC_WATCH_TIMER Fld.EVC_WATCH_TIMER_ms 0) primaryDie 0x205 := by
  have harmed : s.watchArmed = true := by rw [State.watchArmed, decide_eq_true hlow, Bool.or_true]
  rw [watchTimerExpire, harmed, Bool.true_and, if_pos (bne_iff_ne.mpr hruns)]

/-! ### The statement -/

/-- Settles O43: each command's clause is the lemma about its operation. -/
theorem eventsAreDeliveredAndCompleted : Obligations.EventsAreDeliveredAndCompleted := by
  unfold Obligations.EventsAreDeliveredAndCompleted
  refine ⟨fun die c n s => ⟨?normal, ?fast, ?noNormal, ?noFast⟩, fun die c n s => ⟨?done, ?notTop, ?fastDone, ?notFast⟩,
    fun die n s => ⟨exec_evcHostAck_of_idle, ?ack, ?ackAgain⟩, ?srcDark, ?src, ?timerIdle, ?timer⟩
  case normal =>
    intro hpend hbest
    have hfirst := firstNormal_eq_some n.isLt hpend hbest
    refine ⟨fun ⟨hfast, habove, hawake⟩ => ?_, fun hblocked => congrArg Host.Outcome.next (deliverNormal_of_blocked hfirst hblocked)⟩
    exact ⟨_, congrArg Host.Outcome.next ((deliverNormal_of_first hfirst hfast).trans (if_pos ⟨habove, hawake⟩)), takeSource_setCpu ..⟩
  case fast =>
    intro hpend hlowest
    have hfirst := firstFast_eq_some n.isLt hpend hlowest
    refine ⟨fun ⟨hfast, hawake⟩ => ?_, fun hblocked => congrArg Host.Outcome.next (deliverFast_of_blocked hfirst hblocked)⟩
    exact ⟨_, congrArg Host.Outcome.next ((deliverFast_of_first hfirst hfast).trans (if_neg (Bool.eq_false_iff.mp hawake))), takeSource_setCpu ..⟩
  case noNormal => exact fun hnone => congrArg Host.Outcome.next (deliverNormal_of_none (firstNormal_eq_none hnone))
  case noFast => exact fun hnone => congrArg Host.Outcome.next (deliverFast_of_none (firstFast_eq_none hnone))
  case done =>
    intro pr rest hstack
    obtain ⟨hended, hcpu⟩ := completeSource_setCpu s die c.val n { s.cpu die.val c.val with stack := rest }
    exact ⟨_, congrArg Host.Outcome.next (evcComplete_of_top hstack), hended, hcpu⟩
  case notTop => exact fun hnot => exec_of_orderFault (congrArg Host.Outcome.next (evcComplete_of_not_top hnot))
  case fastDone =>
    intro hfast
    obtain ⟨hended, hcpu⟩ := completeSource_setCpu s die c.val n { s.cpu die.val c.val with fast := none }
    exact ⟨_, congrArg Host.Outcome.next (evcFastComplete_of_fast hfast), hended, hcpu⟩
  case notFast => exact fun hnot => exec_of_orderFault (congrArg Host.Outcome.next (evcFastComplete_of_not_fast hnot))
  case ack =>
    intro hnotDark hwait hedge hagain
    exact (exec_evcHostAck_of_not_dark hnotDark).trans (congrArg Host.Outcome.next (hostAck_of_not_again hwait hedge hagain))
  case ackAgain =>
    intro hnotDark hwait hagain hen howned hmsix hmask hfmask
    refine ⟨_, (exec_evcHostAck_of_not_dark hnotDark).trans (congrArg Host.Outcome.next ?_), hostAcked_out_setFlag ..⟩
    exact (hostAck_of_again hwait hagain hen).trans (hostMessage_hostAcked rfl rfl howned hmsix hmask hfmask)
  case srcDark => exact fun die n v fw s hdark => congrArg Host.Outcome.next (if_pos hdark)
  case src =>
    intro die n v fw s hnotDark r m x h
    have hrun := exec_evcSrc_of_not_dark n v hnotDark
    by_cases hoff : Fld.EVC_SRC_dc_en.get x = 0
    · refine ⟨_, hrun.trans (congrArg Host.Outcome.next (evcSrcWrite_of_disabled hoff)),
        (((EventFrame.refl s).setReg ..).setFlag ..).regs_only (by rw [State.setFlag_evc, State.setReg_evc])
          (by rw [State.setFlag_outbox, State.setReg_outbox]), fun y hy => ?_, ?_⟩
      · exact (reg_setFlag_ne _ _ _ hy).trans (State.reg_setReg_ne _ _ hy.symm)
      · rw [if_pos hoff, State.setFlag, State.reg_put, State.reg_setReg]
        rfl
    · refine ⟨_, hrun.trans (congrArg Host.Outcome.next (evcSrcWrite_of_edge hoff (h.resolve_left hoff))),
        ((EventFrame.refl s).setReg ..).regs_only (by rw [State.setReg_evc]) (by rw [State.setReg_outbox]),
        fun y hy => State.reg_setReg_ne _ _ hy.symm, ?_⟩
      rw [if_neg hoff, State.reg_setReg]
      rfl
  case timerIdle => exact fun s hidle => congrArg Host.Outcome.next (watchTimerExpire_of_idle hidle)
  case timer => exact fun s hlow hruns => congrArg Host.Outcome.next (watchTimerExpire_of_low_power hlow hruns)

end Sys2Proof.Proofs
end

section
/-!
The report of a die's straps (R488, R489): a compute die reports once it has trained its first Ceral link, and until then the model records nothing
of a report that is in order. The statement O56 says otherwise, and is refuted here.
-/
namespace Sys2Proof.Proofs
open Sys2Proof Sys2Proof.Machine

/-- The primary I/O die is X0 or X1 (R490). -/
theorem ne_primaryDie {d : Nat} (h : d < 8) : d ≠ primaryDie := by
  simp only [primaryDie]
  omega

/-- A compute die out of reset whose straps are in order records nothing before one of its links is up (R489). -/
theorem strapReport_of_unlinked {s : State} {d role id : Nat} {par : Bool} (hcompute : d < 8) (hreleased : s.boot.released.contains d = true)
    (hheld : s.dieHeld d = false) (hgood : strapBad role id par = false) (hdown : (linksOf d).any (s.linkUp d) = false) :
    strapReport s d role id par = s := by
  have hout : (if d = primaryDie then s.boot.rails.contains 1 else s.boot.released.contains d) = true := by
    rw [if_neg (ne_primaryDie hcompute), hreleased]
  simp only [strapReport, hout, hheld, hgood, hdown]
  simp [hcompute]

/-- The module after reset with compute die 7 released: its strap register reads zero and no link of it has trained. -/
def die7Released : State := { State.reset with boot := { Boot.reset with released := [7] } }

theorem die7Released_strap : die7Released.get (Reg.BOOT_STRAP 7) Fld.BOOT_STRAP_die_id = 0 ∧ die7Released.dieHeld 7 = false := by decide +kernel

theorem die7Released_unlinked : (linksOf 7).any (die7Released.linkUp 7) = false := by decide +kernel

/-- Refutes O56: die 7, released and with no link up, gives its right straps (compute, ID 7, odd parity). The report has to wait for a link, so the
state stays as it is and BOOT_STRAP(7).die_id reads 0, where the statement asks for 7 of every report of a released die. -/
theorem not_strapsReleasesAndStages : ¬ Obligations.StrapsReleasesAndStages := by
  unfold Obligations.StrapsReleasesAndStages
  rintro ⟨hstraps, -, -⟩
  obtain ⟨hid0, hheld⟩ := die7Released_strap
  have hreport : exec (.strapReport 7 0 7 false) die7Released = .next die7Released :=
    congrArg Host.Outcome.next (strapReport_of_unlinked (d := 7) (by decide) (by decide) hheld (by decide) die7Released_unlinked)
  have hout : ((if (7 : DieIx).val = primaryDie then die7Released.boot.rails.contains 1 else die7Released.boot.released.contains (7 : DieIx).val) &&
      !die7Released.dieHeld (7 : DieIx).val) = true := by
    rw [if_neg (ne_primaryDie (by decide)), show die7Released.dieHeld (7 : DieIx).val = false from hheld]
    decide
  obtain ⟨t, hexec, -, -, hid, -⟩ := (hstraps 7 0 7 false die7Released).2 hout
  obtain rfl : die7Released = t := Host.Outcome.next.inj (hreport.symm.trans hexec)
  exact absurd (hid0.symm.trans hid) (by decide)

end Sys2Proof.Proofs
end

section
/-!
Error records of compute dies (chapters 16 and 18): what a record and the event that it raises leave alone (R423, R430, R431, R480, R481). The channels'
training and the die reset rest on these.
-/
namespace Sys2Proof.Proofs
open Sys2Proof Sys2Proof.Machine

/-! ### Loops -/

theorem forEach_rel {α : Type} {R : State → State → Prop} (refl : ∀ s, R s s) (trans : ∀ {s t u}, R s t → R t u → R s u) {l : List α}
    {f : State → α → State} (h : ∀ s x, x ∈ l → R s (f s x)) (s : State) : R s (forEach l s f) := by
  induction l generalizing s with
  | nil => exact refl s
  | cons x l ih => exact trans (h s x List.mem_cons_self) (ih (fun s y hy => h s y (List.mem_cons_of_mem _ hy)) _)

theorem forEach_proj {α β : Type} (g : State → β) {l : List α} {f : State → α → State} (h : ∀ s x, x ∈ l → g (f s x) = g s) (s : State) :
    g (forEach l s f) = g s :=
  forEach_rel (R := fun s t => g t = g s) (fun _ => rfl) (fun hst htu => htu.trans hst) h s

/-! ### Error records of a compute die (R480, R481) -/

/-- The registers that the error records and the events of compute dies write: HIF_STAT, MEM_MAP_INFO, and the pages of the event controllers and of the
error rings. -/
def ReportReg (a : Nat) : Prop := a < 0x1000 ∨ 0x9000000 ≤ a ∧ a < 0xC000000 ∨ ∃ d, d < 8 ∧ a = Reg.MEM_MAP_INFO d

theorem reportReg_of_pages {a : Nat} (hlo : 0x9000000 ≤ a) (hhi : a < 0xC000000) : ReportReg a := .inr (.inl ⟨hlo, hhi⟩)

theorem reportReg_evSrc {die n : Nat} (hdie : die < 8) (hn : n < 1024) : ReportReg (evSrc die n) := by
  refine reportReg_of_pages ?_ ?_ <;> simp only [evSrc, Reg.EVC_SRC] <;> omega

theorem reportReg_errRec {die : Nat} (hdie : die < 8) (n : Nat) {w : Nat} (hw : w < 8) : ReportReg (Reg.ERR_REC die (n % 512) w) := by
  refine reportReg_of_pages ?_ ?_ <;> simp only [Reg.ERR_REC] <;> omega

theorem reportReg_errRing {die : Nat} (hdie : die < 8) : ReportReg (Reg.ERR_RING die) := by
  refine reportReg_of_pages ?_ ?_ <;> simp only [Reg.ERR_RING] <;> omega

theorem reportReg_errOvf {die : Nat} (hdie : die < 8) : ReportReg (Reg.ERR_OVF die) := by
  refine reportReg_of_pages ?_ ?_ <;> simp only [Reg.ERR_OVF] <;> omega

theorem reportReg_errStat {die : Nat} (hdie : die < 8) : ReportReg (Reg.ERR_STAT die) := by
  refine reportReg_of_pages ?_ ?_ <;> simp only [Reg.ERR_STAT] <;> omega

/-- `t` is `s` but for what reports write: their registers, the wake flags of cores, the host ports' pending messages, what has left the module, the times
against which records merge, and the free values drawn. -/
structure ReportFrame (s t : State) : Prop where
  rest : t = { s with regs := t.regs, cores := t.cores, errs := t.errs, host := t.host, outbox := t.outbox, free := t.free }
  regs : ∀ a, ¬ReportReg a → t.reg a = s.reg a

namespace ReportFrame
variable {s t u : State}

theorem refl (s : State) : ReportFrame s s := ⟨rfl, fun _ _ => rfl⟩

theorem trans (hst : ReportFrame s t) (htu : ReportFrame t u) : ReportFrame s u :=
  ⟨by conv => lhs; rw [htu.rest, hst.rest], fun a ha => (htu.regs a ha).trans (hst.regs a ha)⟩

theorem setReg (h : ReportFrame s t) {a : Nat} (ha : ReportReg a) (v : W64) : ReportFrame s (t.setReg a v) :=
  ⟨by conv => lhs; rw [h.rest]
      rfl,
   fun b hb => (State.reg_setReg_ne t v (a := a) (b := b) (by rintro rfl; exact hb ha)).trans (h.regs b hb)⟩

theorem put (h : ReportFrame s t) {a : Nat} (ha : ReportReg a) (f : Fld) (v : Nat) : ReportFrame s (t.put a f v) := h.setReg ha _

theorem setFlag (h : ReportFrame s t) {a : Nat} (ha : ReportReg a) (f : Fld) (b : Bool) : ReportFrame s (t.setFlag a f b) := h.put ha f _

theorem incSat (h : ReportFrame s t) {a : Nat} (ha : ReportReg a) (f : Fld) : ReportFrame s (t.incSat a f) := h.put ha f _

theorem addWrap (h : ReportFrame s t) {a : Nat} (ha : ReportReg a) (f : Fld) (n : Nat) : ReportFrame s (t.addWrap a f n) := h.put ha f _

theorem modCore (h : ReportFrame s t) (c : Nat) (f : Core → Core) : ReportFrame s (t.modCore c f) :=
  ⟨by conv => lhs; rw [h.rest]
      rfl, h.regs⟩

theorem out (h : ReportFrame s t) (o : Out) : ReportFrame s (t.out o) :=
  ⟨by conv => lhs; rw [h.rest]
      rfl, h.regs⟩

theorem drawn (h : ReportFrame s t) : ReportFrame s t.drawn :=
  ⟨by conv => lhs; rw [h.rest]
      rfl, h.regs⟩

theorem errs (h : ReportFrame s t) (e : Errs) : ReportFrame s { t with errs := e } :=
  ⟨by conv => lhs; rw [h.rest], h.regs⟩

theorem setPort (h : ReportFrame s t) (p : Nat) (k : HostPort) : ReportFrame s (t.setPort p k) := by
  unfold State.setPort
  split <;> exact ⟨by conv => lhs; rw [h.rest], h.regs⟩

end ReportFrame

section Reports
variable {die n : Nat} (hdie : die < 8) (hn : n < 1024)
include hdie hn

theorem reportFrame_routeDie (s : State) : ReportFrame s (routeDie s die n) := by
  have hmerged : ReportReg (Reg.EVC_CNT_MERGED die) := by
    refine reportReg_of_pages ?_ ?_ <;> simp only [Reg.EVC_CNT_MERGED] <;> omega
  unfold routeDie
  split
  · split
    · exact (ReportFrame.refl s).addWrap hmerged _ _
    · exact (ReportFrame.refl s).setFlag (reportReg_evSrc hdie hn) _ _
  · exact .refl s

omit hn in
theorem reportFrame_routeCore (s : State) : ReportFrame s (routeCore s die n) := by
  have hdropped : ReportReg (Reg.EVC_CNT_DROPPED die) := by
    refine reportReg_of_pages ?_ ?_ <;> simp only [Reg.EVC_CNT_DROPPED] <;> omega
  unfold routeCore
  split
  · dsimp only
    split
    · exact (ReportFrame.refl s).modCore _ _
    · exact (ReportFrame.refl s).addWrap hdropped _ _
  · exact .refl s

omit hdie hn in
theorem reportFrame_sendMsix (s : State) {p : Nat} (hp : p < 2) (v : Nat) (owner : Option Nat) : ReportFrame s (sendMsix s p v owner).1 := by
  have hstat : ReportReg (Reg.HIF_STAT p) := .inl (by simp only [Reg.HIF_STAT]; omega)
  unfold sendMsix
  dsimp only
  split
  · exact (ReportFrame.refl s).incSat hstat _
  · split
    · exact (ReportFrame.refl s).setPort _ _
    · exact (ReportFrame.refl s).out _

theorem reportFrame_hostMessage (s : State) : ReportFrame s (hostMessage s die n) :=
  (reportFrame_sendMsix s (Fld.get_lt Fld.EVC_SRC_host_port _) _ _).setFlag (reportReg_evSrc hdie hn) _ _

theorem reportFrame_routeHost (s : State) (edge : Bool) : ReportFrame s (routeHost s die n edge) := by
  unfold routeHost
  split
  · split
    · split
      · exact (ReportFrame.refl s).setFlag (reportReg_evSrc hdie hn) _ _
      · exact .refl s
    · exact reportFrame_hostMessage hdie hn s
  · exact .refl s

/-- The wake watch names sources of I/O dies only, so an edge of a compute die starts no return to RUN. -/
theorem reportFrame_raiseEdge (s : State) : ReportFrame s (raiseEdge s die n) := by
  have hwatch (t : State) : watchSource t die n = t := by rw [watchSource, if_pos hdie]
  unfold raiseEdge
  split
  · rw [hwatch]
    exact ((reportFrame_routeDie hdie hn s).trans (reportFrame_routeHost hdie hn _ true)).trans (reportFrame_routeCore hdie _)
  · exact .refl s

end Reports

section Records
variable {die : Nat} {r : ErrRec} (hdie : die < 8) (hcls : r.cls < 4)
include hdie hcls

theorem reportFrame_errStore (s : State) : ReportFrame s (errStore s die r) := by
  have hrec (w : Nat) (hw : w < 8) := reportReg_errRec hdie (s.get (Reg.ERR_RING die) Fld.ERR_RING_produced) hw
  unfold errStore
  dsimp only
  refine ReportFrame.trans (ReportFrame.errs ?_ _) (reportFrame_raiseEdge hdie (by omega) _)
  exact (((((((((ReportFrame.refl s).setReg (hrec 0 (by decide)) _).setReg (hrec 1 (by decide)) _).setReg (hrec 2 (by decide)) _).setReg
    (hrec 3 (by decide)) _).setReg (hrec 4 (by decide)) _).setReg (hrec 5 (by decide)) _).setReg (hrec 6 (by decide)) _).setReg
    (hrec 7 (by decide)) _).put (reportReg_errRing hdie) _ _

theorem reportFrame_errWrite (s : State) : ReportFrame s (errWrite s die r) := by
  unfold errWrite
  split
  · refine ReportFrame.trans (ReportFrame.refl s).drawn (reportFrame_errStore hdie ?_ _)
    exact hcls
  · exact reportFrame_errStore hdie hcls s

theorem reportFrame_errRecord (s : State) : ReportFrame s (errRecord s die r) := by
  have hstat := (ReportFrame.refl s).incSat (reportReg_errStat hdie) (errStatField r.cls)
  unfold errRecord
  dsimp only
  split
  · exact hstat.incSat (reportReg_errRec hdie _ (by decide)) _
  · split
    · split
      · exact hstat.incSat (reportReg_errOvf hdie) _
      · exact (((hstat.addWrap (reportReg_errRing hdie) _ _).incSat (reportReg_errOvf hdie) _).setFlag (reportReg_errOvf hdie) _ _).trans
          (reportFrame_errWrite hdie hcls _)
    · exact hstat.trans (reportFrame_errWrite hdie hcls _)

end Records

end Sys2Proof.Proofs
end

section
/-!
Channels and stacks end training (chapter 12): what a channel's training leaves alone and leaves in its status register (R334, R335, R342), the turns of
the channels of a stack, the ready bit of the stack; and the partition that becomes ACTIVE (R496). The statement O57 rests on these.
-/
namespace Sys2Proof.Proofs
open Sys2Proof Sys2Proof.Machine

/-! ### The channels of a stack (R334, R335, R342) -/

/-- MEM_CH_STATUS of a channel. -/
def chanStatus (c : Nat) : Nat := chanReg Reg.MEM_CH_STATUS c

theorem chanStatus_inj {c k : Nat} (hc : c < 1024) (hk : k < 1024) (h : chanStatus c = chanStatus k) : c = k := by
  simp only [chanStatus, chanReg, Reg.MEM_CH_STATUS] at h
  omega

theorem not_reportReg_chanStatus {c : Nat} (hc : c < 1024) : ¬ReportReg (chanStatus c) := by
  simp only [ReportReg, chanStatus, chanReg, Reg.MEM_CH_STATUS, Reg.MEM_MAP_INFO]
  omega

theorem length_le_setIns (l : List Nat) (k : Nat) : l.length ≤ (setIns l k).length := by
  induction l with
  | nil => exact Nat.zero_le _
  | cons x l ih =>
    unfold setIns
    split
    · exact Nat.le_succ _
    · split
      · exact Nat.le_refl _
      · exact Nat.succ_le_succ ih

/-- What the training of the channels `l` leaves alone: the registers but MEM_CH_STATUS of those channels and what reports write, memory, messages, the
boot and the image. Of the map-out list it only adds channels of `l`. -/
structure ChannelFrame (l : List Nat) (s t : State) : Prop where
  mem : t.mem = s.mem
  net : t.net = s.net
  boot : t.boot = s.boot
  img : t.img = s.img
  regs : ∀ a, ¬ReportReg a → (∀ c ∈ l, a ≠ chanStatus c) → t.reg a = s.reg a
  mapped : s.stk.mapped ⊆ t.stk.mapped
  unmapped : ∀ x ∈ t.stk.mapped, x ∈ s.stk.mapped ∨ x ∈ l
  count : s.stk.mapped.length ≤ t.stk.mapped.length

namespace ChannelFrame
variable {l : List Nat} {s t u : State}

theorem refl (l : List Nat) (s : State) : ChannelFrame l s s :=
  ⟨rfl, rfl, rfl, rfl, fun _ _ _ => rfl, List.Subset.refl _, fun _ => .inl, Nat.le_refl _⟩

theorem trans (hst : ChannelFrame l s t) (htu : ChannelFrame l t u) : ChannelFrame l s u where
  mem := htu.mem.trans hst.mem
  net := htu.net.trans hst.net
  boot := htu.boot.trans hst.boot
  img := htu.img.trans hst.img
  regs a ha hl := (htu.regs a ha hl).trans (hst.regs a ha hl)
  mapped := List.Subset.trans hst.mapped htu.mapped
  unmapped x hx := (htu.unmapped x hx).elim (hst.unmapped x) .inr
  count := Nat.le_trans hst.count htu.count

theorem mono {m : List Nat} (hlm : l ⊆ m) (h : ChannelFrame l s t) : ChannelFrame m s t where
  mem := h.mem
  net := h.net
  boot := h.boot
  img := h.img
  regs a ha hm := h.regs a ha fun c hc => hm c (hlm hc)
  mapped := h.mapped
  unmapped x hx := (h.unmapped x hx).imp_right (hlm ·)
  count := h.count

/-- The stacks' records change but for the map-out list. -/
theorem stk (l : List Nat) (s : State) (k : Mem) (h : k.mapped = s.stk.mapped) : ChannelFrame l s { s with stk := k } :=
  ⟨rfl, rfl, rfl, rfl, fun _ _ _ => rfl, fun _ hx => h.symm ▸ hx, fun _ hx => .inl (h ▸ hx), h ▸ Nat.le_refl _⟩

theorem mapOut (s : State) (c : Nat) : ChannelFrame [c] s { s with stk := { s.stk with mapped := setIns s.stk.mapped c } } :=
  ⟨rfl, rfl, rfl, rfl, fun _ _ _ => rfl, fun x hx => (mem_setIns _ c x).mpr (.inr hx),
    fun x hx => ((mem_setIns _ c x).mp hx).symm.imp_right List.mem_singleton.mpr, length_le_setIns _ c⟩

theorem put (s : State) (c : Nat) (f : Fld) (v : Nat) : ChannelFrame [c] s (s.put (chanStatus c) f v) := by
  have hmapped : (s.put (chanStatus c) f v).stk.mapped = s.stk.mapped := congrArg Mem.mapped (State.put_stk ..)
  exact ⟨State.put_mem .., State.put_net .., State.put_boot .., State.put_img ..,
    fun a _ hl => State.reg_put_ne s f v (hl c List.mem_cons_self).symm, fun _ hx => hmapped.symm ▸ hx, fun _ hx => .inl (hmapped ▸ hx),
    Nat.le_of_eq (congrArg List.length hmapped.symm)⟩

theorem setChan (s : State) (c v : Nat) : ChannelFrame [c] s (Machine.setChan s c v) := put s c _ v

theorem setSpares (s : State) (c : Nat) (v : BitVec 16) : ChannelFrame [c] s (Machine.setSpares s c v) := (put s c _ _).trans (put _ c _ _)

theorem ofReport (l : List Nat) (h : ReportFrame s t) : ChannelFrame l s t := by
  have hrest := h.rest
  have hstk : t.stk.mapped = s.stk.mapped := by rw [hrest]
  refine ⟨?_, ?_, ?_, ?_, fun a ha _ => h.regs a ha, fun _ hx => hstk.symm ▸ hx, fun _ hx => .inl (hstk ▸ hx), hstk ▸ Nat.le_refl _⟩ <;> rw [hrest]

theorem forEach {α : Type} {xs : List α} {f : State → α → State} (h : ∀ s x, x ∈ xs → ChannelFrame l s (f s x)) (s : State) :
    ChannelFrame l s (Machine.forEach xs s f) := forEach_rel (refl l) trans h s

/-- What the frame says of another channel: its status register stays. -/
theorem status (h : ChannelFrame l s t) (hl : ∀ c ∈ l, c < 1024) {k : Nat} (hk : k < 1024) (hkl : k ∉ l) :
    t.reg (chanStatus k) = s.reg (chanStatus k) :=
  h.regs _ (not_reportReg_chanStatus hk) fun c hc hkc => hkl (chanStatus_inj hk (hl c hc) hkc ▸ hc)

end ChannelFrame

/-- A channel's place in the map-out record is claimed, or MAPOUT_FULL is raised: no channel's status changes (R337). -/
theorem channelFrame_claimChannel (s : State) {c : Nat} (hc : c < 1024) : ChannelFrame [] s (claimChannel s c) := by
  unfold claimChannel
  split
  · exact .refl _ _
  · split
    · exact .stk _ _ _ rfl
    · refine .ofReport _ (ReportFrame.trans ?_ (reportFrame_raiseEdge (by omega) (by decide) _))
      exact forEach_rel ReportFrame.refl ReportFrame.trans
        (fun t d hd => (ReportFrame.refl t).put (.inr (.inr ⟨d, List.mem_range.mp hd, rfl⟩)) _ _) s

theorem channelFrame_chanDead_setChan (s : State) {c : Nat} (hc : c < 1024) : ChannelFrame [] (setChan s c 4) (chanDead s c true) := by
  unfold chanDead
  extract_lets u
  have hrecord : ChannelFrame [] (setChan s c 4) u := .ofReport _ (reportFrame_errRecord (by omega) (show 1 < 4 by decide) _)
  clear_value u
  rw [if_pos rfl]
  exact hrecord.trans (channelFrame_claimChannel u hc)

theorem channelFrame_chanDead (s : State) {c : Nat} (hc : c < 1024) : ChannelFrame [c] s (chanDead s c true) :=
  (ChannelFrame.setChan s c 4).trans ((channelFrame_chanDead_setChan s hc).mono (List.nil_subset _))

theorem channelFrame_chanFailed (s : State) {c : Nat} (hc : c < 1024) : ChannelFrame [c] s (chanFailed s c) := by
  unfold chanFailed
  split
  · have hrecord : ChannelFrame [] (setChan s c 3) _ :=
      (ChannelFrame.ofReport _ (reportFrame_errRecord (die := c / 128) (r := ErrRec.plain 1 0x021 4 c 0) (by omega) (show 1 < 4 by decide) _)).trans
        (channelFrame_claimChannel _ hc)
    exact (ChannelFrame.setChan s c 3).trans (hrecord.mono (List.nil_subset _))
  · exact .refl _ _

theorem channelFrame_chanTrained (s : State) (c : Nat) (v : BitVec 16) : ChannelFrame [c] s (chanTrained s c v) := by
  unfold chanTrained
  extract_lets u
  have htrained : ChannelFrame [c] s u := (ChannelFrame.setSpares s c v).trans (.setChan _ c 1)
  clear_value u
  exact htrained.trans (.stk _ _ _ rfl)

theorem mapped_chanTrained (s : State) (c : Nat) (v : BitVec 16) : (chanTrained s c v).stk.mapped = s.stk.mapped := by
  unfold chanTrained
  extract_lets u
  have hstk : u.stk = s.stk := (State.put_stk _ _ _ 1).trans ((State.put_stk ..).trans (State.put_stk s ..))
  clear_value u
  change u.stk.mapped = s.stk.mapped
  rw [hstk]

theorem channelFrame_chanRetrain (s : State) (lanes : List (Nat × Nat)) {c : Nat} (hc : c < 1024) : ChannelFrame [c] s (chanRetrain s lanes c) := by
  unfold chanRetrain
  split
  · exact .refl _ _
  · split
    · exact channelFrame_chanDead s hc
    · dsimp only
      split
      · exact (channelFrame_chanTrained s c _).trans (channelFrame_chanFailed _ hc)
      · exact channelFrame_chanTrained s c _

/-- The channels of a compute die. -/
def dieChans (d : Nat) : List Nat := (List.range 128).map (fun i => 128 * d + i)

theorem mem_dieChans {d c : Nat} : c ∈ dieChans d ↔ c / 128 = d := by
  simp only [dieChans, List.mem_map, List.mem_range]
  constructor
  · rintro ⟨i, hi, rfl⟩
    omega
  · exact fun h => ⟨c % 128, by omega, by omega⟩

theorem lt_of_mem_dieChans {d c : Nat} (hd : d < 8) (h : c ∈ dieChans d) : c < 1024 := by
  rw [mem_dieChans] at h
  omega

theorem channelFrame_linesCheck (s : State) {d : Nat} (hd : d < 8) : ChannelFrame (dieChans d) s (linesCheck s d) := by
  unfold linesCheck
  refine .forEach (fun t c hc => ?_) s
  have hmem : c ∈ dieChans d := by
    obtain ⟨e, he, rfl⟩ := List.mem_map.mp hc
    exact mem_dieChans.mpr (by simpa using (List.mem_filter.mp he).2)
  dsimp only
  split
  · exact (channelFrame_chanFailed t (lt_of_mem_dieChans hd hmem)).mono (List.cons_subset.mpr ⟨hmem, List.nil_subset _⟩)
  · exact .refl _ _

/-! ### One channel ends training (R334, R335) -/

theorem chanState_setChan (s : State) (c v : Nat) (hv : v < 8) : (setChan s c v).chanState c = v := by
  rw [State.chanState, setChan, State.get_put _ _ _ _ (by decide)]
  exact Nat.mod_eq_of_lt hv

section Train
variable {s : State} {lanes : List (Nat × Nat)} {c : Nat}

theorem chanTrain_of_mapped (h : c ∈ s.stk.mapped) : chanTrain s lanes c = setChan s c 5 := by
  rw [chanTrain, if_pos (List.contains_iff_mem.mpr h)]

theorem chanTrain_of_room (h : c ∉ s.stk.mapped) (hfails : trainFails lanes c = true) (hroom : s.stk.mapped.length < 64) :
    chanTrain s lanes c = setChan { s with stk := { s.stk with mapped := setIns s.stk.mapped c } } c 5 := by
  simp only [chanTrain, if_neg (mt List.contains_iff_mem.mp h), hfails, hroom, if_true]

theorem chanTrain_of_full (h : c ∉ s.stk.mapped) (hfails : trainFails lanes c = true) (hfull : 64 ≤ s.stk.mapped.length) :
    chanTrain s lanes c = chanDead s c true := by
  simp only [chanTrain, if_neg (mt List.contains_iff_mem.mp h), hfails, if_neg (Nat.not_lt.mpr hfull), if_true]

theorem chanTrain_of_passes (h : c ∉ s.stk.mapped) (hpasses : trainFails lanes c = false) :
    chanTrain s lanes c =
      chanTrained { s with stk := { s.stk with spares0 := s.stk.spares0 ++ [(c, sparesOf lanes c)] } } c (sparesOf lanes c) := by
  simp only [chanTrain, if_neg (mt List.contains_iff_mem.mp h), hpasses, Bool.false_eq_true, if_false]

variable (s lanes)

theorem channelFrame_chanTrain (hc : c < 1024) : ChannelFrame [c] s (chanTrain s lanes c) := by
  by_cases hmapped : c ∈ s.stk.mapped
  · rw [chanTrain_of_mapped hmapped]
    exact .setChan s c 5
  cases hfails : trainFails lanes c with
  | false =>
    rw [chanTrain_of_passes hmapped hfails]
    refine ChannelFrame.trans (ChannelFrame.stk [c] s _ ?_) (channelFrame_chanTrained _ c _)
    rfl
  | true =>
    by_cases hroom : s.stk.mapped.length < 64
    · rw [chanTrain_of_room hmapped hfails hroom]
      exact (ChannelFrame.mapOut s c).trans (.setChan _ c 5)
    · rw [chanTrain_of_full hmapped hfails (Nat.le_of_not_lt hroom)]
      exact channelFrame_chanDead s hc

theorem mapped_chanTrain_of_passes (hpasses : trainFails lanes c = false) : (chanTrain s lanes c).stk.mapped = s.stk.mapped := by
  by_cases hmapped : c ∈ s.stk.mapped
  · rw [chanTrain_of_mapped hmapped, setChan, State.put_stk]
  · rw [chanTrain_of_passes hmapped hpasses, mapped_chanTrained]

end Train

/-! ### Registers beside the stacks' records and the boot -/

theorem reg_withStk (s : State) (k : Mem) (a : Nat) : ({ s with stk := k } : State).reg a = s.reg a := rfl

theorem reg_withBoot (s : State) (b : Boot) (a : Nat) : ({ s with boot := b } : State).reg a = s.reg a := rfl

/-! ### Bits of a word -/

theorem bit_eq_testBit (x n : Nat) : bit x n = x.testBit n := by
  rw [bit, Nat.testBit_eq_decide_div_mod_eq]
  exact Bool.eq_iff_iff.mpr (beq_iff_eq.trans decide_eq_true_iff.symm)

theorem bit_toNat (w : W64) (n : Nat) : bit w.toNat n = w.getLsbD n := bit_eq_testBit _ _

/-- Bit `n` of a register of ready bits is set; the others stay. -/
theorem getLsbD_or_twoPow (w : W64) (n m : Nat) : (w ||| BitVec.ofNat 64 (2 ^ n)).getLsbD m = (w.getLsbD m || decide (m < 64 ∧ n = m)) := by
  rw [BitVec.getLsbD_or, BitVec.getLsbD_ofNat, Nat.testBit_two_pow, Bool.decide_and]

/-! ### The lanes of a channel that fail (R334) -/

section Lanes
variable (data : List (Fin 32 × Fin 64)) (check : List (Fin 32 × Fin 8))

/-- Lane `x` of channel `k` of a stack is among the failing lanes, data lanes 0 to 63 and check lanes 64 to 71. -/
def laneBad (k : Fin 32) (x : Nat) : Bool :=
  (data.any fun e => e.1 == k && e.2.val == x) || check.any fun e => e.1 == k && 64 + e.2.val == x

/-- The failing lanes with the module's channel numbers. -/
def stackLanes (n : Nat) : List (Nat × Nat) := (failingLanes data check).map fun x => (32 * n + x.1, x.2)

theorem mem_stackLanes (n : Nat) (k : Fin 32) (x : Nat) : (32 * n + k.val, x) ∈ stackLanes data check n ↔ laneBad data check k x = true := by
  simp only [stackLanes, failingLanes, laneBad, List.mem_map, List.mem_append, Bool.or_eq_true, List.any_eq_true, Bool.and_eq_true, beq_iff_eq,
    Prod.mk.injEq]
  constructor
  · rintro ⟨_, ⟨e, he, rfl⟩ | ⟨e, he, rfl⟩, hk, hx⟩
    · exact .inl ⟨e, he, Fin.ext (Nat.add_left_cancel hk), hx⟩
    · exact .inr ⟨e, he, Fin.ext (Nat.add_left_cancel hk), hx⟩
  · rintro (⟨e, he, rfl, rfl⟩ | ⟨e, he, rfl, rfl⟩)
    · exact ⟨_, .inl ⟨e, he, rfl⟩, rfl, rfl⟩
    · exact ⟨_, .inr ⟨e, he, rfl⟩, rfl, rfl⟩

theorem lanesOf_stackLanes (n : Nat) (k : Fin 32) :
    lanesOf (stackLanes data check n) (32 * n + k.val) = (List.range 72).filter (laneBad data check k) :=
  List.filter_congr fun x _ => Bool.eq_iff_iff.mpr (List.contains_iff_mem.trans (mem_stackLanes data check n k x))

theorem trainFails_stackLanes (n : Nat) (k : Fin 32) :
    trainFails (stackLanes data check n) (32 * n + k.val) = decide (3 ≤ ((List.range 72).filter (laneBad data check k)).length) := by
  rw [trainFails, lanesOf_stackLanes]

end Lanes

theorem lt_of_mem_lanesOf {lanes : List (Nat × Nat)} {c x : Nat} (h : x ∈ lanesOf lanes c) : x < 72 :=
  List.mem_range.mp (List.mem_filter.mp h).1

theorem getD_lanesOf_lt (lanes : List (Nat × Nat)) (c i : Nat) : (lanesOf lanes c).getD i 0xFF < 256 := by
  rw [List.getD_eq_getElem?_getD]
  cases h : (lanesOf lanes c)[i]? with
  | none => exact Nat.lt_succ_self 255
  | some x => exact Nat.lt_trans (lt_of_mem_lanesOf (List.mem_of_getElem? h)) (by decide)

theorem toNat_sparesOf (lanes : List (Nat × Nat)) (c : Nat) :
    (sparesOf lanes c).toNat = (lanesOf lanes c).getD 0 0xFF + 256 * (lanesOf lanes c).getD 1 0xFF := by
  have h0 := getD_lanesOf_lt lanes c 0
  have h1 := getD_lanesOf_lt lanes c 1
  rw [sparesOf, BitVec.toNat_ofNat]
  exact Nat.mod_eq_of_lt (by omega)

/-- Up to two failing lanes are exactly the lanes that the two spares name; a spare that is not used names no lane. -/
theorem mem_iff_spares {l : List Nat} (h : l.length < 3) {x : Nat} (hx : x < 72) : x ∈ l ↔ l.getD 0 0xFF = x ∨ l.getD 1 0xFF = x := by
  match l, h with
  | [], _ =>
    simp only [List.not_mem_nil, List.getD_nil, false_iff]
    omega
  | [a], _ =>
    simp only [List.mem_singleton, List.getD_cons_zero, List.getD_cons_succ, List.getD_nil]
    omega
  | [a, b], _ =>
    simp only [List.mem_cons, List.not_mem_nil, or_false, List.getD_cons_zero, List.getD_cons_succ]
    omega

/-! ### What one channel's training leaves in its status register -/

section Status
variable (s : State) (c : Nat) (v : BitVec 16)

theorem get_chanTrained (f : Fld) : (chanTrained s c v).get (chanStatus c) f = (setChan (setSpares s c v) c 1).get (chanStatus c) f := by
  unfold chanTrained
  extract_lets u
  have hu : u = setChan (setSpares s c v) c 1 := rfl
  clear_value u
  rw [← hu]
  exact congrArg f.get (reg_withStk u _ _)

theorem chanState_chanTrained : (chanTrained s c v).chanState c = 1 :=
  (get_chanTrained s c v _).trans (chanState_setChan (setSpares s c v) c 1 (by decide))

theorem spare0_chanTrained : (chanTrained s c v).get (chanStatus c) Fld.MEM_CH_STATUS_spare0 = v.toNat % 256 := by
  rw [get_chanTrained, setChan, ← chanStatus, State.get_put_fld _ _ _ _ _ (by decide) (by decide), setSpares, ← chanStatus,
    State.get_put_fld _ _ _ _ _ (by decide) (by decide), State.get_put _ _ _ _ (by decide)]
  simp [bits, Fld.MEM_CH_STATUS_spare0]

theorem spare1_chanTrained : (chanTrained s c v).get (chanStatus c) Fld.MEM_CH_STATUS_spare1 = v.toNat / 256 % 256 := by
  rw [get_chanTrained, setChan, ← chanStatus, State.get_put_fld _ _ _ _ _ (by decide) (by decide), setSpares, ← chanStatus,
    State.get_put _ _ _ _ (by decide)]
  simp [bits, Fld.MEM_CH_STATUS_spare1]

theorem chanState_chanDead (hc : c < 1024) : (chanDead s c true).chanState c = 4 := by
  have hstatus := (channelFrame_chanDead_setChan s hc).status (k := c) (by simp) hc (by simp)
  rw [State.chanState, State.get, ← chanStatus, hstatus]
  exact chanState_setChan s c 4 (by decide)

end Status

/-! ### Every channel of a stack ends training -/

/-- The channels `l` end training, one after the other. -/
def trainChans (s : State) (lanes : List (Nat × Nat)) (l : List Nat) : State := forEach l s fun s c => chanTrain s lanes c

theorem trainChans_append (s : State) (lanes : List (Nat × Nat)) (l m : List Nat) :
    trainChans s lanes (l ++ m) = trainChans (trainChans s lanes l) lanes m := List.foldl_append ..

theorem channelFrame_trainChans (s : State) (lanes : List (Nat × Nat)) {l : List Nat} (hl : ∀ c ∈ l, c < 1024) :
    ChannelFrame l s (trainChans s lanes l) :=
  .forEach (fun t c hc => (channelFrame_chanTrain t lanes (hl c hc)).mono (List.cons_subset.mpr ⟨hc, List.nil_subset _⟩)) s

theorem mapped_trainChans_of_pass (s : State) {lanes : List (Nat × Nat)} {l : List Nat} (h : ∀ c ∈ l, trainFails lanes c = false) :
    (trainChans s lanes l).stk.mapped = s.stk.mapped :=
  forEach_proj (fun t => t.stk.mapped) (fun t c hc => mapped_chanTrain_of_passes t lanes (h c hc)) s

/-- Channel `c`, one of `l`, takes its turn in the state `u`; `t` is the state after the last turn. -/
structure ChannelTurn (lanes : List (Nat × Nat)) (l : List Nat) (c : Nat) (s u t : State) : Prop where
  mapped : c ∈ u.stk.mapped ↔ c ∈ s.stk.mapped
  count : s.stk.mapped.length ≤ u.stk.mapped.length
  alone : (∀ x ∈ l, x ≠ c → trainFails lanes x = false) → u.stk.mapped = s.stk.mapped
  status : t.reg (chanStatus c) = (chanTrain u lanes c).reg (chanStatus c)
  kept : (chanTrain u lanes c).stk.mapped ⊆ t.stk.mapped

theorem exists_channelTurn (s : State) (lanes : List (Nat × Nat)) {l : List Nat} (hl : ∀ c ∈ l, c < 1024) (hnodup : l.Nodup) {c : Nat} (hc : c ∈ l) :
    ∃ u, ChannelTurn lanes l c s u (trainChans s lanes l) := by
  obtain ⟨below, above, rfl⟩ := List.append_of_mem hc
  obtain ⟨-, habove, hdisjoint⟩ := List.nodup_append.mp hnodup
  have hcbelow : c ∉ below := fun h => hdisjoint c h c List.mem_cons_self rfl
  have hcabove : c ∉ above := (List.nodup_cons.mp habove).1
  have hbelow := channelFrame_trainChans s lanes (l := below) fun x hx => hl x (List.mem_append_left _ hx)
  have hlast (x : Nat) (hx : x ∈ above) : x < 1024 := hl x (List.mem_append_right _ (List.mem_cons_of_mem _ hx))
  have hrest := channelFrame_trainChans (chanTrain (trainChans s lanes below) lanes c) lanes hlast
  have hwhole : trainChans s lanes (below ++ c :: above) = trainChans (chanTrain (trainChans s lanes below) lanes c) lanes above :=
    trainChans_append ..
  refine ⟨trainChans s lanes below, ?_⟩
  rw [hwhole]
  exact {
    mapped := ⟨fun h => (hbelow.unmapped c h).resolve_right hcbelow, (hbelow.mapped ·)⟩
    count := hbelow.count
    alone := fun hpass => mapped_trainChans_of_pass s fun x hx =>
      hpass x (List.mem_append_left _ hx) (by rintro rfl; exact hcbelow hx)
    status := hrest.status hlast (hl c hc) hcabove
    kept := hrest.mapped }

section Turn
variable {lanes : List (Nat × Nat)} {l : List Nat} {c : Nat} {s u t : State} (h : ChannelTurn lanes l c s u t)
include h

theorem ChannelTurn.chanState : t.chanState c = (chanTrain u lanes c).chanState c := congrArg Fld.MEM_CH_STATUS_state.get h.status

theorem ChannelTurn.get (f : Fld) : t.get (chanStatus c) f = (chanTrain u lanes c).get (chanStatus c) f := congrArg f.get h.status

theorem ChannelTurn.of_mapped (hmapped : c ∈ s.stk.mapped) : t.chanState c = 5 := by
  rw [h.chanState, chanTrain_of_mapped (h.mapped.mpr hmapped), chanState_setChan _ _ _ (by decide)]

/-- A channel that passes is ACTIVE, and its spares name the lanes that fail. -/
theorem ChannelTurn.of_passes (hmapped : c ∉ s.stk.mapped) (hpasses : trainFails lanes c = false) :
    t.chanState c = 1 ∧ ∀ x, x < 72 → (x ∈ lanesOf lanes c ↔
      (t.get (chanStatus c) Fld.MEM_CH_STATUS_spare0 = x ∨ t.get (chanStatus c) Fld.MEM_CH_STATUS_spare1 = x)) := by
  have hlength : (lanesOf lanes c).length < 3 := by simpa [trainFails] using hpasses
  have h0 := getD_lanesOf_lt lanes c 0
  have h1 := getD_lanesOf_lt lanes c 1
  have hturn := chanTrain_of_passes (lanes := lanes) (mt h.mapped.mp hmapped) hpasses
  rw [h.chanState, h.get, h.get, hturn, chanState_chanTrained, spare0_chanTrained, spare1_chanTrained, toNat_sparesOf,
    show ((lanesOf lanes c).getD 0 0xFF + 256 * (lanesOf lanes c).getD 1 0xFF) % 256 = (lanesOf lanes c).getD 0 0xFF by omega,
    show ((lanesOf lanes c).getD 0 0xFF + 256 * (lanesOf lanes c).getD 1 0xFF) / 256 % 256 = (lanesOf lanes c).getD 1 0xFF by omega]
  exact ⟨rfl, fun x hx => mem_iff_spares hlength hx⟩

/-- The only channel that fails is mapped out where the list has room. -/
theorem ChannelTurn.of_room (hmapped : c ∉ s.stk.mapped) (hfails : trainFails lanes c = true)
    (halone : ∀ x ∈ l, x ≠ c → trainFails lanes x = false) (hroom : s.stk.mapped.length < 64) : t.chanState c = 5 ∧ c ∈ t.stk.mapped := by
  have hturn := chanTrain_of_room (mt h.mapped.mp hmapped) hfails (by rwa [h.alone halone])
  have hkept := h.kept
  rw [hturn, setChan, State.put_stk] at hkept
  rw [h.chanState, hturn]
  exact ⟨chanState_setChan _ _ _ (by decide), hkept ((mem_setIns _ c c).mpr (.inl rfl))⟩

theorem ChannelTurn.of_full (hmapped : c ∉ s.stk.mapped) (hfails : trainFails lanes c = true) (hfull : 64 ≤ s.stk.mapped.length)
    (hc : c < 1024) : t.chanState c = 4 := by
  rw [h.chanState, chanTrain_of_full (mt h.mapped.mp hmapped) hfails (Nat.le_trans hfull h.count)]
  exact chanState_chanDead u c hc

end Turn

/-! ### A stack ends training (R334, R335) -/

/-- The channels of stack `n`. -/
def stackChans (n : Nat) : List Nat := (List.range 32).map fun i => 32 * n + i

theorem mem_stackChans {n c : Nat} : c ∈ stackChans n ↔ ∃ k : Fin 32, c = 32 * n + k.val := by
  simp only [stackChans, List.mem_map, List.mem_range]
  exact ⟨fun ⟨i, hi, hc⟩ => ⟨⟨i, hi⟩, hc.symm⟩, fun ⟨k, hc⟩ => ⟨k.val, k.isLt, hc.symm⟩⟩

theorem nodup_stackChans (n : Nat) : (stackChans n).Nodup :=
  List.Pairwise.map _ (fun _ _ hne h => hne (Nat.add_left_cancel h)) List.nodup_range

/-- The channels of stack `n` have ended training: its ready bit is set. -/
def stackEnded (t : State) (n : Nat) : State :=
  let u : State := { t with boot := { t.boot with trained := setIns t.boot.trained n } }
  u.setReg Reg.BOOT_READY_STK (u.reg Reg.BOOT_READY_STK ||| BitVec.ofNat 64 (2 ^ n))

theorem reg_stackEnded (t : State) (n : Nat) :
    (stackEnded t n).reg Reg.BOOT_READY_STK = t.reg Reg.BOOT_READY_STK ||| BitVec.ofNat 64 (2 ^ n) :=
  (State.reg_setReg ..).trans (congrArg (· ||| _) (reg_withBoot t _ _))

theorem reg_stackEnded_ne (t : State) (n : Nat) {a : Nat} (h : a ≠ Reg.BOOT_READY_STK) : (stackEnded t n).reg a = t.reg a :=
  (State.reg_setReg_ne _ _ h.symm).trans (reg_withBoot t _ _)

theorem mem_stackEnded (t : State) (n : Nat) : (stackEnded t n).mem = t.mem := State.setReg_mem ..

theorem net_stackEnded (t : State) (n : Nat) : (stackEnded t n).net = t.net := State.setReg_net ..

theorem stk_stackEnded (t : State) (n : Nat) : (stackEnded t n).stk = t.stk := State.setReg_stk ..

theorem trained_stackEnded (t : State) (n : Nat) : (stackEnded t n).boot.trained = setIns t.boot.trained n := by
  rw [stackEnded, State.setReg_boot]

theorem readyStk_ne_chanStatus (c : Nat) : chanStatus c ≠ Reg.BOOT_READY_STK := by
  simp only [chanStatus, chanReg, Reg.MEM_CH_STATUS, Reg.BOOT_READY_STK]
  omega

theorem not_reportReg_of_boot {a : Nat} (h : 0xC000000 ≤ a) : ¬ReportReg a := by
  simp only [ReportReg, Reg.MEM_MAP_INFO]
  omega

theorem chanState_stackEnded (t : State) (n c : Nat) : (stackEnded t n).chanState c = t.chanState c :=
  congrArg Fld.MEM_CH_STATUS_state.get (reg_stackEnded_ne t n (readyStk_ne_chanStatus c))

theorem get_stackEnded (t : State) (n c : Nat) (f : Fld) :
    (stackEnded t n).get (chanStatus c) f = t.get (chanStatus c) f := congrArg f.get (reg_stackEnded_ne t n (readyStk_ne_chanStatus c))

section StackTraining
variable {n : StackId} (data : List (Fin 32 × Fin 64)) (check : List (Fin 32 × Fin 8)) {s : State}

theorem exec_stackTrainingComplete_of_idle (h : n.val ∈ s.boot.trained ∨ s.dieRuns (n.val / 4) = false ∨ s.boot.dieReset = some (n.val / 4)) :
    exec (.stackTrainingComplete n data check) s = .next s := by
  refine congrArg Host.Outcome.next (?_ : stackTrained s n.val (stackLanes data check n.val) = s)
  rw [stackTrained, if_pos]
  rcases h with h | h | h <;> simp [h]

theorem exec_stackTrainingComplete_of_trains (htrained : n.val ∉ s.boot.trained) (hruns : s.dieRuns (n.val / 4) = true)
    (hreset : s.boot.dieReset ≠ some (n.val / 4)) :
    exec (.stackTrainingComplete n data check) s =
      .next (stackEnded (trainChans s (stackLanes data check n.val) (stackChans n.val)) n.val) := by
  refine congrArg Host.Outcome.next (?_ : stackTrained s n.val (stackLanes data check n.val) = _)
  rw [stackTrained, if_neg (by simp [htrained, hruns, hreset]), stackEnded, trainChans, stackChans]

end StackTraining

/-! ### The stack after the last turn -/

section StackTurns
variable (n : StackId)

theorem lt_of_mem_stackChans {c : Nat} (h : c ∈ stackChans n.val) : c < 1024 := by
  obtain ⟨k, rfl⟩ := mem_stackChans.mp h
  omega

theorem exists_stackTurn (s : State) (lanes : List (Nat × Nat)) (k : Fin 32) :
    ∃ u, ChannelTurn lanes (stackChans n.val) (32 * n.val + k.val) s u (trainChans s lanes (stackChans n.val)) :=
  exists_channelTurn s lanes (fun _ => lt_of_mem_stackChans n) (nodup_stackChans n.val) (mem_stackChans.mpr ⟨k, rfl⟩)

/-- Where only channel `k` of the stack fails, the others pass. -/
theorem others_pass {data : List (Fin 32 × Fin 64)} {check : List (Fin 32 × Fin 8)} {k : Fin 32}
    (h : ∀ j, j ≠ k → ((List.range 72).filter (laneBad data check j)).length < 3) :
    ∀ x ∈ stackChans n.val, x ≠ 32 * n.val + k.val → trainFails (stackLanes data check n.val) x = false := by
  intro x hx hne
  obtain ⟨j, rfl⟩ := mem_stackChans.mp hx
  rw [trainFails_stackLanes, decide_eq_false_iff_not, Nat.not_le]
  exact h j fun hjk => hne (by rw [hjk])

theorem readyStk_trainChans (s : State) (lanes : List (Nat × Nat)) :
    (trainChans s lanes (stackChans n.val)).reg Reg.BOOT_READY_STK = s.reg Reg.BOOT_READY_STK :=
  (channelFrame_trainChans s lanes fun _ => lt_of_mem_stackChans n).regs _ (not_reportReg_of_boot (by decide))
    fun c _ => (readyStk_ne_chanStatus c).symm

end StackTurns

theorem stackTraining_ends (n : StackId) (data : List (Fin 32 × Fin 64)) (check : List (Fin 32 × Fin 8)) (s : State) :
    let failing (k : Fin 32) : Nat := ((List.range 72).filter (laneBad data check k)).length
    let t := stackEnded (trainChans s (stackLanes data check n.val) (stackChans n.val)) n.val
    t.mem = s.mem ∧ t.net = s.net ∧ n.val ∈ t.boot.trained ∧ (t.reg Reg.BOOT_READY_STK).getLsbD n.val = true ∧
      (∀ m, m ≠ n.val → (t.reg Reg.BOOT_READY_STK).getLsbD m = (s.reg Reg.BOOT_READY_STK).getLsbD m) ∧
      (∀ k : Fin 32, 32 * n.val + k.val ∈ s.stk.mapped → t.chanState (32 * n.val + k.val) = 5) ∧
      (∀ k : Fin 32, 32 * n.val + k.val ∉ s.stk.mapped → failing k < 3 → t.chanState (32 * n.val + k.val) = 1 ∧
        ∀ x, x < 72 → (laneBad data check k x = true ↔ (t.get (chanStatus (32 * n.val + k.val)) Fld.MEM_CH_STATUS_spare0 = x ∨
          t.get (chanStatus (32 * n.val + k.val)) Fld.MEM_CH_STATUS_spare1 = x))) ∧
      (∀ k : Fin 32, 32 * n.val + k.val ∉ s.stk.mapped → 3 ≤ failing k → (∀ j, j ≠ k → failing j < 3) → s.stk.mapped.length < 64 →
        t.chanState (32 * n.val + k.val) = 5 ∧ 32 * n.val + k.val ∈ t.stk.mapped) ∧
      (∀ k : Fin 32, 32 * n.val + k.val ∉ s.stk.mapped → 3 ≤ failing k → 64 ≤ s.stk.mapped.length → t.chanState (32 * n.val + k.val) = 4) := by
  intro failing t
  have hframe := channelFrame_trainChans s (stackLanes data check n.val) fun _ => lt_of_mem_stackChans n
  have hready : t.reg Reg.BOOT_READY_STK = s.reg Reg.BOOT_READY_STK ||| BitVec.ofNat 64 (2 ^ n.val) := by
    rw [reg_stackEnded, readyStk_trainChans]
  have hfails (k : Fin 32) (h : 3 ≤ failing k) : trainFails (stackLanes data check n.val) (32 * n.val + k.val) = true := by
    rw [trainFails_stackLanes, decide_eq_true_eq]
    exact h
  refine ⟨(mem_stackEnded ..).trans hframe.mem, (net_stackEnded ..).trans hframe.net, ?trained, ?ready, ?others, ?mapped, ?passes, ?room, ?full⟩
  case trained => rw [trained_stackEnded, mem_setIns]; exact .inl rfl
  case ready => rw [hready, getLsbD_or_twoPow, decide_eq_true ⟨by omega, rfl⟩, Bool.or_true]
  case others =>
    intro m hm
    rw [hready, getLsbD_or_twoPow, decide_eq_false fun h => hm h.2.symm, Bool.or_false]
  case mapped =>
    intro k hmapped
    obtain ⟨u, hturn⟩ := exists_stackTurn n s (stackLanes data check n.val) k
    rw [chanState_stackEnded, hturn.of_mapped hmapped]
  case passes =>
    intro k hmapped hfew
    obtain ⟨u, hturn⟩ := exists_stackTurn n s (stackLanes data check n.val) k
    have hpasses : trainFails (stackLanes data check n.val) (32 * n.val + k.val) = false := by
      rw [trainFails_stackLanes, decide_eq_false_iff_not, Nat.not_le]
      exact hfew
    obtain ⟨hstate, hspares⟩ := hturn.of_passes hmapped hpasses
    rw [chanState_stackEnded, get_stackEnded, get_stackEnded]
    refine ⟨hstate, fun x hx => Iff.trans ?_ (hspares x hx)⟩
    rw [lanesOf_stackLanes, List.mem_filter, List.mem_range]
    exact ⟨fun h => ⟨hx, h⟩, And.right⟩
  case room =>
    intro k hmapped hmany hothers hroom
    obtain ⟨u, hturn⟩ := exists_stackTurn n s (stackLanes data check n.val) k
    obtain ⟨hstate, hnew⟩ := hturn.of_room hmapped (hfails k hmany) (others_pass n hothers) hroom
    rw [chanState_stackEnded, stk_stackEnded]
    exact ⟨hstate, hnew⟩
  case full =>
    intro k hmapped hmany hfull
    obtain ⟨u, hturn⟩ := exists_stackTurn n s (stackLanes data check n.val) k
    rw [chanState_stackEnded]
    exact hturn.of_full hmapped (hfails k hmany) hfull (by omega)

/-! ### A partition becomes ACTIVE (R496) -/

theorem partMayRun_iff (s : State) (p : Nat) :
    s.partMayRun p = true ↔ s.img.applied = true ∧ s.partState p = 4 ∧ (s.part p).reloaded = false ∧
      s.get Reg.BOOT_READY0 Fld.BOOT_READY0_slices = 0xFFFF ∧ ∀ n, n ∈ s.partStacks p → (s.reg Reg.BOOT_READY_STK).getLsbD n = true := by
  simp only [State.partMayRun, Bool.and_eq_true, beq_iff_eq, Bool.not_eq_true', List.all_eq_true, bit_toNat, and_assoc]

theorem prtDesc_ne_readyPrt (p : PartId) : Reg.BOOT_READY_PRT ≠ Reg.PRT_DESC p.val := by
  simp only [Reg.PRT_DESC, Reg.BOOT_READY_PRT]
  omega

/-- Partition `p` becomes ACTIVE, with its ready bit. -/
def partRuns (s : State) (p : Nat) : State :=
  (setPartState s p 1).setReg Reg.BOOT_READY_PRT (s.reg Reg.BOOT_READY_PRT ||| BitVec.ofNat 64 (2 ^ p))

section PartRuns
variable (s : State) (p : PartId)

theorem partRuns_regs_only : partRuns s p.val = { s with regs := (partRuns s p.val).regs } := rfl

theorem partState_partRuns : (partRuns s p.val).partState p.val = 1 := by
  rw [State.partState, State.get, partRuns, State.reg_setReg_ne _ _ (prtDesc_ne_readyPrt p)]
  exact State.get_put s _ _ _ (by decide)

theorem reg_partRuns : (partRuns s p.val).reg Reg.BOOT_READY_PRT = s.reg Reg.BOOT_READY_PRT ||| BitVec.ofNat 64 (2 ^ p.val) := State.reg_setReg ..

theorem reg_partRuns_ne {a : Nat} (hdesc : a ≠ Reg.PRT_DESC p.val) (hready : a ≠ Reg.BOOT_READY_PRT) : (partRuns s p.val).reg a = s.reg a :=
  (State.reg_setReg_ne _ _ hready.symm).trans (State.reg_put_ne s _ _ hdesc.symm)

theorem exec_partitionReady_of_not (h : s.partMayRun p.val = false) : exec (.partitionReady p) s = .next s := by
  refine congrArg Host.Outcome.next (?_ : partitionReady s p.val = s)
  rw [partitionReady, h, if_neg Bool.false_ne_true]

theorem exec_partitionReady_of_may (h : s.partMayRun p.val = true) : exec (.partitionReady p) s = .next (partRuns s p.val) := by
  refine congrArg Host.Outcome.next (?_ : partitionReady s p.val = _)
  rw [partitionReady, if_pos h, partRuns]

end PartRuns

end Sys2Proof.Proofs
end

section
/-!
Die reset (chapter 19): which request is refused (R497), what an accepted reset leaves of the die (R498, Table 19-5), and what its end writes once the
links of the die have settled. The statement O57 is settled at the end.
-/
namespace Sys2Proof.Proofs
open Sys2Proof Sys2Proof.Machine

/-! ### Operations that write registers alone -/

/-- `t` is `s` but for registers among `W`. -/
structure RegsFrame (W : Nat → Prop) (s t : State) : Prop where
  rest : t = { s with regs := t.regs }
  regs : ∀ a, ¬W a → t.reg a = s.reg a

namespace RegsFrame
variable {W : Nat → Prop} {s t u : State}

theorem refl (W : Nat → Prop) (s : State) : RegsFrame W s s := ⟨rfl, fun _ _ => rfl⟩

theorem trans (hst : RegsFrame W s t) (htu : RegsFrame W t u) : RegsFrame W s u :=
  ⟨by conv => lhs; rw [htu.rest, hst.rest], fun a ha => (htu.regs a ha).trans (hst.regs a ha)⟩

theorem put {a : Nat} (ha : W a) (s : State) (f : Fld) (v : Nat) : RegsFrame W s (s.put a f v) :=
  ⟨rfl, fun _ hb => State.reg_put_ne s f v fun hab => hb (hab ▸ ha)⟩

theorem setFlag {a : Nat} (ha : W a) (s : State) (f : Fld) (b : Bool) : RegsFrame W s (s.setFlag a f b) := put ha s f _

theorem forEach {α : Type} {l : List α} {f : State → α → State} (h : ∀ s x, x ∈ l → RegsFrame W s (f s x)) (s : State) :
    RegsFrame W s (Machine.forEach l s f) := forEach_rel (refl W) trans h s

theorem core (h : RegsFrame W s t) (c : Nat) : t.core c = s.core c := by rw [h.rest]; rfl

theorem byte (h : RegsFrame W s t) (a : Nat) : t.byte a = s.byte a := by rw [h.rest]; rfl

theorem boot (h : RegsFrame W s t) : t.boot = s.boot := by rw [h.rest]

theorem mem (h : RegsFrame W s t) : t.mem = s.mem := by rw [h.rest]

theorem flag (h : RegsFrame W s t) {a : Nat} (ha : ¬W a) (f : Fld) : t.flag a f = s.flag a f := by
  rw [State.flag, State.get, h.regs a ha, State.flag, State.get]

end RegsFrame

/-- A turn of a loop reaches `P` and the other turns keep it. -/
theorem forEach_reaches {α : Type} {P : State → Prop} {l : List α} {f : State → α → State} {x : α} (hx : x ∈ l) (hset : ∀ s, P (f s x))
    (hkeep : ∀ s y, P s → P (f s y)) (s : State) : P (forEach l s f) := by
  obtain ⟨below, above, rfl⟩ := List.append_of_mem hx
  have hrest (m : List α) : ∀ t, P t → P (forEach m t f) := by
    induction m with
    | nil => exact fun t ht => ht
    | cons y m ih => exact fun t ht => ih _ (hkeep t y ht)
  rw [forEach, List.foldl_append]
  exact hrest above _ (hset _)

/-- CRL_LINK of some link. -/
def LinkReg (a : Nat) : Prop := ∃ i l, a = Reg.CRL_LINK i l

/-- A link that begins to train shows it in the registers of its ends (R354). -/
theorem regsFrame_linksBegin (s : State) : RegsFrame LinkReg s (linksBegin s) := by
  refine .forEach (fun t x _ => ?_) s
  unfold linkBegins
  split
  · split
    · exact (RegsFrame.put ⟨_, _, rfl⟩ t _ _).trans (.put ⟨_, _, rfl⟩ _ _ _)
    · exact .refl _ _
  · exact .refl _ _

theorem not_linkReg_of_lt {a : Nat} (h : a < 0x8000000) : ¬LinkReg a := by
  rintro ⟨i, l, rfl⟩
  simp only [Reg.CRL_LINK] at h
  omega

/-! ### The stacks of a die in self-refresh (R441, R498) -/

/-- MEM_STK_STATUS of a stack of die `d`. -/
def StackReg (d a : Nat) : Prop := ∃ m, m < 4 ∧ a = Reg.MEM_STK_STATUS d m

theorem setRefresh_singleton (s : State) (d : Nat) (on : Bool) :
    setRefresh s [d] on = forEach (List.range 4) s fun s m => s.setFlag (Reg.MEM_STK_STATUS d m) Fld.MEM_STK_STATUS_self_refresh on := by
  rw [setRefresh, forEach, List.foldl_cons, List.foldl_nil]

theorem regsFrame_setRefresh (s : State) (d : Nat) (on : Bool) : RegsFrame (StackReg d) s (setRefresh s [d] on) := by
  rw [setRefresh_singleton]
  exact .forEach (fun t m hm => .setFlag ⟨m, List.mem_range.mp hm, rfl⟩ t _ _) s

theorem flag_setRefresh (s : State) (d : Nat) (on : Bool) {m : Nat} (hm : m < 4) :
    (setRefresh s [d] on).flag (Reg.MEM_STK_STATUS d m) Fld.MEM_STK_STATUS_self_refresh = on := by
  have hset (t : State) : (t.setFlag (Reg.MEM_STK_STATUS d m) Fld.MEM_STK_STATUS_self_refresh on).flag (Reg.MEM_STK_STATUS d m)
      Fld.MEM_STK_STATUS_self_refresh = on := flag_setFlag t _ _ on rfl (by decide)
  have hkeep (t : State) (k : Nat) (ht : t.flag (Reg.MEM_STK_STATUS d m) Fld.MEM_STK_STATUS_self_refresh = on) :
      (t.setFlag (Reg.MEM_STK_STATUS d k) Fld.MEM_STK_STATUS_self_refresh on).flag (Reg.MEM_STK_STATUS d m)
        Fld.MEM_STK_STATUS_self_refresh = on := by
    by_cases hk : k = m
    · rw [hk]
      exact hset t
    · have hne : Reg.MEM_STK_STATUS d m ≠ Reg.MEM_STK_STATUS d k := by
        simp only [Reg.MEM_STK_STATUS]
        omega
      rw [State.flag, State.get, reg_setFlag_ne t _ _ hne]
      exact ht
  rw [setRefresh_singleton]
  exact forEach_reaches (P := fun t => t.flag (Reg.MEM_STK_STATUS d m) Fld.MEM_STK_STATUS_self_refresh = on) (x := m)
    (f := fun t k => t.setFlag (Reg.MEM_STK_STATUS d k) Fld.MEM_STK_STATUS_self_refresh on) (List.mem_range.mpr hm) hset hkeep s

/-! ### A die reset is refused (R497) -/

theorem dieResetRefused_iff (s : State) (d : Nat) :
    s.dieResetRefused d = true ↔ s.boot.dieReset ≠ none ∨ (∃ p, p < 32 ∧ s.partState p ≠ 0 ∧ s.partState p ≠ 3) ∨ s.dieHeld d = true ∨
      d ∈ s.ceral.isolated ∨ 2 ≤ s.pwrState ∨ s.pwr.entry ≠ none ∨ s.pwr.ret ≠ none ∨ s.reloading = true := by
  simp only [State.dieResetRefused, State.dieOut, State.pwrBusy, Bool.or_eq_true, List.any_eq_true, List.mem_range, Bool.and_eq_true, bne_iff_ne,
    List.contains_iff_mem, decide_eq_true_eq, Option.isSome_iff_ne_none, or_assoc]

theorem dieReset_of_io {s : State} {d : Nat} (h : 8 ≤ d) : dieReset s d = s := by rw [dieReset, if_pos h]

theorem dieReset_of_refused {s : State} {d : Nat} (hd : d < 8) (h : s.dieResetRefused d = true) :
    dieReset s d = s.setFlag Reg.BOOT_DIE_RESET Fld.BOOT_DIE_RESET_refused true := by
  rw [dieReset, if_neg (Nat.not_le.mpr hd), if_pos h]

theorem dieReset_of_accepted {s : State} {d : Nat} (hd : d < 8) (h : s.dieResetRefused d = false) : dieReset s d = dieResetRun s d := by
  rw [dieReset, if_neg (Nat.not_le.mpr hd), h, if_neg Bool.false_ne_true]

/-! ### What an accepted die reset leaves (R498, Table 19-5) -/

/-- The registers of a die that a reset sets to more than their reset values: revised maxima and channel status. -/
def DieKept (d a : Nat) : Prop := (∃ c, c ∈ allCores ∧ a = Reg.CORE_FMAX c) ∨ ∃ c, c ∈ dieChans d ∧ a = chanStatus c

theorem lt_of_mem_allCores {c : Nat} (h : c ∈ allCores) : c < 4096 := by
  simp only [allCores, List.mem_flatMap, List.mem_map, List.mem_range] at h
  obtain ⟨j, hj, k, hk, rfl⟩ := h
  omega

theorem reg_dieRegs (s : State) {d a : Nat} (hmine : dieOffset d a = true) (hkept : ¬DieKept d a) : (dieRegs s d).reg a = Reg.resetVal a := by
  unfold dieRegs
  extract_lets u v
  have hu : u.reg a = Reg.resetVal a := by
    have hfind := mapFind_filter (fun k => !dieOffset d k) s.regs a
    rw [hmine, Bool.not_true, if_neg Bool.false_ne_true] at hfind
    rw [State.reg, mapGet, show mapFind u.regs a = none from hfind]
  have hv : RegsFrame (DieKept d) u v := .forEach (fun t c hc => .put (.inl ⟨c, (List.mem_filter.mp hc).1, rfl⟩) t _ _) u
  clear_value u v
  refine (RegsFrame.regs (.forEach (fun t c hc => ?_) v) a hkept).trans ((hv.regs a hkept).trans hu)
  have hmaps : DieKept d (chanReg Reg.MEM_CH_STATUS c) := .inr ⟨c, hc, rfl⟩
  dsimp only
  split
  · exact (RegsFrame.put hmaps t _ _).trans (.put hmaps _ _ _)
  · exact .put hmaps t _ _

theorem reg_dieState (s : State) (d a : Nat) : (dieState s d).reg a = s.reg a := rfl

theorem core_dieState (s : State) {d c : Nat} (h : coreDie c = d) : (dieState s d).core c = Core.reset := by
  have hfind := mapFind_filter (fun k => !(coreDie k == d)) s.cores c
  rw [h, beq_self_eq_true, Bool.not_true, if_neg Bool.false_ne_true] at hfind
  rw [State.core, mapGet, show mapFind (dieState s d).cores c = none from hfind]

theorem byte_dieState (s : State) {d a : Nat} (hlo : 0x100000000000 + d * 0x20000000 ≤ a) (hhi : a < 0x100000000000 + (d + 1) * 0x20000000) :
    (dieState s d).byte a = 0 := by
  have hfind := mapFind_filter
    (fun k => !(decide (0x100000000000 + d * 0x20000000 ≤ k) && decide (k < 0x100000000000 + (d + 1) * 0x20000000))) s.mem a
  rw [decide_eq_true hlo, decide_eq_true hhi, Bool.and_self, Bool.not_true, if_neg Bool.false_ne_true] at hfind
  rw [State.byte, mapGet, show mapFind (dieState s d).mem a = none from hfind]
  rfl

/-- The registers of ready bits of dies, slices and stacks. -/
def ReadyReg (a : Nat) : Prop := a = Reg.BOOT_READY0 ∨ a = Reg.BOOT_READY_STK

theorem regsFrame_dieUnready (s : State) (d : Nat) : RegsFrame ReadyReg s (dieUnready s d) :=
  ((RegsFrame.put (.inl rfl) s _ _).trans (.put (.inl rfl) _ _ _)).trans (.put (.inr rfl) _ _ _)

theorem dieReady_dieUnready (s : State) {d : Nat} (hd : d < 8) : (dieUnready s d).dieReady d = false := by
  have hmask : ∀ n, n < 8 → (0x3FF - 2 ^ n).testBit n = false := by decide
  unfold dieUnready
  extract_lets r u v
  have hu : u.get r Fld.BOOT_READY0_die = (s.get r Fld.BOOT_READY0_die &&& (0x3FF - 2 ^ d)) % 2 ^ 10 := State.get_put _ _ _ _ (by decide)
  have hv : v.get r Fld.BOOT_READY0_die = u.get r Fld.BOOT_READY0_die := State.get_put_fld _ _ _ _ _ (by decide) (by decide)
  rw [State.dieReady, State.get_put_ne v _ _ _ (by decide), hv, hu, bit_eq_testBit, Nat.testBit_mod_two_pow, Nat.testBit_and, hmask d hd]
  simp

theorem readyStk_dieUnready (s : State) {d m : Nat} (hd : d < 8) (hm : m < 4) :
    ((dieUnready s d).reg Reg.BOOT_READY_STK).getLsbD (4 * d + m) = false := by
  have hmask : ∀ n, n < 8 → ∀ k, k < 4 → (0xFFFFFFFF - 15 * 2 ^ (4 * n)).testBit (4 * n + k) = false := by decide
  unfold dieUnready
  extract_lets r u v
  have hfield : Fld.BOOT_READY_STK_stacks.lo ≤ 4 * d + m ∧ 4 * d + m < Fld.BOOT_READY_STK_stacks.lo + Fld.BOOT_READY_STK_stacks.width :=
    ⟨Nat.zero_le _, show 4 * d + m < 0 + 32 by omega⟩
  rw [State.reg_put, Fld.getLsbD_put _ _ _ _ (by omega), if_pos hfield]
  exact (Nat.testBit_and ..).trans (by rw [show 4 * d + m - Fld.BOOT_READY_STK_stacks.lo = 4 * d + m from rfl, hmask d hd m hm, Bool.and_false])

/-- What an accepted die reset leaves of a state `s` in which the caches of the die have been emptied and its links stopped. -/
def dieCleared (s : State) (d : Nat) : State :=
  linksBegin ((dieUnready (setRefresh (dieState (dieRegs s d) d) [d] true) d).setFlag Reg.BOOT_DIE_RESET Fld.BOOT_DIE_RESET_busy true)

theorem exists_dieResetRun (s : State) (d : Nat) : ∃ u, dieResetRun s d = dieCleared u d := ⟨_, rfl⟩

section DieCleared
variable (s : State) (d : Nat)

theorem boot_dieCleared : (dieCleared s d).boot.dieReset = some d := by
  rw [dieCleared, (regsFrame_linksBegin _).boot, State.setFlag_boot, (regsFrame_dieUnready _ d).boot, (regsFrame_setRefresh _ d true).boot]
  rfl

theorem core_dieCleared {c : Nat} (h : coreDie c = d) : (dieCleared s d).core c = Core.reset := by
  rw [dieCleared, (regsFrame_linksBegin _).core, State.core_setFlag, (regsFrame_dieUnready _ d).core, (regsFrame_setRefresh _ d true).core,
    core_dieState _ h]

theorem byte_dieCleared {a : Nat} (hlo : 0x100000000000 + d * 0x20000000 ≤ a) (hhi : a < 0x100000000000 + (d + 1) * 0x20000000) :
    (dieCleared s d).byte a = 0 := by
  rw [dieCleared, (regsFrame_linksBegin _).byte, State.setFlag, State.byte_put, (regsFrame_dieUnready _ d).byte,
    (regsFrame_setRefresh _ d true).byte, byte_dieState _ hlo hhi]

/-- Below the registers of links and of the boot, a reset die's registers are as the self-refresh of its stacks left them. -/
theorem reg_dieCleared_of_lt {a : Nat} (h : a < 0x8000000) :
    (dieCleared s d).reg a = (setRefresh (dieState (dieRegs s d) d) [d] true).reg a := by
  have hready : ¬ReadyReg a := by
    simp only [ReadyReg, Reg.BOOT_READY0, Reg.BOOT_READY_STK]
    omega
  have hreset : a ≠ Reg.BOOT_DIE_RESET := by
    simp only [Reg.BOOT_DIE_RESET]
    omega
  rw [dieCleared, (regsFrame_linksBegin _).regs a (not_linkReg_of_lt h), reg_setFlag_ne _ _ _ hreset, (regsFrame_dieUnready _ d).regs a hready]

theorem reg_dieCleared_of_mine {a : Nat} (hlt : a < 0x6000000) (hmine : dieOffset d a = true)
    (hfmax : ∀ c, c ∈ allCores → a ≠ Reg.CORE_FMAX c) :
    (dieCleared s d).reg a = Reg.resetVal a := by
  have hstack : ¬StackReg d a := by
    rintro ⟨m, -, rfl⟩
    simp only [Reg.MEM_STK_STATUS] at hlt
    omega
  have hkept : ¬DieKept d a := by
    rintro (⟨c, hcore, hc⟩ | ⟨c, -, rfl⟩)
    · exact hfmax c hcore hc
    · simp only [chanStatus, chanReg, Reg.MEM_CH_STATUS] at hlt
      omega
  rw [reg_dieCleared_of_lt s d (by omega), (regsFrame_setRefresh _ d true).regs a hstack, reg_dieState, reg_dieRegs s hmine hkept]

theorem refresh_dieCleared {m : Nat} (hd : d < 8) (hm : m < 4) :
    (dieCleared s d).flag (Reg.MEM_STK_STATUS d m) Fld.MEM_STK_STATUS_self_refresh = true := by
  have hlt : Reg.MEM_STK_STATUS d m < 0x8000000 := by
    simp only [Reg.MEM_STK_STATUS]
    omega
  rw [State.flag, State.get, reg_dieCleared_of_lt s d hlt]
  exact flag_setRefresh _ d true hm

/-- CRL_LINK lies at multiples of 0x80 from its first, so no register of the boot is one. -/
theorem not_linkReg_boot {a : Nat} (h : a = Reg.BOOT_READY0 ∨ a = Reg.BOOT_READY_STK ∨ a = Reg.BOOT_DIE_RESET) : ¬LinkReg a := by
  rintro ⟨i, l, hl⟩
  simp only [Reg.BOOT_READY0, Reg.BOOT_READY_STK, Reg.BOOT_DIE_RESET, Reg.CRL_LINK] at h hl
  omega

theorem busy_dieCleared : (dieCleared s d).flag Reg.BOOT_DIE_RESET Fld.BOOT_DIE_RESET_busy = true := by
  rw [dieCleared, (regsFrame_linksBegin _).flag (not_linkReg_boot (.inr (.inr rfl)))]
  exact flag_setFlag _ _ _ true rfl (by decide)

theorem dieReady_dieCleared (hd : d < 8) : (dieCleared s d).dieReady d = false := by
  rw [State.dieReady, State.get, dieCleared, (regsFrame_linksBegin _).regs _ (not_linkReg_boot (.inl rfl)), reg_setFlag_ne _ _ _ (by decide)]
  exact dieReady_dieUnready _ hd

theorem readyStk_dieCleared {m : Nat} (hd : d < 8) (hm : m < 4) : ((dieCleared s d).reg Reg.BOOT_READY_STK).getLsbD (4 * d + m) = false := by
  rw [dieCleared, (regsFrame_linksBegin _).regs _ (not_linkReg_boot (.inr (.inl rfl))), reg_setFlag_ne _ _ _ (by decide)]
  exact readyStk_dieUnready _ hd hm

end DieCleared

/-! ### A die reset completes (R498) -/

theorem dieResetEnd_of_none {s : State} (h : s.boot.dieReset = none) (lanes : List (Nat × Nat)) : dieResetEnd s lanes = s := by
  simp only [dieResetEnd, h]

theorem all_linksOf {d : Nat} (hd : d < 8) (p : Nat → Bool) : (linksOf d).all p = true ↔ ∀ l, l < 3 → p l = true := by
  have hlinks : linksOf d = List.range 3 := if_pos hd
  rw [hlinks, List.all_eq_true]
  exact forall_congr' fun l => by rw [List.mem_range]

theorem dieResetEnd_of_unsettled {s : State} {d : Nat} (hd : d < 8) (hreset : s.boot.dieReset = some d)
    (h : ∃ l, l < 3 ∧ s.linkSettled d l = false) (lanes : List (Nat × Nat)) : dieResetEnd s lanes = s := by
  have hall : (linksOf d).all (s.linkSettled d) = false := by
    obtain ⟨l, hl, hdown⟩ := h
    exact Bool.eq_false_iff.mpr fun hall => by simp [(all_linksOf hd _).mp hall l hl] at hdown
  simp only [dieResetEnd, hreset, hall, Bool.not_false, if_true]

/-- The stacks of die `d` count as trained, and its reset as over. -/
def dieStacksReady (s : State) (d : Nat) : State :=
  let u : State := { s with boot := { s.boot with dieReset := none, trained := ((List.range 4).map (fun m => 4 * d + m)).foldl setIns s.boot.trained } }
  u.setReg Reg.BOOT_READY_STK (u.reg Reg.BOOT_READY_STK ||| BitVec.ofNat 64 (15 * 2 ^ (4 * d)))

/-- The reset of die `d` ends in the state `s`, in which the channels of the die have retrained. -/
def dieBack (s : State) (d : Nat) : State :=
  (dieReadyCheck (dieStacksReady s d) d).setFlag Reg.BOOT_DIE_RESET Fld.BOOT_DIE_RESET_busy false

/-- The channels of die `d` leave self-refresh, retrain, and fail where they hold too many failed lines. -/
def dieRetrained (s : State) (lanes : List (Nat × Nat)) (d : Nat) : State :=
  linesCheck (forEach (dieChans d) (setRefresh s [d] false) (chanRetrain · lanes ·)) d

theorem channelFrame_retrains (s : State) (lanes : List (Nat × Nat)) {d : Nat} (hd : d < 8) :
    ChannelFrame (dieChans d) s (forEach (dieChans d) s (chanRetrain · lanes ·)) :=
  .forEach (fun t _ hc =>
    (channelFrame_chanRetrain t lanes (lt_of_mem_dieChans hd hc)).mono (List.cons_subset.mpr ⟨hc, List.nil_subset _⟩)) s

theorem channelFrame_dieRetrained (s : State) (lanes : List (Nat × Nat)) {d : Nat} (hd : d < 8) :
    ChannelFrame (dieChans d) (setRefresh s [d] false) (dieRetrained s lanes d) :=
  (channelFrame_retrains _ lanes hd).trans (channelFrame_linesCheck _ hd)

/-- Without an image there are no fields to rewrite and no pins to renew. -/
theorem dieResetEnd_of_settled {s : State} {d : Nat} (hd : d < 8) (hreset : s.boot.dieReset = some d) (hlinks : ∀ l, l < 3 → s.linkSettled d l = true)
    (himage : s.img.applied = false) (hparts : s.img.parts = []) (lanes : List (Nat × Nat)) :
    dieResetEnd s lanes = dieBack (dieRetrained s lanes d) d := by
  have hall : (linksOf d).all (s.linkSettled d) = true := (all_linksOf hd _).mpr hlinks
  have hblank : (forEach (dieChans d) (setRefresh s [d] false) (chanRetrain · lanes ·)).img.applied = false := by
    rw [(channelFrame_retrains _ lanes hd).img, (regsFrame_setRefresh s d false).rest]
    exact himage
  unfold dieResetEnd
  simp only [hreset, hall, Bool.not_true, Bool.false_eq_true, if_false, hparts]
  rw [← dieChans, dieImage, hblank, Bool.not_false, if_pos rfl, diePins, ← dieRetrained, dieBack, dieStacksReady]

/-! ### What a completed die reset leaves (R494, R498) -/

theorem regsFrame_dieReadyCheck (s : State) (d : Nat) : RegsFrame (Eq Reg.BOOT_READY0) s (dieReadyCheck s d) := by
  unfold dieReadyCheck
  split
  · exact .refl _ _
  · dsimp only
    split
    · exact (RegsFrame.put rfl s _ _).trans (.put rfl _ _ _)
    · exact .put rfl s _ _

/-- A die that runs, is not in reset and has its links settled is ready after the check (R494). -/
theorem dieReady_dieReadyCheck {s : State} {d : Nat} (hd : d < 8) (hruns : s.dieRuns d = true) (hreset : s.boot.dieReset ≠ some d)
    (hlinks : ∀ l, l < 3 → s.linkSettled d l = true) : (dieReadyCheck s d).dieReady d = true := by
  have hall : (linksOf d).all (s.linkSettled d) = true := (all_linksOf hd _).mpr hlinks
  unfold dieReadyCheck
  by_cases hready : s.dieReady d = true
  · rw [hready, Bool.true_or, Bool.true_or, Bool.true_or, if_pos rfl]
    exact hready
  · have hnotReset : (s.boot.dieReset == some d) = false := beq_eq_false_iff_ne.mpr hreset
    rw [Bool.not_eq_true] at hready
    rw [hready, hruns, hnotReset, hall, Bool.not_true, Bool.or_self, Bool.or_self, Bool.or_self, if_neg Bool.false_ne_true]
    extract_lets r u
    have hu : u.get r Fld.BOOT_READY0_die = (s.get r Fld.BOOT_READY0_die ||| 2 ^ d) % 2 ^ 10 := State.get_put _ _ _ _ (by decide)
    rw [if_pos hd, State.dieReady, State.get_put_fld _ _ _ _ _ (by decide) (by decide), hu, bit_eq_testBit, Nat.testBit_mod_two_pow, Nat.testBit_or,
      Nat.testBit_two_pow_self, Bool.or_true, Bool.and_true, decide_eq_true_eq]
    omega

theorem boot_dieStacksReady (s : State) (d : Nat) : (dieStacksReady s d).boot =
    { s.boot with dieReset := none, trained := ((List.range 4).map (fun m => 4 * d + m)).foldl setIns s.boot.trained } := State.setReg_boot ..

theorem mem_dieStacksReady (s : State) (d : Nat) : (dieStacksReady s d).mem = s.mem := State.setReg_mem ..

theorem reg_dieStacksReady_ne (s : State) (d : Nat) {a : Nat} (h : a ≠ Reg.BOOT_READY_STK) : (dieStacksReady s d).reg a = s.reg a :=
  (State.reg_setReg_ne _ _ h.symm).trans (reg_withBoot s _ _)

theorem readyStk_dieStacksReady (s : State) {d m : Nat} (hd : d < 8) (hm : m < 4) :
    ((dieStacksReady s d).reg Reg.BOOT_READY_STK).getLsbD (4 * d + m) = true := by
  have hbits : ∀ n, n < 8 → ∀ k, k < 4 → (BitVec.ofNat 64 (15 * 2 ^ (4 * n))).getLsbD (4 * n + k) = true := by decide
  rw [dieStacksReady, State.reg_setReg, BitVec.getLsbD_or, hbits d hd m hm, Bool.or_true]

section DieBack
variable (s : State) (d : Nat)

theorem boot_dieBack : (dieBack s d).boot.dieReset = none := by
  rw [dieBack, State.setFlag_boot, (regsFrame_dieReadyCheck _ d).boot, boot_dieStacksReady]

theorem busy_dieBack : (dieBack s d).flag Reg.BOOT_DIE_RESET Fld.BOOT_DIE_RESET_busy = false := flag_setFlag _ _ _ false rfl (by decide)

theorem mem_dieBack : (dieBack s d).mem = s.mem := by
  rw [dieBack, State.setFlag_mem, (regsFrame_dieReadyCheck _ d).mem, mem_dieStacksReady]

theorem flag_dieBack_of_lt {a : Nat} (h : a < 0xC000000) (f : Fld) : (dieBack s d).flag a f = s.flag a f := by
  have hreset : a ≠ Reg.BOOT_DIE_RESET := by
    simp only [Reg.BOOT_DIE_RESET]
    omega
  have hready : a ≠ Reg.BOOT_READY0 := by
    simp only [Reg.BOOT_READY0]
    omega
  have hstack : a ≠ Reg.BOOT_READY_STK := by
    simp only [Reg.BOOT_READY_STK]
    omega
  rw [State.flag, State.get, dieBack, reg_setFlag_ne _ _ _ hreset, (regsFrame_dieReadyCheck _ d).regs a hready.symm, reg_dieStacksReady_ne s d hstack,
    State.flag, State.get]

theorem readyStk_dieBack {m : Nat} (hd : d < 8) (hm : m < 4) : ((dieBack s d).reg Reg.BOOT_READY_STK).getLsbD (4 * d + m) = true := by
  rw [dieBack, reg_setFlag_ne _ _ _ (by decide), (regsFrame_dieReadyCheck _ d).regs _ (by decide)]
  exact readyStk_dieStacksReady s hd hm

theorem dieReady_dieBack : (dieBack s d).dieReady d = (dieReadyCheck (dieStacksReady s d) d).dieReady d := by
  rw [State.dieReady, State.get, dieBack, reg_setFlag_ne _ _ _ (by decide), State.dieReady, State.get]

end DieBack

/-! ### A die that comes back is ready -/

/-- The registers that say whether the links of a die have settled: CRL_LINK of its links, and the straps of dies. -/
def SettleReg (d a : Nat) : Prop := (∃ l, l < 3 ∧ a = Reg.CRL_LINK d l) ∨ ∃ j, a = Reg.BOOT_STRAP j

theorem dieHeld_congr {s t : State} {d j : Nat} (h : ∀ a, SettleReg d a → t.reg a = s.reg a) : t.dieHeld j = s.dieHeld j := by
  rw [State.dieHeld, State.flag, State.get, h _ (.inr ⟨j, rfl⟩), State.dieHeld, State.flag, State.get]

theorem linkSettled_congr {s t : State} {d l : Nat} (hl : l < 3) (h : ∀ a, SettleReg d a → t.reg a = s.reg a) :
    t.linkSettled d l = s.linkSettled d l := by
  have hheld (j : Nat) : t.dieHeld j = s.dieHeld j := dieHeld_congr h
  have hstate : t.get (Reg.CRL_LINK d l) Fld.CRL_LINK_state = s.get (Reg.CRL_LINK d l) Fld.CRL_LINK_state := by
    rw [State.get, h _ (.inl ⟨l, hl, rfl⟩), State.get]
  unfold State.linkSettled
  rw [hstate]
  cases peerOf d l with
  | none => rfl
  | some x =>
    dsimp only
    rw [hheld]

theorem dieRuns_congr {s t : State} {d : Nat} (hd : d < 8) (h : ∀ a, SettleReg d a → t.reg a = s.reg a) (hreleased : t.boot.released = s.boot.released)
    (hrails : t.boot.rails = s.boot.rails) : t.dieRuns d = s.dieRuns d := by
  rw [State.dieRuns, State.dieRuns, dieHeld_congr h, if_neg (ne_primaryDie hd), if_neg (ne_primaryDie hd), hreleased, hrails]

section Retrained
variable (s : State) (lanes : List (Nat × Nat)) {d : Nat} (hd : d < 8)
include hd

theorem reg_dieRetrained {a : Nat} (hreport : ¬ReportReg a) (hstatus : ∀ c ∈ dieChans d, a ≠ chanStatus c) :
    (dieRetrained s lanes d).reg a = (setRefresh s [d] false).reg a := (channelFrame_dieRetrained s lanes hd).regs a hreport hstatus

theorem boot_dieRetrained : (dieRetrained s lanes d).boot = s.boot :=
  (channelFrame_dieRetrained s lanes hd).boot.trans (regsFrame_setRefresh s d false).boot

theorem mem_dieRetrained : (dieRetrained s lanes d).mem = s.mem :=
  (channelFrame_dieRetrained s lanes hd).mem.trans (regsFrame_setRefresh s d false).mem

theorem refresh_dieRetrained {m : Nat} (hm : m < 4) :
    (dieRetrained s lanes d).flag (Reg.MEM_STK_STATUS d m) Fld.MEM_STK_STATUS_self_refresh = false := by
  have hreport : ¬ReportReg (Reg.MEM_STK_STATUS d m) := by
    simp only [ReportReg, Reg.MEM_STK_STATUS, Reg.MEM_MAP_INFO]
    omega
  have hstatus : ∀ c ∈ dieChans d, Reg.MEM_STK_STATUS d m ≠ chanStatus c := by
    intro c _
    simp only [chanStatus, chanReg, Reg.MEM_CH_STATUS, Reg.MEM_STK_STATUS]
    omega
  rw [State.flag, State.get, reg_dieRetrained s lanes hd hreport hstatus]
  exact flag_setRefresh s d false hm

theorem settleReg_dieRetrained {a : Nat} (h : SettleReg d a) : (dieStacksReady (dieRetrained s lanes d) d).reg a = s.reg a := by
  have hplace : 0x8000000 ≤ a ∧ a < 0x9000000 ∨ Reg.BOOT_STRAP 0 ≤ a := by
    rcases h with ⟨l, hl, rfl⟩ | ⟨j, rfl⟩ <;> simp only [Reg.CRL_LINK, Reg.BOOT_STRAP] <;> omega
  have hready : a ≠ Reg.BOOT_READY_STK := by
    simp only [Reg.BOOT_STRAP, Reg.BOOT_READY_STK] at hplace ⊢
    omega
  have hreport : ¬ReportReg a := by
    simp only [ReportReg, Reg.BOOT_STRAP, Reg.MEM_MAP_INFO] at hplace ⊢
    omega
  have hstatus : ∀ c ∈ dieChans d, a ≠ chanStatus c := by
    intro c hc
    have := lt_of_mem_dieChans hd hc
    simp only [chanStatus, chanReg, Reg.MEM_CH_STATUS, Reg.BOOT_STRAP] at hplace ⊢
    omega
  have hstack : ¬StackReg d a := by
    rintro ⟨m, hm, rfl⟩
    simp only [Reg.MEM_STK_STATUS, Reg.BOOT_STRAP] at hplace
    omega
  rw [reg_dieStacksReady_ne _ d hready, reg_dieRetrained s lanes hd hreport hstatus, (regsFrame_setRefresh s d false).regs a hstack]

theorem dieReady_dieBack_dieRetrained (hruns : s.dieRuns d = true) (hlinks : ∀ l, l < 3 → s.linkSettled d l = true) :
    (dieBack (dieRetrained s lanes d) d).dieReady d = true := by
  have hregs (a : Nat) (h : SettleReg d a) := settleReg_dieRetrained s lanes hd h
  have hboot := boot_dieStacksReady (dieRetrained s lanes d) d
  rw [boot_dieRetrained s lanes hd] at hboot
  rw [dieReady_dieBack]
  refine dieReady_dieReadyCheck hd ?_ (by rw [hboot]; exact nofun) fun l hl => (linkSettled_congr hl hregs).trans (hlinks l hl)
  exact (dieRuns_congr hd hregs (by rw [hboot]) (by rw [hboot])).trans hruns

end Retrained

/-! ### The statement -/

theorem exec_bootDieReset (d : BitVec 4) (s : State) : exec (.bootDieReset d) s = .next (dieReset s d.toNat) := rfl

theorem exec_dieResetComplete (data : List (ChanId × Fin 64)) (check : List (ChanId × Fin 8)) (s : State) :
    exec (.dieResetComplete data check) s = .next (dieResetEnd s (failingLanes data check)) := rfl

/-- Settles O57: the channels of a stack take their turns one after the other; a die reset and its end write what the lemmas on `dieCleared` and
`dieBack` say. -/
theorem readinessAndDieReset : Obligations.ReadinessAndDieReset := by
  unfold Obligations.ReadinessAndDieReset
  refine ⟨⟨?stack, ?partition⟩, ?ioDie, ?computeDie, ?complete⟩
  case stack =>
    intro n data check s
    exact ⟨exec_stackTrainingComplete_of_idle data check, fun htrained hruns hreset =>
      ⟨_, exec_stackTrainingComplete_of_trains data check htrained hruns hreset, stackTraining_ends n data check s⟩⟩
  case partition =>
    intro p s may
    refine ⟨fun hnot => exec_partitionReady_of_not s p (Bool.eq_false_iff.mpr (mt (partMayRun_iff s p.val).mp hnot)), fun hmay => ?_⟩
    have hready := reg_partRuns s p
    refine ⟨_, exec_partitionReady_of_may s p ((partMayRun_iff s p.val).mpr hmay), partRuns_regs_only s p, partState_partRuns s p, ?ready, ?others,
      fun r hdesc hprt => reg_partRuns_ne s p hdesc hprt⟩
    case ready => rw [hready, getLsbD_or_twoPow, decide_eq_true ⟨by omega, rfl⟩, Bool.or_true]
    case others =>
      intro q hq
      rw [hready, getLsbD_or_twoPow, decide_eq_false fun h => hq h.2.symm, Bool.or_false]
  case ioDie =>
    intro d s hd
    rw [exec_bootDieReset, dieReset_of_io hd]
  case computeDie =>
    intro d s hd n no
    refine ⟨fun hno => ?refused, fun hyes => ?accepted⟩
    case refused => rw [exec_bootDieReset, dieReset_of_refused hd ((dieResetRefused_iff s n).mpr hno)]
    case accepted =>
      obtain ⟨u, hrun⟩ := exists_dieResetRun s n
      have hexec : exec (.bootDieReset d) s = .next (dieCleared u n) := by
        rw [exec_bootDieReset, dieReset_of_accepted hd (Bool.eq_false_iff.mpr (mt (dieResetRefused_iff s n).mp hyes)), hrun]
      refine ⟨_, hexec, boot_dieCleared u n, busy_dieCleared u n, dieReady_dieCleared u n hd, fun c hc => core_dieCleared u n hc, ?cores, ?directory,
        fun m hm => ⟨refresh_dieCleared u n hd hm, readyStk_dieCleared u n hd hm⟩, fun a hlo hhi => byte_dieCleared u n hlo hhi⟩
      case cores =>
        intro r hlo hhi hfmax
        exact reg_dieCleared_of_mine u n (by omega) (by simp [dieOffset, hlo, hhi]) fun c _ => hfmax c
      case directory =>
        intro r hlo hhi
        refine reg_dieCleared_of_mine u n (by omega) (by simp [dieOffset, hlo, hhi]) fun c hcore hc => ?_
        have := lt_of_mem_allCores hcore
        simp only [Reg.CORE_FMAX] at hc
        omega
  case complete =>
    intro data check s
    refine ⟨fun hnone => ?idle, fun d hd hreset => ⟨fun hdown => ?unsettled, fun hlinks himage hparts => ?settled⟩⟩
    case idle => rw [exec_dieResetComplete, dieResetEnd_of_none hnone]
    case unsettled => rw [exec_dieResetComplete, dieResetEnd_of_unsettled hd hreset hdown]
    case settled =>
      refine ⟨_, (exec_dieResetComplete data check s).trans (congrArg _ (dieResetEnd_of_settled hd hreset hlinks himage hparts _)), boot_dieBack _ d,
        busy_dieBack _ d, (mem_dieBack _ d).trans (mem_dieRetrained s _ hd), fun hruns => dieReady_dieBack_dieRetrained s _ hd hruns hlinks,
        fun m hm => ⟨?refresh, readyStk_dieBack _ d hd hm⟩⟩
      rw [flag_dieBack_of_lt _ d (by simp only [Reg.MEM_STK_STATUS]; omega), refresh_dieRetrained s _ hd hm]

end Sys2Proof.Proofs
end

section
/-!
Security commands and reports (chapter 21): when a command is dropped or waits for its turn (R523), what its end writes (R524), what FW_STORE and the
signed commands check and write (R518, R524, R525), the reports (R527), the debug unlock (R521, R529) and Shedy's firmware copies (R520). The statement
O59 is settled at the end.
-/
namespace Sys2Proof.Proofs
open Sys2Proof Sys2Proof.Machine

/-! ### Operations that write registers alone, and the flash -/

theorem RegsFrame.setReg {W : Nat → Prop} {a : Nat} (ha : W a) (s : State) (v : W64) : RegsFrame W s (s.setReg a v) :=
  ⟨rfl, fun _ hb => State.reg_setReg_ne s v fun hab => hb (hab ▸ ha)⟩

theorem RegsFrame.flash {W : Nat → Prop} {s t : State} (h : RegsFrame W s t) : t.flash = s.flash := by rw [h.rest]

/-- `t` is `s` but for the flash, the fuses and the registers that show them. -/
structure FlashFrame (s t : State) : Prop where
  rest : t = { s with regs := t.regs, flash := t.flash }
  regs : ∀ a, a ≠ Reg.SEC_FW → a ≠ Reg.SEC_FUSE → t.reg a = s.reg a

namespace FlashFrame
variable {s t u : State}

theorem refl (s : State) : FlashFrame s s := ⟨rfl, fun _ _ _ => rfl⟩

theorem trans (hst : FlashFrame s t) (htu : FlashFrame t u) : FlashFrame s u :=
  ⟨by conv => lhs; rw [htu.rest, hst.rest], fun a hfw hfuse => (htu.regs a hfw hfuse).trans (hst.regs a hfw hfuse)⟩

theorem sec (h : FlashFrame s t) : t.sec = s.sec := by rw [h.rest]

/-- The flash changes and a register then shows it. -/
theorem shown {f : Flash} {a : Nat} (h : RegsFrame (Eq a) { s with flash := f } t) (ha : a = Reg.SEC_FW ∨ a = Reg.SEC_FUSE) : FlashFrame s t :=
  ⟨by conv => lhs; rw [h.rest]
      rw [h.flash],
   fun b hfw hfuse => h.regs b fun hab => ha.elim (fun h => hfw (hab ▸ h)) fun h => hfuse (hab ▸ h)⟩

end FlashFrame

theorem regsFrame_fwReport (s : State) : RegsFrame (Eq Reg.SEC_FW) s (fwReport s) := (RegsFrame.put rfl s _ _).trans (.put rfl _ _ _)

theorem regsFrame_fuseReport (s : State) : RegsFrame (Eq Reg.SEC_FUSE) s (fuseReport s) :=
  (((RegsFrame.put rfl s _ _).trans (.put rfl _ _ _)).trans (.put rfl _ _ _)).trans (.setFlag rfl _ _ _)

theorem debugKill_fuseReport (s : State) : (fuseReport s).flag Reg.SEC_FUSE Fld.SEC_FUSE_debug_kill = s.flash.debugKill :=
  flag_setFlag _ _ _ _ rfl (by decide)

/-! ### Firmware copies in flash (R518, R520) -/

section StoreFirmware
variable (s : State) (k : Nat) (bs : List Byte)

theorem flashFrame_storeFirmware : FlashFrame s (storeFirmware s k bs) := .shown (regsFrame_fwReport _) (.inl rfl)

theorem flash_storeFirmware : (storeFirmware s k bs).flash = { s.flash with fw := mapSet Config.flashFw s.flash.fw k (some bs) } :=
  (regsFrame_fwReport _).flash

theorem fwCopy_storeFirmware (j : Nat) : (storeFirmware s k bs).flash.fwCopy j = if k = j then some bs else s.flash.fwCopy j := by
  rw [flash_storeFirmware]
  exact mapGet_mapSet ..

theorem reg_storeFirmware_ne {a : Nat} (h : a ≠ Reg.SEC_FW) : (storeFirmware s k bs).reg a = s.reg a := (regsFrame_fwReport _).regs a h.symm

end StoreFirmware

/-! ### The turn of a command (R523) -/

theorem turn_iff (s : State) (k : Nat) : s.turn k = true ↔ s.sec.turns = [] ∨ s.sec.turns.head? = some k := by
  unfold State.turn
  cases s.sec.turns <;> simp

theorem secBlocked_iff (s : State) (n : Nat) :
    s.secBlocked n = true ↔ s.flag Reg.SEC_CMD_STATUS Fld.SEC_CMD_STATUS_busy = true ∧ s.sec.op ≠ some n := by
  rw [State.secBlocked, Bool.and_eq_true, bne_iff_ne]

section Turn
variable {i : Instr} {s : State} {n : Nat} {f : State → State} (h : exec i s = .next (secRun s n f))
include h

theorem exec_command_of_blocked (hbusy : s.flag Reg.SEC_CMD_STATUS Fld.SEC_CMD_STATUS_busy = true ∧ s.sec.op ≠ some n) :
    exec i s = .next (s.setFlag Reg.SEC_CMD_STATUS Fld.SEC_CMD_STATUS_busy_drop true) := by
  rw [h, secRun, if_pos ((secBlocked_iff s n).mpr hbusy)]

theorem exec_command_of_waits (hfree : ¬(s.flag Reg.SEC_CMD_STATUS Fld.SEC_CMD_STATUS_busy = true ∧ s.sec.op ≠ some n))
    (hturn : ¬(s.sec.turns = [] ∨ s.sec.turns.head? = some 1)) : exec i s = .next s := by
  rw [h, secRun, if_neg (mt (secBlocked_iff s n).mp hfree), if_neg (mt (turn_iff s 1).mp hturn)]

theorem exec_command_of_turn (hfree : ¬(s.flag Reg.SEC_CMD_STATUS Fld.SEC_CMD_STATUS_busy = true ∧ s.sec.op ≠ some n))
    (hturn : s.sec.turns = [] ∨ s.sec.turns.head? = some 1) : exec i s = .next (f s) := by
  rw [h, secRun, if_neg (mt (secBlocked_iff s n).mp hfree), if_pos ((turn_iff s 1).mpr hturn)]

end Turn

/-! ### A status register at the end of an operation -/

/-- The status register `a` shows an end with the value `v` of `result`. -/
def endShown (s : State) (a : Nat) (busy done result : Fld) (v : Nat) : State :=
  ((s.setFlag a busy false).setFlag a done true).put a result v

section EndShown
variable (s : State) (a : Nat) {busy done result : Fld} (v : Nat)

theorem get_endShown_result (hfits : result.lo + result.width ≤ 64) :
    (endShown s a busy done result v).get a result = v % 2 ^ result.width := State.get_put _ _ _ _ hfits

theorem reg_endShown_ne {b : Nat} (h : b ≠ a) : (endShown s a busy done result v).reg b = s.reg b :=
  (State.reg_put_ne _ _ _ h.symm).trans ((reg_setFlag_ne _ _ _ h).trans (reg_setFlag_ne _ _ _ h))

variable (hdone : done.width = 1) (hfits : done.lo + done.width ≤ 64)
include hdone hfits

theorem flag_endShown_done (hbelow : result.lo + result.width ≤ done.lo) : (endShown s a busy done result v).flag a done = true := by
  rw [State.flag, endShown, State.get_put_fld _ _ _ _ _ hfits (.inl hbelow), ← State.flag]
  exact flag_setFlag _ _ _ _ hdone hfits

theorem flag_endShown_busy (hbusy : busy.width = 1) (hbelow : result.lo + result.width ≤ busy.lo) (hbelow' : busy.lo + busy.width ≤ done.lo) :
    (endShown s a busy done result v).flag a busy = false := by
  have hfits' : busy.lo + busy.width ≤ 64 := by omega
  rw [State.flag, endShown, State.get_put_fld _ _ _ _ _ hfits' (.inl hbelow), ← State.flag, flag_setFlag_fld _ _ _ _ _ hfits' (.inr hbelow')]
  exact flag_setFlag _ _ _ _ hbusy hfits'

end EndShown

/-! ### The end of a command (R524) -/

/-- SEC_CMD_STATUS shows the end of a command with `r`. -/
def commandShown (s : State) (r : Nat) : State :=
  endShown s Reg.SEC_CMD_STATUS Fld.SEC_CMD_STATUS_busy Fld.SEC_CMD_STATUS_done Fld.SEC_CMD_STATUS_result r

/-- A command has ended with `r`, and no report waits for it. -/
def commandOver (s : State) (r : Nat) : State :=
  ({ commandShown s r with sec := { s.sec with nonces := s.sec.nonces + 1, op := none, turns := s.sec.turns.erase 1 } } : State).setReg Reg.SEC_NONCE
    (BitVec.ofNat 64 (Config.secNonce (s.sec.nonces + 1)))

theorem attestResume_of_none {s : State} (h : s.sec.attest = none) : attestResume s = s := by simp only [attestResume, h]

theorem secEnd_of_no_report {s : State} (h : s.sec.attest = none) (r : Nat) : secEnd s r = commandOver s r :=
  attestResume_of_none h

theorem reg_commandOver_of_shown (s : State) (r : Nat) {a : Nat} (hnonce : a ≠ Reg.SEC_NONCE) : (commandOver s r).reg a = (commandShown s r).reg a :=
  State.reg_setReg_ne _ _ hnonce.symm

theorem get_commandOver_status (s : State) (r : Nat) (f : Fld) :
    (commandOver s r).get Reg.SEC_CMD_STATUS f = (commandShown s r).get Reg.SEC_CMD_STATUS f :=
  congrArg f.get (reg_commandOver_of_shown s r (by decide))

theorem reg_commandOver_ne (s : State) (r : Nat) {a : Nat} (hstatus : a ≠ Reg.SEC_CMD_STATUS) (hnonce : a ≠ Reg.SEC_NONCE) :
    (commandOver s r).reg a = s.reg a := (reg_commandOver_of_shown s r hnonce).trans (reg_endShown_ne s _ r hstatus)

theorem commandEnded_commandOver (s : State) {r : Nat} (hr : r < 16) : s.CommandEnded (commandOver s r) r where
  rest := rfl
  busy := by
    rw [State.flag, get_commandOver_status]
    exact flag_endShown_busy s _ r rfl (by decide) rfl (by decide) (by decide)
  done := by
    rw [State.flag, get_commandOver_status]
    exact flag_endShown_done s _ r rfl (by decide) (by decide)
  result := by
    rw [get_commandOver_status, commandShown, get_endShown_result _ _ _ (by decide)]
    exact Nat.mod_eq_of_lt hr
  nonce := State.reg_setReg ..
  registers := by
    intro a ha
    simp only [List.mem_cons, List.not_mem_nil, or_false, not_or] at ha
    obtain ⟨hstatus, hnonce, -, -⟩ := ha
    exact reg_commandOver_ne s r hstatus hnonce

/-- A command's effect on the flash comes before its end. -/
theorem commandEnded_of_flash {s t u : State} {r : Nat} (hflash : FlashFrame s t) (hended : t.CommandEnded u r) : s.CommandEnded u r where
  rest := by
    conv => lhs; rw [hended.rest, hflash.sec, hflash.rest]
  busy := hended.busy
  done := hended.done
  result := hended.result
  nonce := hflash.sec ▸ hended.nonce
  registers := by
    intro a ha
    have hends := hended.registers a ha
    simp only [List.mem_cons, List.not_mem_nil, or_false, not_or] at ha
    obtain ⟨-, -, hfw, hfuse⟩ := ha
    exact hends.trans (hflash.regs a hfw hfuse)

section Ends
variable {s t : State} {r : Nat} (hnone : s.sec.attest = none)
include hnone

theorem commandEnded_secEnd (hflash : FlashFrame s t) (hr : r < 16) : s.CommandEnded (secEnd t r) r := by
  rw [secEnd_of_no_report (hflash.sec ▸ hnone)]
  exact commandEnded_of_flash hflash (commandEnded_commandOver t hr)

theorem flash_secEnd (hflash : FlashFrame s t) : (secEnd t r).flash = t.flash := by
  rw [secEnd_of_no_report (hflash.sec ▸ hnone)]
  rfl

theorem flag_secEnd_fuse (hflash : FlashFrame s t) (f : Fld) : (secEnd t r).flag Reg.SEC_FUSE f = t.flag Reg.SEC_FUSE f := by
  rw [secEnd_of_no_report (hflash.sec ▸ hnone), State.flag, State.get, reg_commandOver_ne _ _ (by decide) (by decide), State.flag, State.get]

theorem refused_of_secEnd {i : Instr} (hr : r < 16) (hexec : exec i s = .next (secEnd s r)) :
    ∃ u, exec i s = .next u ∧ s.CommandEnded u r ∧ u.flash = s.flash :=
  ⟨_, hexec, commandEnded_secEnd hnone (.refl s) hr, flash_secEnd hnone (.refl s)⟩

end Ends

/-! ### What a command reads (R523) -/

theorem fetched_of_up {s : State} {p : Nat} (h : s.flag (Reg.HIF_PORT p) Fld.HIF_PORT_up = true) (d : Option (List Byte)) : s.fetched p d = d :=
  if_pos h

theorem fetched_of_unread {s : State} {p : Nat} {d : Option (List Byte)} (h : d = none ∨ ¬s.flag (Reg.HIF_PORT p) Fld.HIF_PORT_up = true) :
    s.fetched p d = none := by
  rcases h with rfl | hdown
  · exact ite_self _
  · exact if_neg hdown

/-! ### FW_STORE (R518, R520) -/

/-- A result code fits its field when both outcomes of a check do. -/
theorem ite_lt_of_lt {c : Prop} [Decidable c] {a b m : Nat} (ha : a < m) (hb : b < m) : (if c then a else b) < m := by
  split
  · exact ha
  · exact hb

theorem fwCheck_lt (bs : List Byte) (arb : Nat) : fwCheck bs arb < 16 := by
  unfold fwCheck
  exact ite_lt_of_lt (by decide) (ite_lt_of_lt (by decide) (ite_lt_of_lt (by decide) (by decide)))

/-- Stage 0 is the only one that does not allow FW_STORE. -/
theorem fwStage_iff (s : State) : (!s.stageOne && s.stage != 8) = true ↔ s.stage = 0 := by
  simp only [State.stageOne, Bool.and_eq_true, Bool.not_eq_true', Bool.and_eq_false_iff, decide_eq_false_iff_not, bne_iff_ne, bne_eq_false_iff_eq]
  omega

/-- What an accepted FW_STORE writes: both copies in RECOVERY, else the copy that does not run. -/
def fwStored (s : State) (bs : List Byte) : State :=
  if s.stage = 8 then storeFirmware (storeFirmware s 0 bs) 1 bs else storeFirmware s (1 - s.get Reg.SEC_FW Fld.SEC_FW_booted) bs

section FwStore
variable {s : State} {d : Option (List Byte)} {bs : List Byte}

theorem fwStoreRun_of_stage (h : s.stage = 0) : fwStoreRun s d = secEnd s 6 := if_pos ((fwStage_iff s).mpr h)

theorem fwStoreRun_of_unread (hstage : 1 ≤ s.stage) (h : s.fetched s.secPort d = none) : fwStoreRun s d = secEnd s 1 := by
  rw [fwStoreRun, if_neg (by rw [fwStage_iff]; omega), h]

theorem fwStoreRun_of_bad (hstage : 1 ≤ s.stage) (h : s.fetched s.secPort d = some bs) (hbad : fwCheck bs s.flash.arb ≠ 0) :
    fwStoreRun s d = secEnd s (fwCheck bs s.flash.arb) := by
  rw [fwStoreRun, if_neg (by rw [fwStage_iff]; omega), h]
  dsimp only
  split
  · contradiction
  · rfl

theorem fwStoreRun_of_good (hstage : 1 ≤ s.stage) (h : s.fetched s.secPort d = some bs) (hgood : fwCheck bs s.flash.arb = 0) :
    fwStoreRun s d = secEnd (fwStored s bs) 0 := by
  rw [fwStoreRun, if_neg (by rw [fwStage_iff]; omega), h]
  simp only [hgood, fwStored]
  exact (apply_ite (fun u => secEnd u 0) _ _ _).symm

end FwStore

section FwStored
variable (s : State) (bs : List Byte)

theorem flashFrame_fwStored : FlashFrame s (fwStored s bs) := by
  unfold fwStored
  split
  · exact (flashFrame_storeFirmware s 0 bs).trans (flashFrame_storeFirmware _ 1 bs)
  · exact flashFrame_storeFirmware s _ bs

theorem flash_fwStored : (fwStored s bs).flash = { s.flash with fw := (fwStored s bs).flash.fw } := by
  unfold fwStored
  split
  · rw [flash_storeFirmware, flash_storeFirmware]
  · rw [flash_storeFirmware]

theorem fwCopy_fwStored_of_recovery (h : s.stage = 8) :
    (fwStored s bs).flash.fwCopy 0 = some bs ∧ (fwStored s bs).flash.fwCopy 1 = some bs := by
  rw [fwStored, if_pos h]
  simp [fwCopy_storeFirmware]

theorem fwCopy_fwStored_of_stage (h : s.stage ≠ 8) {k : Nat} (hk : k < 2) :
    (fwStored s bs).flash.fwCopy k = if k = s.get Reg.SEC_FW Fld.SEC_FW_booted then s.flash.fwCopy k else some bs := by
  have hbooted : s.get Reg.SEC_FW Fld.SEC_FW_booted < 2 := Fld.get_lt Fld.SEC_FW_booted _
  rw [fwStored, if_neg h, fwCopy_storeFirmware]
  by_cases hsame : k = s.get Reg.SEC_FW Fld.SEC_FW_booted
  · rw [if_pos hsame, if_neg (by omega)]
  · rw [if_neg hsame, if_pos (by omega)]

end FwStored

/-! ### The checks of a signed command (R524) -/

/-- Check 1: the length, the magic, the operation and the reserved bytes. -/
def CommandForm (bs : List Byte) (n : Nat) : Prop :=
  bs.length = 128 ∧ numAt bs 0 4 = 0x444D4353 ∧ numAt bs 4 1 = n ∧ zeroAt bs 7 1 = true ∧ zeroAt bs 0x1C 4 = true

theorem not_commandForm_iff (bs : List Byte) (n : Nat) :
    (bs.length != 128 || numAt bs 0 4 != 0x444D4353 || numAt bs 4 1 != n || !zeroAt bs 7 1 || !zeroAt bs 0x1C 4) = true ↔ ¬CommandForm bs n := by
  rw [← Bool.not_eq_false, CommandForm]
  simp only [Bool.or_eq_false_iff, bne_eq_false_iff_eq, Bool.not_eq_false', and_assoc]

section SignedCheck
variable {s : State} {bs : List Byte} {n : Nat}

theorem signedCheck_lt : s.signedCheck bs n < 16 := by
  unfold State.signedCheck
  exact ite_lt_of_lt (by decide) (ite_lt_of_lt (by decide) (ite_lt_of_lt (by decide) (ite_lt_of_lt (by decide)
    (ite_lt_of_lt (by decide) (by decide)))))

theorem signedCheck_of_malformed (h : ¬CommandForm bs n) : s.signedCheck bs n = 2 := if_pos ((not_commandForm_iff bs n).mpr h)

variable (hform : CommandForm bs n)
include hform

theorem signedCheck_of_form : s.signedCheck bs n =
    if numAt bs 8 8 ≠ (s.reg Reg.SEC_NONCE).toNat then 4 else if slice bs 0x10 12 ≠ s.serial then 5
      else if s.signerGood bs n = false then 3 else if s.targetGood n (numAt bs 5 1) = false then 5 else 0 := by
  rw [State.signedCheck, if_neg (by rw [not_commandForm_iff]; exact not_not_intro hform)]
  simp only [bne_iff_ne, Bool.not_eq_true']

theorem signedCheck_of_stale (h : numAt bs 8 8 ≠ (s.reg Reg.SEC_NONCE).toNat) : s.signedCheck bs n = 4 := by
  rw [signedCheck_of_form hform, if_pos h]

variable (hfresh : numAt bs 8 8 = (s.reg Reg.SEC_NONCE).toNat)
include hfresh

theorem signedCheck_of_foreign (h : slice bs 0x10 12 ≠ s.serial) : s.signedCheck bs n = 5 := by
  rw [signedCheck_of_form hform, if_neg (not_not_intro hfresh), if_pos h]

variable (hours : slice bs 0x10 12 = s.serial)
include hours

theorem signedCheck_of_unsigned (h : ¬s.signerGood bs n = true) : s.signedCheck bs n = 3 := by
  rw [signedCheck_of_form hform, if_neg (not_not_intro hfresh), if_neg (not_not_intro hours), if_pos (Bool.eq_false_iff.mpr h)]

variable (hsigned : s.signerGood bs n = true)
include hsigned

theorem signedCheck_of_signed :
    s.signedCheck bs n = if s.targetGood n (numAt bs 5 1) = false then 5 else 0 := by
  rw [signedCheck_of_form hform, if_neg (not_not_intro hfresh), if_neg (not_not_intro hours), if_neg (ne_false_of_eq_true hsigned)]

end SignedCheck

section SignedRun
variable {s : State} {d : Option (List Byte)} {bs : List Byte} {n : Nat}

theorem signedRun_of_stage (hn : n ≠ 5) (hstage : s.stageOne = false) : signedRun s n d = secEnd s 6 :=
  if_pos (by rw [hstage, bne_iff_ne.mpr hn]; rfl)

variable (hstage : n = 5 ∨ s.stageOne = true)
include hstage

theorem signedStage_of_allowed : ¬(n != 5 && !s.stageOne) = true := by
  rcases hstage with rfl | hone
  · simp
  · simp [hone]

theorem signedRun_of_unread (h : s.fetched s.secPort d = none) : signedRun s n d = secEnd s 1 := by
  rw [signedRun, if_neg (signedStage_of_allowed hstage), h]

theorem signedRun_of_bad (h : s.fetched s.secPort d = some bs) (hbad : s.signedCheck bs n ≠ 0) :
    signedRun s n d = secEnd s (s.signedCheck bs n) := by
  rw [signedRun, if_neg (signedStage_of_allowed hstage), h]
  dsimp only
  split
  · contradiction
  · rfl

theorem signedRun_of_good (h : s.fetched s.secPort d = some bs) (hgood : s.signedCheck bs n = 0) :
    signedRun s n d = secEnd (signedEffect s bs n) 0 := by
  rw [signedRun, if_neg (signedStage_of_allowed hstage), h]
  simp only [hgood]

end SignedRun

/-! ### The effect of a signed command (R525, Table 21-3) -/

section SignedEffect
variable (s : State) (bs : List Byte) (n : Nat)

theorem flashFrame_signedEffect : FlashFrame s (signedEffect s bs n) := .shown (regsFrame_fuseReport _) (.inr rfl)

theorem flash_signedEffect_enroll : (signedEffect s bs 2).flash =
    { s.flash with keys := mapSet Config.flashKey s.flash.keys (numAt bs 5 1) (some (BitVec.ofNat 256 (numAt bs 0x20 32))) } :=
  (regsFrame_fuseReport _).flash

theorem flash_signedEffect_revoke : (signedEffect s bs 3).flash =
    { s.flash with revoked := s.flash.revoked ||| BitVec.ofNat 16 (2 ^ numAt bs 5 1) } := (regsFrame_fuseReport _).flash

theorem flash_signedEffect_advance : (signedEffect s bs 4).flash = { s.flash with arb := max s.flash.arb (numAt bs 5 1) } :=
  (regsFrame_fuseReport _).flash

theorem flash_signedEffect_kill : (signedEffect s bs 5).flash = { s.flash with debugKill := true } := (regsFrame_fuseReport _).flash

theorem debugKill_signedEffect_kill : (signedEffect s bs 5).flag Reg.SEC_FUSE Fld.SEC_FUSE_debug_kill = true := debugKill_fuseReport _

theorem key_signedEffect_enroll (k : Nat) : (signedEffect s bs 2).flash.key k =
    if numAt bs 5 1 = k then some (BitVec.ofNat 256 (numAt bs 0x20 32)) else s.flash.key k := by
  rw [flash_signedEffect_enroll]
  exact mapGet_mapSet ..

/-- A slot is below 16, so its bit stands in KEY_REVOKE. -/
theorem revoked_signedEffect_revoke {s : State} {bs : List Byte} (htarget : s.targetGood 3 (numAt bs 5 1) = true) (k : Nat) :
    (signedEffect s bs 3).flash.revoked.getLsbD k = (s.flash.revoked.getLsbD k || decide (k = numAt bs 5 1)) := by
  have hslot : numAt bs 5 1 < 16 := of_decide_eq_true (Bool.and_eq_true _ _ ▸ htarget).1
  rw [flash_signedEffect_revoke, BitVec.getLsbD_or, BitVec.getLsbD_ofNat, Nat.testBit_two_pow, ← Bool.decide_and]
  exact congrArg _ (decide_eq_decide.mpr (by omega))

end SignedEffect

/-! ### Reports (R527) -/

/-- SEC_ATTEST_STATUS shows the end of a report with `r`. -/
def reportShown (s : State) (r : Nat) : State :=
  endShown s Reg.SEC_ATTEST_STATUS Fld.SEC_ATTEST_STATUS_busy Fld.SEC_ATTEST_STATUS_done Fld.SEC_ATTEST_STATUS_result r

/-- A report has ended with `r`, and none waits any more. -/
def reportOver (s : State) (r : Nat) : State := { reportShown s r with sec := { s.sec with attest := none } }

/-- The 64 registers of SEC_REPORT take the report `bs`. -/
def reportPlaced (s : State) (bs : List Byte) : State :=
  forEach (List.range 64) s fun s n => s.setReg (Reg.SEC_REPORT n) (BitVec.ofNat 64 (numAt bs (8 * n) 8))

section ReportOver
variable (s : State) (r : Nat)

theorem reg_reportOver (a : Nat) : (reportOver s r).reg a = (reportShown s r).reg a := rfl

theorem get_reportOver (a : Nat) (f : Fld) : (reportOver s r).get a f = (reportShown s r).get a f := congrArg f.get (reg_reportOver s r a)

theorem busy_reportOver : (reportOver s r).flag Reg.SEC_ATTEST_STATUS Fld.SEC_ATTEST_STATUS_busy = false := by
  rw [State.flag, get_reportOver]
  exact flag_endShown_busy s _ r rfl (by decide) rfl (by decide) (by decide)

theorem done_reportOver : (reportOver s r).flag Reg.SEC_ATTEST_STATUS Fld.SEC_ATTEST_STATUS_done = true := by
  rw [State.flag, get_reportOver]
  exact flag_endShown_done s _ r rfl (by decide) (by decide)

theorem result_reportOver (hr : r < 4) : (reportOver s r).get Reg.SEC_ATTEST_STATUS Fld.SEC_ATTEST_STATUS_result = r := by
  rw [get_reportOver, reportShown, get_endShown_result _ _ _ (by decide)]
  exact Nat.mod_eq_of_lt hr

theorem reg_reportOver_ne {a : Nat} (h : a ≠ Reg.SEC_ATTEST_STATUS) : (reportOver s r).reg a = s.reg a :=
  (reg_reportOver s r a).trans (reg_endShown_ne s _ r h)

end ReportOver

section ReportPlaced
variable (s : State) (bs : List Byte)

theorem regsFrame_reportPlaced : RegsFrame (fun a => ∃ n, a = Reg.SEC_REPORT n) s (reportPlaced s bs) :=
  .forEach (fun t n _ => .setReg ⟨n, rfl⟩ t _) s

theorem reg_reportPlaced {n : Nat} (hn : n < 64) : (reportPlaced s bs).reg (Reg.SEC_REPORT n) = BitVec.ofNat 64 (numAt bs (8 * n) 8) := by
  refine forEach_reaches (P := fun t => t.reg (Reg.SEC_REPORT n) = BitVec.ofNat 64 (numAt bs (8 * n) 8)) (x := n) (List.mem_range.mpr hn)
    (fun t => State.reg_setReg ..) (fun t k ht => ?_) s
  by_cases hk : k = n
  · rw [hk]
    exact State.reg_setReg ..
  · have hne : Reg.SEC_REPORT k ≠ Reg.SEC_REPORT n := by
      simp only [Reg.SEC_REPORT]
      omega
    exact (State.reg_setReg_ne _ _ hne).trans ht

theorem get_status_reportPlaced (f : Fld) : (reportPlaced s bs).get Reg.SEC_ATTEST_STATUS f = s.get Reg.SEC_ATTEST_STATUS f := by
  refine congrArg f.get ((regsFrame_reportPlaced s bs).regs _ ?_)
  rintro ⟨n, hn⟩
  simp only [Reg.SEC_ATTEST_STATUS, Reg.SEC_REPORT] at hn
  omega

end ReportPlaced

/-- A report waits behind the operations that have started. -/
def reportWaits (s : State) (inst : Option Nat) : State :=
  { (s.setFlag Reg.SEC_ATTEST_STATUS Fld.SEC_ATTEST_STATUS_busy true).setFlag Reg.SEC_ATTEST_STATUS Fld.SEC_ATTEST_STATUS_done false with
    sec := { s.sec with attest := some inst, turns := s.sec.turns ++ [2] } }

section ReportWaits
variable (s : State) (inst : Option Nat)

theorem busy_reportWaits : (reportWaits s inst).flag Reg.SEC_ATTEST_STATUS Fld.SEC_ATTEST_STATUS_busy = true := calc
  _ = (s.setFlag Reg.SEC_ATTEST_STATUS Fld.SEC_ATTEST_STATUS_busy true).flag Reg.SEC_ATTEST_STATUS Fld.SEC_ATTEST_STATUS_busy :=
    flag_setFlag_fld _ _ Fld.SEC_ATTEST_STATUS_done _ false (by decide) (by decide)
  _ = true := flag_setFlag _ _ _ _ rfl (by decide)

theorem done_reportWaits : (reportWaits s inst).flag Reg.SEC_ATTEST_STATUS Fld.SEC_ATTEST_STATUS_done = false :=
  flag_setFlag (s.setFlag Reg.SEC_ATTEST_STATUS Fld.SEC_ATTEST_STATUS_busy true) _ _ _ rfl (by decide)

theorem reg_reportWaits_ne {a : Nat} (h : a ≠ Reg.SEC_ATTEST_STATUS) : (reportWaits s inst).reg a = s.reg a :=
  (reg_setFlag_ne (s.setFlag Reg.SEC_ATTEST_STATUS Fld.SEC_ATTEST_STATUS_busy true) Fld.SEC_ATTEST_STATUS_done false h).trans (reg_setFlag_ne s _ _ h)

end ReportWaits

section SecAttest
variable {s : State} {i : Option InstId}

theorem attestNow_of_bound (h : ∀ x, i = some x → s.flag (Reg.PRT_INST x.val) Fld.PRT_INST_bound = true) :
    attestNow s (i.map (·.val)) = reportPlaced (reportOver s 0) (s.report (i.map (·.val))) := by
  cases i with
  | none => rfl
  | some x =>
    simp only [attestNow, Option.map_some, h x rfl]
    rfl

theorem attestNow_of_unbound (h : ¬∀ x, i = some x → s.flag (Reg.PRT_INST x.val) Fld.PRT_INST_bound = true) :
    attestNow s (i.map (·.val)) = reportOver s 1 := by
  cases i with
  | none => exact absurd nofun h
  | some x =>
    have hunbound : s.flag (Reg.PRT_INST x.val) Fld.PRT_INST_bound = false :=
      Bool.eq_false_iff.mpr fun hb => h fun y hy => Option.some.inj hy ▸ hb
    simp only [attestNow, Option.map_some, hunbound]
    rfl

theorem exec_secAttest_of_busy (h : s.flag Reg.SEC_ATTEST_STATUS Fld.SEC_ATTEST_STATUS_busy = true) :
    exec (.secAttest i) s = .next (s.setFlag Reg.SEC_ATTEST_STATUS Fld.SEC_ATTEST_STATUS_busy_drop true) :=
  congrArg Host.Outcome.next (if_pos h)

theorem exec_secAttest_of_waits (hfree : s.flag Reg.SEC_ATTEST_STATUS Fld.SEC_ATTEST_STATUS_busy = false) (h : s.sec.turns ≠ []) :
    exec (.secAttest i) s = .next (reportWaits s (i.map (·.val))) := by
  refine congrArg Host.Outcome.next (?_ : attestRequest s (i.map (·.val)) = _)
  rw [attestRequest, if_neg (ne_true_of_eq_false hfree), if_pos (by rw [State.opBusy, Bool.not_eq_true', List.isEmpty_eq_false_iff]; exact h)]
  rfl

theorem exec_secAttest_of_idle (hfree : s.flag Reg.SEC_ATTEST_STATUS Fld.SEC_ATTEST_STATUS_busy = false) (h : s.sec.turns = []) :
    exec (.secAttest i) s = .next (attestNow s (i.map (·.val))) := by
  refine congrArg Host.Outcome.next (?_ : attestRequest s (i.map (·.val)) = _)
  rw [attestRequest, if_neg (ne_true_of_eq_false hfree), if_neg (by rw [State.opBusy, h]; decide)]

end SecAttest

/-! ### The debug unlock (R521, R529) -/

/-- A key seed that the ROM has derived is derived again for the unlocked state. -/
theorem unlockedNow_eq (s : State) : unlockedNow s = { s with sec := { s.sec with
    unlocked := true, keySeed := s.sec.keySeed.map fun _ => ({ s with sec := { s.sec with unlocked := true } } : State).aliasDerived } } := by
  simp only [unlockedNow]
  cases h : s.sec.keySeed with
  | none => simp
  | some k => simp [deriveAlias]

/-- DEBUG_UNLOCK has effect in stage 0 while DEBUG_KILL is unblown, on an answer signed with the vendor's key. -/
def UnlockAllowed (s : State) (a : List Byte) : Prop :=
  s.stage = 0 ∧ s.flash.debugKill = false ∧
    Config.verify Config.vendorDebugKey (Config.debugChallenge s.sec.nonces) (BitVec.ofNat 512 (numAt a 0 64)) = true

theorem unlockAllowed_iff (s : State) (a : List Byte) :
    (decide (s.stage = 0) && !s.flash.debugKill && Config.verify Config.vendorDebugKey (Config.debugChallenge s.sec.nonces)
      (BitVec.ofNat 512 (numAt a 0 64))) = true ↔ UnlockAllowed s a := by
  rw [Bool.and_eq_true, Bool.and_eq_true, decide_eq_true_iff, Bool.not_eq_true', and_assoc, UnlockAllowed]

theorem exec_debugUnlock_of_locked {s : State} {a : List Byte} (h : ¬UnlockAllowed s a) : exec (.debugUnlock a) s = .next s :=
  if_neg (mt (unlockAllowed_iff s a).mp h)

theorem exec_debugUnlock_of_allowed {s : State} {a : List Byte} (h : UnlockAllowed s a) :
    exec (.debugUnlock a) s = .next ((unlockedNow s).setFlag Reg.SEC_FUSE Fld.SEC_FUSE_debug_unlocked true) :=
  if_pos ((unlockAllowed_iff s a).mpr h)

/-! ### The statement -/

theorem exec_fwStore (d : Option (List Byte)) (s : State) : exec (.fwStore d) s = .next (secRun s 1 fun s => fwStoreRun s d) := rfl

theorem exec_signedCommand {n : Nat} {i : Option (List Byte) → Instr}
    (h : n = 2 ∧ i = Instr.keyEnroll ∨ n = 3 ∧ i = Instr.keyRevoke ∨ n = 4 ∧ i = Instr.arbAdvance ∨ n = 5 ∧ i = Instr.debugKill)
    (d : Option (List Byte)) (s : State) : exec (i d) s = .next (secRun s n fun s => signedRun s n d) := by
  rcases h with ⟨rfl, rfl⟩ | ⟨rfl, rfl⟩ | ⟨rfl, rfl⟩ | ⟨rfl, rfl⟩ <;> rfl

/-- Settles O59: a command is dropped, waits or runs (`exec_command_of_blocked` and the lemmas beside it); what runs ends with `secEnd` of the state that
its effect on the flash leaves. The reports, the unlock and Shedy's write have an equation per outcome. -/
theorem securityCommandsAndReports : Obligations.SecurityCommandsAndReports := by
  unfold Obligations.SecurityCommandsAndReports
  refine ⟨?commands, ?reports, ?unlock, ?firmware⟩
  case commands =>
    intro s hnone
    refine ⟨?fwQueue, ?fwStore, ?signed⟩
    case fwQueue =>
      exact fun d => ⟨exec_command_of_blocked (exec_fwStore d s), exec_command_of_waits (exec_fwStore d s)⟩
    case fwStore =>
      intro hturn hfree
      have hexec (d : Option (List Byte)) : exec (.fwStore d) s = .next (fwStoreRun s d) := exec_command_of_turn (exec_fwStore d s) hfree hturn
      refine ⟨fun hstage d => ?early, fun hstage => ⟨fun d hunread => ?unread, fun hup bs hbad => ?bad, fun hup bs hgood => ?good⟩⟩
      case early => exact refused_of_secEnd hnone (by decide) ((hexec d).trans (congrArg _ (fwStoreRun_of_stage hstage)))
      case unread =>
        exact refused_of_secEnd hnone (by decide) ((hexec d).trans (congrArg _ (fwStoreRun_of_unread hstage (fetched_of_unread hunread))))
      case bad =>
        exact refused_of_secEnd hnone (fwCheck_lt _ _) ((hexec _).trans (congrArg _ (fwStoreRun_of_bad hstage (fetched_of_up hup _) hbad)))
      case good =>
        have hframe := flashFrame_fwStored s bs
        have hflash := flash_secEnd (r := 0) hnone hframe
        refine ⟨_, (hexec _).trans (congrArg _ (fwStoreRun_of_good hstage (fetched_of_up hup _) hgood)),
          commandEnded_secEnd hnone hframe (by decide), ?_⟩
        rw [hflash]
        exact ⟨flash_fwStored s bs, fwCopy_fwStored_of_recovery s bs, fun hrec k hk => fwCopy_fwStored_of_stage s bs hrec hk⟩
    case signed =>
      intro n i hkind
      have hrun (d : Option (List Byte)) := exec_signedCommand hkind d s
      refine ⟨fun d => ⟨exec_command_of_blocked (hrun d), exec_command_of_waits (hrun d)⟩, fun hturn hfree => ?_⟩
      have hexec (d : Option (List Byte)) : exec (i d) s = .next (signedRun s n d) := exec_command_of_turn (hrun d) hfree hturn
      refine ⟨fun hn hstage d => ?early, fun hstage => ⟨fun d hunread => ?unread, fun hup bs => ?_⟩⟩
      case early => exact refused_of_secEnd hnone (by decide) ((hexec d).trans (congrArg _ (signedRun_of_stage hn hstage)))
      case unread =>
        exact refused_of_secEnd hnone (by decide) ((hexec d).trans (congrArg _ (signedRun_of_unread hstage (fetched_of_unread hunread))))
      have hrefused {r : Nat} (hcheck : s.signedCheck bs n = r) (hr : r ≠ 0) :
          ∃ t, exec (i (some bs)) s = .next t ∧ s.CommandEnded t r ∧ t.flash = s.flash := by
        subst hcheck
        exact refused_of_secEnd hnone signedCheck_lt ((hexec _).trans (congrArg _ (signedRun_of_bad hstage (fetched_of_up hup _) hr)))
      refine ⟨fun hform => hrefused (signedCheck_of_malformed hform) (by decide),
        fun hform hfresh => hrefused (signedCheck_of_stale hform hfresh) (by decide),
        fun hform hfresh hours => hrefused (signedCheck_of_foreign hform hfresh hours) (by decide),
        fun hform hfresh hours hsigned => hrefused (signedCheck_of_unsigned hform hfresh hours hsigned) (by decide),
        fun hform hfresh hours hsigned htarget => hrefused ((signedCheck_of_signed hform hfresh hours hsigned).trans (if_pos htarget)) (by decide),
        fun hform hfresh hours hsigned htarget => ?good⟩
      case good =>
        have hgood : s.signedCheck bs n = 0 :=
          (signedCheck_of_signed hform hfresh hours hsigned).trans (if_neg (ne_false_of_eq_true htarget))
        have hframe := flashFrame_signedEffect s bs n
        have hflash := flash_secEnd (r := 0) hnone hframe
        refine ⟨_, (hexec _).trans (congrArg _ (signedRun_of_good hstage (fetched_of_up hup _) hgood)),
          commandEnded_secEnd hnone hframe (by decide), ?_⟩
        rw [hflash]
        refine ⟨?enroll, ?revoke, ?advance, ?kill⟩
        case enroll =>
          rintro rfl
          refine ⟨by rw [flash_signedEffect_enroll], (key_signedEffect_enroll ..).trans (if_pos rfl), fun k hk => ?_⟩
          exact (key_signedEffect_enroll ..).trans (if_neg hk.symm)
        case revoke =>
          rintro rfl
          exact ⟨by rw [flash_signedEffect_revoke], revoked_signedEffect_revoke htarget⟩
        case advance =>
          rintro rfl
          exact flash_signedEffect_advance s bs
        case kill =>
          rintro rfl
          refine ⟨flash_signedEffect_kill s bs, ?_⟩
          rw [flag_secEnd_fuse hnone hframe]
          exact debugKill_signedEffect_kill s bs
  case reports =>
    intro i s
    refine ⟨exec_secAttest_of_busy, fun hfree hstarted => ?waits, fun hfree hidle => ?idle⟩
    case waits =>
      exact ⟨_, exec_secAttest_of_waits hfree hstarted, rfl, busy_reportWaits .., done_reportWaits .., fun x hx => reg_reportWaits_ne _ _ hx⟩
    case idle =>
      refine ⟨_, exec_secAttest_of_idle hfree hidle, ?_⟩
      by_cases hbound : ∀ x, i = some x → s.flag (Reg.PRT_INST x.val) Fld.PRT_INST_bound = true
      case pos =>
        rw [attestNow_of_bound hbound]
        refine ⟨?rest, ?busy, ?done, fun hno => absurd hbound hno, fun _ => ⟨?result, fun n hn => reg_reportPlaced _ _ hn⟩⟩
        case rest => exact (regsFrame_reportPlaced _ _).rest
        case busy => rw [State.flag, get_status_reportPlaced, ← State.flag, busy_reportOver]
        case done => rw [State.flag, get_status_reportPlaced, ← State.flag, done_reportOver]
        case result => rw [get_status_reportPlaced, result_reportOver s 0 (by decide)]
      case neg =>
        rw [attestNow_of_unbound hbound]
        exact ⟨rfl, busy_reportOver s 1, done_reportOver s 1, fun _ => ⟨result_reportOver s 1 (by decide), fun x hx => reg_reportOver_ne s 1 hx⟩,
          fun hyes => absurd hyes hbound⟩
  case unlock =>
    intro a s
    refine ⟨exec_debugUnlock_of_locked, fun hok => ⟨_, exec_debugUnlock_of_allowed hok, ?_⟩⟩
    rw [unlockedNow_eq]
    exact ⟨rfl, rfl, flag_setFlag _ _ _ _ rfl (by decide), fun x hx => reg_setFlag_ne _ _ _ hx⟩
  case firmware =>
    intro k d s
    refine ⟨_, rfl, ?rest, ?stored, ?other, fun x hx => reg_storeFirmware_ne _ _ _ hx⟩
    case rest => exact (flashFrame_storeFirmware s k.val d).rest.trans (by rw [flash_storeFirmware])
    case stored => rw [fwCopy_storeFirmware, if_pos rfl]
    case other =>
      intro j hj
      rw [fwCopy_storeFirmware, if_neg hj.symm]

end Sys2Proof.Proofs
end
